-- ==== Sys2Proof/Word.lean ====
section
/-! DEFINITION. Word.lean: the word types of the DKC-9640 and their plainest arithmetic. -/

namespace Sys2Proof

/-- An octet. -/
abbrev Byte := BitVec 8
/-- A 16-bit field. -/
abbrev W16 := BitVec 16
/-- A 32-bit register or field. -/
abbrev W32 := BitVec 32
/-- A 64-bit field: Almanac times, tickets, point values. -/
abbrev W64 := BitVec 64
/-- A run of octets in address order (or, for a frame, in wire order). -/
abbrev Bytes := List Byte
/-- A table by natural-number key. The operations keep the keys strictly rising. -/
abbrev Table (α : Type) := List (Nat × α)

end Sys2Proof
end

