-- ==== Sys2Proof/Syntax.lean ====
section
/-! DEFINITION. Syntax.lean: the commands of the domain, one constructor per row of spec/opcode_table.json, with what arrives
from outside as operands. Every command of a module names the slot it happens on. -/

namespace Sys2Proof

/-- The carrier slot of a module (R36). -/
inductive Slot where
  | a | b
  deriving DecidableEq, Repr

/-- The value types of points and of Lumen code (R95, R158). -/
inductive LType where
  | bool | int32 | int64 | real32 | real64 | time64
  deriving DecidableEq, Repr

/-- A Quondi command as its handler sees it: the fields of R68 that reach execution, and the request data. -/
structure Cmd where
  /-- The QP it was issued on (R57). -/
  qp : Nat
  ticket : W64 := 0
  /-- [2] NO_IRQ, [1] WANT_ACC, [0] WANT_RCV. -/
  flags : Byte := 0
  /-- Partition, or 0xFFFF. -/
  target : W16 := 0xFFFF
  /-- RSP_LEN. -/
  rspLen : Nat := 0
  /-- The 24 bytes of PARAM. -/
  param : Bytes
  /-- The request data. -/
  req : Bytes := []
  deriving DecidableEq, Repr

/-- A descriptor as fetched from a submission ring (R68). -/
structure Desc where
  ticket : W64
  code : W16
  flags : Byte
  dver : Byte
  target : W16
  reqAddr : W64
  reqLen : Nat
  rspLen : Nat
  rspAddr : W64
  param : Bytes
  deriving DecidableEq, Repr

/-- What the module reads from the anchor page (R60). -/
structure AnchorPage where
  sqBase : W64
  cqBase : W64
  sqSize : Nat
  cqSize : Nat
  vec : Nat
  hostTag : W64
  deriving DecidableEq, Repr

/-- The verdict on the FCS of a received frame (R202): good, bad, or equal to the computed one inverted. -/
inductive Fcs where
  | good | bad | stomped
  deriving DecidableEq, Repr

/-- An Ethernet frame on a ring: its octets from the destination MAC to the last octet before the FCS (R213). -/
structure Frame where
  bytes : Bytes
  fcs : Fcs := .good
  deriving DecidableEq, Repr

/-- A CAN frame (R249, R251). -/
structure CanFrame where
  id : Nat
  data : Bytes
  /-- An extended-format or remote frame, which is FOREIGN. -/
  foreign : Bool := false
  deriving DecidableEq, Repr

/-- How a CAN transmission ended (R256). -/
inductive CanResult where
  | ok | arbLost | bitError | stuffForm | ackError | errorFrame | notSent
  deriving DecidableEq, Repr

/-- A witness message (R275) after its TYPE; `good` says that CRC and version are right. -/
structure WMsg where
  /-- Module messages: [7] SLOT, [6] SYNC_UP, [5] IN_STEP, [4] FORCE, [3:0] state. Witness: [7] holder, [6] valid. -/
  flags : Byte
  counter : W16
  domain : W32
  leadEpoch : W32
  agen : W32
  good : Bool := true
  deriving DecidableEq, Repr

/-- An element of the input-agreement summary (R131): which source, its ordering key and the CRC of its content. -/
structure SumEntry where
  /-- A drop ID, or 0x1_0000 + import ID. -/
  source : Nat
  key : W32
  crc : W32
  deriving DecidableEq, Repr

/-- Frame content for agreement (R131). -/
structure Content where
  source : Nat
  key : W32
  time : W64
  data : Bytes
  deriving DecidableEq, Repr

/-- One entry of a write set (R133). -/
structure WEnt where
  handle : W32
  value : W64
  quality : W16
  deriving DecidableEq, Repr

/-- A Quondi TYPE 1 datagram (R86). -/
structure UdpDgram where
  qp : Nat
  peer : Bytes
  port : Nat
  dseq : W32
  leadEpoch : W32
  crcGood : Bool
  entries : List (Desc × Bytes)
  deriving DecidableEq, Repr

/-- A publication datagram (R119). -/
structure PubDgram where
  source : Bytes
  crcGood : Bool
  stale : Bool
  domain : W32
  pubId : Nat
  frag : Nat
  frags : Nat
  seq : W32
  time : W64
  first : Nat
  /-- Entries: value, quality, TYPE code. -/
  entries : List (W64 × W16 × Nat)
  deriving DecidableEq, Repr

/-- A record or event of the Chronicle before it has its SEQ (R312). -/
structure ChronEvent where
  code : Nat
  time : W64
  source : W16
  partition : W16
  severity : Nat
  data : Bytes
  deriving DecidableEq, Repr

/-- A Chronicle record (R312). -/
structure ChronRec where
  seq : Nat
  ev : ChronEvent
  localFlag : Bool
  imported : Bool
  leadEpoch : W32
  origSeq : W32
  deriving DecidableEq, Repr

/-- What a resync message carries (R287): the item to overwrite from the lead's replica. -/
inductive ResyncItem where
  | glintBanks | tasks | partitions | segments | points | tickets | journal | retained | pairState
  | marked
  deriving DecidableEq, Repr

/-- The region of an uncorrectable DRAM error (R17). -/
inductive DramRegion where
  | pointStore | programBank
  | imageSlot (slot : Nat)
  | working
  deriving DecidableEq, Repr

/-- A PTP message that the servo can use (R303): what it says of the reference. -/
structure PtpMsg where
  port : Nat
  /-- An Announce of a better master: the port goes to SLAVE with this grandmaster. -/
  announce : Option W64 := none
  /-- A measured offset from the reference and the mean path delay, in ns. -/
  offset : Option (Int × Nat) := none
  deriving DecidableEq, Repr

/-- A list entry of a relay (R382). -/
structure RelayHop where
  addr : Bytes
  port : Nat
  deriving DecidableEq, Repr

/-- A relay OFFER (R383). -/
structure RelayOffer where
  tid : W32
  cls : Nat
  regionLen : Nat
  headerFirst : Bool
  crcs : List W32
  hops : List RelayHop
  index : Nat
  domain : W32
  deriving DecidableEq, Repr

/-- The commands. The comment at a constructor names the rule of its row where the constructor's name does not show it. -/
inductive Instr where
  -- power, reset, boot registers, image aperture (02, 15)
  | powerUpStart (sl : Slot)
  | powerGood (sl : Slot)
  | loaderReady (sl : Slot)
  | mreset (sl : Slot)
  | perst (sl : Slot)
  | lanternWatchdogExpiry (sl : Slot)
  /-- 0 Glint engine, 1 safety monitor, 2 Lantern lockstep (R29). -/
  | lockstepFault (sl : Slot) (unit : Nat)
  /-- A 32-bit write, or a narrower one (R35), to a BAR0 register without a row of its own. -/
  | registerWrite (sl : Slot) (offset : Nat) (value : W32) (narrow : Bool)
  /-- BOOT_CTL written with GO = 1. -/
  | bootGo (sl : Slot) (hdrFirst relayEn : Bool)
  | relayEnWrite (sl : Slot) (relayEn : Bool)
  | bootReset (sl : Slot) (key : W32)
  /-- IMG_CTL with OPEN, and with PULL in the same write if set. -/
  | imgOpen (sl : Slot) (cls : BitVec 2) (pull : Bool)
  | imgPull (sl : Slot) (cls : BitVec 2)
  | imgAbort (sl : Slot) (cls : BitVec 2)
  | imgClose (sl : Slot) (cls : BitVec 2)
  | apertureWrite (sl : Slot) (offset : Nat) (data : Bytes)
  /-- The data of the pull read at an offset, or none for an error status. -/
  | pullReadCompletion (sl : Slot) (offset : Nat) (data : Option Bytes)
  | pullReadTimeout (sl : Slot) (offset : Nat)
  | headerFirstCheck (sl : Slot)
  | partnerRelayStart (sl : Slot)
  | syncRelayBlockReceive (sl : Slot) (cls : Nat) (block : Nat) (data : Bytes) (crc : W32)
  | verifyDone (sl : Slot) (eccError : Bool)
  | selftestDone (sl : Slot) (failed : Option Nat)
  | patrolPassEnd (sl : Slot) (seconds : Nat)
  | dramUncorrectable (sl : Slot) (region : DramRegion) (addr : Nat) (task : Option Nat)
  | mramUncorrectable (sl : Slot) (addr : Nat) (entry : Option (Nat × W64))
  -- the host interface (03)
  | attach (sl : Slot) (page : Option AnchorPage)
  | detach (sl : Slot)
  | doorbellSqTail (sl : Slot) (qp : Nat) (value : W16)
  | doorbellCqHead (sl : Slot) (qp : Nat) (value : W16)
  | anchorHeartbeat (sl : Slot)
  /-- The descriptor read, and its request data (none: the read ended with UR or CA). -/
  | descriptorFetch (sl : Slot) (qp : Nat) (d : Desc) (req : Option Bytes)
  | requestDmaTimeout (sl : Slot) (qp : Nat) (d : Desc)
  | completionPost (sl : Slot) (qp : Nat)
  | coalesceAgeExpiry (sl : Slot) (qp : Nat)
  | dupFinalReport (sl : Slot)
  | udpDatagramReceive (sl : Slot) (dg : UdpDgram)
  | udpSequenceStatusReceive (sl : Slot) (qp : Nat) (peer : Bytes) (port : Nat) (next : W32)
  | udpResendTimer (sl : Slot) (qp : Nat)
  -- Quondi commands at execution (03 R88)
  | sessionOpen (sl : Slot) (c : Cmd)
  | sessionClose (sl : Slot) (c : Cmd)
  | sessionStatus (sl : Slot) (c : Cmd)
  | sessionTickets (sl : Slot) (c : Cmd)
  | sessionReticket (sl : Slot) (c : Cmd)
  | sessionNop (sl : Slot) (c : Cmd)
  | sessionCoalesce (sl : Slot) (c : Cmd)
  | pointRead (sl : Slot) (c : Cmd)
  | pointWrite (sl : Slot) (c : Cmd)
  | pointAlloc (sl : Slot) (c : Cmd)
  | pointFree (sl : Slot) (c : Cmd)
  | pointDescribe (sl : Slot) (c : Cmd)
  | pointSubscribe (sl : Slot) (c : Cmd)
  | pointUnsubscribe (sl : Slot) (c : Cmd)
  | pointForce (sl : Slot) (c : Cmd)
  | pointUnforce (sl : Slot) (c : Cmd)
  | pointRetain (sl : Slot) (c : Cmd)
  | pointPublish (sl : Slot) (c : Cmd)
  | pointImport (sl : Slot) (c : Cmd)
  | taskDefine (sl : Slot) (c : Cmd)
  | taskLoad (sl : Slot) (c : Cmd)
  | taskSwap (sl : Slot) (c : Cmd)
  | taskStart (sl : Slot) (c : Cmd)
  | taskStop (sl : Slot) (c : Cmd)
  | taskDelete (sl : Slot) (c : Cmd)
  | taskStatus (sl : Slot) (c : Cmd)
  | taskIcal (sl : Slot) (c : Cmd)
  | glintLoad (sl : Slot) (c : Cmd)
  | glintSwap (sl : Slot) (c : Cmd)
  | glintStatus (sl : Slot) (c : Cmd)
  | segmentConfig (sl : Slot) (c : Cmd)
  | segmentBind (sl : Slot) (c : Cmd)
  | segmentSchedule (sl : Slot) (c : Cmd)
  | segmentStatus (sl : Slot) (c : Cmd)
  | dropAdd (sl : Slot) (c : Cmd)
  | dropRemove (sl : Slot) (c : Cmd)
  | dropSend (sl : Slot) (c : Cmd)
  | dropStatus (sl : Slot) (c : Cmd)
  | pairStatus (sl : Slot) (c : Cmd)
  | pairRun (sl : Slot) (c : Cmd)
  | pairWithdraw (sl : Slot) (c : Cmd)
  | pairEquinox (sl : Slot) (c : Cmd)
  | pairResync (sl : Slot) (c : Cmd)
  | pairWitness (sl : Slot) (c : Cmd)
  | timeStatus (sl : Slot) (c : Cmd)
  | timeConfig (sl : Slot) (c : Cmd)
  | timeStep (sl : Slot) (c : Cmd)
  | timeRate (sl : Slot) (c : Cmd)
  | timePps (sl : Slot) (c : Cmd)
  | chronicleBounds (sl : Slot) (c : Cmd)
  | chronicleRead (sl : Slot) (c : Cmd)
  | chronicleLimit (sl : Slot) (c : Cmd)
  | chronicleNote (sl : Slot) (c : Cmd)
  | localioConfig (sl : Slot) (c : Cmd)
  | localioStatus (sl : Slot) (c : Cmd)
  | localioTrim (sl : Slot) (c : Cmd)
  | localioTrimLock (sl : Slot) (c : Cmd)
  | localioVigil (sl : Slot) (c : Cmd)
  | haloConnect (sl : Slot) (c : Cmd)
  | haloRelease (sl : Slot) (c : Cmd)
  | haloParamLoad (sl : Slot) (c : Cmd)
  | haloParamConfirm (sl : Slot) (c : Cmd)
  | haloChange (sl : Slot) (c : Cmd)
  | haloAck (sl : Slot) (c : Cmd)
  | haloStatus (sl : Slot) (c : Cmd)
  | imageStatus (sl : Slot) (c : Cmd)
  | imageActivate (sl : Slot) (c : Cmd)
  | imageRevert (sl : Slot) (c : Cmd)
  | imageDiscard (sl : Slot) (c : Cmd)
  | imageRelay (sl : Slot) (c : Cmd)
  | maintTake (sl : Slot) (c : Cmd)
  | maintGive (sl : Slot) (c : Cmd)
  | maintStatus (sl : Slot) (c : Cmd)
  | partitionCreate (sl : Slot) (c : Cmd)
  | partitionDelete (sl : Slot) (c : Cmd)
  | partitionCaps (sl : Slot) (c : Cmd)
  | partitionRunlock (sl : Slot) (c : Cmd)
  | guardRegions (sl : Slot) (c : Cmd)
  | guardViolation (sl : Slot) (c : Cmd)
  | guardClear (sl : Slot) (c : Cmd)
  | diagCounters (sl : Slot) (c : Cmd)
  | diagThermal (sl : Slot) (c : Cmd)
  | diagMemory (sl : Slot) (c : Cmd)
  | diagLanes (sl : Slot) (c : Cmd)
  | diagSelftest (sl : Slot) (c : Cmd)
  -- the arbiter (04 R116): the requests present at each opportunity of the window; none is a refresh
  | arbiterWindowEnd (sl : Slot) (requests : List (Option (List Nat)))
  -- the control cycle (05)
  | step (sl : Slot) (instant : W64)
  | syncSummaryReceive (sl : Slot) (instant : W64) (entries : List SumEntry)
  | syncContentReceive (sl : Slot) (instant : W64) (items : List Content)
  | syncSealReceive (sl : Slot) (task : Nat) (start : W64) (sealTime : W64) (digest : W32)
  | syncCheckpointReceive (sl : Slot) (task : Nat) (instant : W64) (ws : List WEnt)
  | syncWriteSetReceive (sl : Slot) (task : Nat) (instant : W64) (ws : List WEnt)
  | syncJournalEntryReceive (sl : Slot) (qp : Nat) (d : Desc) (req : Bytes) (assigned : Option W64)
  | syncJournalAckReceive (sl : Slot) (qp : Nat) (ticket : W64)
  | syncFinalReportReceive (sl : Slot) (finals : List (Nat × W64))
  | syncChronicleMirrorReceive (sl : Slot) (rec : ChronRec)
  | syncShadowEventReceive (sl : Slot) (ev : ChronEvent)
  | syncIcalAnnounceReceive (sl : Slot) (task : Nat) (candidate : W64)
  | syncOnlineAnnounceReceive (sl : Slot) (drop : Nat) (version : Nat) (online : W64) (s0 : W32) (mac : Nat)
  | syncRelayFrameReceive (sl : Slot) (segment : Nat) (f : Frame)
  | syncAcyAckRelayReceive (sl : Slot) (drop : Nat) (seq : W32)
  | syncTrimReportReceive (sl : Slot) (channel : Nat) (average : Int) (spread : Nat)
  | syncResyncDataReceive (sl : Slot) (item : ResyncItem)
  | syncStepAnnounceReceive (sl : Slot) (instant : W64) (delta : W64)
  | syncTimeReceive (sl : Slot) (time : W64) (adj : Int)
  | partnerTimeSend (sl : Slot)
  | retainedApply (sl : Slot) (task : Nat)
  /-- The consumer index is read from entry 0 of the ring (R123). -/
  | subscriptionReportDeferred (sl : Slot) (sub : Nat) (handle : W32) (consumer : Nat)
  | importDatagramReceive (sl : Slot) (dg : PubDgram)
  | clusterMismatch (sl : Slot) (cluster : Nat)
  | clusterResetDone (sl : Slot) (cluster : Nat)
  | icalWindowClose (sl : Slot) (task : Nat)
  | icalEdge (sl : Slot) (falling : Bool) (time : W64)
  -- Lumen instructions on the unit (2 × cluster + core) they execute on (06)
  | lNop (sl : Slot) (u : Nat)
  | pushi (sl : Slot) (u : Nat) (imm : BitVec 24)
  | pushb (sl : Slot) (u : Nat) (imm : Bool)
  | pushc (sl : Slot) (u : Nat) (t : LType) (k : Nat)
  | ldp (sl : Slot) (u : Nat) (t : LType) (idx : Nat)
  | stp (sl : Slot) (u : Nat) (t : LType) (idx : Nat)
  | ldq (sl : Slot) (u : Nat) (t : LType) (idx : Nat)
  | ldtm (sl : Slot) (u : Nat) (t : LType) (idx : Nat)
  | ldx (sl : Slot) (u : Nat) (t : LType) (base count : Nat)
  | stx (sl : Slot) (u : Nat) (t : LType) (base count : Nat)
  | ldl (sl : Slot) (u : Nat) (l : Nat)
  | stl (sl : Slot) (u : Nat) (l : Nat)
  | dup (sl : Slot) (u : Nat)
  | lDrop (sl : Slot) (u : Nat)
  | lSwap (sl : Slot) (u : Nat)
  | over (sl : Slot) (u : Nat)
  | rot (sl : Slot) (u : Nat)
  | add (sl : Slot) (u : Nat) (t : LType)
  | sub (sl : Slot) (u : Nat) (t : LType)
  | mul (sl : Slot) (u : Nat) (t : LType)
  | div (sl : Slot) (u : Nat) (t : LType)
  | mod (sl : Slot) (u : Nat) (t : LType)
  | neg (sl : Slot) (u : Nat) (t : LType)
  | abs (sl : Slot) (u : Nat) (t : LType)
  | min (sl : Slot) (u : Nat) (t : LType)
  | max (sl : Slot) (u : Nat) (t : LType)
  | eq (sl : Slot) (u : Nat) (t : LType)
  | ne (sl : Slot) (u : Nat) (t : LType)
  | lt (sl : Slot) (u : Nat) (t : LType)
  | le (sl : Slot) (u : Nat) (t : LType)
  | gt (sl : Slot) (u : Nat) (t : LType)
  | ge (sl : Slot) (u : Nat) (t : LType)
  | and (sl : Slot) (u : Nat)
  | or (sl : Slot) (u : Nat)
  | xor (sl : Slot) (u : Nat)
  | not (sl : Slot) (u : Nat)
  | band (sl : Slot) (u : Nat) (t : LType)
  | bor (sl : Slot) (u : Nat) (t : LType)
  | bxor (sl : Slot) (u : Nat) (t : LType)
  | bnot (sl : Slot) (u : Nat) (t : LType)
  | shl (sl : Slot) (u : Nat) (t : LType)
  | shr (sl : Slot) (u : Nat) (t : LType)
  | shru (sl : Slot) (u : Nat) (t : LType)
  | cvt (sl : Slot) (u : Nat) (target source : LType)
  | sqrt (sl : Slot) (u : Nat) (t : LType)
  | exp (sl : Slot) (u : Nat) (t : LType)
  | ln (sl : Slot) (u : Nat) (t : LType)
  | sin (sl : Slot) (u : Nat) (t : LType)
  | cos (sl : Slot) (u : Nat) (t : LType)
  | atan2 (sl : Slot) (u : Nat) (t : LType)
  | qget (sl : Slot) (u : Nat)
  | qset (sl : Slot) (u : Nat)
  | endCycle (sl : Slot) (u : Nat)
  | br (sl : Slot) (u : Nat) (off : BitVec 24)
  | brt (sl : Slot) (u : Nat) (off : BitVec 24)
  | brf (sl : Slot) (u : Nat) (off : BitVec 24)
  | call (sl : Slot) (u : Nat) (block : Nat)
  | ret (sl : Slot) (u : Nat)
  | now (sl : Slot) (u : Nat)
  | dt (sl : Slot) (u : Nat)
  | first (sl : Slot) (u : Nat)
  | exc (sl : Slot) (u : Nat)
  | pid (sl : Slot) (u : Nat) (base : Nat)
  | ramp (sl : Slot) (u : Nat) (base : Nat)
  | leadlag (sl : Slot) (u : Nat) (base : Nat)
  | total (sl : Slot) (u : Nat) (base : Nat)
  /-- VARIANT 0 TON, 1 TOF, 2 TP. -/
  | timer (sl : Slot) (u : Nat) (variant base : Nat)
  /-- N inputs. -/
  | select (sl : Slot) (u : Nat) (n base : Nat)
  | limit (sl : Slot) (u : Nat) (t : LType)
  /-- VARIANT 0 HOLD, 1 ZONE. -/
  | deadband (sl : Slot) (u : Nat) (variant base : Nat)
  -- Glint bit program (07 R192), one Glint cycle each
  | glintLd (sl : Slot) (addr : BitVec 12)
  | glintLdn (sl : Slot) (addr : BitVec 12)
  | glintAnd (sl : Slot) (addr : BitVec 12)
  | glintAndn (sl : Slot) (addr : BitVec 12)
  | glintOr (sl : Slot) (addr : BitVec 12)
  | glintOrn (sl : Slot) (addr : BitVec 12)
  | glintXor (sl : Slot) (addr : BitVec 12)
  | glintSt (sl : Slot) (addr : BitVec 12)
  | glintStn (sl : Slot) (addr : BitVec 12)
  | glintSet (sl : Slot) (addr : BitVec 12)
  | glintRst (sl : Slot) (addr : BitVec 12)
  | glintAndp (sl : Slot) (addr : BitVec 12)
  | glintOrp (sl : Slot) (addr : BitVec 12)
  | glintPop (sl : Slot)
  | glintTon (sl : Slot) (n : Nat)
  | glintTof (sl : Slot) (n : Nat)
  | glintTp (sl : Slot) (n : Nat)
  | glintCtu (sl : Slot) (n : Nat)
  | glintCtd (sl : Slot) (n : Nat)
  | glintCrst (sl : Slot) (n : Nat)
  | glintCld (sl : Slot) (n : Nat)
  | glintSkipf (sl : Slot) (n : Nat)
  | glintSkipt (sl : Slot) (n : Nat)
  | glintNop (sl : Slot)
  | glintSweepEnd (sl : Slot)
  | glintTimerExpiry (sl : Slot) (n : Nat)
  | glintBankSwitch (sl : Slot)
  | gleamValue (sl : Slot) (channel : Nat) (value : BitVec 10)
  -- rings (07, 08)
  | ringFrameForward (sl : Slot) (segment : Nat) (f : Frame)
  | spliceFieldTimeout (sl : Slot) (entry : Nat)
  | heldFrameRelease (sl : Slot) (segment : Nat)
  | inFrameReceive (sl : Slot) (segment : Nat) (f : Frame)
  | acyAckReceive (sl : Slot) (segment : Nat) (f : Frame)
  | syncFrameReceive (sl : Slot) (segment : Nat) (f : Frame)
  | helloReceive (sl : Slot) (segment : Nat) (f : Frame)
  | assignRetransmit (sl : Slot) (drop : Nat)
  | acyRetransmit (sl : Slot) (drop : Nat)
  | acyDeliveryTimeout (sl : Slot) (drop : Nat) (seq : W32)
  | checkFrameLaunch (sl : Slot)
  | checkFrameReturn (sl : Slot) (segment : Nat) (f : Frame)
  | ringClosedTimeout (sl : Slot) (segment : Nat)
  | ringLaneLockLoss (sl : Slot) (lane : Nat)
  | ringPtpSyncSend (sl : Slot)
  | pdelayMeasure (sl : Slot) (lane : Nat) (delay : Nat)
  | dropFrameForward (id : Nat) (up : Bool) (f : Frame) (ptp : Option Nat)
  | dropOutAccept (id : Nat) (f : Frame) (now : W64)
  | dropApplyTime (id : Nat)
  | dropOutputWatchdogExpiry (id : Nat)
  | dropOutAbsenceTimeout (id : Nat)
  | dropAcyReceive (id : Nat) (seq : W32) (cls : W16) (payload : Bytes)
  | dropAssignReceive (id : Nat) (f : Frame)
  | dropHelloTimer (id : Nat)
  | dropSyncEvent (id : Nat) (code : W16) (time : W64)
  | dropLinkLoss (id : Nat) (up : Bool)
  | dropLinkStable (id : Nat) (up : Bool)
  -- buses and lines (09)
  | busSlotStart (sl : Slot) (bus : Nat)
  | canTxResult (sl : Slot) (bus : Nat) (r : CanResult)
  | canInReceive (sl : Slot) (bus : Nat) (f : CanFrame)
  | canPartnerOutReceive (sl : Slot) (bus : Nat) (f : CanFrame)
  | canHelloReceive (sl : Slot) (bus : Nat) (f : CanFrame)
  | canSyncReceive (sl : Slot) (bus : Nat) (f : CanFrame)
  | busRowEnd (sl : Slot) (bus : Nat) (cut : Bool)
  | busOffRecovery (sl : Slot) (bus : Nat)
  | lineSlotStart (sl : Slot) (line : Nat)
  | lineTakeover (sl : Slot) (line : Nat)
  /-- The characters received; `good` is false after a gap, parity or stop-bit error. -/
  | lineReplyReceive (sl : Slot) (line : Nat) (bytes : Bytes) (good : Bool)
  | lineReplyTimeout (sl : Slot) (line : Nat)
  -- the pair and the witness (10)
  | syncLaneDown (sl : Slot) (lane : Nat)
  | syncLaneUp (sl : Slot) (lane : Nat)
  | renewTimer (sl : Slot)
  | presentTimer (sl : Slot)
  | claimTimer (sl : Slot)
  | leaseCheck (sl : Slot)
  | claimReplyTimeout (sl : Slot)
  | readyClaimTimer (sl : Slot)
  | grant (sl : Slot) (msg : WMsg)
  | renewed (sl : Slot) (msg : WMsg)
  | wait (sl : Slot) (msg : WMsg)
  | denied (sl : Slot) (msg : WMsg)
  | stale (sl : Slot) (msg : WMsg)
  | witnessAck (sl : Slot) (msg : WMsg)
  /-- The witness receives a message on the line of a slot. -/
  | renew (sl : Slot) (msg : WMsg)
  | claim (sl : Slot) (msg : WMsg)
  | release (sl : Slot) (msg : WMsg)
  | present (sl : Slot) (msg : WMsg)
  | witnessLeaseEnd
  | claimPendingExpiry (sl : Slot)
  | releaseReservationEnd
  | warmCatchupLaunch (sl : Slot) (now : W64)
  | equinoxDrainDone (sl : Slot)
  | equinoxDrainTimeout (sl : Slot)
  | equinoxNoticeReceive (sl : Slot)
  | equinoxGrantTimeout (sl : Slot)
  | equinoxDueTimer (sl : Slot)
  | autoResyncStart (sl : Slot)
  | resyncCopyDone (sl : Slot)
  | resyncFollowDone (sl : Slot) (cutover : W64)
  | resyncTimeout (sl : Slot)
  -- time and Chronicle (11)
  | timeStepApply (sl : Slot)
  | almCapture (sl : Slot) (cap : Bool)
  | almStep (sl : Slot) (value : W32)
  | bar0StepLand (sl : Slot)
  | ppsInEdge (sl : Slot) (time : W64)
  | ppsInMissing (sl : Slot)
  | ppsOutRise (sl : Slot)
  | ppsOutFall (sl : Slot)
  | ptpMessageReceive (sl : Slot) (msg : PtpMsg)
  | ptpAnnounceTimeout (sl : Slot) (port : Nat)
  | hostPtpSyncSend (sl : Slot) (port : Nat)
  | holdoverEnd (sl : Slot)
  | chronicleRecordWrite (sl : Slot)
  | summaryTimeout (sl : Slot) (code : Nat)
  -- local I/O (12)
  | loopSupplyUpdate (sl : Slot)
  | loopSupplyThermal (sl : Slot) (channel : Nat)
  | loopSupplyRestart (sl : Slot) (channel : Nat)
  /-- A CIC output of a channel: the raw current in nA and whether the 28 mA limit holds. -/
  | cicOutput (sl : Slot) (channel : Nat) (raw : Int) (limited : Bool)
  | trimMeasureDone (sl : Slot) (average : Int) (spread : Nat)
  | buttonPress (sl : Slot)
  /-- 0 both, 1 ZERO, 2 SPAN. -/
  | buttonHeld (sl : Slot) (which : Nat)
  | trimModeTimeout (sl : Slot)
  | dioInputChange (sl : Slot) (channel : Nat) (level : Bool)
  | diFilterPass (sl : Slot) (channel : Nat)
  | doOverload (sl : Slot) (channel : Nat) (milliamp : Nat)
  | doGroupLimit (sl : Slot) (group : Nat)
  | doOvertemp (sl : Slot) (channel : Nat)
  | doOpenWire (sl : Slot) (channel : Nat)
  /-- kind 1 DIO, 2 FDO. -/
  | doLatchRearm (sl : Slot) (kind : Nat) (channel : Nat)
  | doDiagClear (sl : Slot) (kind : Nat) (channel : Nat) (bits : W16)
  | fdoOverload (sl : Slot) (channel : Nat)
  | vigilExpiry (sl : Slot) (kind : Nat) (channel : Nat)
  -- safety outputs (13)
  | soTestSlot (sl : Slot) (slotNo : Nat)
  /-- The readback verdict of the switch under test, and whether the terminal carried voltage with both open. -/
  | soTestEnd (sl : Slot) (pass : Bool) (fed : Bool)
  | soReleaseTimeout (sl : Slot) (channel : Nat)
  | edmInputChange (sl : Slot) (channel : Nat) (level : Bool)
  | edmTimeExpiry (sl : Slot) (channel : Nat)
  | fallbackLimitExpiry (sl : Slot) (channel : Nat)
  | haloSelfCheck (sl : Slot) (vectorsPass : Bool)
  -- update and maintenance (14)
  | handoverLanternResume (sl : Slot)
  | handoverPortSwitch (sl : Slot) (port : Nat)
  | imageConfirm (sl : Slot)
  | confirmWindowClose (sl : Slot)
  | fuseStepDone (sl : Slot)
  | relayOfferReceive (sl : Slot) (o : RelayOffer)
  | relayAcceptReceive (sl : Slot) (tid : W32) (result : Nat)
  | relayDataReceive (sl : Slot) (tid : W32) (block fragment : Nat) (payload : Bytes)
  | relayBlockAckReceive (sl : Slot) (tid : W32) (block : Nat) (bad : Bool)
  | relayReportReceive (sl : Slot) (tid : W32) (index : Nat) (cls : Nat) (result code : Nat) (stored : Nat)
  | relayOfferTimeout (sl : Slot)
  | relayBlockAckTimeout (sl : Slot)
  | relayProgressTimeout (sl : Slot)
  | maintLeaseExpiry (sl : Slot) (cls : Nat)
  | maintWaitTimeout (sl : Slot) (qp : Nat) (ticket : W64)
  -- power, lever, temperature (15)
  | logicFeedLost (sl : Slot) (feed : Nat) (millivolt : Nat)
  | logicFeedRestored (sl : Slot) (feed : Nat) (millivolt : Nat)
  | fieldFeedLost (sl : Slot) (millivolt : Nat)
  | fieldFeedRestored (sl : Slot) (millivolt : Nat)
  /-- Reserve at the present load and at 46 W, in 0.1 ms, and the bank in mV. -/
  | holdupReserveUpdate (sl : Slot) (present at46 : Nat) (bank : Nat)
  | logicInputLowTimeout (sl : Slot)
  | powerDownComplete (sl : Slot)
  | ejectorLeverOpen (sl : Slot)
  | ejectorLeverClosed (sl : Slot)
  /-- The four junction sensors in 0.1 °C. -/
  | junctionRead (sl : Slot) (t0 t1 t2 t3 : Int)
  | coldPlateRead (sl : Slot) (t : Int) (coolFor10s : Bool)
  | mresetRelease (sl : Slot)
  | perstRelease (sl : Slot)
  | pcieLinkTrained (sl : Slot)
  | ringLaneLinkUp (sl : Slot) (lane : Nat)
  | dropPowerUp (id : Nat) (linkUp linkDown : Bool)
  | dropPowerLoss (id : Nat)
  | dropRowReceive (id : Nat) (f : CanFrame)
  | dropInSlotTime (id : Nat)
  | lineDropRequestReceive (id : Nat) (bytes : Bytes)
  | witnessHoldoffEnd
  | syncRelayBlockAckReceive (sl : Slot) (good : Bool)
  | imageVerdictReceive (sl : Slot) (pass : Bool) (code : Nat)
  | ptpAnnounceSend (sl : Slot)
  | ptpDelayReqSend (sl : Slot) (port : Nat)
  deriving DecidableEq, Repr

end Sys2Proof
end

