-- ==== Sys2Proof/Config.lean ====
section
/-! DEFINITION. Config.lean: what the manual leaves to the part, as constants without a body (free values), and the
identity that is fixed at manufacture. -/

namespace Sys2Proof.Config

/-- The mathematical functions whose result R162 bounds and does not state. -/
inductive MathFn where
  | sqrt | exp | ln | sin | cos | atan2
  deriving DecidableEq, Repr

/-- A fresh free value: nothing constrains it. The step reads it at the counter `State.fresh` and advances the
counter (R35 narrow writes, R93 unchecked errors, R224 input SEQ at power-up). Log entry 3. -/
opaque freeValue : Nat → BitVec 64

/-- Which of the values within 1 unit in the last place EXP, LN, SIN, COS and ATAN2 give (R162): a function of the operation, the
width (32 or 64) and the operand bits. Every module gives the same bits for one control image version, which is the fourth
argument. Log entry 4. -/
opaque mathPick : MathFn → Nat → W64 → W64 → W32 → Nat

/-- Which of the values within 1 unit in the last place SQRT gives (R162). Log entry 4. -/
opaque sqrtPick : Nat → W64 → W32 → Nat

/-- What a descriptor with a ticket in the gap `L ≤ T < H` is taken as (R93): 0 executed as new, 1 refused, other
reported as another ticket's outcome. Log entry 5. -/
opaque ticketGap : Nat → Nat

/-- Where the bank of a task holds its code (part 0) and its point table (part 1): the first 32-byte unit, counted from
the start of the program banks. The manual gives no place within the banks. Log entry 12. -/
opaque bankPlace : (task bank part : Nat) → Nat

/-- How many entries of a TX timestamp queue the firmware has read before it asks for a further timestamp (R308 gives no
reading instant), by slot, port and Almanac time. Log entry 17. -/
opaque stampsRead : (slot port : Nat) → W64 → Nat

/-- Whether a calibrated current that is no whole number of nA rounds up, by numerator and denominator of its fraction: R328
states no rounding. Log entry 22. -/
opaque calRoundsUp : Int → Int → Bool

/-- The octets a drop samples at its inputs, by the draw of `State.fresh` and the position. Log entry 21. -/
opaque sampleByte : (draw pos : Nat) → Byte

/-- What a drop of the field is made as, by its drop ID: station address, versions supported, family and firmware, channels,
bytes of outputs and inputs, FD capability, configured safe states. Log entry 21. -/
opaque dropMac : Nat → Nat
opaque dropVersions : Nat → Nat
opaque dropFamily : Nat → W32
opaque dropChannels : Nat → Nat
opaque dropInputs : Nat → Nat
opaque dropFd : Nat → Bool
opaque dropSafe : Nat → Bytes

end Sys2Proof.Config
end

