-- ==== Sys2Proof/Machine/Bits.lean ====
section
/-! DEFINITION. Machine/Bits.lean: byte orders (R6), bit fields (R5), the CRCs of the manual and tables by key. -/

namespace Sys2Proof.Bits
open Sys2Proof

/-! ### Byte orders -/

/-- A little-endian number (R6). -/
def leVal : Bytes → Nat
  | [] => 0
  | b :: bs => b.toNat + 256 * leVal bs

/-- A big-endian number (R6, frames on a wire). -/
def beVal (bs : Bytes) : Nat := leVal bs.reverse

/-- The octet at an offset. An absent octet never arises where REQ_LEN was checked (R423). -/
def byteAt (bs : Bytes) (o : Nat) : Nat := (bs.getD o 0).toNat

/-- The little-endian field of `n` octets at offset `o`. -/
def le (bs : Bytes) (o n : Nat) : Nat := leVal ((bs.drop o).take n)

/-- The big-endian field of `n` octets at offset `o`. -/
def be (bs : Bytes) (o n : Nat) : Nat := beVal ((bs.drop o).take n)

/-- `n` octets, least significant first. -/
def leBytes : Nat → Nat → Bytes
  | 0, _ => []
  | n + 1, v => BitVec.ofNat 8 v :: leBytes n (v / 256)

/-- `n` octets, most significant first. -/
def beBytes (n v : Nat) : Bytes := (leBytes n v).reverse

/-- `n` zero octets. -/
def zeros (n : Nat) : Bytes := List.replicate n 0

/-- A field of exactly `n` octets from the front of `bs`, filled with zeros. -/
def fit (n : Nat) (bs : Bytes) : Bytes := (bs ++ zeros n).take n

/-- Overwrite `bs` from offset `o` with `new`, extending with zeros where needed (R145). -/
def overwrite (bs : Bytes) (o : Nat) (new : Bytes) : Bytes :=
  (bs ++ zeros (o - bs.length)).take o ++ new ++ bs.drop (o + new.length)

/-- Cut a run into elements of `n` octets; `k` elements. -/
def chunks (n : Nat) : Nat → Bytes → List Bytes
  | 0, _ => []
  | k + 1, bs => bs.take n :: chunks n k (bs.drop n)

/-- The signed reading of an unsigned `w`-bit number. -/
def signed (w v : Nat) : Int := if 2 * v < 2 ^ w then v else (v : Int) - 2 ^ w

/-- The low `w` bits of an integer. -/
def unsigned (w : Nat) (i : Int) : Nat := (i % (2 ^ w : Int)).toNat

/-- Bit `i` of a number. -/
def bit (v i : Nat) : Bool := v.testBit i

/-- 1 or 0. -/
def b2n (b : Bool) : Nat := if b then 1 else 0

/-- Bits `[hi:lo]` of a number (R5). -/
def field (v hi lo : Nat) : Nat := (v / 2 ^ lo) % 2 ^ (hi + 1 - lo)

/-! ### Saturating counters and serial numbers -/

/-- A status counter saturates at 0xFFFF_FFFF (R415). -/
def sat32 (n : Nat) : Nat := min n 0xFFFFFFFF
/-- A 16-bit counter saturates at 0xFFFF (R115, R365). -/
def sat16 (n : Nat) : Nat := min n 0xFFFF
/-- One event more. -/
def inc32 (n : Nat) : Nat := sat32 (n + 1)
/-- One event more on a 16-bit counter. -/
def inc16 (n : Nat) : Nat := sat16 (n + 1)

/-- The distance `(a − b) mod 2^32` (R228). -/
def dist32 (a b : W32) : Nat := (a - b).toNat
/-- RFC 1982: `a` is newer than `b` (R228); exactly 2^31 apart neither is newer. -/
def newer32 (a b : W32) : Bool := decide (1 ≤ dist32 a b ∧ dist32 a b ≤ 0x7FFFFFFF)

/-- The signed difference of two Almanac times (R295). -/
def almDiff (a b : W64) : Int := (a - b).toInt
/-- `a` is not earlier than `b` (R295). -/
def almGe (a b : W64) : Bool := decide (0 ≤ almDiff a b)

/-! ### CRCs -/

/-- One bit of the reflected CRC-32C (Castagnoli, polynomial 0x1EDC6F41 reflected). -/
def crc32cBit (c : W32) : W32 := if c.getLsbD 0 then (c >>> 1) ^^^ 0x82F63B78 else c >>> 1

/-- Eight bits of it. -/
def crc32cByte (c : W32) (b : Byte) : W32 :=
  crc32cBit (crc32cBit (crc32cBit (crc32cBit (crc32cBit (crc32cBit (crc32cBit (crc32cBit
    (c ^^^ b.setWidth 32))))))))

/-- CRC-32C of a run of octets (R39, R133, R312 and so on): initial value and final inversion all ones, so an empty run gives 0
(R133). -/
def crc32c (bs : Bytes) : W32 := (bs.foldl crc32cByte 0xFFFFFFFF) ^^^ 0xFFFFFFFF

/-- One bit of CRC-16, polynomial 0x1021, not reflected (R197). -/
def crc16Bit (c : W16) : W16 := if c.getLsbD 15 then (c <<< 1) ^^^ 0x1021 else c <<< 1

/-- Eight bits of it. -/
def crc16Byte (c : W16) (b : Byte) : W16 :=
  crc16Bit (crc16Bit (crc16Bit (crc16Bit (crc16Bit (crc16Bit (crc16Bit (crc16Bit
    (c ^^^ (b.setWidth 16 <<< 8)))))))))

/-- CRC-16 with initial value `seed`, no reflection, no final inversion (R197, R259, R275). -/
def crc16 (seed : W16) (bs : Bytes) : W16 := bs.foldl crc16Byte seed

/-! ### Tables by key -/

/-- The entry at a key. -/
def tget {α : Type} : Table α → Nat → Option α
  | [], _ => none
  | (k, v) :: t, i => if k = i then some v else tget t i

/-- Enter or replace the entry at a key, keeping the keys strictly rising. -/
def tset {α : Type} : Table α → Nat → α → Table α
  | [], i, a => [(i, a)]
  | (k, v) :: t, i, a =>
    if i < k then (i, a) :: (k, v) :: t
    else if i = k then (i, a) :: t
    else (k, v) :: tset t i a

/-- Remove the entry at a key. -/
def tdel {α : Type} (t : Table α) (i : Nat) : Table α := t.filter (fun p => p.1 ≠ i)

/-- Change the entry at a key, if there is one. -/
def tmod {α : Type} (t : Table α) (i : Nat) (f : α → α) : Table α :=
  t.map (fun p => if p.1 = i then (p.1, f p.2) else p)

/-- Is there an entry at the key? -/
def thas {α : Type} (t : Table α) (i : Nat) : Bool := (tget t i).isSome

/-- The keys of a table. -/
def tkeys {α : Type} (t : Table α) : List Nat := t.map (·.1)

/-- Keys strictly rising: the canonical form, so that equal tables are equal data. -/
def tsorted {α : Type} : Table α → Bool
  | [] => true
  | [_] => true
  | (k, _) :: (l, w) :: t => decide (k < l) && tsorted ((l, w) :: t)

/-- Change element `i` of a list of like things. -/
def modNth {α : Type} : List α → Nat → (α → α) → List α
  | [], _, _ => []
  | a :: as, 0, f => f a :: as
  | a :: as, n + 1, f => a :: modNth as n f

/-- The first index at which a test fails, counted from `i`. -/
def firstFail {α : Type} (p : α → Option β) : List α → Nat → Option (Nat × β)
  | [], _ => none
  | a :: as, i => match p a with
    | some e => some (i, e)
    | none => firstFail p as (i + 1)

/-! ### Sparse bytes of an image region -/

/-- What a byte reads as where nothing was written (log entry 6). -/
def blank : Byte := 0

/-- The byte at an offset. -/
def memGet (m : List (Nat × Byte)) (a : Nat) : Byte := (tget m a).getD blank

/-- Write one byte, keeping the canonical form: a byte equal to the blank is not listed. -/
def memPut (m : List (Nat × Byte)) (a : Nat) (v : Byte) : List (Nat × Byte) :=
  if v = blank then tdel m a else tset m a v

/-- Write a run of bytes. -/
def memWrite (m : List (Nat × Byte)) (a : Nat) : Bytes → List (Nat × Byte)
  | [] => m
  | b :: bs => memWrite (memPut m a b) (a + 1) bs

/-- Read a run of bytes. -/
def memRead (m : List (Nat × Byte)) : Nat → Nat → Bytes
  | _, 0 => []
  | a, n + 1 => memGet m a :: memRead m (a + 1) n

/-- Offsets strictly rising and no entry equal to the blank. -/
def memWf (m : List (Nat × Byte)) : Bool := tsorted m && m.all (fun p => p.2 != blank)

end Sys2Proof.Bits
end

