-- ==== Sys2Proof/Machine/State.lean ====
section
/-! DEFINITION. Machine/State.lean: everything the manual gives the domain to hold, as plain data. The default of a field is
its value in State.reset: the value of the manual's Reset column, or a value named in log entry 2. -/

namespace Sys2Proof.Machine
open Sys2Proof

/-! ### Small enumerations -/

/-- Module states (R28). -/
inductive ModState where
  | off | loader | verify | starting | ready | run | umbra | splitOff | halt
  deriving DecidableEq, Repr

/-- Roles as the anchor block shows them (R60). -/
inductive Role where
  | none | lead | shadow
  deriving DecidableEq, Repr

/-- Pair modes (R270). -/
inductive PairMode where
  | alone | inStep | warm
  deriving DecidableEq, Repr

/-- Image classes (R47). -/
inductive ImgClass where
  | control | safety
  deriving DecidableEq, Repr

/-- Task states (R126). -/
inductive TaskState where
  | defined | loaded | running | stopped | faulted
  deriving DecidableEq, Repr

/-- Drop states (R244). -/
inductive DropState where
  | absent | negotiating | online | offline
  deriving DecidableEq, Repr

/-- Which kind of segment (R243, R268). -/
inductive SegKind where
  | ring | bus | line
  deriving DecidableEq, Repr

/-- The power sequence (R399, R400). -/
inductive PowerPhase where
  | off | ramping | bringUp | good | goingDown
  deriving DecidableEq, Repr

/-- PCIe link: down, configuration requests answered with retry, or trained (R31, R396). -/
inductive PcieLink where
  | down | retry | trained
  deriving DecidableEq, Repr

/-- Sync-link messages a module sends (R273). -/
inductive SyncMsg where
  | journal (qp : Nat) (d : Desc) (req : Bytes) (step : Option W64)
  | journalAck (qp : Nat) (ticket : W64)
  | finals (l : List (Nat × W64))
  | summary (instant : W64) (l : List SumEntry)
  | content (instant : W64) (l : List Content)
  | sealMsg (task : Nat) (start sealTime : W64) (digest : W32)
  | checkpoint (task : Nat) (instant : W64) (ws : List WEnt)
  | writeSet (task : Nat) (instant : W64) (ws : List WEnt)
  | chronicle (r : ChronRec)
  | chronicleAck (seq : Nat)
  | shadowEvent (e : ChronEvent)
  | ical (task : Nat) (c : W64)
  | online (drop version : Nat) (step : W64) (s0 : W32) (mac : Nat)
  | relayFrame (segment : Nat) (f : Frame)
  | acyAck (drop : Nat) (seq : W32)
  | trimReport (channel : Nat) (average : Int) (spread : Nat)
  | trimOrder (channel : Nat) (span : Bool) (reference : Int)
  | resync (item : ResyncItem)
  | cutover (c : W64)
  | stepAnnounce (a delta : W64)
  | time (t : W64) (adj : Int)
  | relayBlock (cls block : Nat) (crc : W32)
  | relayBlockAck (good : Bool)
  | equinoxNotice
  | verdict (pass : Bool) (code : Nat)
  | withdraw
  | activate (mode splitMask window : Nat)
  | revert
  | wiring (code : BitVec 3)
  | agen (a : W32)
  deriving DecidableEq, Repr

/-- Everything that leaves an agent, oldest first in its output list. -/
inductive Emit where
  /-- A completion entry with its PHASE, to the CQ or in a TYPE 2 datagram (R65, R69, R86). -/
  | completion (qp : Nat) (ticket : W64) (code : Nat) (stage status : Nat) (dup : Bool) (phase : Bool)
      (sqHead : Nat) (rsp : Bytes) (detail : Nat) (time : W64)
  | msi (vector : Nat)
  /-- The anchor block 0x800..0x82F (R61). -/
  | anchor (block : Bytes)
  /-- An entry of a subscription ring (R123). -/
  | report (sub : Nat) (slot : Nat) (entry : Bytes)
  /-- TYPE 3 of a UDP session (R87). -/
  | udpStatus (qp : Nat) (next : W32)
  | udpResend (qp : Nat) (dseqs : List W32)
  /-- The domain address announced on host Ethernet (R85). -/
  | domainAddress
  | publication (pub : Nat) (dest : List Bytes) (datagram : Bytes)
  /-- A memory read of an image pull (R42). -/
  | pullRead (addr : W64) (len : Nat)
  /-- A frame launched or forwarded on a ring lane: segment, octets, FCS (R220, R217). -/
  | ring (segment : Nat) (f : Frame)
  | can (bus : Nat) (f : CanFrame)
  | line (line : Nat) (bytes : Bytes)
  | sync (m : SyncMsg)
  /-- A witness message with its type (R275). -/
  | witness (type : Nat) (m : WMsg)
  /-- The witness answers on the line of a slot. -/
  | reply (dest : Slot) (type : Nat) (m : WMsg)
  /-- PTP: 0 Sync, 1 Announce, 2 Delay_Req, 3 Pdelay_Req, 4 Follow_Up; port 1, 2 host, 3 + k ring. -/
  | ptp (kind port : Nat) (time : W64)
  | pps (level : Bool)
  | relay (type : Nat) (tid : W32) (index : Nat) (payload : Bytes)
  /-- The grants of an arbitration window, requester by opportunity (R116). -/
  | grants (l : List (Option Nat))
  /-- A drop's frame on its ports: 1 toward lower positions, 2 toward higher ones, 3 both. -/
  | dropRing (ports : Nat) (f : Frame)
  /-- The outputs a drop drives from now on. -/
  | dropDrive (outputs : Bytes)
  deriving DecidableEq, Repr

/-! ### Identity, power, boot, images -/

/-- What is fixed in the part, in its OTP or by its carrier pins (R36, R395). -/
structure HwId where
  /-- ID_ISSUE.ISSUE, "fixed"; hardware issue C (R1). -/
  issue : Byte := 3
  /-- ID_ISSUE.STEP, "fixed". -/
  stepping : Byte := 0
  /-- ID_SERIAL (OTP). -/
  serial : W64 := 0
  /-- ID_ROM.ROM_VER, "fixed". -/
  romVer : W32 := 0
  /-- ID_FLOOR.FLOOR (OTP), fuse steps blown, 0 to 128. -/
  floor : Nat := 0
  /-- ID_KEYHASH, 48 octets (OTP). -/
  keyHash : Bytes := List.replicate 48 0
  /-- SLOT_B_N low (R392). -/
  slotBPin : Bool := false
  /-- Pins WC2..WC0 (R392); open pins read 1 (R395). -/
  wcPins : BitVec 3 := 7
  /-- ID_SLOT.SLOT as sampled at power-good and module reset (R395). -/
  slotB : Bool := false
  /-- ID_SLOT.WIRING as sampled (R395). -/
  wiring : BitVec 3 := 7
  deriving DecidableEq, Repr

/-- Feeds, hold-up, lever, temperatures (R397 to R401, R410, R411). -/
structure Power where
  phase : PowerPhase := .good
  /-- Logic feeds 1 and 2 and the field feed in range. -/
  logic1 : Bool := true
  logic2 : Bool := true
  field : Bool := true
  /-- Last voltages in mV. -/
  logic1mV : Nat := 24000
  logic2mV : Nat := 24000
  fieldmV : Nat := 24000
  bankmV : Nat := 48000
  /-- Reserve at the present load and at 46 W, in 0.1 ms (R398). -/
  reserve : Nat := 100
  reserve46 : Nat := 100
  /-- Logic power and field-side dissipation in 0.1 W (R411). -/
  logicPower : Nat := 0
  fieldPower : Nat := 0
  leverClosed : Bool := true
  /-- A power-down was declared for a junction at 160 °C; power-up waits for 130 °C (R410). -/
  tooHot : Bool := false
  coldPlate : Int := 250
  j0 : Int := 250
  j1 : Int := 250
  j2 : Int := 250
  j3 : Int := 250
  /-- The previous junction reading was at or above 150 °C (R410). -/
  hotOnce : Bool := false
  /-- A junction stands at or above 140 °C (THERMAL once per crossing). -/
  warm140 : Bool := false
  /-- The cold plate lies outside −40 °C to +125 °C. -/
  outOfRange : Bool := false
  throttled : Bool := false
  /-- 100 ms readings at which split cores were throttled, since power-up (R411). -/
  throttledTenths : Nat := 0
  rideThroughs : Nat := 0
  /-- A dip of the logic input is being ridden through. -/
  inDip : Bool := false
  maxCold : Int := 250
  maxJunction : Int := 250
  deriving DecidableEq, Repr

/-- One class region of an image slot (R33, R39). -/
structure Region where
  /-- Open for the host. -/
  isOpen : Bool := false
  closed : Bool := false
  /-- 0 none, 1 host, 2 partner relay, 3 relay list. -/
  owner : Nat := 0
  /-- Bytes as written, canonical (log entry 6). -/
  bytes : List (Nat × Byte) := []
  len : Nat := 0
  crc : W32 := 0
  /-- Header bytes 0..4095 written since OPEN, as offsets of 4-byte words. -/
  hdrSeen : List Nat := []
  /-- The header-first check is due. -/
  hdrDue : Bool := false
  hdrOk : Bool := false
  hdrBad : Bool := false
  /-- Header-first checking applies to this download (R52). -/
  hdrFirst : Bool := false
  deriving DecidableEq, Repr

/-- An image slot (R15, R388). -/
structure ImgSlot where
  control : Region := {}
  safety : Region := {}
  verified : Bool := false
  /-- The candidate marked REVERTED (R376). -/
  reverted : Bool := false
  lastCode : Nat := 0
  deriving DecidableEq, Repr

/-- How a VERIFY was entered (R29). -/
inductive VerifyFrom where
  | loader
  /-- Restart-mode activation of the candidate. -/
  | activate
  /-- Restart-mode return to the previous slot (IMAGE.REVERT). -/
  | revert
  deriving DecidableEq, Repr

/-- Boot registers, image aperture and image slots (R37 to R53, R369, R375). -/
structure Boot where
  state : ModState := .loader
  /-- BOOT_STATE.FAIL, 0x00 after power-up, kept across a module reset. -/
  fail : Byte := 0
  hdrFirst : Bool := false
  relayEn : Bool := true
  relayMib : Nat := 0
  /-- A partner relay is in progress (BOOT_STAT.RELAY). -/
  relaying : Bool := false
  /-- The block of the relay due next, and how often it failed. -/
  relayCls : Nat := 1
  relayBlock : Nat := 0
  relayFails : Nat := 0
  /-- RELAY_EN was written 0 during a relay: it ends at the next block boundary (R45). -/
  relayStop : Bool := false
  /-- A withdrawn relay is not offered again (R45). -/
  relayWithdrawn : Bool := false
  /-- As the sending partner: class, block and failures of a relay under way (R44); the slot it sends and the classes to send. -/
  sending : Option (Nat × Nat × Nat) := none
  sendSlot : Nat := 0
  sendClasses : List Nat := []
  verifyFrom : VerifyFrom := .loader
  /-- IMG_CTL.CLASS. -/
  cls : BitVec 2 := 1
  /-- IMG_WIN.WIN. -/
  win : BitVec 11 := 0
  /-- IMG_STAT.CODE. -/
  code : Byte := 0
  srcLo : W32 := 0
  srcHi : W32 := 0
  /-- IMG_PULL_LEN.LEN in 4 KiB units. -/
  pullLen : BitVec 14 := 0
  pulling : Bool := false
  /-- The pull was aborted: completions are discarded (R40). -/
  pullAborted : Bool := false
  /-- The class and slot the running pull writes. -/
  pullSafety : Bool := false
  pullSlot : Nat := 0
  /-- Offsets of reads that are outstanding; next offset to read; end. -/
  pullOut : List Nat := []
  pullNext : Nat := 0
  pullEnd : Nat := 0
  closePending : Bool := false
  slot0 : ImgSlot := {}
  slot1 : ImgSlot := {}
  slot2 : ImgSlot := {}
  /-- Slot roles in MRAM (R369): current, candidate, previous. -/
  cur : Nat := 0
  cand : Nat := 1
  prev : Nat := 2
  /-- The slot-role record passes its check (R33). -/
  rolesGood : Bool := true
  /-- 0 confirmed, 1 window running, 2 reverted, 3 lapsed without revert (R388). -/
  confirm : Nat := 0
  windowRunning : Bool := false
  /-- The window opens at the next entry to RUN (R376). -/
  windowDue : Bool := false
  windowLen : Nat := 60
  /-- Physical time at which the running window ends. -/
  windowEnd : Nat := 0
  /-- Confirm window of a handover-mode activation. -/
  windowHandover : Bool := false
  floorTarget : Nat := 0
  oldFloor : Nat := 0
  /-- HALO self-check passed on this image (R375). -/
  selfChecked : Bool := false
  /-- The split mask an activation brings (R374), and the split set of this module. -/
  newSplit : Nat := 0
  split : Nat := 0
  /-- A handover is under way: the Lantern pauses (R373). -/
  handover : Bool := false
  portsDue : List Nat := []
  /-- A background verification of handover mode runs (R370). -/
  verifyingHandover : Bool := false
  /-- Loader bring-up is complete: BAR0 takes writes (R31, R396). -/
  loaderUp : Bool := true
  /-- MRESET_N and PERST_N are held low (R396). -/
  mresetHeld : Bool := false
  perstHeld : Bool := false
  pcie : PcieLink := .trained
  /-- MSI vectors enabled by the host, 1 to 32 (R67). -/
  msiCount : Nat := 32
  /-- Bus Master Enable (R42). -/
  bme : Bool := true
  deriving DecidableEq, Repr

/-! ### The host interface -/

/-- A completion not yet posted (R69). -/
structure Cpl where
  ticket : W64
  code : Nat
  /-- 1 RECEIVED, 2 ACCEPTED, 3 DONE, 4 REFUSED. -/
  stage : Nat
  status : Nat := 0
  detail : Nat := 0
  dup : Bool := false
  rsp : Bytes := []
  time : W64
  noIrq : Bool := false
  /-- A final completion of journaled work. -/
  work : Bool := false
  /-- A final completion of the command: it ends the command's time in flight. -/
  final : Bool := true
  /-- It waits for an entry of the exempt reserve of the pending queue to free (R311). -/
  waitsRecord : Bool := false
  deriving DecidableEq, Repr

/-- States of a QP (R90). -/
inductive QpState where
  | closed | opened | closing
  deriving DecidableEq, Repr

/-- A queue pair of a module (R57, R63, R67, R87, R90). -/
structure Qp where
  st : QpState := .closed
  udp : Bool := false
  vector : Nat := 0
  sqBase : W64 := 0
  cqBase : W64 := 0
  sqSize : Nat := 0
  cqSize : Nat := 0
  sqTail : Nat := 0
  sqHead : Nat := 0
  cqHead : Nat := 0
  cqTail : Nat := 0
  phase : Bool := true
  inFlight : Nat := 0
  /-- Completions held until room exists, in order (R65). -/
  held : List Cpl := []
  coalCount : Nat := 0
  coalAge : Nat := 0
  unsignalled : Nat := 0
  peer : Bytes := []
  peerPort : Nat := 0
  dseqIn : W32 := 0
  dseqOut : W32 := 0
  /-- Unacknowledged TYPE 2 datagrams by DSEQ. -/
  unacked : List W32 := []
  /-- The SESSION.CLOSE that waits for the QP to drain: issuing QP and command. -/
  closer : Option (Nat × Cmd) := none
  deriving DecidableEq, Repr

/-- A record of the ticket window (section Tickets, R73). -/
structure TicketRec where
  ticket : W64
  /-- 2 ACCEPTED, 3 DONE, 4 REFUSED. -/
  stage : Nat
  status : Nat := 0
  detail : Nat := 0
  time : W64
  /-- Duplicates that wait for the final (R73). -/
  dupWaits : Nat := 0
  deriving DecidableEq, Repr

/-- A journal entry (R76, R78). -/
structure JEntry where
  qp : Nat
  d : Desc
  req : Bytes
  /-- Acknowledged by the partner. -/
  acked : Bool := false
  accepted : Bool := false
  /-- Acceptance order. -/
  order : Nat := 0
  /-- The step it is assigned to (R129). -/
  step : Option W64 := none
  /-- Execution has begun and its final stage comes later. -/
  started : Bool := false
  final : Bool := false
  stage : Nat := 0
  status : Nat := 0
  detail : Nat := 0
  /-- The final completion was posted. -/
  posted : Bool := false
  /-- Held unretired when this module took the lead (R81). -/
  inherited : Bool := false
  /-- The acyclic SEQ recorded by DROP.SEND (R230). -/
  acySeq : Option W32 := none
  deriving DecidableEq, Repr

/-- Attachment and mailbox (R59 to R87). -/
structure Mailbox where
  /-- The rendezvous fields kept while QP 0 is closed (R59). -/
  r0Tail : W16 := 0
  r0Head : W16 := 0
  r1Tail : W16 := 0
  r1Head : W16 := 0
  r2Tail : W16 := 0
  anchorAddr : W64 := 0
  hostTag : W64 := 0
  /-- ANCHOR_STATUS: 0 before the first attach. -/
  anchorStatus : Nat := 0
  gen : W32 := 0
  heartbeat : W64 := 0
  qps : Table Qp := []
  /-- Fetched queries and local commands not yet run: QP, code, command, and the tickets of the work fetched before them on their
  QP that was not final then (R71). -/
  waiting : List (Nat × Nat × Cmd × List W64) := []
  inFlight : Nat := 0
  /-- Partition QP served last and how many descriptors of its turn (R64). -/
  turnQp : Nat := 4
  turnLeft : Nat := 8
  udpPort : Nat := 9640
  udpDiscards : Nat := 0
  journal : List JEntry := []
  /-- Posted final completions that the partner has not been told of: QP and ticket (R78). -/
  reports : List (Nat × W64) := []
  /-- Next acceptance order. -/
  nextOrder : Nat := 0
  stalled : Bool := false
  stalls : Nat := 0
  /-- Ticket windows by QP, newest record first (R73); H survives in MRAM (R80). -/
  tickets : Table (List TicketRec) := []
  highest : Table W64 := []
  /-- H of each QP as it stood at the last loss of power (R80). -/
  floorH : Table W64 := []
  /-- Fetching of work has been stopped for a drain or a handover (R283, R373). -/
  paused : Bool := false
  deriving DecidableEq, Repr

/-! ### Points, partitions, guard, arbiter -/

/-- A point record (R94 to R96). -/
structure PointRec where
  value : W64 := 0
  time : W64 := 0
  owner : Nat := 0
  gen : BitVec 7 := 0
  ty : Option LType := none
  shared : Bool := false
  subscribed : Bool := false
  forced : Bool := false
  retained : Bool := false
  output : Bool := false
  input : Bool := false
  quality : W16 := 1
  writer : W16 := 0
  force : W64 := 0
  deriving DecidableEq, Repr

/-- A retained value (R103). -/
structure RetRec where
  handle : W32
  owner : Nat
  ty : LType
  value : W64
  time : W64
  quality : W16
  deriving DecidableEq, Repr

/-- One commit in the retained commit log (R20). -/
structure LogCommit where
  task : Nat
  start : W64
  entries : List (Nat × RetRec)
  complete : Bool := false
  deriving DecidableEq, Repr

/-- A region descriptor (R111). -/
structure GuardDesc where
  first : Nat := 0
  last : Nat := 0
  perm : Byte := 0
  deriving DecidableEq, Repr

/-- A partition (R105, R107, R112). -/
structure Partition where
  quota : Nat
  base : Nat
  count : Nat
  caps : W32
  cred : Bytes
  runLock : Bool := false
  regions : List GuardDesc := List.replicate 28 {}
  /-- The free list, head first, as runs of slots: first slot and count (R99). -/
  free : List (Nat × Nat) := []
  deriving DecidableEq, Repr

/-- A latched guard violation (R115). -/
structure Violation where
  privileged : Bool
  /-- 0 read, 1 write, 2 execute. -/
  kind : Nat
  unit : Nat
  task : Nat
  partition : Nat
  desc : Nat
  time : W64
  deriving DecidableEq, Repr

/-- The point-store arbiter (R116, R117). -/
structure Arbiter where
  classes : List Nat := List.replicate 16 1 ++ [1] ++ [0] ++ List.replicate 8 0 ++ [0, 0, 0, 2, 3]
  quota : Nat := 48
  /-- Classes and quota that take effect at the next window boundary. -/
  newClasses : Option (List Nat × Nat) := none
  /-- The requester last granted in each class 0 to 3. -/
  last : List Nat := [31, 31, 31, 31]
  /-- Grants of class 0 in the running window. -/
  used : Nat := 0
  masked : Bool := false
  windows : Nat := 0
  deriving DecidableEq, Repr

/-- A subscription (R123). -/
structure Subscription where
  qp : Nat
  ring : W64
  entries : Nat
  interval : Nat
  handles : List W32
  /-- Next entry to write, and the host's consumer index as last read. -/
  next : Nat := 1
  consumer : Nat := 1
  phase : Bool := true
  /-- Newest states held back: handle, quality, value, time (R123). -/
  heldStates : List (W32 × W16 × W64 × W64) := []
  /-- Last report of each handle by its time. -/
  lastAt : List (W32 × W64) := []
  deriving DecidableEq, Repr

/-- A publication (R118). -/
structure Publication where
  part : Nat
  task : Nat
  port : Nat
  handles : List W32
  dests : List Bytes
  seq : W32 := 0
  /-- A redefinition takes effect at the task's next boundary. -/
  next : Option (Nat × Nat × List W32 × List Bytes) := none
  deriving DecidableEq, Repr

/-- An agreed or held input: key, time, data, and how the source marked it. -/
structure Held where
  key : W32
  time : W64
  data : Bytes
  deriving DecidableEq, Repr

/-- An import (R120). -/
structure Import where
  part : Nat
  task : Nat
  source : Bytes
  domain : W32
  pubId : Nat
  wIn : Nat
  handles : List W32
  /-- Fragments of the SEQ being assembled. -/
  asmSeq : W32 := 0
  asmTime : W64 := 0
  asmFrags : List Nat := []
  asmEnts : List (Nat × W64 × W16 × Nat) := []
  asmStale : Bool := false
  /-- The newest complete SEQ: entries and STALE. -/
  heldKey : Option W32 := none
  heldTime : W64 := 0
  heldEnts : List (Nat × W64 × W16 × Nat) := []
  heldStale : Bool := false
  agreedKey : Option W32 := none
  missed : Nat := 0
  deleting : Bool := false
  deriving DecidableEq, Repr

/-! ### Tasks and clusters -/

/-- One part of a program or Glint bank (R145). -/
structure Part where
  bytes : Bytes := []
  sealed : Bool := false
  deriving DecidableEq, Repr

/-- A stack entry or local: type, value, quality (R159). -/
structure SEntry where
  ty : LType
  val : W64
  q : W16
  deriving DecidableEq, Repr

/-- A block's frame (R168, R169): the word to run next, the locals, the entries of the callers below. -/
structure LFrame where
  block : Nat
  pc : Nat
  locals : List SEntry
  base : Nat
  deriving DecidableEq, Repr

/-- A cycle of a task (R130, R133, R139). -/
structure Cycle where
  /-- Starting boundary. -/
  start : W64
  bank : Nat
  /-- The store as this cycle reads it. -/
  snap : Table PointRec
  ready : Bool := false
  ws : Table WEnt := []
  stack : List SEntry := []
  frames : List LFrame := []
  exc : W32 := 0
  /-- Execution has begun: block 0 has its frame. -/
  begun : Bool := false
  ended : Bool := false
  /-- Seal time, once sealed. -/
  sealedAt : Option W64 := none
  digest : W32 := 0
  /-- The seal waits for space in the retained commit log (R414). -/
  waitsLog : Bool := false
  /-- Core cycles spent. -/
  cost : Nat := 0
  /-- Last OUT of each PID this cycle ran, by the slot of its I point (R175). -/
  outs : Table W64 := []
  first : Bool := false
  dt : W64 := 0
  fails : Nat := 0
  partnerSeal : Option (W64 × W32) := none
  /-- This module restarts the cycle and takes no part in the check (R150). -/
  restarting : Bool := false
  /-- The cycle runs on the partner only: its write set comes from there (R287, log entry 43). -/
  follows : Bool := false
  /-- The mismatch after which a module that is not in step repeats the cycle: no launches for 400 µs (R150). -/
  repeats : Option W64 := none
  /-- The write set the partner sent (R150). -/
  partnerWs : Option (List WEnt) := none
  /-- What the HALO check entered before the first instruction (R348): a repeated cycle begins with it (R149). -/
  inputWs : Table WEnt := []
  deriving DecidableEq, Repr

/-- A task (R125, R126, R140, R145, R153). -/
structure Task where
  part : Nat
  period : Nat
  phase : Nat
  prio : Nat
  cluster : Nat
  core : Bool
  frameKiB : Nat
  halo : Bool
  unchecked : Bool
  st : TaskState := .defined
  cause : Nat := 0
  active : Option Nat := none
  code0 : Part := {}
  code1 : Part := {}
  table0 : Part := {}
  table1 : Part := {}
  /-- Next boundary (E of R141, or C' once accepted). -/
  next : W64 := 0
  lastBoundary : W64 := 0
  /-- Starting boundary of the last released cycle. -/
  lastReleased : Option W64 := none
  /-- Start of the last released cycle, if this module had restarted it (R150). -/
  lastRestarted : Option W64 := none
  /-- Offset O in ns (R142). -/
  offset : Int := 0
  /-- By how many ns, modulo P, time steps have shifted the task's grid (R143, R144). -/
  shift : Nat := 0
  icalSource : Nat := 0
  icalFalling : Bool := false
  icalDrop : Nat := 0
  icalD : Nat := 0
  icalT : W64 := 0
  /-- Settings of TASK.ICAL that take effect at the next window. -/
  icalNext : Option (Nat × Bool × Nat × Nat × W64) := none
  /-- An event was accepted in the present window. -/
  icalHit : Bool := false
  /-- An event announced before E whose C' lies after it: the E after the next becomes C' + P. -/
  icalLate : Option W64 := none
  /-- The boundary to come was placed by a clip; the last boundary was (R142). -/
  clipped : Bool := false
  clipRun : Bool := false
  /-- The boundary to come is placed elsewhere than E (R324). -/
  moved : Bool := false
  cycle : Option Cycle := none
  /-- The next cycle is the first after TASK.START or of a swapped bank. -/
  firstDue : Bool := false
  /-- The first cycle after TASK.START: DT equals P. -/
  startDue : Bool := false
  execLast : Nat := 0
  execMax : Nat := 0
  overruns : Nat := 0
  syncMiss : Nat := 0
  syncAbsent : Nat := 0
  icalClip : Nat := 0
  restarts : Nat := 0
  agreeConflict : Nat := 0
  /-- Last OUT of each PID in a released cycle, by the slot of its I point (R175, log entry 13). -/
  outs : Table W64 := []
  /-- The most recent boundary released a cycle or applied a checkpoint (R335). -/
  fresh : Bool := false
  deriving DecidableEq, Repr

/-- An execution unit: a lockstep cluster, or one core of a split one (R147). Unit 2k + c. -/
structure XUnit where
  running : Option Nat := none
  fenced : Bool := false
  resetting : Bool := false
  /-- Almanac times of the last mismatches. -/
  mismatches : List W64 := []
  /-- The 32 guard descriptors loaded at dispatch (R112). -/
  descs : List GuardDesc := List.replicate 32 {}
  latch : Option Violation := none
  violations : Nat := 0
  deriving DecidableEq, Repr

/-! ### Glint -/

/-- A bit-program timer (R193). -/
structure GTimer where
  input : Bool := false
  counting : Bool := false
  /-- The count has reached PT + 1. -/
  expired : Bool := false
  q : Bool := false
  deriving DecidableEq, Repr

/-- One Glint bank: five parts (section Banks and commands). -/
structure GBank where
  p0 : Part := {}
  p1 : Part := {}
  p2 : Part := {}
  p3 : Part := {}
  p4 : Part := {}
  deriving DecidableEq, Repr

/-- The Glint engine (R184 to R212). -/
structure Glint where
  bank0 : GBank := {}
  bank1 : GBank := {}
  /-- The active bank, once one was activated. -/
  active : Option Nat := none
  swapOrdered : Bool := false
  /-- The literal map as registered (R186): ONE and FIRST_SWEEP are 1 after reset. -/
  lits : BitVec 1024 := (1#1024 <<< 0x78) ||| (1#1024 <<< 0x7D)
  terms : BitVec 64 := 0
  /-- The first stage of the pin synchroniser, literals 0x000 to 0x03F (R186, R203). -/
  sync1 : BitVec 64 := 0
  /-- The literals as they passed the last evaluate stage, on their way to the output register (R189, R203). -/
  pipe : BitVec 1024 := 0
  /-- Output registers: DIO, FDO, SO demand-off, splice outputs (R189). -/
  dioOut : BitVec 32 := 0
  fdoOut : BitVec 8 := 0
  soOff : BitVec 8 := 0
  spliceOut : BitVec 512 := 0
  acc : Bool := false
  /-- The branch stack: value and whether the operation is OR. -/
  branch : List (Bool × Bool) := []
  /-- Words still to skip. -/
  skip : Nat := 0
  /-- Word index in the sweep. -/
  pc : Nat := 0
  timers : Table GTimer := []
  counters : Table Nat := []
  /-- Q of each counter, as its last counting instruction gave it (log entry 14). -/
  counterQ : Table Bool := []
  /-- Edge memory of each counter instruction word. -/
  edges : Table Bool := []
  sweeps : W64 := 0
  lastSwap : W64 := 0
  fieldCrcBad : Nat := 0
  fieldTimeout : Nat := 0
  fcsBad : Nat := 0
  stompSeen : Nat := 0
  fieldShort : Nat := 0
  deriving DecidableEq, Repr

/-! ### Segments and drops -/

/-- A ring segment port (R239 to R245). -/
structure Ring where
  /-- 0 off, 1 2.5 Gb/s, 2 1 Gb/s. -/
  rate : Nat := 0
  etherType : Nat := 0x88B5
  delta : Nat := 2
  dApply : Nat := 0
  length : Nat := 0
  /-- Lanes 2k and 2k + 1 have link, and are held without link (R240). -/
  rxUp : Bool := true
  txUp : Bool := true
  held : Bool := false
  closed : Bool := false
  checkSeq : W32 := 0
  /-- OUT frames of a step are being sent: forwarded frames are held back (R422). -/
  launching : Bool := false
  buffer : List Frame := []
  badHeader : Nat := 0
  unknownDrop : Nat := 0
  launchLate : Nat := 0
  dupDropId : Nat := 0
  checkMissing : Nat := 0
  checkOut : Nat := 0
  changes : Nat := 0
  deriving DecidableEq, Repr

/-- Quality counters of a lane (R246). -/
structure Lane where
  up : Bool := false
  codeViolations : Nat := 0
  blockErrors : Nat := 0
  losses : Nat := 0
  fcsErrors : Nat := 0
  received : Nat := 0
  /-- Link delay in ns as measured by Pdelay (R241). -/
  delay : Nat := 0
  deriving DecidableEq, Repr

/-- A slot entry of a bus schedule (R252). -/
structure BusSlot where
  kind : Nat
  part : Nat
  node : Nat
  len : Nat
  deriving DecidableEq, Repr

/-- A CAN FD bus port (R249 to R257, R268). -/
structure Bus where
  nominal : Nat := 0
  dataRate : Nat := 0
  samplePt : Nat := 0
  dataSamplePt : Nat := 0
  delta : Nat := 2
  rows : List (List BusSlot) := []
  /-- Row to use next, row running and the slot due in it. -/
  nextRow : Nat := 0
  row : Nat := 0
  slot : Nat := 0
  cycling : Bool := false
  tec : Nat := 0
  busOff : Bool := false
  /-- The transmission in progress: node, part, SEQ, and whether it is an OUT. -/
  txNow : Option (Nat × Nat × W32 × Bool × Bytes) := none
  /-- OUT parts of this row whose own transmission failed: node, part, SEQ. -/
  failed : List (Nat × Nat × W32) := []
  /-- Partner copies received intact: node * 4 + part to SEQ and DATA. -/
  shadowRx : Table (W32 × Bytes) := []
  /-- Own OUT copies of this row that reached the bus: node * 4 + part to SEQ and DATA. -/
  sentOk : Table (W32 × Bytes) := []
  /-- Nodes whose HELLO is to be answered with ASSIGN in the next OPEN slot. -/
  assignNodes : List Nat := []
  /-- Almanac time of the row start, S + Δ. -/
  rowStart : W64 := 0
  arbLost : Nat := 0
  bitError : Nat := 0
  stuffForm : Nat := 0
  ackError : Nat := 0
  errorFrame : Nat := 0
  notSent : Nat := 0
  outMissed : Nat := 0
  outDiff : Nat := 0
  rowCut : Nat := 0
  foreign : Nat := 0
  deriving DecidableEq, Repr

/-- An RS-485 line port (R259 to R263, R268). -/
structure Line where
  rate : Nat := 0
  bits11 : Bool := false
  delta : Nat := 2
  k : Nat := 0
  /-- The slots left in the running poll cycle: 0 POLL or START of an address, 1 acyclic, 2 IDENT of an address. -/
  slots : List (Nat × Nat) := []
  /-- The request of the present slot, for a takeover, and what reply is awaited. -/
  request : Bytes := []
  awaiting : Option (Nat × Nat) := none
  startSeen : Bool := false
  identTurn : Nat := 0
  rowCut : Nat := 0
  takeover : Nat := 0
  replyMissing : Nat := 0
  lineError : Nat := 0
  deriving DecidableEq, Repr

/-- A data-map entry of a drop (R223, R243). -/
structure MapEnt where
  channel : Nat
  out : Bool
  enc : Nat
  bit : Nat
  /-- Quality bit offset, or 0xFFFF. -/
  qbit : Nat
  deriving DecidableEq, Repr

/-- A binding of a channel to a point (R136). -/
structure Bind where
  handle : W32
  channel : Nat
  out : Bool
  deriving DecidableEq, Repr

/-- A pending acyclic message (R230, R232). -/
structure AcyMsg where
  seq : W32
  cls : W16
  payload : Bytes
  /-- The DROP.SEND whose final is still open. -/
  cmd : Option (Nat × Cmd)
  sent : Bool := false
  /-- Physical time of the last transmission on a bus or line. -/
  sentAt : Nat := 0
  deriving DecidableEq, Repr

/-- A drop as the module holds it (R223 to R244, R268). -/
structure DropCfg where
  kind : SegKind
  /-- Segment number within its kind. -/
  segment : Nat
  /-- Ring position, bus node or line address. -/
  position : Nat
  ceiling : Nat := 1
  outLen : Nat
  inLen : Nat
  outFid : W16 := 0
  inFid : W16 := 0
  wIn : Nat
  watchdog : Nat
  fd : Bool := false
  parts : Nat := 1
  map : List MapEnt
  st : DropState := .absent
  version : Nat := 0
  mac : Nat := 0
  /-- Family and firmware identifier, and version set of the last HELLO. -/
  family : W32 := 0
  versions : Nat := 0
  channels : Nat := 0
  wrapUp : Bool := false
  wrapDown : Bool := false
  /-- Next output SEQ; last launched SEQ and DATA. -/
  outSeq : W32 := 1
  lastSeq : W32 := 0
  lastData : Bytes := []
  lastStale : Bool := true
  held : Option Held := none
  agreed : Option Held := none
  /-- Boundaries since a newer frame was agreed. -/
  missed : Nat := 0
  lastAgreedAt : W64 := 0
  acyNext : W32 := 1
  acyAcked : W32 := 0
  acyPending : List AcyMsg := []
  lastEvent : Option W32 := none
  /-- ASSIGN is being sent until a HELLO with ASSIGNED = 1. -/
  assigning : Bool := false
  assignCtr : W32 := 0
  /-- The step from which the drop is ONLINE. -/
  onlineAt : Option W64 := none
  task : Option Nat := none
  binds : List Bind := []
  /-- A binding that takes effect at the task's next boundary: task or none, and elements. -/
  bindNext : Option (Option Nat × List Bind) := none
  /-- How often the input watchdog W_in has expired (R226). -/
  expiries : Nat := 0
  duplicates : Nat := 0
  /-- SYNC frames of a drop that no task names as its source (R235). -/
  syncIgnored : Nat := 0
  deriving DecidableEq, Repr

/-! ### The pair -/

/-- An equinox swap or handover in progress (R283, R285). -/
structure Handover where
  qp : Nat
  cmd : Cmd
  /-- Command code: PAIR.EQUINOX, PAIR.WITHDRAW, IMAGE.ACTIVATE or IMAGE.REVERT. -/
  code : Nat
  limitMs : Nat
  /-- RELEASE was sent. -/
  released : Bool := false
  deriving DecidableEq, Repr

/-- A resync as the lead runs it (R287). -/
structure Resync where
  /-- 1 copy, 2 join, 3 follow, 4 cut-over. -/
  phase : Nat
  /-- The PAIR.RESYNC to complete, or none for an automatic one. -/
  cmd : Option (Nat × Cmd)
  /-- A warm shadow that stays in RUN. -/
  warmShadow : Bool := false
  cutover : Option W64 := none
  progress : Nat := 0
  deriving DecidableEq, Repr

/-- The pair as this module holds it (R270 to R291). -/
structure Pair where
  role : Role := .none
  mode : PairMode := .alone
  leadEpoch : W32 := 0
  /-- AGEN in MRAM (R272). -/
  agen : W32 := 0
  domain : W32 := 0
  autoResync : Bool := false
  reminderDays : Nat := 0
  /-- The split set recorded in the pair state (R147, R374). -/
  recordedSplit : Nat := 0
  lane0 : Bool := false
  lane1 : Bool := false
  linkUp : Bool := false
  /-- This module and its partner are in the acceptance set (R272). -/
  inSet : Bool := false
  partnerInSet : Bool := false
  /-- Acceptance waits for the witness to record AGEN (R77, R272). -/
  acceptHeld : Bool := false
  /-- End of the lease by this module's clock, in ns (R277). -/
  leaseEnd : Option Nat := none
  witnessLost : Bool := false
  claiming : Bool := false
  claimForce : Bool := false
  counter : W16 := 0
  /-- Stale by a witness reply (R272). -/
  stale : Bool := false
  /-- A warm shadow takes over: its tasks run again from the first boundary after the catch-up frames (R282). -/
  catchup : Bool := false
  lastChange : W64 := 0
  lastSwap : W64 := 0
  changes : Nat := 0
  handover : Option Handover := none
  /-- As shadow: a handover notice was received (R283). -/
  noticed : Bool := false
  resync : Option Resync := none
  /-- As joining module: the resync phase reached. -/
  joining : Option Nat := none
  cutover : Option W64 := none
  /-- The dual-lead window has not yet passed (R279). -/
  window : Bool := false
  wiringMismatch : Bool := false
  w1Seen : Bool := false
  /-- A PAIR.RUN with FORCE waits for its GRANT (R285). -/
  forcedRun : Option (Nat × Cmd) := none
  deriving DecidableEq, Repr

/-! ### Almanac and Chronicle -/

/-- The Almanac and its windows, PPS, ICAL, PTP (R293 to R308). -/
structure Alm where
  t : W64 := 0
  /-- The 40-bit fraction of a nanosecond. -/
  frac : Nat := 0
  /-- ADJ, signed, limited to ±1,099,511,627. -/
  adj : Int := 0
  source : Nat := 0
  locked : Bool := false
  capCount : W16 := 0
  snap : W64 := 0
  stepIgn : Bool := false
  stage : W64 := 0
  /-- A BAR0 step in the island: REL and STAGE (R299). -/
  bar0Step : Option (Bool × W64) := none
  /-- The scheduled step: A, Δ and trigger (R296). -/
  sched : Option (W64 × W64 × Nat) := none
  /-- Configured reference 0 FREE, 2 PTP, 3 PPS, and settings of TIME.CONFIG (R316). -/
  cfgSource : Nat := 0
  role : Nat := 0
  transport : Nat := 0
  p2p : Bool := false
  twoStep : Bool := false
  domainNumber : Nat := 0
  priority1 : Nat := 0
  priority2 : Nat := 0
  logSync : Int := 0
  logAnnounce : Nat := 0
  logDelayReq : Int := 0
  receiptTimeout : Nat := 3
  ringDomain : Nat := 0
  stepLimit : Nat := 1000000
  slewMax : Nat := 100
  offset : Int := 0
  pathDelay : Nat := 0
  partnerOffset : Int := 0
  lastStep : W64 := 0
  steps : Nat := 0
  gmId : W64 := 0
  /-- 1588 port states of the host ports. -/
  port1 : Nat := 3
  port2 : Nat := 3
  ppsOutOn : Bool := false
  ppsInOn : Bool := false
  ppsFalling : Bool := false
  ppsWidth : Nat := 1
  ppsOut : Bool := false
  ppsPresent : Bool := false
  ppsLast : Option W64 := none
  ppsOutliers : Nat := 0
  icalRise : Option W64 := none
  icalFall : Option W64 := none
  icalGlitch : Nat := 0
  /-- TX timestamp queues by port 0..15 lanes, 16, 17 host: frame ID and T (R308). -/
  txTs : Table (List (W16 × W64)) := []
  txNextId : W16 := 0
  tsOverflow : Nat := 0
  /-- Follower alignment at link training is due (R301). -/
  alignDue : Bool := false
  /-- ADJ of the last 60 s, newest first: physical time from which a value held (R300). -/
  adjHist : List (Nat × Int) := []
  deriving DecidableEq, Repr

/-- A token bucket of a Chronicle code (R313), tokens counted in units of 10^-9. -/
structure Bucket where
  rate : Nat
  burst : Nat
  /-- Tokens × 10^9. -/
  tokens : Nat
  /-- Physical time of the last refill. -/
  atNs : Nat
  deriving DecidableEq, Repr

/-- A run of suppressions (R313). -/
structure SuppressRun where
  count : Nat
  firstT : W64
  lastT : W64
  deriving DecidableEq, Repr

/-- The Chronicle (R309 to R315). -/
structure Chron where
  /-- Stored records, oldest first; at most 524,288. -/
  recs : List ChronRec := []
  lastSeq : Nat := 0
  pendingRecs : List ChronEvent := []
  buckets : Table Bucket := []
  runs : Table SuppressRun := []
  suppressed : Nat := 0
  /-- Records mirrored and not yet acknowledged by the partner. -/
  unacked : List Nat := []
  deriving DecidableEq, Repr

/-! ### Local I/O -/

/-- One copy of a calibration record (R328). -/
structure CalCopy where
  refLo : Int := 4000000
  rawLo : Int := 4000000
  refHi : Int := 20000000
  rawHi : Int := 20000000
  count : Nat := 0
  good : Bool := true
  deriving DecidableEq, Repr

/-- An analog input (R323 to R328). -/
structure Ai where
  mode : Nat := 0
  response : Nat := 0
  follow : Bool := false
  vtx : Nat := 80
  rw : Nat := 0
  /-- Loop supply in mV, and whether its thermal cut-off holds. -/
  supply : Nat := 0
  thermal : Bool := false
  raw : Int := 0
  cal : Int := 0
  /-- Outputs still unsettled after a restart. -/
  unsettled : Nat := 0
  limited : Bool := false
  supplySat : Bool := false
  /-- When the newest output completed, and the status bits with it; the output before it. -/
  outAt : W64 := 0
  bits : W16 := 0
  prevCal : Int := 0
  prevBits : W16 := 0
  copy0 : CalCopy := {}
  copy1 : CalCopy := {}
  /-- Fault status was reported. -/
  faulted : Bool := false
  /-- Decimation starts again (restarts counted). -/
  restarts : Nat := 0
  gleam : BitVec 10 := 0
  deriving DecidableEq, Repr

/-- A DIO or FDO channel (R332 to R336). -/
structure OutCh where
  /-- DIO: 0 off, 1 DI Type 1, 2 DI Type 3, 3 DO. FDO: 0 off, 1 on. -/
  mode : Nat := 0
  filter : Nat := 0
  openWireTest : Bool := false
  badq : Bool := false
  terminal : Bool := false
  filtered : Bool := false
  /-- What its driver asks for. -/
  demand : Bool := false
  latched : Bool := false
  /-- Status bits OVERLOAD, OPEN_WIRE, OVERTEMP, GROUP_LIMIT, VIGIL (R340). -/
  status : W16 := 0
  load : Nat := 0
  /-- Vigil timeout in ms, safe state 0 off, 1 on, 2 hold (R335). -/
  timeout : Nat := 10
  safe : Nat := 0
  vigilRunning : Bool := false
  /-- When the vigil timer last restarted. -/
  restartAt : W64 := 0
  expired : Bool := false
  /-- When the safe state was taken. -/
  expiredAt : W64 := 0
  /-- What the channel drives at its terminal. -/
  driven : Bool := false
  deriving DecidableEq, Repr

/-- A binding of the local front (R321, R339). -/
structure LocalBind where
  kind : Nat
  channel : Nat
  slot : Nat
  task : Nat
  valueH : W32
  statusH : W32
  readbackH : W32
  deriving DecidableEq, Repr

/-- A trim being measured (R329). -/
structure Trim where
  channel : Nat
  span : Bool
  reference : Int
  /-- The raw point before the trim. -/
  oldRaw : Int := 0
  /-- The LOCALIO.TRIM, or none for the buttons. -/
  cmd : Option (Nat × Cmd)
  /-- The partner measures. -/
  remote : Bool := false
  /-- The command entered class 6 for its own execution (R385). -/
  ownClass : Bool := false
  deriving DecidableEq, Repr

/-- The local front (R319 to R341). -/
structure Lio where
  ai : List Ai := List.replicate 16 {}
  dio : List OutCh := List.replicate 32 {}
  fdo : List OutCh := List.replicate 8 {}
  binds : List LocalBind := []
  /-- Bindings that take effect at the task's next boundary. -/
  bindsNext : List (LocalBind × Bool) := []
  /-- Trim lock of the pair state (R331). -/
  trimLock : Bool := false
  trimMode : Option Nat := none
  trim : Option Trim := none
  /-- Trim result on the display: 0 none, 1 OK, 2 RNGE, 3 UNST, 4 LOCK, 5 BUSY. -/
  trimShow : Nat := 0
  deriving DecidableEq, Repr

/-! ### HALO and safety outputs -/

/-- A HALO connection at run time (R347 to R349). -/
structure Conn where
  /-- 0 idle, 1 running, 2 quarantined, 3 waiting for a release. -/
  st : Nat := 0
  /-- Last accepted SEQ (input) or last sent SEQ (output); 0xFFFF before the first. -/
  seq : W16 := 0xFFFF
  crcErr : Nat := 0
  seqErr : Nat := 0
  timeouts : Nat := 0
  lastAt : W64 := 0
  /-- Good PDUs of the rejoin run: 0 none yet, 1 base, then up to 4. -/
  runN : Nat := 0
  /-- Key of the frame used at the last check. -/
  lastKey : Option W32 := none
  /-- The drop shows HELD on this input connection. -/
  held : Bool := false
  /-- The PDU that leaves in OUT frames (output), and the one built at the seal of a cycle not yet released. -/
  pdu : Bytes := []
  nextPdu : Bytes := []
  deriving DecidableEq, Repr

/-- A safety output (R354 to R360). -/
structure So where
  /-- Enable entry released as 1 with CLASS 0b11. -/
  enable : Bool := false
  /-- The task released a cycle within its limit. -/
  live : Bool := false
  energised : Bool := false
  locked : Bool := false
  fallback : Bool := false
  /-- The high side is the stuck switch. -/
  stuckHigh : Bool := false
  /-- The restart interlock waits for HALO.ACK. -/
  interlock : Bool := false
  edmFault : Bool := false
  /-- EDM input level (1: contactor released), and whether a change is awaited. -/
  edm : Bool := true
  /-- When the level last changed (condition 6 of R354). -/
  edmAt : W64 := 0
  edmDue : Bool := false
  /-- The switch under test: high side, and whether it is a dark pulse. -/
  test : Option (Bool × Bool) := none
  /-- The tests of both switches have passed since the lock. -/
  highOk : Bool := true
  lowOk : Bool := true
  deriving DecidableEq, Repr

/-- HALO (R343 to R367). -/
structure Halo where
  active : Option Bytes := none
  activeConfirmed : Bool := false
  staged : Option Bytes := none
  stagedSealed : Bool := false
  stagedConfirmed : Bool := false
  conns : Table Conn := []
  /-- Release token of each drop. -/
  tokens : Table Nat := []
  so : List So := List.replicate 8 {}
  tests : W64 := 0
  /-- The slot in which a test runs. -/
  testSlot : Option Nat := none
  umbraCause : Nat := 0
  /-- DIAG.SELFTEST found a failed vector: UMBRA once this completion is posted, by QP and ticket (R421). -/
  selfFail : Option (Nat × W64) := none
  deriving DecidableEq, Repr

/-! ### Maintenance and relays -/

/-- Who holds a maintenance class (R388). -/
inductive Holder where
  | qp (n : Nat)
  | pair
  | frontA
  | frontB
  | relay
  deriving DecidableEq, Repr

/-- An entered class (R385). -/
structure MaintEntry where
  holder : Holder
  leaseMin : Nat := 0
  /-- Physical time at which the lease began. -/
  since : Nat := 0
  deriving DecidableEq, Repr

/-- A hop's report at the origin (R382 to R384). -/
structure RelayResult where
  index : Nat
  cls : Nat
  result : Nat
  code : Nat
  /-- Blocks stored. -/
  stored : Nat
  deriving DecidableEq, Repr

/-- A relay-list transfer as sender (R384). -/
structure RelayTx where
  tid : W32
  hops : List RelayHop
  /-- List index of the receiver being served. -/
  index : Nat
  cls : Nat
  classes : List Nat
  headerFirst : Bool
  source : Nat
  offers : Nat := 1
  accepted : Bool := false
  block : Nat := 0
  fails : Nat := 0
  /-- Own index in the list. -/
  own : Nat := 0
  /-- The IMAGE.RELAY at its origin, and the results of its hops. -/
  cmd : Option (Nat × Cmd) := none
  results : List RelayResult := []
  /-- The block under way has been sent; otherwise it waits to be stored here. -/
  sent : Bool := false
  /-- Every class has gone to the next entry, or no entry is left. -/
  served : Bool := false
  /-- The copy to the origin's partner is not complete. -/
  partnerDue : Bool := false
  deriving DecidableEq, Repr

/-- A relay-list transfer as receiver (R384). -/
structure RelayRx where
  offer : RelayOffer
  block : Nat := 0
  /-- Bytes of the block under way by fragment. -/
  frags : Table Bytes := []
  deriving DecidableEq, Repr

/-- The maintenance token and what waits on it (R385, R386). -/
structure Maint where
  entries : Table MaintEntry := []
  /-- Commands that wait for a conflicting class to end: QP, code, command. -/
  waits : List (Nat × Nat × Cmd) := []
  /-- The IMAGE.ACTIVATE or IMAGE.REVERT whose verdict is awaited. -/
  verdict : Option (Nat × Nat × Cmd) := none
  tx : Option RelayTx := none
  rx : Option RelayRx := none
  deriving DecidableEq, Repr

/-! ### Diagnostics -/

/-- Counters of DIAG.MEMORY and DIAG.COUNTERS (R18, R420). -/
structure Diag where
  dramCorrected : Nat := 0
  dramUncorrectable : Nat := 0
  dramCorrectedAt : Nat := 0
  dramUncorrectableAt : Nat := 0
  mramCorrected : Nat := 0
  mramUncorrectable : Nat := 0
  patrolAt : W64 := 0
  patrolDuration : Nat := 0
  patrolMib : Nat := 0
  parity : Nat := 0
  /-- Almanac times of uncorrectable point-store and program-bank errors of the last hour (R362, cause 4). -/
  recent : List W64 := []
  blocksResent : Nat := 0
  mismatches : Nat := 0
  digestMismatches : Nat := 0
  agreeConflicts : Nat := 0
  deriving DecidableEq, Repr

/-- The data side of a module's replica. -/
structure Store where
  points : Table PointRec := []
  parts : Table Partition := []
  arb : Arbiter := {}
  retained : Table RetRec := []
  /-- Retained records without a point since a power loss (R104). -/
  orphans : Table RetRec := []
  log : List LogCommit := []
  subs : Table Subscription := []
  pubs : Table Publication := []
  imports : Table Import := []
  deriving DecidableEq, Repr

/-- A step whose input agreement is open, or whose actions 2 and 4 wait for that of an earlier step (R129, R131). -/
structure OpenStep where
  instant : W64
  /-- Tasks with a boundary at the step; those that start a cycle; those of which a cycle was released. -/
  tasks : List Nat := []
  starts : List Nat := []
  released : List Nat := []
  /-- The OUT frames of the step were launched. -/
  launched : Bool := false
  /-- What this module offers, the partner's summary, and contents the partner sent. -/
  offered : List Content := []
  partner : Option (List SumEntry) := none
  got : List Content := []
  deriving DecidableEq, Repr

/-- Tasks and clusters. -/
structure Exec where
  tasks : Table Task := []
  units : List XUnit := List.replicate 32 {}
  /-- The local inputs sampled at the open step: task, then handle, value, quality (R322). -/
  samples : List (Nat × List (W32 × W64 × W16)) := []
  /-- The last step processed, the step whose input agreement is open, and the steps that wait for its input commit. -/
  lastStep : W64 := 0
  agreeing : Option OpenStep := none
  waitingSteps : List OpenStep := []
  /-- Summaries of the partner for steps this module has not reached. -/
  early : List (W64 × List SumEntry) := []
  deriving DecidableEq, Repr

/-- Segments and configured drops. -/
structure Field where
  rings : List Ring := List.replicate 8 {}
  buses : List Bus := List.replicate 4 {}
  lines : List Line := List.replicate 4 {}
  lanes : List Lane := List.replicate 18 {}
  drops : Table DropCfg := []
  /-- Acyclic messages that wait for their drop ID to be configured again (R233). -/
  acyWaiting : List (Nat × AcyMsg) := []
  deriving DecidableEq, Repr

/-- One module. -/
structure Module where
  slot : Slot
  hw : HwId := {}
  power : Power := {}
  boot : Boot := {}
  mail : Mailbox := {}
  store : Store := {}
  exec : Exec := {}
  glint : Glint := {}
  field : Field := {}
  pair : Pair := {}
  alm : Alm := {}
  chron : Chron := {}
  lio : Lio := {}
  halo : Halo := {}
  maint : Maint := {}
  diag : Diag := {}
  /-- Physical time in ns by the module's own clock, for leases and the rate limits (log entry 7). -/
  phys : Nat := 0
  /-- What the module has sent, oldest first. -/
  out : List Emit := []
  deriving DecidableEq, Repr

/-- A CLAIM pending at the witness (R276). -/
structure PendClaim where
  agen : W32
  force : Bool
  counter : W16
  order : Nat
  deriving DecidableEq, Repr

/-- The witness (R276). -/
structure Witness where
  holder : Option Slot := none
  /-- The holder's lease is running. -/
  running : Bool := false
  /-- The last lease ended less than 10 µs ago. -/
  holdoff : Bool := false
  /-- A released lease is reserved for this slot. -/
  reserved : Option Slot := none
  agen : W32 := 0
  leadEpoch : W32 := 0
  domain : W32 := 0
  pendA : Option PendClaim := none
  pendB : Option PendClaim := none
  /-- A run of CLAIMs of a slot has begun, and the holder has renewed since with SYNC_UP = 0. -/
  runA : Bool := false
  runB : Bool := false
  sync0A : Bool := false
  sync0B : Bool := false
  order : Nat := 0
  /-- Last PRESENT of each slot, for diagnostics. -/
  presentA : Option WMsg := none
  presentB : Option WMsg := none
  out : List Emit := []
  deriving DecidableEq, Repr

/-- A drop in the field (R218, R222, R224, R231, R236, R258, R263). -/
structure Station where
  kind : SegKind := .ring
  segment : Nat := 0
  position : Nat := 1
  mac : Nat := 0
  /-- Versions supported: bit 0 v1, bit 1 v2. -/
  versions : Nat := 3
  family : W32 := 0
  channels : Nat := 64
  powered : Bool := false
  assigned : Bool := false
  version : Nat := 0
  /-- The assignment held: S0, next acyclic SEQ, FRAME_IDs, watchdog. -/
  assign : Bytes := []
  outFid : W16 := 0
  inFid : W16 := 0
  watchdog : Nat := 0
  lastOut : W32 := 0
  /-- Gen-1: last accepted SEQ of each OUT part. -/
  lastParts : Table W32 := []
  inSeq : W32 := 0
  /-- Last applied acyclic SEQ, in nonvolatile memory. -/
  lastAcy : W32 := 0
  lastEvent : W32 := 0
  /-- The drop drives its safe states. -/
  inSafe : Bool := true
  outputs : Bytes := []
  safe : Bytes := []
  inputs : Bytes := []
  inputFault : Bool := false
  inputsStale : Bool := false
  /-- Accepted OUT frames that wait for their TIME: TIME, DATA, STALE. -/
  waitingOut : List (W64 × Bytes × Bool) := []
  etherType : Nat := 0x88B5
  /-- Gen-1: CAN FD capable; a HELLO that answers an ASSIGN is due in the next OPEN slot. -/
  fd : Bool := true
  helloDue : Bool := false
  lateOut : Nat := 0
  linkUp : Bool := false
  linkDown : Bool := false
  wrapUp : Bool := false
  wrapDown : Bool := false
  /-- Gen-1: row start seen, IN offset of the assignment. -/
  rowStart : Option W64 := none
  inOffset : Nat := 0
  /-- Gen-0: not yet started. -/
  unassigned : Bool := true
  applied : List (W32 × Bytes) := []
  out : List Emit := []
  deriving DecidableEq, Repr

/-- The domain: two modules, the witness, the drops in the field, the clock and the queue of waiting commands. -/
structure State where
  modA : Module := { slot := .a }
  modB : Module := { slot := .b, hw := { slotB := true, slotBPin := true } }
  witness : Witness := {}
  stations : Table Station := []
  /-- The model's own counter of free values drawn (log entry 3). -/
  fresh : Nat := 0
  pending : List Instr := []
  deriving DecidableEq, Repr

/-- Kinds of Quondi command (R56). -/
inductive Kind where
  | work | query | loc
  deriving DecidableEq, Repr

/-- Scopes of Quondi commands (R88): system, partition, any QP. -/
inductive Scope where
  | sys | part | any
  deriving DecidableEq, Repr

/-- What the execution of a Quondi command gives: the final stage with its status, DETAIL and response; a wait for a
maintenance class (R386); or an execution whose final stage comes with a later event. A refusal has no effect (R70). -/
inductive QRes where
  | done (status detail : Nat) (rsp : Bytes) (m : Module)
  | refused (status detail : Nat)
  /-- A refusal that leaves a Chronicle record and nothing else. -/
  | refusedRec (status detail : Nat) (m : Module)
  | waits
  | later (m : Module)
  deriving DecidableEq, Repr

/-- Why a run stops with a fault. -/
inductive Fault where
  /-- Raised by a Lumen instruction whose operands do not fit the evaluation stack, a local index or the block at
  hand: overflow, underflow and type mismatch never occur at run time (R159), so no machine reaches it. Safe. -/
  | lumenTyping
  deriving DecidableEq, Repr

/-- Why a command has no meaning here. -/
inductive Refusal where
  /-- A command whose meaning is not written. Safe. -/
  | notModelled (mnemonic : String)
  deriving DecidableEq, Repr

/-- The domain right after power-up of both modules (log entry 1): both in LOADER, every field at its default. -/
def State.reset : State := {}

end Sys2Proof.Machine
end

