-- ==== Sys2Proof/Machine/Ops.lean ====
section
/-! DEFINITION. Machine/Ops.lean: the named operations every family of commands shares: access to the modules, what a module
sends, its Chronicle queue, the mailbox journal, the ticket windows and the end of a Quondi command. -/

namespace Sys2Proof.Machine
open Sys2Proof Sys2Proof.Bits

/-- What a command answers. -/
abbrev Res := Host.Outcome State Fault Refusal

/-! ### The modules of the domain -/

/-- The other carrier slot. -/
def otherSlot : Slot → Slot
  | .a => .b
  | .b => .a

/-- 0 for slot A, 1 for slot B (R36). -/
def slotN : Slot → Nat
  | .a => 0
  | .b => 1

/-- The module in a slot. -/
def modOf (s : State) : Slot → Module
  | .a => s.modA
  | .b => s.modB

/-- The state with another module in a slot. -/
def withMod (s : State) (sl : Slot) (m : Module) : State :=
  match sl with
  | .a => { s with modA := m }
  | .b => { s with modB := m }

/-- An event on one module that needs nothing of its partner. -/
def onMod (s : State) (sl : Slot) (f : Module → Module) : Res :=
  .next (withMod s sl (f (modOf s sl)))

/-- An event on one module that sees what its partner shows over the sync link (log entry 8). -/
def onPair (s : State) (sl : Slot) (f : Module → Module → Module) : Res :=
  .next (withMod s sl (f (modOf s sl) (modOf s (otherSlot sl))))

/-- An event on one module that draws one free value (log entry 3). -/
def onModFree (s : State) (sl : Slot) (f : Module → W64 → Module) : Res :=
  .next { withMod s sl (f (modOf s sl) (Config.freeValue s.fresh)) with fresh := s.fresh + 1 }

/-- An event at a drop in the field; a drop that is not there does nothing. -/
def onStation (s : State) (id : Nat) (f : Station → Station) : Res :=
  .next { s with stations := tmod s.stations id f }

/-- An event at the witness. -/
def onWitness (s : State) (f : Witness → Witness) : Res := .next { s with witness := f s.witness }

/-- What a module sends goes to the end of its output. -/
def emit (m : Module) (e : Emit) : Module := { m with out := m.out ++ [e] }

/-- Send several things in order. -/
def emits (m : Module) (es : List Emit) : Module := { m with out := m.out ++ es }

/-- The Almanac time of a module. -/
def now (m : Module) : W64 := m.alm.t

/-- The module state code (R28). -/
def stateCode : ModState → Nat
  | .off => 0
  | .loader => 1
  | .verify => 2
  | .starting => 3
  | .ready => 4
  | .run => 5
  | .umbra => 6
  | .splitOff => 7
  | .halt => 8

/-- Logic power stands: after the declaration that it is lost nothing else starts (R400, R419). -/
def hasPower (m : Module) : Bool := m.power.phase == .good

/-- Firmware runs and serves the mailboxes (R28). -/
def fw (m : Module) : Bool :=
  hasPower m && match m.boot.state with
  | .ready | .run | .umbra | .splitOff => true
  | _ => false

/-- READY or RUN. -/
def serving (m : Module) : Bool :=
  hasPower m && match m.boot.state with
  | .ready | .run => true
  | _ => false

/-- In RUN. -/
def inRun (m : Module) : Bool := hasPower m && m.boot.state == .run

/-- The module holds the lead role. -/
def isLead (m : Module) : Bool := m.pair.role == .lead

/-- The Glint engine runs (R28). -/
def glintRuns (m : Module) : Bool := fw m

/-- The sync link is up on both sides. -/
def linked (m p : Module) : Bool := m.pair.linkUp && p.pair.linkUp

/-- The module is powered and its SoC runs: any state but OFF (R29). -/
def powered (m : Module) : Bool := m.boot.state != .off

def roleCode : Role → Nat
  | .none => 0
  | .lead => 1
  | .shadow => 2

/-- R60: 0 alone, 1 in-step, 2 warm. -/
def modeCode : PairMode → Nat
  | .alone => 0
  | .inStep => 1
  | .warm => 2

/-- Task field or handle arithmetic: a 64-bit value from a natural number. -/
def w64 (n : Nat) : W64 := BitVec.ofNat 64 n
def w32 (n : Nat) : W32 := BitVec.ofNat 32 n
def w16 (n : Nat) : W16 := BitVec.ofNat 16 n

/-! ### Space in the mailbox journal -/

/-- The space an entry takes: 128 bytes and the request data rounded up to 64 (R76). -/
def entrySize (req : Bytes) : Nat := 128 + (req.length + 63) / 64 * 64

/-- Space taken in the 32 MiB journal. -/
def journalUsed (j : List JEntry) : Nat := (j.map (fun e => entrySize e.req)).sum

/-- Free journal space in bytes (R19). -/
def journalFree (m : Module) : Nat := 33554432 - journalUsed m.mail.journal

/-! ### Interrupts and the anchor block -/

/-- An MSI of vector `v`, which raises `v` modulo the number enabled (R67). -/
def msi (m : Module) (v : Nat) : Module :=
  if m.boot.msiCount = 0 then m else emit m (.msi (v % m.boot.msiCount))

/-- QP 0 of a module, which is open while a host is attached. -/
def attached (m : Module) : Bool :=
  match tget m.mail.qps 0 with
  | some q => q.st == .opened
  | none => false

/-- The anchor block 0x800 to 0x82F (R60). -/
def anchorBlock (m : Module) : Bytes :=
  leBytes 4 m.mail.gen.toNat
    ++ [BitVec.ofNat 8 (stateCode m.boot.state), BitVec.ofNat 8 (roleCode m.pair.role),
        BitVec.ofNat 8 (modeCode m.pair.mode), BitVec.ofNat 8 (slotN m.slot)]
    ++ leBytes 4 m.pair.leadEpoch.toNat ++ leBytes 1 m.mail.anchorStatus ++ zeros 3
    ++ leBytes 8 m.mail.heartbeat.toNat ++ leBytes 4 (journalFree m / 1024) ++ leBytes 4 m.mail.inFlight
    ++ zeros 16

/-- The block is rewritten as a unit under GEN (R61). -/
def writeAnchor (m : Module) : Module :=
  let m := { m with mail := { m.mail with gen := m.mail.gen + 2 } }
  emit m (.anchor (anchorBlock m))

/-- The rewrite on a change of STATE, ROLE, MODE or LEAD_EPOCH, with MSI vector 0 (R61). -/
def anchorChange (m : Module) : Module :=
  if attached m then msi (writeAnchor m) 0 else m

/-- The change of those fields between two moments of one event. -/
def anchorIfChanged (old m : Module) : Module :=
  if old.boot.state = m.boot.state ∧ old.pair.role = m.pair.role ∧ old.pair.mode = m.pair.mode
      ∧ old.pair.leadEpoch = m.pair.leadEpoch then m
  else anchorChange m

/-! ### The Chronicle queue (R310 to R315) -/

/-- SOURCE (R312): slot, kind, index. -/
def srcOf (m : Module) (kind idx : Nat) : W16 :=
  w16 (0x8000 * slotN m.slot + 0x1000 * (kind % 8) + idx % 0x1000)

/-- Severity by code (R315, R341, R366, R390): 0 info, 1 warning, 2 error, 3 fault. -/
def severityOf (code : Nat) : Nat :=
  if code ∈ [0x0003, 0x0302, 0x0303, 0x0305, 0x0403, 0x0404, 0x0B01, 0x0807, 0x0903, 0x0904, 0x0905] then 2
  else if code ∈ [0x0505, 0x0908] then 3
  else if code ∈ [0x0004, 0x0005, 0x0103, 0x0104, 0x0301, 0x0304, 0x0306, 0x0402, 0x0405, 0x0406, 0x0502,
    0x0503, 0x0504, 0x0602, 0x0604, 0x0605, 0x0801, 0x0802, 0x0803, 0x0901, 0x0909, 0x0A03] then 1
  else 0

/-- Codes marked E (R315, R341, R366, R390). -/
def exemptCode (code : Nat) : Bool :=
  decide (code ∈ [0x0001, 0x0002, 0x0501, 0x0505, 0x0506, 0x0601, 0x0A01, 0x0805, 0x0806, 0x0807, 0x0904, 0x0906,
    0x0907, 0x0908, 0x0909, 0x0A02, 0x0A03, 0x0A04, 0x0A05])

/-- Default RATE and BURST by severity (R313). -/
def defaultLimit (sev : Nat) : Nat × Nat :=
  if sev = 0 then (20, 50) else if sev = 1 then (10, 20) else (5, 20)

/-- A full bucket. -/
def fullBucket (rate burst nowNs : Nat) : Bucket :=
  { rate := rate, burst := burst, tokens := burst * 1000000000, atNs := nowNs }

/-- The bucket of a code, refilled to the present. -/
def bucketOf (m : Module) (code sev : Nat) : Bucket :=
  match tget m.chron.buckets code with
  | none => fullBucket (defaultLimit sev).1 (defaultLimit sev).2 m.phys
  | some b => { b with tokens := min (b.burst * 1000000000) (b.tokens + b.rate * (m.phys - b.atNs)), atNs := m.phys }

/-- Pending records that count against the 4,096 entries (R311). -/
def pendingLimited (m : Module) : Nat := (m.chron.pendingRecs.filter (fun e => !exemptCode e.code)).length

/-- Pending exempt records other than summaries (R311). -/
def pendingExempt (m : Module) : Nat :=
  (m.chron.pendingRecs.filter (fun e => exemptCode e.code && e.code != 1)).length

/-- Put a record on the pending queue. -/
def pushPending (m : Module) (e : ChronEvent) : Module :=
  { m with chron := { m.chron with pendingRecs := m.chron.pendingRecs ++ [e] } }

/-- The SUMMARY that ends a run of suppressions (R313, R315). -/
def summaryEvent (m : Module) (code : Nat) (r : SuppressRun) : ChronEvent :=
  { code := 1, time := now m, source := srcOf m 0 0, partition := 0xFFFF, severity := 0
    data := leBytes 2 code ++ zeros 2 ++ leBytes 4 (sat32 r.count) ++ leBytes 8 r.firstT.toNat
      ++ leBytes 8 r.lastT.toNat }

/-- End the run of a code, if one is open (R313). -/
def endRun (m : Module) (code : Nat) : Module :=
  match tget m.chron.runs code with
  | none => m
  | some r =>
    let m1 := pushPending m (summaryEvent m code r)
    { m1 with chron := { m1.chron with runs := tdel m1.chron.runs code } }

/-- Suppress and count a record (R311, R313). -/
def suppress (m : Module) (e : ChronEvent) : Module :=
  let r := match tget m.chron.runs e.code with
    | none => { count := 1, firstT := e.time, lastT := e.time : SuppressRun }
    | some r => { r with count := r.count + 1, lastT := e.time }
  { m with chron := { m.chron with runs := tset m.chron.runs e.code r, suppressed := inc32 m.chron.suppressed } }

/-- May a record of this event be written now: an exempt code, or a token and a free entry (R311, R313)? -/
def permitted (m : Module) (e : ChronEvent) : Bool :=
  exemptCode e.code ||
    (decide (1000000000 ≤ (bucketOf m e.code e.severity).tokens) && (bucketOf m e.code e.severity).rate != 0
      && decide (pendingLimited m < 4096))

/-- A record this module is to write joins the pending queue, or is suppressed (R311, R313). -/
def queueEvent (m : Module) (e : ChronEvent) : Module :=
  if exemptCode e.code then pushPending m e
  else
    let b := bucketOf m e.code e.severity
    if permitted m e then
      let m1 := endRun m e.code
      let m2 := pushPending m1 e
      { m2 with chron := { m2.chron with buckets := tset m2.chron.buckets e.code { b with tokens := b.tokens - 1000000000 } } }
    else
      let m1 := suppress m e
      { m1 with chron := { m1.chron with buckets := tset m1.chron.buckets e.code b } }

/-- The module writes LOCAL records of its own: no lead, and without the sync link or outside the acceptance set (R310). -/
def writesLocal (m : Module) : Bool := !isLead m && !(m.pair.linkUp && m.pair.inSet)

/-- Which module records an event (R310): the lead, or a module that writes its own; a shadow sends what it alone sees to the
lead. `both` marks what both in-step modules observe identically. -/
def routeEvent (m : Module) (both : Bool) (e : ChronEvent) : Module :=
  if !fw m then m
  else if isLead m || writesLocal m then queueEvent m e
  else if both && m.pair.mode == .inStep then m
  else emit m (.sync (.shadowEvent e))

/-- An event of this module with a code, source kind and index, partition and DATA. -/
def logEv (m : Module) (code kind idx : Nat) (part : Nat) (data : Bytes) : Module :=
  routeEvent m false
    { code := code, time := now m, source := srcOf m kind idx, partition := w16 part, severity := severityOf code,
      data := fit 24 data }

/-- An event that both in-step modules observe identically. -/
def logBoth (m : Module) (code kind idx : Nat) (part : Nat) (data : Bytes) : Module :=
  routeEvent m true
    { code := code, time := now m, source := srcOf m kind idx, partition := w16 part, severity := severityOf code,
      data := fit 24 data }

/-! ### Journal space -/

/-- A stall begins below 1 MiB free and ends at 2 MiB free (R78). -/
def checkStall (m : Module) : Module :=
  if m.mail.stalled then
    if 2097152 ≤ journalFree m then { m with mail := { m.mail with stalled := false } } else m
  else if journalFree m < 1048576 then
    let m1 := { m with mail := { m.mail with stalled := true, stalls := inc32 m.mail.stalls } }
    logEv m1 0x0104 1 0 0xFFFF (leBytes 4 (journalFree m / 1024) ++ leBytes 4 m.mail.inFlight)
  else m

/-- The journal entry of a QP and ticket. -/
def journalFind (m : Module) (qp : Nat) (t : W64) : Option JEntry :=
  m.mail.journal.find? (fun e => e.qp == qp && e.d.ticket == t)

/-- Is the command held in the journal? -/
def journalHas (m : Module) (qp : Nat) (t : W64) : Bool := (journalFind m qp t).isSome

/-- Change the entry of a QP and ticket. -/
def journalMod (m : Module) (qp : Nat) (t : W64) (f : JEntry → JEntry) : Module :=
  let j := m.mail.journal.map (fun e => if e.qp == qp && e.d.ticket == t then f e else e)
  { m with mail := { m.mail with journal := j } }

/-- JOURNAL_RETIRE: an entry's space is freed, and a stall may end (R78). -/
def journalRetire (m : Module) (qp : Nat) (t : W64) : Module :=
  let j := m.mail.journal.filter (fun e => !(e.qp == qp && e.d.ticket == t))
  checkStall { m with mail := { m.mail with journal := j } }

/-! ### Ticket windows -/

/-- The window of a QP, newest record first. -/
def windowOf (m : Module) (qp : Nat) : List TicketRec := (tget m.mail.tickets qp).getD []

/-- The record of a ticket. -/
def ticketFind (m : Module) (qp : Nat) (t : W64) : Option TicketRec :=
  (windowOf m qp).find? (fun r => r.ticket == t)

/-- L: the lowest ticket in the window. -/
def ticketLow (m : Module) (qp : Nat) : Option Nat :=
  match windowOf m qp with
  | [] => none
  | r :: rs => some (rs.foldl (fun a x => min a x.ticket.toNat) r.ticket.toNat)

/-- Enter a record or bring it to its present stage; the last 4,096 are kept and H follows (section Tickets). -/
def ticketPut (m : Module) (qp : Nat) (r : TicketRec) : Module :=
  let w := windowOf m qp
  let w' := if w.any (fun x => x.ticket == r.ticket)
    then w.map (fun x => if x.ticket == r.ticket then { r with dupWaits := x.dupWaits } else x)
    else (r :: w).take 4096
  let h := match tget m.mail.highest qp with
    | none => r.ticket
    | some h => if h.toNat < r.ticket.toNat then r.ticket else h
  { m with mail := { m.mail with tickets := tset m.mail.tickets qp w', highest := tset m.mail.highest qp h } }

/-! ### Completions -/

/-- Is the QP open or closing on this module? -/
def qpLive (m : Module) (qp : Nat) : Bool :=
  match tget m.mail.qps qp with
  | some q => q.st != .closed
  | none => false

/-- Change a QP. -/
def qpMod (m : Module) (qp : Nat) (f : Qp → Qp) : Module :=
  { m with mail := { m.mail with qps := tmod m.mail.qps qp f } }

/-- A completion is held for posting in order (R65); a QP that is not open gets none. -/
def pushCpl (m : Module) (qp : Nat) (c : Cpl) : Module :=
  if qpLive m qp then qpMod m qp (fun q => { q with held := q.held ++ [c] }) else m

/-- FLAGS.NO_IRQ (R68). -/
def noIrq (flags : Byte) : Bool := flags.getLsbD 2
/-- FLAGS.WANT_ACC. -/
def wantAcc (flags : Byte) : Bool := flags.getLsbD 1
/-- FLAGS.WANT_RCV. -/
def wantRcv (flags : Byte) : Bool := flags.getLsbD 0

/-- The command of a descriptor with its request data. -/
def cmdOf (qp : Nat) (d : Desc) (req : Bytes) : Cmd :=
  { qp := qp, ticket := d.ticket, flags := d.flags, target := d.target, rspLen := d.rspLen, param := d.param, req := req }

/-- Remove a query or local command from those that wait to run. -/
def unwait (m : Module) (code : Nat) (c : Cmd) : Module :=
  { m with mail := { m.mail with waiting := m.mail.waiting.filter (fun w => !(w.1 == c.qp && w.2.1 == code && w.2.2.1 == c)) } }

/-- A query or local command waits for the work fetched before it on its QP (R71). -/
def behindWork (m : Module) (code : Nat) (c : Cmd) : Bool :=
  m.mail.waiting.any (fun w => w.1 == c.qp && w.2.1 == code && w.2.2.1 == c &&
    w.2.2.2.any (fun t => match journalFind m c.qp t with
      | some e => !e.final
      | none => false))

/-- The lead retires an entry; a partner that journals hears of it with the next journal message (R78). -/
def retireFinal (m : Module) (qp : Nat) (t : W64) : Module :=
  if !journalHas m qp t then m
  else
    let m1 := journalRetire m qp t
    if m.pair.linkUp && m.pair.partnerInSet then { m1 with mail := { m1.mail with reports := m1.mail.reports ++ [(qp, t)] } } else m1

/-- The final stage of a work command: the window record, the journal entry and, on the lead, the completions; an
entry held since a takeover reports later (R70 to R73, R81). An entry whose QP is gone is retired at once (log entry 40). -/
def finishWork (m : Module) (code : Nat) (c : Cmd) (stage status detail : Nat) (rsp : Bytes) (waitsRec : Bool) : Module :=
  let dups := match ticketFind m c.qp c.ticket with
    | some r => r.dupWaits
    | none => 0
  let inherited := match journalFind m c.qp c.ticket with
    | some e => e.inherited
    | none => false
  let m1 := ticketPut m c.qp { ticket := c.ticket, stage := stage, status := status, detail := detail, time := now m }
  let m2 := journalMod m1 c.qp c.ticket (fun e => { e with final := true, stage := stage, status := status, detail := detail })
  let base : Cpl :=
    { ticket := c.ticket, code := code, stage := stage, status := status, detail := detail, time := now m,
      noIrq := noIrq c.flags, work := true }
  if isLead m then
    let m3 := if inherited then m2 else pushCpl m2 c.qp { base with rsp := rsp.take c.rspLen, waitsRecord := waitsRec }
    let m4 := (List.replicate dups { base with dup := true }).foldl (fun a x => pushCpl a c.qp x) m3
    if inherited || qpLive m c.qp then m4 else retireFinal m4 c.qp c.ticket
  else m2

/-- The final stage of any command. -/
def finish (m : Module) (kind : Kind) (code : Nat) (c : Cmd) (stage status detail : Nat) (rsp : Bytes)
    (waitsRec : Bool := false) : Module :=
  match kind with
  | .work => finishWork m code c stage status detail rsp waitsRec
  | _ => pushCpl (unwait m code c) c.qp
      { ticket := c.ticket, code := code, stage := stage, status := status, detail := detail,
        rsp := rsp.take c.rspLen, time := now m, noIrq := noIrq c.flags, waitsRecord := waitsRec }

/-! ### Who a command acts as, and whether the module serves it -/

/-- The acting partition: that of a partition QP, or TARGET on QPs 0 to 3 (R57, R98). -/
def actPart (c : Cmd) : Option Nat :=
  if 4 ≤ c.qp then some (c.qp - 4) else if c.target = 0xFFFF then none else some c.target.toNat

/-- The partition of a number. -/
def partOf (m : Module) (p : Nat) : Option Partition := tget m.store.parts p

/-- A capability of the partition (R105). -/
def hasCap (m : Module) (p bitNo : Nat) : Bool :=
  match partOf m p with
  | some q => q.caps.getLsbD bitNo
  | none => false

/-- The states in which a module serves a kind of command of a family (R56). -/
def serves (m : Module) (kind : Kind) (code : Nat) : Bool :=
  match m.boot.state with
  | .ready | .run => true
  | .umbra | .splitOff =>
    match kind with
    | .loc => true
    | .query => code / 256 == 7 || code / 256 == 12
    | .work => false
  | _ => false

/-- The run-lock refuses work that QPs 0 to 3 direct at the partition (R109). PARTITION.RUNLOCK itself keeps its
own refusal. -/
def runLocked (m : Module) (code : Nat) (c : Cmd) : Bool :=
  decide (c.qp < 4) && c.target != 0xFFFF && code != 0x0B04 &&
    match partOf m c.target.toNat with
    | some q => q.runLock
    | none => false

/-- A command acts as a partition that does not exist (R98). -/
def noPart (m : Module) (scope : Scope) (c : Cmd) : Bool :=
  scope == .part &&
    match actPart c with
    | some p => (partOf m p).isNone
    | none => false

/-- A journaled command runs once, and not before it is accepted (R72, R76). -/
def heldBack (m : Module) (c : Cmd) : Bool :=
  match journalFind m c.qp c.ticket with
  | some e => e.started || e.final || !e.accepted
  | none => false

/-- Enter what a handler gives: its final stage, its wait for a class, or its start. An exempt record that a command
caused while the reserve was taken holds back its final completion (R311). -/
def settle (m : Module) (kind : Kind) (code : Nat) (c : Cmd) : QRes → Module
  | .done status detail rsp m' =>
    finish m' kind code c 3 status detail rsp (decide (512 < pendingExempt m' ∧ pendingExempt m < pendingExempt m'))
  | .refused status detail => finish m kind code c 4 status detail []
  | .refusedRec status detail m' => finish m' kind code c 4 status detail []
  | .waits =>
    let m1 := journalMod m c.qp c.ticket (fun e => { e with started := true })
    { m1 with maint := { m1.maint with waits := m1.maint.waits ++ [(c.qp, code, c)] } }
  | .later m' => unwait (journalMod m' c.qp c.ticket (fun e => { e with started := true })) code c

/-- The execution of a Quondi command on a module: who serves it (R56), as which partition (R98), under which run-lock
(R109), then its own handler. Work of a module without the lead role runs only from its journal (R72). -/
def runCmd (h : Module → Module → Cmd → QRes) (kind : Kind) (scope : Scope) (code : Nat) (c : Cmd) (m p : Module) : Module :=
  if !fw m || (kind != .work && behindWork m code c) || (kind == .work && heldBack m c) then m
  else if !serves m kind code then finish m kind code c 4 0x000B 0 []
  else if kind == .work && !isLead m && !journalHas m c.qp c.ticket then
    pushCpl m c.qp { ticket := c.ticket, code := code, stage := 4, status := 4, time := now m, noIrq := noIrq c.flags }
  else if noPart m scope c then finish m kind code c 4 0x0008 0 []
  else if kind == .work && runLocked m code c then finish m kind code c 4 0x000D 0 []
  else settle m kind code c (h m p c)

/-- The row of a Quondi command: its execution on the module of a slot. -/
def quondi (h : Module → Module → Cmd → QRes) (kind : Kind) (scope : Scope) (code : Nat) (s : State) (sl : Slot) (c : Cmd) : Res :=
  onPair s sl (runCmd h kind scope code c)

/-! ### Plain readers of PARAM -/

/-- A little-endian field of PARAM. -/
def prm (c : Cmd) (o n : Nat) : Nat := le c.param o n
/-- An octet of PARAM. -/
def prmB (c : Cmd) (o : Nat) : Nat := byteAt c.param o

/-- DONE with OK and no response. -/
def ok (m : Module) : QRes := .done 0 0 [] m
/-- DONE with OK and a response. -/
def okRsp (rsp : Bytes) (m : Module) : QRes := .done 0 0 rsp m

end Sys2Proof.Machine
end

