-- ==== Sys2Proof/Machine/Points.lean ====
section
/-! DEFINITION. Machine/Points.lean: the point store (R94 to R104), partitions (R105 to R110), the guard's descriptors and
latches (R111 to R115), the arbiter (R116, R117) and the commands of the families POINT, PARTITION and GUARD. -/

namespace Sys2Proof.Machine
open Sys2Proof Sys2Proof.Bits

/-! ### Handles and records -/

/-- INDEX of a handle (R98). -/
def hIdx (h : W32) : Nat := (h.setWidth 25).toNat
/-- GEN of a handle. -/
def hGen (h : W32) : BitVec 7 := h.extractLsb' 25 7
/-- A handle. -/
def mkHandle (i : Nat) (g : BitVec 7) : W32 := g ++ BitVec.ofNat 25 i

/-- The type of a code (R158). -/
def typeOfCode (n : Nat) : Option LType :=
  match n with
  | 1 => some .bool
  | 2 => some .int32
  | 3 => some .int64
  | 4 => some .real32
  | 5 => some .real64
  | 6 => some .time64
  | _ => none

/-- The code of a type (R158). -/
def typeCode : LType → Nat
  | .bool => 1
  | .int32 => 2
  | .int64 => 3
  | .real32 => 4
  | .real64 => 5
  | .time64 => 6

/-- VALUE holds only the bits of its type; the others are 0 (R94). -/
def maskVal (t : LType) (v : W64) : W64 :=
  match t with
  | .bool => (v.setWidth 1).setWidth 64
  | .int32 | .real32 => (v.setWidth 32).setWidth 64
  | _ => v

/-- The record a handle names, if the slot is allocated and GEN agrees (R98, first check). -/
def liveAt (pts : Table PointRec) (h : W32) : Option PointRec :=
  match tget pts (hIdx h) with
  | some r => if r.ty.isSome && r.gen == hGen h then some r else none
  | none => none

/-- The record a handle names in the present store. -/
def live (m : Module) (h : W32) : Option PointRec := liveAt m.store.points h

/-- What every consumer but POINT.READ and POINT.DESCRIBE sees (R102). -/
def presented (r : PointRec) : W64 := if r.forced then r.force else r.value

/-- ATTR (R95). -/
def attrOf (r : PointRec) : Nat :=
  r.owner * 2 ^ 22 + r.gen.toNat * 2 ^ 15 + (match r.ty with | some t => typeCode t | none => 0) * 2 ^ 12
    + b2n r.shared * 32 + b2n r.subscribed * 16 + b2n r.forced * 8 + b2n r.retained * 4 + b2n r.output * 2 + b2n r.input

/-- The 32 bytes of a record (R94). -/
def recordBytes (r : PointRec) : Bytes :=
  leBytes 8 r.value.toNat ++ leBytes 8 r.time.toNat ++ leBytes 4 (attrOf r) ++ leBytes 2 r.quality.toNat
    ++ leBytes 2 r.writer.toNat ++ leBytes 8 r.force.toNat

/-- Change the record at an index. -/
def pointMod (m : Module) (i : Nat) (f : PointRec → PointRec) : Module :=
  { m with store := { m.store with points := tmod m.store.points i f } }

/-- Put a record at an index. -/
def pointSet (m : Module) (i : Nat) (r : PointRec) : Module :=
  { m with store := { m.store with points := tset m.store.points i r } }

/-- CLASS (R96). -/
def qClass (q : W16) : Nat := (q >>> 14).toNat
/-- Bits [6:2] and CLASS of a quality, with CLASS 0b10 read as 0b00 (R101, R160). -/
def qRw (q : W16) : W16 :=
  let c := if qClass q = 2 then 0 else q &&& 0xC000
  c ||| (q &&& 0x007C)

/-- A write of VALUE and quality by a commit: INIT and RESTORED clear (R96), `keep` names the bits left unchanged. -/
def writeRec (r : PointRec) (v : W64) (q : W16) (keep : W16) (time : W64) (writer : W16) : PointRec :=
  { r with
    value := match r.ty with | some t => maskVal t v | none => v
    quality := qRw q ||| (r.quality &&& keep)
    time := time
    writer := writer }

/-! ### Subscription reports (R123) -/

/-- The 32 bytes of a report entry. -/
def reportEntry (subId : Nat) (phase : Bool) (h : W32) (q : W16) (v t : W64) : Bytes :=
  leBytes 4 h.toNat ++ leBytes 2 q.toNat ++ leBytes 2 (b2n phase) ++ leBytes 8 v.toNat ++ leBytes 8 t.toNat
    ++ leBytes 4 subId ++ zeros 4

/-- The entry after `n`; entry 0 is the host's. -/
def nextEntry (s : Subscription) (n : Nat) : Nat := if n + 1 ≥ s.entries then 1 else n + 1

/-- The ring has no room: the producer's next place is the consumer's. -/
def subFull (s : Subscription) : Bool := nextEntry s s.next == s.consumer

/-- The last report of a handle lies at least the minimum interval back. -/
def intervalPassed (s : Subscription) (h : W32) (t : W64) : Bool :=
  match s.lastAt.find? (fun x => x.1 == h) with
  | none => true
  | some x => decide ((s.interval * 1000 : Int) ≤ almDiff t x.2)

/-- Write one report, or keep only the newest state while the ring is full, the interval runs or the QP is not open here (R62). -/
def reportOne (m : Module) (sub : Nat) (s : Subscription) (h : W32) (q : W16) (v t : W64) : Module :=
  if subFull s || !intervalPassed s h (now m) || !qpLive m s.qp then
    let held := (s.heldStates.filter (fun x => x.1 != h)) ++ [(h, q, v, t)]
    { m with store := { m.store with subs := tset m.store.subs sub { s with heldStates := held } } }
  else
    let n := nextEntry s s.next
    let s' : Subscription :=
      { s with
        next := n
        phase := if n = 1 then !s.phase else s.phase
        heldStates := s.heldStates.filter (fun x => x.1 != h)
        lastAt := (s.lastAt.filter (fun x => x.1 != h)) ++ [(h, now m)] }
    emit { m with store := { m.store with subs := tset m.store.subs sub s' } }
      (.report sub s.next (reportEntry (sub % 2 ^ 32) s.phase h q v t))

/-- Report to one subscription the subscribed points whose presented value or quality differs from `old`. -/
def reportSub (old : Table PointRec) (m : Module) (sub : Nat) : Module :=
  match tget m.store.subs sub with
  | none => m
  | some s => s.handles.foldl (fun a h =>
      match live a h, tget a.store.subs sub with
      | some r, some s' =>
        let same := match liveAt old h with
          | some o => presented o == presented r && o.quality == r.quality
          | none => false
        if same then a else reportOne a sub s' h r.quality (presented r) r.time
      | _, _ => a) m

/-- SUBSCRIPTION_REPORT: only the lead writes reports, after a commit (R123). After a takeover not before the dual-lead
window has passed (R280). -/
def reportChanges (old : Table PointRec) (m : Module) : Module :=
  if isLead m && serving m && !m.pair.window then (tkeys m.store.subs).foldl (reportSub old) m else m

/-- A command commit: its effect, then the reports it causes. -/
def commit (m m' : Module) : Module := reportChanges m.store.points m'

/-- The retained record of a point: with FORCED = 1, FORCE_VALUE (R103). -/
def retRec (h : W32) (r : PointRec) : Option RetRec :=
  r.ty.map (fun t => { handle := h, owner := r.owner, ty := t, value := presented r, time := r.time, quality := r.quality })

/-- A command commit or an input commit that wrote retained points is in the retained region with its completion (R95, log entry 44). -/
def retainNow (hs : List W32) (m : Module) : Module :=
  hs.foldl (fun a h => match live a h with
    | some r => if r.retained then
        match retRec h r with
        | some x => { a with store := { a.store with retained := tset a.store.retained (hIdx h) x } }
        | none => a
      else a
    | none => a) m

/-! ### Element checks (R98) -/

/-- The checks of R98 for a write: the status of the first that fails. -/
def checkOwn (m : Module) (p : Nat) (h : W32) : Option Nat :=
  match live m h with
  | none => some 8
  | some r => if r.owner = p then none else some 10

/-- The checks of R98 for a read. -/
def checkRead (m : Module) (p : Nat) (h : W32) : Option Nat :=
  match live m h with
  | none => some 8
  | some r => if r.owner = p || (r.shared && hasCap m p 3) then none else some 10

/-- Run the elements one after another, each on what the earlier ones leave; the first that fails decides (R98). -/
def elems (f : Module → Nat → Except Nat Module) : Nat → Nat → Module → Except (Nat × Nat) Module
  | 0, _, m => .ok m
  | k + 1, i, m => match f m i with
    | .ok m' => elems f k (i + 1) m'
    | .error e => .error (e, i)

/-- The handle of element `i` in request data of elements of `n` bytes. -/
def elemHandle (c : Cmd) (n i : Nat) : W32 := w32 (le c.req (n * i) 4)

/-- A command over elements: DONE with a status if all pass. -/
def overElems (m : Module) (n : Nat) (f : Module → Nat → Except Nat Module) (fin : Module → QRes) : QRes :=
  match elems f n 0 m with
  | .ok m' => fin m'
  | .error (st, i) => .refused st i

/-- The acting partition of a partition-scoped command; fetch has refused every other TARGET (R91). -/
def pid (c : Cmd) : Nat := (actPart c).getD 0

/-! ### POINT commands -/

/-- POINT.READ (R100, R122). -/
def hPointRead (m _p : Module) (c : Cmd) : QRes :=
  let n := prm c 0 4
  if n < 1 ∨ 4096 < n then .refused 7 0 else
  overElems m n (fun a i => match checkRead a (pid c) (elemHandle c 4 i) with | some e => .error e | none => .ok a)
    (fun a => okRsp (leBytes 8 (now m).toNat ++ leBytes 4 n ++ zeros 4
      ++ ((List.range n).map (fun i => match live a (elemHandle c 4 i) with
        | some r => recordBytes r
        | none => zeros 32)).flatten) a)

/-- One element of POINT.WRITE: VALUE, CLASS and bits [6:2]; FAULT and WRITER stay (R101). -/
def writeElem (c : Cmd) (setQ : Bool) (m : Module) (i : Nat) : Except Nat Module :=
  let h := elemHandle c 16 i
  match checkOwn m (pid c) h with
  | some e => .error e
  | none => match live m h with
    | none => .error 8
    | some r =>
      if (r.writer >>> 14).toNat = 3 then .error 0x0202 else
      let q : W16 := if setQ then w16 (le c.req (16 * i + 4) 2) else 0xC000
      .ok (pointSet m (hIdx h) (writeRec r (w64 (le c.req (16 * i + 8) 8)) q 2 (now m) r.writer))

/-- Does an element name a point with a task or input writer (R101)? -/
def overwritable (m : Module) (c : Cmd) (n : Nat) : Bool :=
  (List.range n).any (fun i => match live m (elemHandle c 16 i) with
    | some r => (r.writer >>> 14).toNat == 1 || (r.writer >>> 14).toNat == 2
    | none => false)

/-- POINT.WRITE (R101, R122). -/
def hPointWrite (m _p : Module) (c : Cmd) : QRes :=
  let n := prm c 0 4
  if n < 1 ∨ 4096 < n then .refused 7 0 else
  overElems m n (writeElem c (bit (prmB c 4) 0))
    (fun a => .done (if overwritable m c n then 0x8201 else 0) 0 [] (commit m (retainNow ((List.range n).map (elemHandle c 16)) a)))

/-! #### Allocation (R99, R104) -/

/-- The first slot of a run that `bad` lets pass. -/
def firstIn (bad : Nat → Bool) : Nat → Nat → Option Nat
  | 0, _ => none
  | k + 1, a => if bad a then firstIn bad k (a + 1) else some a

/-- Take a given slot out of the free list. -/
def freeRemove (i : Nat) : List (Nat × Nat) → List (Nat × Nat)
  | [] => []
  | (a, n) :: t =>
    if a ≤ i ∧ i < a + n then
      (if a < i then [(a, i - a)] else []) ++ (if i + 1 < a + n then [(i + 1, a + n - (i + 1))] else []) ++ t
    else (a, n) :: freeRemove i t

/-- The slot ALLOC takes next: the first of the list that holds no orphan (R99, R104). -/
def freeFirst (bad : Nat → Bool) : List (Nat × Nat) → Option Nat
  | [] => none
  | (a, n) :: t => match firstIn bad n a with
    | some i => some i
    | none => freeFirst bad t

/-- Is a slot on the free list? -/
def isFree (i : Nat) (l : List (Nat × Nat)) : Bool := l.any (fun r => decide (r.1 ≤ i ∧ i < r.1 + r.2))

/-- Change a partition. -/
def partMod (m : Module) (p : Nat) (f : Partition → Partition) : Module :=
  { m with store := { m.store with parts := tmod m.store.parts p f } }

/-- Points marked RETAINED (R103). -/
def retainedCount (m : Module) : Nat := (m.store.points.filter (fun x => x.2.ty.isSome && x.2.retained)).length
/-- Forced points (R102). -/
def forcedCount (m : Module) : Nat := (m.store.points.filter (fun x => x.2.ty.isSome && x.2.forced)).length

/-- The generation a slot shows. -/
def slotGen (m : Module) (i : Nat) : BitVec 7 := match tget m.store.points i with | some r => r.gen | none => 0

/-- A fresh record (R94 to R96; VALUE, TIME, WRITER and FORCE_VALUE as log entry 9 says). -/
def freshRec (p : Nat) (g : BitVec 7) (t : LType) (shared retained : Bool) : PointRec :=
  { owner := p, gen := g, ty := some t, shared := shared, retained := retained }

/-- One element of POINT.ALLOC without RESTORE. -/
def allocElem (p : Nat) (t : LType) (shared retained : Bool) (m : Module) (_i : Nat) : Except Nat Module :=
  match partOf m p with
  | none => .error 8
  | some q => match freeFirst (fun s => thas m.store.orphans s) q.free with
    | none => .error 9
    | some s =>
      if retained && decide (1048576 ≤ retainedCount m) then .error 9 else
      .ok (pointSet (partMod m p (fun x => { x with free := freeRemove s x.free })) s
        (freshRec p (slotGen m s) t shared retained))

/-- One element of POINT.ALLOC with RESTORE (R104). -/
def restoreElem (c : Cmd) (p : Nat) (t : LType) (shared retained : Bool) (m : Module) (i : Nat) : Except Nat Module :=
  let h := elemHandle c 4 i
  let s := hIdx h
  match partOf m p with
  | none => .error 8
  | some q =>
    if ¬ (q.base ≤ s ∧ s < q.base + q.count) then .error 10
    else if !isFree s q.free then .error 11
    else
      let m1 := partMod m p (fun x => { x with free := freeRemove s x.free })
      match tget m.store.orphans s with
      | none =>
        if retained && decide (1048576 ≤ retainedCount m) then .error 9 else
        .ok (pointSet m1 s (freshRec p (hGen h) t shared retained))
      | some o =>
        if o.handle ≠ h then
          if retained && decide (1048576 ≤ retainedCount m) then .error 9 else
          .ok (pointSet m1 s (freshRec p (hGen h) t shared retained))
        else if o.owner ≠ p ∨ o.ty ≠ t then .error 8
        else if 1048576 ≤ retainedCount m then .error 9
        else
          let m2 := pointSet m1 s
            { freshRec p (hGen h) t shared true with value := o.value, time := o.time, quality := 0x4080 }
          .ok { m2 with store := { m2.store with orphans := tdel m2.store.orphans s } }

/-- The handles POINT.ALLOC took, in order: what each element found at the head of the list. -/
def allocHandles (p : Nat) (t : LType) (shared retained : Bool) : Nat → Nat → Module → Bytes
  | 0, _, _ => []
  | k + 1, i, m =>
    match partOf m p with
    | none => []
    | some q => match freeFirst (fun s => thas m.store.orphans s) q.free with
      | none => []
      | some s => match allocElem p t shared retained m i with
        | .ok m' => leBytes 4 (mkHandle s (slotGen m s)).toNat ++ allocHandles p t shared retained k (i + 1) m'
        | .error _ => []

/-- POINT.ALLOC (R99, R104, R105, R122). -/
def hPointAlloc (m _p : Module) (c : Cmd) : QRes :=
  let n := prm c 0 4
  let retained := bit (prmB c 5) 0
  let shared := bit (prmB c 5) 1
  let p := pid c
  match typeOfCode (prmB c 4) with
  | none => .refused 7 0
  | some t =>
    if n < 1 ∨ 65536 < n then .refused 7 0
    else if (retained && !hasCap m p 1) || (shared && !hasCap m p 2) then .refused 10 0
    else if bit (prmB c 5) 2 then
      overElems m n (restoreElem c p t shared retained) (fun a => okRsp (c.req.take (4 * n)) (commit m a))
    else match elems (allocElem p t shared retained) n 0 m with
      | .ok a => okRsp (allocHandles p t shared retained n 0 m) (commit m a)
      | .error (st, _) => .refused st 0

/-! #### Point tables of loaded banks -/

/-- The entries of a point table: HANDLE, TYPE, ACCESS (R155). -/
def tableEntry (part : Bytes) (i : Nat) : W32 × Nat × Nat :=
  (w32 (le part (8 * i) 4), byteAt part (8 * i + 4), byteAt part (8 * i + 5))

/-- References of a handle in one sealed point table. -/
def refsIn (p : Part) (h : W32) : Nat :=
  if p.sealed then
    ((List.range (p.bytes.length / 8)).filter (fun i => (tableEntry p.bytes i).1 == h)).length
  else 0

/-- Point-table references of a handle in the loaded banks of every task (R99, R122). -/
def tableRefs (m : Module) (h : W32) : Nat :=
  (m.exec.tasks.map (fun x => refsIn x.2.table0 h + refsIn x.2.table1 h)).sum

/-- What POINT.FREE does to a slot: GEN + 1, TYPE 0, the slot to the tail of its partition's list (R99). -/
def freeSlot (m : Module) (i : Nat) : Module :=
  match tget m.store.points i with
  | none => m
  | some r =>
    partMod (pointSet m i { gen := r.gen + 1 : PointRec }) r.owner (fun x => { x with free := x.free ++ [(i, 1)] })

/-- One element of POINT.FREE; the handle of an orphan discards the orphan (R99, R104). -/
def freeElem (c : Cmd) (m : Module) (i : Nat) : Except Nat Module :=
  let h := elemHandle c 4 i
  match tget m.store.orphans (hIdx h) with
  | some o =>
    if o.handle ≠ h then .error 8 else if o.owner ≠ pid c then .error 10
    else .ok { m with store := { m.store with orphans := tdel m.store.orphans (hIdx h) } }
  | none => match checkOwn m (pid c) h with
    | some e => .error e
    | none => if tableRefs m h ≠ 0 then .error 0x0201 else .ok (freeSlot m (hIdx h))

/-- POINT.FREE (R99, R122). -/
def hPointFree (m _p : Module) (c : Cmd) : QRes :=
  let n := prm c 0 4
  if n < 1 ∨ 4096 < n then .refused 7 0 else overElems m n (freeElem c) (fun a => ok (commit m a))

/-- POINT.DESCRIBE (R98, R122). -/
def hPointDescribe (m _p : Module) (c : Cmd) : QRes :=
  let n := prm c 0 4
  if n < 1 ∨ 4096 < n then .refused 7 0 else
  overElems m n (fun a i => match checkRead a (pid c) (elemHandle c 4 i) with | some e => .error e | none => .ok a)
    (fun a => okRsp (((List.range n).map (fun i =>
      let h := elemHandle c 4 i
      match live a h with
      | some r => leBytes 4 (attrOf r) ++ leBytes 2 r.quality.toNat ++ leBytes 2 r.writer.toNat
          ++ leBytes 4 (tableRefs a h) ++ zeros 4
      | none => zeros 16)).flatten) a)

/-! #### Subscriptions -/

/-- The key of a subscription: its SUB_ID among those of the acting partition (log entry 10). -/
def subKey (p subId : Nat) : Nat := p * 2 ^ 32 + subId

/-- ATTR.SUBSCRIBED follows the subscriptions that name the point (R95). -/
def refreshSubscribed (m : Module) : Module :=
  let hs := (m.store.subs.map (fun x => x.2.handles)).flatten
  let named (i : Nat) (r : PointRec) : Bool := r.ty.isSome && hs.any (fun h => hIdx h == i && hGen h == r.gen)
  let pts := m.store.points.map (fun x => (x.1, { x.2 with subscribed := named x.1 x.2 }))
  { m with store := { m.store with points := pts } }

/-- A power of two from 2^lo to 2^hi. -/
def pow2In (n lo hi : Nat) : Bool := (List.range (hi + 1 - lo)).any (fun k => n == 2 ^ (lo + k))

/-- POINT.SUBSCRIBE (R105, R122, R123). -/
def hPointSubscribe (m _p : Module) (c : Cmd) : QRes :=
  let n := prm c 4 4
  let p := pid c
  let key := subKey p (prm c 0 4)
  if n < 1 ∨ 16384 < n ∨ pow2In (prm c 16 4) 6 16 = false ∨ 1000000 < prm c 20 4 then .refused 7 0
  else if !hasCap m p 6 then .refused 10 0
  else overElems m n (fun a i => match checkRead a p (elemHandle c 4 i) with | some e => .error e | none => .ok a)
    (fun a =>
      if !thas a.store.subs key && decide (65536 ≤ a.store.subs.length) then .refused 9 0 else
      let s : Subscription :=
        { qp := c.qp, ring := w64 (prm c 8 8), entries := prm c 16 4, interval := prm c 20 4,
          handles := (List.range n).map (elemHandle c 4) }
      ok (refreshSubscribed { a with store := { a.store with subs := tset a.store.subs key s } }))

/-- POINT.UNSUBSCRIBE (R122, R123). -/
def hPointUnsubscribe (m _p : Module) (c : Cmd) : QRes :=
  let key := subKey (pid c) (prm c 0 4)
  if !thas m.store.subs key then .refused 8 0
  else ok (refreshSubscribed { m with store := { m.store with subs := tdel m.store.subs key } })

/-- One element of POINT.FORCE (R101, R102). -/
def forceElem (c : Cmd) (m : Module) (i : Nat) : Except Nat Module :=
  let h := elemHandle c 16 i
  match checkOwn m (pid c) h with
  | some e => .error e
  | none => match live m h with
    | none => .error 8
    | some r =>
      if (r.writer >>> 14).toNat = 3 then .error 0x0202
      else if !r.forced && decide (65536 ≤ forcedCount m) then .error 9
      else
        let v := w64 (le c.req (16 * i + 8) 8)
        .ok (pointSet m (hIdx h) { r with forced := true, force := match r.ty with | some t => maskVal t v | none => v })

/-- POINT.FORCE (R102, R105, R122). -/
def hPointForce (m _p : Module) (c : Cmd) : QRes :=
  let n := prm c 0 4
  if n < 1 ∨ 4096 < n then .refused 7 0
  else if !hasCap m (pid c) 0 then .refused 10 0
  else overElems m n (forceElem c) (fun a => ok (commit m a))

/-- One element of POINT.UNFORCE. -/
def unforceElem (c : Cmd) (m : Module) (i : Nat) : Except Nat Module :=
  let h := elemHandle c 4 i
  match checkOwn m (pid c) h with
  | some e => .error e
  | none => .ok (pointMod m (hIdx h) (fun r => { r with forced := false }))

/-- POINT.UNFORCE (R102, R105, R122). -/
def hPointUnforce (m _p : Module) (c : Cmd) : QRes :=
  let n := prm c 0 4
  if n < 1 ∨ 4096 < n then .refused 7 0
  else if !hasCap m (pid c) 0 then .refused 10 0
  else overElems m n (unforceElem c) (fun a => ok (commit m a))

/-- One element of POINT.RETAIN. -/
def retainElem (c : Cmd) (set : Bool) (m : Module) (i : Nat) : Except Nat Module :=
  let h := elemHandle c 4 i
  match checkOwn m (pid c) h with
  | some e => .error e
  | none => match live m h with
    | none => .error 8
    | some r =>
      if set && !r.retained && decide (1048576 ≤ retainedCount m) then .error 9
      else .ok (pointSet m (hIdx h) { r with retained := set })

/-- POINT.RETAIN (R103, R105, R122). -/
def hPointRetain (m _p : Module) (c : Cmd) : QRes :=
  let n := prm c 0 4
  if n < 1 ∨ 4096 < n ∨ 1 < prmB c 4 then .refused 7 0
  else if !hasCap m (pid c) 1 then .refused 10 0
  else overElems m n (retainElem c (prmB c 4 == 1)) (fun a => ok a)

/-! #### Publications and imports (R118 to R121) -/

/-- A task of the acting partition: NO_TARGET and DENIED as R125 says. -/
def taskCheck (m : Module) (p t : Nat) : Option Nat :=
  match tget m.exec.tasks t with
  | none => some 8
  | some x => if x.part = p then none else some 10

/-- POINT.PUBLISH (R118, R121). -/
def hPointPublish (m _p : Module) (c : Cmd) : QRes :=
  let pub := prm c 0 2
  let task := prm c 2 2
  let n := prm c 4 4
  let dests := prmB c 10
  let p := pid c
  if 255 < pub then .refused 7 0
  else if !hasCap m p 2 then .refused 10 0
  else if task = 0xFFFF then
    if n ≠ 0 ∨ dests ≠ 0 then .refused 7 0 else
    match tget m.store.pubs pub with
    | none => .refused 8 0
    | some x => if x.part ≠ p then .refused 10 0
      else ok { m with store := { m.store with pubs := tdel m.store.pubs pub } }
  else if n < 1 ∨ 1024 < n ∨ dests < 1 ∨ 8 < dests then .refused 7 0
  else match taskCheck m p task with
    | some e => .refused e 0
    | none =>
      if (match tget m.exec.tasks task with | some x => decide (x.period < 1000) | none => false) then .refused 7 0 else
      let hs := (List.range n).map (elemHandle c 4)
      let ds := chunks 20 dests (c.req.drop (4 * n))
      let port := if prm c 8 2 = 0 then 9642 else prm c 8 2
      overElems m n (fun a i => match checkOwn a p (elemHandle c 4 i) with
          | some e => .error e
          | none => match live a (elemHandle c 4 i) with
            | some r => if r.shared then .ok a else .error 10
            | none => .error 8)
        (fun a => match tget a.store.pubs pub with
          | some x =>
            if x.part ≠ p then .refused 10 0
            else ok { a with store := { a.store with pubs := tset a.store.pubs pub { x with next := some (task, port, hs, ds) } } }
          | none =>
            if 256 ≤ a.store.pubs.length then .refused 9 0
            else
              let new : Publication := { part := p, task := task, port := port, handles := hs, dests := ds }
              ok { a with store := { a.store with pubs := tset a.store.pubs pub new } })

/-- A point is bound as an input by a drop, the local front or an import (R137). -/
def inputBound (m : Module) (h : W32) : Bool :=
  match live m h with
  | some r => r.input
  | none => false

/-- Does a loaded point table name the handle as written (R106, R137)? -/
def tableWrites (m : Module) (h : W32) : Bool :=
  m.exec.tasks.any (fun x => [x.2.table0, x.2.table1].any (fun pt => pt.sealed &&
    (List.range (pt.bytes.length / 8)).any (fun i =>
      (tableEntry pt.bytes i).1 == h && bit (tableEntry pt.bytes i).2.2 1)))

/-- The checks of an import's handle (R98, R120, R137). -/
def importCheck (m : Module) (imp p : Nat) (hs : List W32) (i : Nat) (h : W32) : Option Nat :=
  match live m h with
  | none => some 8
  | some r =>
    if r.owner ≠ p then some 10
    else if (hs.take i).contains h then some 0x0481
    else if r.input && !(match tget m.store.imports imp with | some x => x.handles.contains h | none => false) then some 0x0481
    else if tableWrites m h then some 0x0481
    else none

/-- ATTR.INPUT of a point. -/
def setInput (b : Bool) (m : Module) (h : W32) : Module :=
  match live m h with
  | some _ => pointMod m (hIdx h) (fun r => { r with input := b })
  | none => m

/-- POINT.IMPORT (R120, R121). -/
def hPointImport (m _p : Module) (c : Cmd) : QRes :=
  let imp := prm c 0 2
  let task := prm c 2 2
  let n := prm c 4 4
  let p := pid c
  if 255 < imp then .refused 7 0
  else if !hasCap m p 5 then .refused 10 0
  else if task = 0xFFFF then
    if n ≠ 0 then .refused 7 0 else
    match tget m.store.imports imp with
    | none => .refused 8 0
    | some x => if x.part ≠ p then .refused 10 0
      else ok { m with store := { m.store with imports := tset m.store.imports imp { x with deleting := true } } }
  else if n < 1 ∨ 1024 < n ∨ 255 < prm c 12 2 ∨ prmB c 14 = 0 then .refused 7 0
  else match taskCheck m p task with
    | some e => .refused e 0
    | none =>
      let hs := (List.range n).map (fun i => w32 (le c.req (16 + 4 * i) 4))
      overElems m n (fun a i => match importCheck m imp p hs i (w32 (le c.req (16 + 4 * i) 4)) with
          | some e => .error e
          | none => .ok a)
        (fun a =>
          let new : Import :=
            { part := p, task := task, source := c.req.take 16, domain := w32 (prm c 8 4), pubId := prm c 12 2,
              wIn := prmB c 14, handles := hs }
          match tget a.store.imports imp with
          | some x =>
            if x.part ≠ p then .refused 10 0
            else
              let a1 := x.handles.foldl (setInput false) a
              ok (hs.foldl (setInput true) { a1 with store := { a1.store with imports := tset a1.store.imports imp new } })
          | none =>
            if 256 ≤ a.store.imports.length then .refused 9 0
            else ok (hs.foldl (setInput true) { a with store := { a.store with imports := tset a.store.imports imp new } }))

/-! ### PARTITION commands (R105 to R110) -/

/-- The store's slots. -/
def storeSlots : Nat := 33554432

/-- Does a range overlap that of a present partition? -/
def overlaps (m : Module) (base count : Nat) : Bool :=
  m.store.parts.any (fun x => decide (0 < count ∧ 0 < x.2.count ∧ base < x.2.base + x.2.count ∧ x.2.base < base + count))

/-- PARTITION.CREATE (R107). -/
def hPartitionCreate (m _p : Module) (c : Cmd) : QRes :=
  let p := prm c 0 2
  let quota := prm c 2 2
  let base := prm c 4 4
  let count := prm c 8 4
  if 1023 < p ∨ quota < 1 ∨ 256 < quota then .refused 7 0
  else if thas m.store.parts p then .refused 11 0
  else if base % 32 ≠ 0 ∨ count % 32 ≠ 0 ∨ storeSlots < base + count ∨ overlaps m base count then .refused 0x0B01 0
  else
    let q : Partition :=
      { quota := quota, base := base, count := count, caps := w32 (prm c 12 4) &&& 0x1FF, cred := c.req.take 16,
        free := if count = 0 then [] else [(base, count)] }
    ok { m with store := { m.store with parts := tset m.store.parts p q } }

/-- The refusals of a system command that names a partition in PARAM (R98, R109, R413). -/
def namedPart (m : Module) (p : Nat) : Option Nat :=
  if 1023 < p then some 7
  else match partOf m p with
    | none => some 8
    | some q => if q.runLock then some 13 else none

/-- PARTITION.DELETE (R109, R110). -/
def hPartitionDelete (m _p : Module) (c : Cmd) : QRes :=
  let p := prm c 0 2
  match namedPart m p with
  | some e => .refused e 0
  | none =>
    if m.exec.tasks.any (fun x => x.2.part == p) || qpLive m (p + 4) then .refused 11 0
    else
      let owned := (m.store.points.filter (fun x => x.2.ty.isSome && x.2.owner == p)).map (·.1)
      let m1 := owned.foldl freeSlot m
      let orph := m1.store.orphans.filter (fun x => x.2.owner != p)
      ok { m1 with store := { m1.store with parts := tdel m1.store.parts p, orphans := orph } }

/-- PARTITION.CAPS (R105, R109). -/
def hPartitionCaps (m _p : Module) (c : Cmd) : QRes :=
  let p := prm c 0 2
  match namedPart m p with
  | some e => .refused e 0
  | none => ok (partMod m p (fun q =>
      { q with caps := w32 (prm c 4 4) &&& 0x1FF, cred := if c.req.length = 0 then q.cred else c.req.take 16 }))

/-- PARTITION.RUNLOCK, only on the partition's own QP (R109). -/
def hPartitionRunlock (m _p : Module) (c : Cmd) : QRes :=
  if c.qp < 4 then .refused 10 0
  else if 1 < prmB c 0 then .refused 7 0
  else if !hasCap m (pid c) 8 then .refused 10 0
  else ok (partMod m (pid c) (fun q => { q with runLock := prmB c 0 == 1 }))

/-! ### GUARD commands (R111 to R117) -/

/-- A region descriptor (R111). -/
def guardDesc (b : Bytes) : GuardDesc :=
  { first := le b 0 4, last := le b 4 4, perm := BitVec.ofNat 8 (le b 8 4) &&& 0xBF }

/-- A descriptor refused with REGION_BAD: START above END, or beyond unit 0x1FFF_FFFF (R111, R124). -/
def regionBad (d : GuardDesc) : Bool := decide (d.last < d.first ∨ 0x1FFFFFFF < d.first ∨ 0x1FFFFFFF < d.last)

/-- GUARD.REGIONS (R109, R111, R112, R117). -/
def hGuardRegions (m _p : Module) (c : Cmd) : QRes :=
  let p := prm c 0 2
  if p = 0xFFFF then
    let classes := (c.req.take 31).map (·.toNat)
    let q := le c.req 32 4
    if classes.any (fun x => decide (3 < x)) || decide (q < 1 ∨ 64 < q) then .refused 7 0
    else ok { m with store := { m.store with arb := { m.store.arb with newClasses := some (classes, q) } } }
  else match namedPart m p with
    | some e => .refused e 0
    | none =>
      let ds := (chunks 16 28 c.req).map guardDesc
      match ds.findIdx? regionBad with
      | some i => .refused 0x0B03 i
      | none => ok (partMod m p (fun q => { q with regions := ds }))

/-- Level and kind of a violation in one byte: bit 7 privileged, bits [1:0] the kind (log entry 11). -/
def levelKind (v : Violation) : Nat := b2n v.privileged * 128 + v.kind

/-- The 32 bytes of a cluster's latch in GUARD.VIOLATION (log entry 11). -/
def latchBytes (u : XUnit) : Bytes :=
  match u.latch with
  | none => zeros 30 ++ leBytes 2 u.violations
  | some v =>
    [1, BitVec.ofNat 8 (levelKind v)] ++ leBytes 2 v.task ++ leBytes 4 v.unit ++ leBytes 2 v.partition
      ++ leBytes 1 v.desc ++ zeros 5 ++ leBytes 8 v.time.toNat ++ zeros 6 ++ leBytes 2 u.violations

/-- GUARD.VIOLATION (R115, R122). -/
def hGuardViolation (m _p : Module) (c : Cmd) : QRes :=
  okRsp (((List.range 16).map (fun k =>
    if bit (prm c 0 2) k then
      match m.exec.units[2 * k]? with
      | some u => latchBytes u
      | none => zeros 32
    else zeros 32)).flatten) m

/-- GUARD.CLEAR (R115). -/
def hGuardClear (m _p : Module) (c : Cmd) : QRes :=
  let us := m.exec.units.mapIdx (fun i u => if bit (prm c 0 2) (i / 2) then { u with latch := none, violations := 0 } else u)
  ok { m with exec := { m.exec with units := us } }

/-! ### The guard's check of an access (R113) -/

/-- The permission bit of a level and kind: 0 read, 1 write, 2 execute (R111). -/
def permBit (privileged : Bool) (kind : Nat) : Nat := kind + (if privileged then 3 else 0)

/-- A descriptor matches a unit. -/
def descMatches (d : GuardDesc) (u : Nat) : Bool := d.perm.getLsbD 7 && decide (d.first ≤ u ∧ u ≤ d.last)

/-- The default map of privileged accesses. -/
def defaultAllows (kind u : Nat) : Bool :=
  if u ≤ 0x01FFFFFF then kind != 2
  else if u ≤ 0x03FFFFFF then kind != 1
  else false

/-- May an access to unit `u` reach memory, and which descriptor decided (32: none)? -/
def guardCheck (ds : List GuardDesc) (privileged : Bool) (kind u : Nat) : Bool × Nat :=
  match ds.findIdx? (fun d => descMatches d u) with
  | some i => (match ds[i]? with | some d => d.perm.getLsbD (permBit privileged kind) | none => false, i)
  | none => (privileged && defaultAllows kind u, 32)

/-! ### The arbiter (R116) -/

/-- The first requester of a list after `l` in ascending number, wrapping. -/
def nextAfter (l : Nat) (rs : List Nat) : Option Nat :=
  match rs.filter (fun r => decide (l < r)) with
  | [] => rs.min?
  | xs => xs.min?

/-- The requesters of a class among those present. -/
def ofClass (a : Arbiter) (k : Nat) (rs : List Nat) : List Nat := rs.filter (fun r => a.classes[r]? == some k)

/-- One grant opportunity with the requests present; none is a refresh. -/
def grantOne (a : Arbiter) (req : Option (List Nat)) : Arbiter × Option Nat :=
  match req with
  | none => (a, none)
  | some rs =>
    let ks := (if a.masked then [1, 2, 3] else [0, 1, 2, 3]).filter (fun k => !(ofClass a k rs).isEmpty)
    match ks.head? with
    | none => (a, none)
    | some k => match nextAfter (a.last.getD k 31) (ofClass a k rs) with
      | none => (a, none)
      | some r =>
        let used := if k = 0 then a.used + 1 else a.used
        ({ a with
           last := a.last.set k r
           used := used
           masked := decide (a.quota < 64 ∧ a.quota ≤ used) }, some r)

/-- The grants of the 64 opportunities of a window. -/
def grantAll : Arbiter → List (Option (List Nat)) → Arbiter × List (Option Nat)
  | a, [] => (a, [])
  | a, r :: rs =>
    let x := grantOne a r
    let y := grantAll x.1 rs
    (y.1, x.2 :: y.2)

/-- The end of a window of 64 arbitration cycles: its grants, then a new window with class 0 unmasked and any change of
GUARD.REGIONS in force (R116, R117). -/
def arbiterWindow (reqs : List (Option (List Nat))) (m : Module) : Module :=
  let r := grantAll m.store.arb (reqs.take 64)
  let a1 : Arbiter := { r.1 with used := 0, masked := false, windows := r.1.windows + 1 }
  let a2 : Arbiter := match a1.newClasses with
    | none => a1
    | some (cl, q) => { a1 with classes := cl, quota := q, newClasses := none }
  emit { m with store := { m.store with arb := a2 } } (.grants r.2)

/-! ### The rows -/

def execPointRead (sl : Slot) (c : Cmd) (s : State) : Res := quondi hPointRead .query .part 0x0201 s sl c
def execPointWrite (sl : Slot) (c : Cmd) (s : State) : Res := quondi hPointWrite .work .part 0x0202 s sl c
def execPointAlloc (sl : Slot) (c : Cmd) (s : State) : Res := quondi hPointAlloc .work .part 0x0203 s sl c
def execPointFree (sl : Slot) (c : Cmd) (s : State) : Res := quondi hPointFree .work .part 0x0204 s sl c
def execPointDescribe (sl : Slot) (c : Cmd) (s : State) : Res := quondi hPointDescribe .query .part 0x0205 s sl c
def execPointSubscribe (sl : Slot) (c : Cmd) (s : State) : Res := quondi hPointSubscribe .work .part 0x0206 s sl c
def execPointUnsubscribe (sl : Slot) (c : Cmd) (s : State) : Res := quondi hPointUnsubscribe .work .part 0x0207 s sl c
def execPointForce (sl : Slot) (c : Cmd) (s : State) : Res := quondi hPointForce .work .part 0x0208 s sl c
def execPointUnforce (sl : Slot) (c : Cmd) (s : State) : Res := quondi hPointUnforce .work .part 0x0209 s sl c
def execPointRetain (sl : Slot) (c : Cmd) (s : State) : Res := quondi hPointRetain .work .part 0x020A s sl c
def execPointPublish (sl : Slot) (c : Cmd) (s : State) : Res := quondi hPointPublish .work .part 0x020B s sl c
def execPointImport (sl : Slot) (c : Cmd) (s : State) : Res := quondi hPointImport .work .part 0x020C s sl c
def execPartitionCreate (sl : Slot) (c : Cmd) (s : State) : Res := quondi hPartitionCreate .work .sys 0x0B01 s sl c
def execPartitionDelete (sl : Slot) (c : Cmd) (s : State) : Res := quondi hPartitionDelete .work .sys 0x0B02 s sl c
def execPartitionCaps (sl : Slot) (c : Cmd) (s : State) : Res := quondi hPartitionCaps .work .sys 0x0B03 s sl c
def execPartitionRunlock (sl : Slot) (c : Cmd) (s : State) : Res := quondi hPartitionRunlock .work .part 0x0B04 s sl c
def execGuardRegions (sl : Slot) (c : Cmd) (s : State) : Res := quondi hGuardRegions .work .sys 0x0B05 s sl c
def execGuardViolation (sl : Slot) (c : Cmd) (s : State) : Res := quondi hGuardViolation .query .any 0x0B06 s sl c
def execGuardClear (sl : Slot) (c : Cmd) (s : State) : Res := quondi hGuardClear .work .sys 0x0B07 s sl c

/-- ARBITER_WINDOW_END (R116). -/
def execArbiterWindowEnd (sl : Slot) (requests : List (Option (List Nat))) (s : State) : Res :=
  onMod s sl (fun m => if powered m then arbiterWindow requests m else m)

/-- SUBSCRIPTION_REPORT_DEFERRED: a report held back is written once the interval has passed or space appears (R123). -/
def execSubscriptionReportDeferred (sl : Slot) (sub : Nat) (handle : W32) (consumer : Nat) (s : State) : Res :=
  onMod s sl (fun m =>
    match tget m.store.subs sub with
    | none => m
    | some x => match x.heldStates.find? (fun y => y.1 == handle) with
      | none => m
      | some (h, q, v, t) =>
        if isLead m && serving m && !m.pair.window then reportOne m sub { x with consumer := consumer } h q v t else m)

end Sys2Proof.Machine
end

