-- ==== Sys2Proof/Machine/HaloSet.lean ====
section
/-! DEFINITION. Machine/HaloSet.lean: the safety parameter set by its fields (R351), the parts of a task's banks (R145), and the
points that a set gives to a HALO task. -/

namespace Sys2Proof.Machine
open Sys2Proof Sys2Proof.Bits

/-- A part of a bank. -/
def partIn (k : Task) (bank part : Nat) : Part :=
  match bank, part with
  | 0, 0 => k.code0
  | 0, _ => k.table0
  | _, 0 => k.code1
  | _, _ => k.table1

/-! ### The parameter set (R351) -/

/-- Connection count of a set. -/
def setConns (b : Bytes) : Nat := le b 6 2
/-- Connection record of a set. -/
def connRec (b : Bytes) (i : Nat) : Bytes := (b.drop (0x20 + 32 * i)).take 32

def connId (r : Bytes) : Nat := le r 0 4
def connDrop (r : Bytes) : Nat := le r 4 2
/-- Output direction. -/
def connIsOut (r : Bytes) : Bool := byteAt r 6 == 1
def connLen (r : Bytes) : Nat := byteAt r 7
def connOff (r : Bytes) : Nat := le r 8 2
def connPart (r : Bytes) : Nat := byteAt r 0xA
def connAuto (r : Bytes) : Bool := bit (byteAt r 0xB) 0
/-- MAP: INT16 words. -/
def connWords (r : Bytes) : Bool := bit (byteAt r 0xB) 1
def connTask (r : Bytes) : Nat := le r 0xC 2
def connTexp (r : Bytes) : Nat := le r 0x10 4
def connBase (r : Bytes) : Nat := le r 0x14 4

/-- SO record of a channel. -/
def soRec (b : Bytes) (c : Nat) : Bytes := (b.drop (0x20 + 32 * setConns b + 16 * c)).take 16
def soTask (r : Bytes) : Nat := le r 4 2
/-- The point-table entry of the enable. -/
def soEntry (r : Bytes) : Nat := le r 8 4
def soEnabled (r : Bytes) : Bool := bit (byteAt r 0) 0
def soEdmUsed (r : Bytes) : Bool := bit (byteAt r 0) 1
def soInterlock (r : Bytes) : Bool := bit (byteAt r 0) 2

/-- The point-table entries a connection binds: entry index and type (R351). -/
def connEntries (r : Bytes) : List (Nat × LType) :=
  if connWords r then (List.range (connLen r / 2)).map (fun w => (connBase r + w, .int32))
  else (List.range (8 * connLen r)).map (fun b => (connBase r + b, .bool))

/-- A set names a handle, through a sealed point table of its HALO task, as an output or an enable of another task than `t`
(R351). -/
def namedByOther (m : Module) (b : Bytes) (t : Nat) (h : W32) : Bool :=
  let has (task : Nat) (is : List Nat) : Bool := task != t && match tget m.exec.tasks task with
    | none => false
    | some k => [0, 1].any (fun bank => (partIn k bank 1).sealed && is.any (fun i =>
        decide (8 * i < (partIn k bank 1).bytes.length) && (tableEntry (partIn k bank 1).bytes i).1 == h))
  (List.range (setConns b)).any (fun i => let r := connRec b i; connIsOut r && has (connTask r) ((connEntries r).map (·.1)))
    || (List.range 8).any (fun c => let r := soRec b c; soEnabled r && has (soTask r) [soEntry r])

/-- A point that the active set gives to another HALO task than `t` (R351). -/
def haloOwned (m : Module) (t : Nat) (h : W32) : Bool :=
  match m.halo.active with
  | some b => namedByOther m b t h
  | none => false

end Sys2Proof.Machine
end

