-- ==== Sys2Proof/Machine/LoadCheck.lean ====
section
/-! DEFINITION. Machine/LoadCheck.lean: the parts of a task's bank (R155 to R158) and the checks of TASK.LOAD at LAST: the point
table (R424), the code part (R171) and the two together (R172). -/

namespace Sys2Proof.Machine
open Sys2Proof Sys2Proof.Bits

/-- A block-table entry with its type codes (R156). -/
structure Blk where
  start : Nat
  words : Nat
  params : Nat
  returns : Nat
  nlocals : Nat
  /-- Types of the locals, then of the return values. -/
  ltypes : List LType
  rtypes : List LType
  deriving DecidableEq, Repr

/-- An instruction word with its fields (R157). -/
structure LIns where
  /-- Word index from TEXT_OFF. -/
  w : Nat
  op : Nat
  /-- TYPE, TARGET or VARIANT, bits [23:20]. -/
  ty : Nat
  /-- SOURCE, bits [19:16]. -/
  src : Nat
  /-- INDEX, BASE, constant, LOCAL, BLOCK or IMM. -/
  arg : Nat
  /-- COUNT of LDX and STX. -/
  count : Nat := 1
  /-- Words taken. -/
  len : Nat := 1
  deriving DecidableEq, Repr

/-! ### The point table (R155, R424) -/

/-- Is a slot a bound input point (R137)? -/
def isInputSlot (m : Module) (i : Nat) : Bool := match tget m.store.points i with | some r => r.input | none => false

/-- The checks of one entry for task `t` of partition `p`: status, or none (R351, R424). -/
def entryCheck (m : Module) (t p : Nat) (part : Bytes) (i : Nat) : Option Nat :=
  let e := tableEntry part i
  match live m e.1 with
  | none => some 0x0303
  | some r =>
    if typeOfCode e.2.1 = none ∨ typeOfCode e.2.1 ≠ r.ty ∨ 3 < e.2.2 ∨ le part (8 * i + 6) 2 ≠ 0 then some 0x0303
    else if r.owner ≠ p ∧ (bit e.2.2 1 = true ∨ r.shared = false ∨ hasCap m p 3 = false) then some 10
    else if bit e.2.2 1 = true ∧ (r.input = true ∨ haloOwned m t e.1 = true) then some 0x0305
    else none

/-- The point table as a whole and then entry by entry: status and DETAIL of the first failure (R424). -/
def tableCheck (m : Module) (t p : Nat) (part : Bytes) : Option (Nat × Nat) :=
  if part.length = 0 then some (0x0303, 0)
  else if 8388608 < part.length then some (0x0303, 8388608)
  else if part.length % 8 ≠ 0 then some (0x0303, 8 * (part.length / 8))
  else match firstFail (entryCheck m t p part) (List.range (part.length / 8)) 0 with
    | some (i, st) => some (st, 8 * i)
    | none => none

/-! ### Instruction words -/

/-- The types of each family of typed opcodes (R164 to R166). -/
def arithTypes : List Nat := [2, 3, 4, 5]
def allTypes : List Nat := [1, 2, 3, 4, 5, 6]

/-- The TYPE codes an opcode allows in [23:20]; none for an opcode without a TYPE field (R164 to R167, R174). -/
def opTypes (op : Nat) : Option (List Nat) :=
  if op ∈ [0x12, 0x20, 0x21, 0x22, 0x23, 0x24, 0x25, 0x50, 0x51] then some allTypes
  else if op ∈ [0x40, 0x41] then some [2, 3, 4, 5, 6]
  else if op ∈ [0x42, 0x43, 0x45, 0x46, 0x47, 0x48] then some arithTypes
  else if op ∈ [0x44, 0x60, 0x61, 0x62, 0x63, 0x64, 0x65, 0x66] then some [2, 3]
  else if op ∈ [0x52, 0x53, 0x54, 0x55] then some [2, 3, 4, 5, 6]
  else if op ∈ [0x71, 0x72, 0x73, 0x74, 0x75, 0x76] then some [4, 5]
  else none

/-- Format N opcodes. -/
def opsN : List Nat :=
  [0x01, 0x02, 0x30, 0x31, 0x32, 0x33, 0x34, 0x58, 0x59, 0x5A, 0x5B, 0x78, 0x79, 0x84, 0x90, 0x91, 0x92, 0x93]

/-- The variants a primitive allows (R174); for LIMIT the TYPE. -/
def primVariants (op : Nat) : List Nat :=
  match op with
  | 0xA0 | 0xA1 | 0xA2 | 0xA3 => [0]
  | 0xA4 => [0, 1, 2]
  | 0xA5 => [1, 2, 3, 4, 5, 6, 7]
  | 0xA6 => [2, 3, 4, 5]
  | 0xA7 => [0, 1]
  | _ => []

/-- CVT from SOURCE to TARGET (R166). -/
def cvtOk (target source : Nat) : Bool :=
  decide (target ∈ allTypes ∧ source ∈ allTypes ∧ target ≠ source) &&
    (if target = 6 ∨ source = 6 then decide (target = 3 ∨ source = 3) else true)

/-- Check 3 of R171 on one word: a valid opcode, reserved bits 0, an allowed TYPE, a BLOCK below BLOCKS. -/
def wordOk (blocks w : Nat) : Bool :=
  let op := w / 2 ^ 24
  let low := w % 2 ^ 24
  let ty := low / 2 ^ 20
  let arg := low % 2 ^ 20
  if opsN.contains op then low == 0
  else if op = 0x10 then true
  else if op = 0x11 then decide (low < 2)
  else if op ∈ [0x12, 0x20, 0x21, 0x22, 0x23, 0x24, 0x25] then allTypes.contains ty
  else if op = 0x26 ∨ op = 0x27 then decide (low < 256)
  else if op = 0x70 then cvtOk ty (arg / 2 ^ 16) && arg % 2 ^ 16 == 0
  else if op ∈ [0x80, 0x81, 0x82] then true
  else if op = 0x83 then decide (low < 2 ^ 16 ∧ low < blocks)
  else if 0xA0 ≤ op ∧ op ≤ 0xA7 then (primVariants op).contains ty && (op != 0xA6 || arg == 0)
  else match opTypes op with
    | some ts => ts.contains ty && arg == 0
    | none => false

/-- The words of the text as numbers. -/
def textWords (part : Bytes) (off n : Nat) : List Nat := (chunks 4 n (part.drop off)).map leVal

/-- The fields of a word at index `w`, with the word after it for LDX and STX. -/
def insOf (w word next : Nat) : LIns :=
  let op := word / 2 ^ 24
  let low := word % 2 ^ 24
  let base : LIns := { w := w, op := op, ty := low / 2 ^ 20, src := low / 2 ^ 16 % 16, arg := low % 2 ^ 20 }
  if op = 0x24 ∨ op = 0x25 then { base with count := next % 2 ^ 20 + 1, len := 2 }
  else if op = 0x10 ∨ op = 0x11 ∨ op ∈ [0x80, 0x81, 0x82, 0x83, 0x26, 0x27] then { base with arg := low }
  else base

/-- The target of a branch: words from the word after it. -/
def branchTarget (i : LIns) : Int := (i.w : Int) + 1 + signed 24 i.arg

/-- Cut the words of a block into instructions from word `w` on, or the word index at which check 3 fails. -/
def cutBlock (blocks : Nat) : Nat → Nat → List Nat → Except Nat (List LIns)
  | 0, _, _ => .ok []
  | _ + 1, _, [] => .ok []
  | k + 1, w, x :: xs =>
    if !wordOk blocks x then .error w
    else
      let i := insOf w x (xs.headD 0)
      if i.len = 2 then
        match xs with
        | [] => .error w
        | y :: ys =>
          if 2 ^ 20 ≤ y then .error (w + 1)
          else match cutBlock blocks k (w + 2) ys with
            | .ok l => .ok (i :: l)
            | .error e => .error e
      else match cutBlock blocks k (w + 1) xs with
        | .ok l => .ok (i :: l)
        | .error e => .error e

/-! ### Stack effects by type (R164 to R174); the head of a list is the top of the stack -/

/-- Pop the types given, top first. -/
def popTypes : List LType → List LType → Option (List LType)
  | [], st => some st
  | t :: ts, s :: st => if t = s then popTypes ts st else none
  | _ :: _, [] => none

/-- The effect of an instruction on the visible types; `none` when check 6 fails at it. Calls, returns and locals are
done by `flowStep`. -/
def opEffect (op : Nat) (t s : LType) (n : Nat) (st : List LType) : Option (List LType) :=
  let bin (r : LType) := (popTypes [t, t] st).map (r :: ·)
  match op with
  | 0x01 | 0x02 | 0x80 => some st
  | 0x10 => some (.int32 :: st)
  | 0x11 => some (.bool :: st)
  | 0x12 | 0x20 => some (t :: st)
  | 0x21 => popTypes [t] st
  | 0x22 => some (.int32 :: st)
  | 0x23 => some (.time64 :: st)
  | 0x24 => (popTypes [.int32] st).map (t :: ·)
  | 0x25 => popTypes [.int32, t] st
  | 0x30 => match st with | a :: r => some (a :: a :: r) | _ => none
  | 0x31 => match st with | _ :: r => some r | _ => none
  | 0x32 => match st with | b :: a :: r => some (a :: b :: r) | _ => none
  | 0x33 => match st with | b :: a :: r => some (a :: b :: a :: r) | _ => none
  | 0x34 => match st with | c :: b :: a :: r => some (a :: c :: b :: r) | _ => none
  | 0x40 => if t = .time64 then (popTypes [.int64, .time64] st).map (.time64 :: ·) else bin t
  | 0x41 => if t = .time64 then (popTypes [.time64, .time64] st).map (.int64 :: ·) else bin t
  | 0x42 | 0x43 | 0x44 | 0x47 | 0x48 | 0x60 | 0x61 | 0x62 | 0x76 => bin t
  | 0x45 | 0x46 | 0x63 | 0x71 | 0x72 | 0x73 | 0x74 | 0x75 => (popTypes [t] st).map (t :: ·)
  | 0x50 | 0x51 | 0x52 | 0x53 | 0x54 | 0x55 => bin .bool
  | 0x58 | 0x59 | 0x5A => (popTypes [.bool, .bool] st).map (.bool :: ·)
  | 0x5B => (popTypes [.bool] st).map (.bool :: ·)
  | 0x64 | 0x65 | 0x66 => (popTypes [.int32, t] st).map (t :: ·)
  | 0x70 => (popTypes [s] st).map (t :: ·)
  | 0x78 => match st with | a :: r => some (.int32 :: a :: r) | _ => none
  | 0x79 => match st with | .int32 :: a :: r => some (a :: r) | _ => none
  | 0x81 | 0x82 => popTypes [.bool] st
  | 0x90 => some (.time64 :: st)
  | 0x91 => some (.int64 :: st)
  | 0x92 => some (.bool :: st)
  | 0x93 => some (.int32 :: st)
  | 0xA0 => (popTypes [.real64, .bool, .real64, .real64] st).map (.real64 :: ·)
  | 0xA1 | 0xA2 | 0xA7 => (popTypes [.real64] st).map (.real64 :: ·)
  | 0xA3 => (popTypes [.bool, .real64] st).map (.real64 :: ·)
  | 0xA4 => (popTypes [.bool] st).map (.bool :: ·)
  | 0xA5 => (popTypes (List.replicate (n + 1) .real64) st).map (.real64 :: ·)
  | 0xA6 => (popTypes [t, t, t] st).map (t :: ·)
  | _ => none

/-- What one instruction does to the visible types: `.error ()` where check 6 fails, `.ok none` where its effect is
unknown because check 7 fails. -/
def flowStep (bs : List Blk) (b : Blk) (i : LIns) (st : List LType) : Except Unit (Option (List LType)) :=
  let t := (typeOfCode i.ty).getD .bool
  if i.op = 0x84 then (if st = b.rtypes.reverse then .ok none else .error ())
  else if i.op = 0x83 then
    match bs[i.arg]? with
    | none => .ok none
    | some c => match popTypes (c.ltypes.take c.params).reverse st with
      | some r => .ok (some (c.rtypes.reverse ++ r))
      | none => .error ()
  else if i.op = 0x26 then
    match b.ltypes[i.arg]? with
    | some x => .ok (some (x :: st))
    | none => .ok none
  else if i.op = 0x27 then
    match st with
    | _ :: r => .ok (some r)
    | [] => .error ()
  else match opEffect i.op t ((typeOfCode i.src).getD .bool) i.ty st with
    | some r => .ok (some r)
    | none => .error ()

/-- Words at which execution goes on after an instruction. -/
def succs (i : LIns) : List Nat :=
  (if i.op = 0x02 ∨ i.op = 0x80 ∨ i.op = 0x84 then [] else [i.w + i.len])
    ++ (if i.op ∈ [0x80, 0x81, 0x82] then [(branchTarget i).toNat] else [])

/-- Check 6 within a block: the types at each word that a path reaches, and the words that fail. -/
def flow (bs : List Blk) (b : Blk) (ins : List LIns) :
    Nat → List (Nat × List LType) → Table (List LType) → List Nat → Table (List LType) × List Nat
  | 0, _, seen, bad => (seen, bad)
  | _ + 1, [], seen, bad => (seen, bad)
  | k + 1, (w, st) :: todo, seen, bad =>
    match tget seen w with
    | some old => flow bs b ins k todo seen (if old = st then bad else w :: bad)
    | none =>
      let seen := tset seen w st
      match ins.find? (fun i => i.w == w) with
      | none => flow bs b ins k todo seen (w :: bad)
      | some i => match flowStep bs b i st with
        | .error _ => flow bs b ins k todo seen (w :: bad)
        | .ok none => flow bs b ins k todo seen bad
        | .ok (some st') =>
          if 64 < st'.length then flow bs b ins k todo seen (w :: bad)
          else flow bs b ins k ((succs i).map (fun x => (x, st')) ++ todo) seen bad

/-! ### The code part (R156, R171) -/

/-- The type codes of a signature, or the offset of the first invalid one. -/
def sigTypes : Bytes → Nat → Except Nat (List LType)
  | [], _ => .ok []
  | b :: bs, o => match typeOfCode b.toNat with
    | none => .error o
    | some t => match sigTypes bs (o + 1) with
      | .ok l => .ok (t :: l)
      | .error e => .error e

/-- Block `k` of the table, or the offset of the field that fails (R156, R158, R168). -/
def readBlock (part : Bytes) (k : Nat) : Except Nat Blk :=
  let e := 64 + 16 * k
  let params := byteAt part (e + 8)
  let returns := byteAt part (e + 9)
  let nl := byteAt part (e + 10)
  let sig := le part (e + 12) 4
  let sigOff := le part 0x10 4
  if 16 < params ∨ (k = 0 ∧ params ≠ 0) then .error (e + 8)
  else if 16 < returns ∨ (k = 0 ∧ returns ≠ 0) then .error (e + 9)
  else if nl < params then .error (e + 10)
  else if le part 0x14 4 < sig + nl + returns then .error (e + 12)
  else match sigTypes ((part.drop (sigOff + sig)).take (nl + returns)) (sigOff + sig) with
    | .error o => .error o
    | .ok ts => .ok
        { start := le part e 4, words := le part (e + 4) 4, params := params, returns := returns, nlocals := nl,
          ltypes := ts.take nl, rtypes := ts.drop nl }

/-- All blocks, or the first offset that fails. -/
def readBlocks (part : Bytes) : Nat → Nat → Except Nat (List Blk)
  | 0, _ => .ok []
  | n + 1, k => match readBlock part k with
    | .error o => .error o
    | .ok b => match readBlocks part n (k + 1) with
      | .ok l => .ok (b :: l)
      | .error o => .error o

/-- Two byte ranges overlap. -/
def rangesMeet (a n b k : Nat) : Bool := decide (0 < n ∧ 0 < k ∧ a < b + k ∧ b < a + n)

/-- Check 1: MAGIC, VER, BLOCKS and the regions. The offset of the header field that fails. -/
def headerCheck (part : Bytes) : Option Nat :=
  let nb := le part 6 2
  let co := le part 8 4
  let cl := le part 12 4
  let so := le part 16 4
  let sl := le part 20 4
  let tpos := le part 24 4
  let tw := 4 * le part 28 4
  let len := part.length
  if len < 64 ∨ le part 0 4 ≠ 0x324D554C then some 0
  else if le part 4 2 ≠ 2 then some 4
  else if nb < 1 ∨ 4096 < nb then some 6
  else if co % 8 ≠ 0 then some 8
  else if cl % 8 ≠ 0 ∨ 8388608 < cl then some 12
  else if tpos % 4 ≠ 0 then some 24
  else if len < 64 + 16 * nb then some 6
  else if len < co + cl ∨ rangesMeet co cl 0 (64 + 16 * nb) then some 8
  else if len < so + sl ∨ rangesMeet so sl 0 (64 + 16 * nb) ∨ rangesMeet so sl co cl then some 16
  else if len < tpos + tw ∨ rangesMeet tpos tw 0 (64 + 16 * nb) ∨ rangesMeet tpos tw co cl ∨ rangesMeet tpos tw so sl then some 24
  else none

/-- Check 2: every block lies within the text, none overlaps another, every word belongs to one. The offset that fails. -/
def coverCheck (textOff words : Nat) (bs : List Blk) : Option Nat :=
  let ks := List.range bs.length
  match firstFail (fun k => match bs[k]? with
      | none => none
      | some b =>
        if words ≤ b.start then some (64 + 16 * k)
        else if b.words < 1 ∨ words < b.start + b.words then some (64 + 16 * k + 4)
        else if (bs.take k).any (fun x => rangesMeet b.start b.words x.start x.words) then some (64 + 16 * k)
        else none) ks 0 with
  | some (_, o) => some o
  | none => match (List.range words).find? (fun w => !bs.any (fun b => decide (b.start ≤ w ∧ w < b.start + b.words))) with
    | some w => some (textOff + 4 * w)
    | none => none

/-- The instructions of each block, or the first word that fails check 3. -/
def cutAll (nb : Nat) (ws : List Nat) : List Blk → Except Nat (List (List LIns))
  | [] => .ok []
  | b :: bs => match cutBlock nb b.words b.start ((ws.drop b.start).take b.words), cutAll nb ws bs with
    | .ok l, .ok ls => .ok (l :: ls)
    | .error a, .error e => .error (min a e)
    | .error a, .ok _ => .error a
    | .ok _, .error e => .error e

/-- Check 4: branch targets. -/
def branchBad (ins : List LIns) : List Nat :=
  (ins.filter (fun i => decide (i.op ∈ [0x80, 0x81, 0x82]) && !ins.any (fun j => (j.w : Int) == branchTarget i))).map (·.w)

/-- Check 5: the last instruction of a block. -/
def endBad (ins : List LIns) : List Nat :=
  match ins.getLast? with
  | some i => if i.op ∈ [0x02, 0x80, 0x84] then [] else [i.w]
  | none => []

/-- The calls of a block with the entries that stay below its parameters on the caller's part. -/
def callsOf (bs : List Blk) (ins : List LIns) (seen : Table (List LType)) : List (Nat × Nat × Nat) :=
  (ins.filter (fun i => i.op == 0x83)).map (fun i =>
    (i.w, i.arg, match tget seen i.w with
      | some st => st.length - (match bs[i.arg]? with | some c => c.params | none => 0)
      | none => 0))

/-- One round of the largest value at the entry of each block over every call chain, capped. -/
def relax (cap : Nat) (gain : Nat × Nat × Nat → Nat) (calls : List (List (Nat × Nat × Nat))) (v : List Nat) : List Nat :=
  (calls.mapIdx (fun b cs => (b, cs))).foldl (fun v x =>
    x.2.foldl (fun v c => v.set c.2.1 (max (v.getD c.2.1 0) (min cap (v.getD x.1 0 + gain c)))) v) v

/-- Rounds until nothing changes. -/
def settleVals (f : List Nat → List Nat) : Nat → List Nat → List Nat
  | 0, v => v
  | k + 1, v => if f v = v then v else settleVals f k (f v)

/-- The smallest of some word indices. -/
def minWord (l : List Nat) : Option Nat := l.min?

/-- Blocks that a chain of calls from block `b` reaches. -/
def reachable (calls : List (List (Nat × Nat × Nat))) : Nat → List Nat → List Nat
  | 0, l => l
  | k + 1, l => reachable calls k ((l ++ (l.map (fun b => ((calls.getD b []).map (fun c => c.2.1)))).flatten).eraseDups)

/-- Checks 3 to 9 of R171 on the text: the word index or the offset that fails, as an offset in the part. -/
def textCheck (textOff nconst frameBytes : Nat) (ws : List Nat) (bs : List Blk) : Option Nat :=
  let at4 (w : Option Nat) := w.map (fun x => textOff + 4 * x)
  match cutAll bs.length ws bs with
  | .error w => some (textOff + 4 * w)
  | .ok ins =>
    match at4 (minWord (ins.map branchBad).flatten) with
    | some o => some o
    | none => match at4 (minWord (ins.map endBad).flatten) with
      | some o => some o
      | none =>
        let flows := (bs.zip ins).map (fun x => flow bs x.1 x.2 (3 * x.1.words + 3) [(x.1.start, [])] [] [])
        match at4 (minWord (flows.map (·.2)).flatten) with
        | some o => some o
        | none =>
          let calls := (ins.zip flows).map (fun x => callsOf bs x.1 x.2.1)
          let live := (calls.zip flows).map (fun x => x.1.filter (fun c => thas x.2.1 c.1))
          let fuel := 66 * (bs.length + 1)
          let depth := settleVals (relax 65 (fun c => c.2.2) live) fuel (List.replicate bs.length 0)
          let deep := (flows.mapIdx (fun b f => (f.1.filter (fun x => decide (64 < depth.getD b 0 + x.2.length))).map (·.1))).flatten
          match at4 (minWord deep) with
          | some o => some o
          | none =>
            let bad7 := ((bs.zip ins).zip flows).map (fun x => (x.1.2.filter (fun i =>
              (decide (i.op = 0x26 ∨ i.op = 0x27) && decide (x.1.1.nlocals ≤ i.arg))
                || (i.op == 0x27 && (match tget x.2.1 i.w with
                      | some (t :: _) => x.1.1.ltypes[i.arg]? != some t
                      | _ => false))
                || (i.op == 0x12 && decide (nconst ≤ i.arg)))).map (·.w))
            match at4 (minWord bad7.flatten) with
            | some o => some o
            | none =>
              let cyc := (calls.mapIdx (fun b cs => (cs.filter (fun c =>
                (reachable calls bs.length [c.2.1]).contains b)).map (·.1))).flatten
              match at4 (minWord cyc) with
              | some o => some o
              | none =>
                let chain := settleVals (relax 33 (fun _ => 1) calls) fuel (List.replicate bs.length 1)
                let long := (calls.mapIdx (fun b cs => (cs.filter (fun _ => decide (32 < chain.getD b 0 + 1))).map (·.1))).flatten
                match at4 (minWord long) with
                | some o => some o
                | none =>
                  let fr (b : Nat) := match bs[b]? with | some x => 32 + 16 * x.nlocals | none => 0
                  match (List.range bs.length).find? (fun b => decide (frameBytes < fr b)) with
                  | some b => some (64 + 16 * b + 10)
                  | none =>
                    let sums := settleVals (relax (frameBytes + 1) (fun c => fr c.2.1) calls) fuel ((List.range bs.length).map fr)
                    at4 (minWord ((calls.mapIdx (fun b cs => (cs.filter (fun c =>
                      decide (frameBytes < sums.getD b 0 + fr c.2.1))).map (·.1))).flatten))

/-- The checks of the code part in the order of R171: DETAIL of the first that fails. -/
def codeCheck (part : Bytes) (frameKiB : Nat) : Option Nat :=
  match headerCheck part with
  | some o => some o
  | none => match readBlocks part (le part 6 2) 0 with
    | .error o => some o
    | .ok bs =>
      let textOff := le part 24 4
      let n := le part 28 4
      match coverCheck textOff n bs with
      | some o => some o
      | none => textCheck textOff (le part 12 4 / 8) (1024 * frameKiB) (textWords part textOff n) bs

/-! ### Code against point table (R172) -/

/-- The instance of a primitive: type code and whether the entry is written, in order (R174). -/
def primInstance (op : Nat) : List (Nat × Bool) :=
  match op with
  | 0xA0 => [(5, false), (5, false), (5, false), (5, false), (5, false), (5, false), (5, true), (5, true), (5, true)]
  | 0xA1 => [(5, false), (5, false), (5, true), (5, true)]
  | 0xA2 => [(5, false), (5, false), (5, true), (5, true)]
  | 0xA3 => [(5, false), (5, true), (5, true), (5, true)]
  | 0xA4 => [(3, false), (3, true), (1, true), (1, true)]
  | 0xA5 => [(2, false), (2, false), (5, true)]
  | 0xA7 => [(5, false), (5, true)]
  | _ => []

/-- Entries of the table: TYPE and ACCESS. -/
def tableAccess (part : Bytes) : List (Nat × Nat) :=
  (List.range (part.length / 8)).map (fun i => ((tableEntry part i).2.1, (tableEntry part i).2.2))

/-- Does one instruction agree with the table? -/
def insFits (tab : List (Nat × Nat)) (i : LIns) : Bool :=
  let okAt (k ty : Nat) (write : Bool) : Bool := match tab[k]? with
    | some (t, acc) => t == ty && bit acc (if write then 1 else 0)
    | none => false
  if i.op ∈ [0x20, 0x22, 0x23, 0x24] then (List.range i.count).all (fun j => okAt (i.arg + j) i.ty false)
  else if i.op = 0x21 ∨ i.op = 0x25 then (List.range i.count).all (fun j => okAt (i.arg + j) i.ty true)
  else ((primInstance i.op).mapIdx (fun j x => okAt (i.arg + j) x.1 x.2)).all id

/-- The check of code against table: the offset of the first instruction word that fails. -/
def crossCheck (code table : Bytes) : Option Nat :=
  match readBlocks code (le code 6 2) 0 with
  | .error o => some o
  | .ok bs =>
    let textOff := le code 24 4
    match cutAll bs.length (textWords code textOff (le code 28 4)) bs with
    | .error w => some (textOff + 4 * w)
    | .ok ins =>
      let tab := tableAccess table
      (minWord ((ins.flatten.filter (fun i => !insFits tab i)).map (·.w))).map (fun w => textOff + 4 * w)

end Sys2Proof.Machine
end

