-- ==== Sys2Proof/Machine/Tasks.lean ====
section
/-! DEFINITION. Machine/Tasks.lean: tasks and their states (R125 to R128), their banks (R145, R146), intercalation (R140 to R144)
and the TASK commands (R152, R153). -/

namespace Sys2Proof.Machine
open Sys2Proof Sys2Proof.Bits

/-- Change a task. -/
def taskMod (m : Module) (t : Nat) (f : Task → Task) : Module :=
  { m with exec := { m.exec with tasks := tmod m.exec.tasks t f } }

/-- The task of a number. -/
def taskOf (m : Module) (t : Nat) : Option Task := tget m.exec.tasks t

/-- Units are numbered 2 × cluster + core. -/
def unitOf (t : Task) : Nat := 2 * t.cluster + b2n t.core

/-- Change a unit. -/
def unitMod (m : Module) (u : Nat) (f : XUnit → XUnit) : Module :=
  { m with exec := { m.exec with units := modNth m.exec.units u f } }

/-- The period in ns. -/
def periodNs (t : Task) : Nat := 1000 * t.period

/-- The first grid boundary strictly after a time (R128). -/
def gridAfter (t : Task) (time : W64) : W64 :=
  let p := periodNs t
  let x := time.toNat + 1
  w64 (x + (1000 * t.phase + t.shift + p - x % p) % p)

/-- A task runs a safety-relevant check on both cores: it is not UNCHECKED. -/
def checked (t : Task) : Bool := !t.unchecked

/-! ### Faults and abandoned cycles -/

/-- The WRITER word of a task (R94). -/
def taskWriter (t : Nat) : W16 := w16 (0x4000 + t)

/-- QUALITY_FAULT_MARK: FAULT in every point whose WRITER names the task (R127). -/
def markFault (m : Module) (t : Nat) : Module :=
  let f (r : PointRec) : PointRec :=
    if r.ty.isSome && r.writer == taskWriter t then { r with quality := r.quality ||| 2 } else r
  reportChanges m.store.points
    { m with store := { m.store with points := m.store.points.map (fun x => (x.1, f x.2)) } }

/-- The retained entries of a write set that is never released are discarded at once (R20, R414). -/
def dropLog (m : Module) (t : Nat) : Module :=
  { m with store := { m.store with log := m.store.log.filter (fun x => x.complete || x.task != t) } }

/-- Higher priority, then earlier step, then lower number (R139). -/
def before (a b : Nat × Task) : Bool :=
  match a.2.cycle, b.2.cycle with
  | some x, some y =>
    if a.2.prio ≠ b.2.prio then decide (a.2.prio < b.2.prio)
    else if x.start ≠ y.start then decide (almDiff x.start y.start < 0)
    else decide (a.1 < b.1)
  | some _, none => true
  | _, _ => false

/-- The cycles a unit may run: ready, not ended, on this unit. -/
def candidates (m : Module) (u : Nat) : List (Nat × Task) :=
  m.exec.tasks.filter (fun x => unitOf x.2 == u && match x.2.cycle with
    | some c => c.ready && !c.ended
    | none => false)

/-- The ready cycle a unit runs (R139). -/
def chooseCycle (m : Module) (u : Nat) : Option Nat :=
  ((candidates m u).foldl (fun best x => match best with
    | none => some x
    | some b => if before x b then some x else some b) none).map (·.1)

/-- The descriptors a unit loads when it dispatches a task (R112). Code, table and stack lie in the program bank and in
working memory; data reach the store by descriptor 28 or privileged (log entry 12). -/
def dispatchDescs (m : Module) (t : Task) : List GuardDesc :=
  match partOf m t.part with
  | none => List.replicate 32 {}
  | some p =>
    let slots : GuardDesc := { first := p.base, last := p.base + p.count - 1, perm := if p.count = 0 then 0x03 else 0x83 }
    p.regions.take 28 ++ [slots, {}, {}, {}]

/-- Dispatch on a unit: the chosen cycle runs; a change of task loads its descriptors (R112, R139). -/
def dispatch (m : Module) (u : Nat) : Module :=
  match m.exec.units[u]? with
  | none => m
  | some x =>
    if x.fenced || x.resetting then unitMod m u (fun x => { x with running := none })
    else match chooseCycle m u with
      | none => unitMod m u (fun x => { x with running := none })
      | some t =>
        if x.running = some t then m
        else match taskOf m t with
          | none => m
          | some k => unitMod m u (fun x => { x with running := some t, descs := dispatchDescs m k })

/-- A cycle is abandoned without commit (R126, R138, R149). -/
def abandon (m : Module) (t : Nat) : Module :=
  match taskOf m t with
  | none => m
  | some k =>
    let m1 := dropLog (taskMod m t (fun k => { k with cycle := none })) t
    dispatch m1 (unitOf k)

/-- A task enters FAULTED with a cause of R153: its cycle is abandoned, its points carry FAULT (R126, R127) and a record is
written. -/
def faultTask (m : Module) (t cause : Nat) (boundary : W64) : Module :=
  match taskOf m t with
  | none => m
  | some k =>
    let m1 := taskMod (abandon m t) t (fun k => { k with st := .faulted, cause := cause })
    logBoth (markFault m1 t) 0x0302 2 t k.part (leBytes 2 cause ++ leBytes 8 boundary.toNat)

/-! ### TASK commands -/

/-- A cluster is split on a module (R147). -/
def isSplit (m : Module) (cluster : Nat) : Bool := bit m.boot.split cluster

/-- TASK.DEFINE (R125, R147, R152, R374). -/
def hTaskDefine (m p : Module) (c : Cmd) : QRes :=
  let t := prm c 0 2
  let cluster := prmB c 3 % 16
  let core := bit (prmB c 3) 4
  let period := prm c 4 4
  let phase := prm c 8 4
  let frame := prm c 12 4
  let halo := bit (prmB c 16) 0
  let unchecked := bit (prmB c 16) 1
  let q := pid c
  if 4095 < t ∨ 15 < prmB c 2 ∨ period < 50 ∨ 60000000 < period ∨ period ≤ phase ∨ frame < 4 ∨ 16384 < frame then .refused 7 0
  else if thas m.exec.tasks t then .refused 0x0301 0
  else if 4096 ≤ m.exec.tasks.length
      ∨ (match partOf m q with | some x => x.quota | none => 0) ≤ (m.exec.tasks.filter (fun x => x.2.part == q)).length then
    .refused 9 0
  else if unchecked ≠ isSplit m cluster ∨ (halo = true ∧ isSplit m cluster = true) ∨ (core = true ∧ isSplit m cluster = false)
      ∨ (linked m p = true ∧ isSplit p cluster ≠ isSplit m cluster) then .refused 0x0302 0
  else
    let k : Task :=
      { part := q, period := period, phase := phase, prio := prmB c 2, cluster := cluster, core := core,
        frameKiB := frame, halo := halo, unchecked := unchecked }
    ok { m with exec := { m.exec with tasks := tset m.exec.tasks t k } }

/-- Put a part into a bank. -/
def setPart (k : Task) (bank part : Nat) (x : Part) : Task :=
  match bank, part with
  | 0, 0 => { k with code0 := x }
  | 0, _ => { k with table0 := x }
  | _, 0 => { k with code1 := x }
  | _, _ => { k with table1 := x }

/-- Bytes of a program bank in use (R15, R145). -/
def bankUsed (m : Module) (bank : Nat) : Nat :=
  (m.exec.tasks.map (fun x => (partIn x.2 bank 0).bytes.length + (partIn x.2 bank 1).bytes.length)).sum

/-- A chunk written into a part (R145): FIRST empties it, bytes no chunk has written hold 0. -/
def chunkInto (first : Bool) (off : Nat) (data old : Bytes) : Bytes := overwrite (if first then [] else old) off data

/-- The checks at LAST on a part with the chunk it carries: status and DETAIL of the first that fails (R145, R171, R172, R424). -/
def lastCheck (m : Module) (t : Nat) (k : Task) (bank part : Nat) (bytes : Bytes) (total crc : Nat) : Option (Nat × Nat) :=
  if bytes.length ≠ total ∨ (crc32c bytes).toNat ≠ crc then some (0x0303, 0)
  else
    let other := partIn k bank (1 - part)
    let alone := if part = 0 then (codeCheck bytes k.frameKiB).map (fun o => (0x0303, o)) else tableCheck m t k.part bytes
    match alone with
    | some e => some e
    | none =>
      if other.sealed then
        (if part = 0 then crossCheck bytes other.bytes else crossCheck other.bytes bytes).map (fun o => (0x0303, o))
      else none

/-- TASK.LOAD (R145, R152). -/
def hTaskLoad (m _p : Module) (c : Cmd) : QRes :=
  let t := prm c 0 2
  let bank := prmB c 2
  let part := prmB c 3
  let first := bit (prmB c 4) 0
  let last := bit (prmB c 4) 1
  if 1 < bank ∨ 1 < part then .refused 7 0
  else match taskCheck m (pid c) t, taskOf m t with
    | some e, _ => .refused e 0
    | none, none => .refused 8 0
    | none, some k =>
      if k.active = some bank ∨ (match k.cycle with | some y => y.bank == bank | none => false) = true then .refused 16 0
      else
        let old := partIn k bank part
        let off := prm c 8 4
        if (part = 0 ∧ 16777216 < off + c.req.length)
            ∨ 536870912 < bankUsed m bank - old.bytes.length + max (if first then 0 else old.bytes.length) (off + c.req.length) then
          .refused 9 0
        else
          let bytes := chunkInto first off c.req old.bytes
          match if last then lastCheck m t k bank part bytes (prm c 12 4) (prm c 16 4) else none with
          | some (st, d) => .refused st d
          | none => ok (taskMod m t (fun k => setPart k bank part { bytes := bytes, sealed := last }))

/-- Both parts of a bank are sealed. -/
def bankSealed (k : Task) (bank : Nat) : Bool := (partIn k bank 0).sealed && (partIn k bank 1).sealed

/-- The bank a swap activates: the inactive one; of a DEFINED task the first that is sealed (R146). -/
def swapTarget (k : Task) : Option Nat :=
  match k.active with
  | some a => if bankSealed k (1 - a) then some (1 - a) else none
  | none => if bankSealed k 0 then some 0 else if bankSealed k 1 then some 1 else none

/-- A task's swap at its command commit (R126, R146). -/
def swapTask (k : Task) : Task :=
  match swapTarget k with
  | none => k
  | some b => { k with active := some b, firstDue := true, st := if k.st = .defined then .loaded else k.st }

/-- Task number `i` in request data. -/
def reqTask (c : Cmd) (i : Nat) : Nat := le c.req (2 * i) 2

/-- TASK.SWAP (R146, R353). -/
def hTaskSwap (m _p : Module) (c : Cmd) : QRes :=
  let n := prm c 0 4
  if n < 1 ∨ 256 < n then .refused 7 0
  else overElems m n (fun a i => match taskCheck m (pid c) (reqTask c i), taskOf m (reqTask c i) with
      | some e, _ => .error e
      | none, some k => if k.halo then .error 0x0905 else if (swapTarget k).isNone then .error 0x0303 else .ok a
      | none, none => .error 8)
    (fun a => ok ((List.range n).map (reqTask c) |>.eraseDups.foldl (fun a t => taskMod a t swapTask) a))

/-- Start a task at a command commit (R126, R167). -/
def startTask (time : W64) (k : Task) : Task :=
  { k with st := .running, cause := 0, next := gridAfter k time, offset := 0, firstDue := true, startDue := true, icalHit := false, lastReleased := none, clipRun := false }

/-- The boundaries of a bus's task use the rows of the bus from row 0 (R252). -/
def resetRows (m : Module) (t : Nat) : Module :=
  { m with field := { m.field with buses := m.field.buses.mapIdx (fun i b =>
    if m.field.drops.any (fun x => x.2.kind == .bus && x.2.segment == i && x.2.task == some t) then { b with nextRow := 0 } else b) } }

/-- TASK.START (R126, R252). -/
def hTaskStart (m _p : Module) (c : Cmd) : QRes :=
  let t := prm c 0 2
  match taskCheck m (pid c) t, taskOf m t with
  | some e, _ => .refused e 0
  | none, none => .refused 8 0
  | none, some k =>
    if k.st = .loaded ∨ k.st = .stopped ∨ k.st = .faulted then ok (resetRows (taskMod m t (startTask (now m))) t) else .refused 11 0

/-- TASK.STOP (R126, R127). -/
def hTaskStop (m _p : Module) (c : Cmd) : QRes :=
  let t := prm c 0 2
  match taskCheck m (pid c) t, taskOf m t with
  | some e, _ => .refused e 0
  | none, none => .refused 8 0
  | none, some k =>
    if k.st = .running then ok (markFault (taskMod (abandon m t) t (fun k => { k with st := .stopped })) t) else .refused 11 0

/-- A drop, a publication, an import or a local binding names the task (R120, R152, R339). -/
def taskBound (m : Module) (t : Nat) : Bool :=
  m.field.drops.any (fun x => x.2.task == some t || match x.2.bindNext with | some (b, _) => b == some t | none => false)
    || m.store.pubs.any (fun x => x.2.task == t || match x.2.next with | some (k, _) => k == t | none => false)
    || m.store.imports.any (fun x => x.2.task == t && !x.2.deleting)
    || m.lio.binds.any (fun b => b.task == t) || m.lio.bindsNext.any (fun b => b.1.task == t && b.2)

/-- TASK.DELETE (R126, R152). -/
def hTaskDelete (m _p : Module) (c : Cmd) : QRes :=
  let t := prm c 0 2
  match taskCheck m (pid c) t, taskOf m t with
  | some e, _ => .refused e 0
  | none, none => .refused 8 0
  | none, some k =>
    if k.st = .running then .refused 11 0
    else if taskBound m t then .refused 0x0304 0
    else ok { m with exec := { m.exec with tasks := tdel m.exec.tasks t } }

/-- State codes of R153. -/
def taskStateCode : TaskState → Nat
  | .defined => 1
  | .loaded => 2
  | .running => 3
  | .stopped => 4
  | .faulted => 5

/-- The 64 bytes of a TASK.STATUS element (R153). -/
def taskStatusBytes (k : Task) : Bytes :=
  leBytes 1 (taskStateCode k.st) ++ leBytes 1 (k.active.getD 0xFF) ++ leBytes 2 k.cause ++ leBytes 4 k.period
    ++ leBytes 8 k.lastBoundary.toNat ++ leBytes 8 (unsigned 64 k.offset) ++ leBytes 4 (sat32 k.execLast)
    ++ leBytes 4 (sat32 k.execMax) ++ leBytes 4 k.overruns ++ leBytes 4 k.syncMiss ++ leBytes 4 k.syncAbsent
    ++ leBytes 4 k.icalClip ++ leBytes 4 k.restarts ++ leBytes 4 k.agreeConflict ++ zeros 8

/-- TASK.STATUS (R152, R153). -/
def hTaskStatus (m _p : Module) (c : Cmd) : QRes :=
  let n := prm c 0 4
  if n < 1 ∨ 4096 < n then .refused 7 0
  else overElems m n (fun a i => match taskCheck m (pid c) (reqTask c i) with | some e => .error e | none => .ok a)
    (fun a => okRsp (((List.range n).map (fun i => match taskOf a (reqTask c i) with
      | some k => taskStatusBytes k
      | none => zeros 64)).flatten) a)

/-! ### Intercalation -/

/-- The settings of TASK.ICAL take effect. -/
def icalNow (k : Task) : Task :=
  match k.icalNext with
  | none => k
  | some (src, f, drop, d, t) => { k with icalSource := src, icalFalling := f, icalDrop := drop, icalD := d, icalT := t, icalNext := none }

/-- The last boundary B: E is B + P in k.next until an event moves it. -/
def windowE (k : Task) : W64 := k.lastBoundary + w64 (periodNs k)

/-- A window of intercalation by an event source is open (R141). -/
def windowOpen (k : Task) (time : W64) : Bool :=
  k.st == .running && (k.icalSource == 1 || k.icalSource == 2) &&
    decide ((almDiff time k.next).natAbs ≤ periodNs k / 8 ∨ (almDiff time k.lastBoundary).natAbs ≤ periodNs k / 8)

/-- An announced event with candidate C' learned at `learned` (R141): a boundary at C' before E; after the boundary at E was
taken, the next E becomes C' + P; outside the window, or a second one, it is counted. -/
def icalEvent (k : Task) (c learned : W64) : Task :=
  let p8 : Int := periodNs k / 8
  let e := k.next
  if k.icalHit then { k with syncMiss := inc32 k.syncMiss }
  else if -p8 ≤ almDiff c e ∧ almDiff c e ≤ 0 ∧ almDiff learned e < 0 then
    { k with next := c, offset := k.offset + almDiff c e, icalHit := true, moved := c != e }
  else if 0 < almDiff c e ∧ almDiff c e ≤ p8 ∧ almDiff learned e < 0 then { k with icalLate := some c, icalHit := true }
  else if 0 < almDiff c k.lastBoundary ∧ almDiff c k.lastBoundary ≤ p8 then
    { k with next := c + w64 (periodNs k), offset := k.offset + almDiff c k.lastBoundary, icalHit := true }
  else { k with syncMiss := inc32 k.syncMiss }

/-- The clip of R142: |O| at most P / 2; the boundary then lies at the grid boundary ± P / 2. Whether it is the first of a run. -/
def icalClipped (k : Task) : Task × Bool :=
  let half : Int := periodNs k / 2
  let o : Int := if k.offset < -half then -half else if half < k.offset then half else k.offset
  if o = k.offset then (k, false)
  else ({ k with next := k.next + w64 (unsigned 64 (o - k.offset)), offset := o, icalClip := inc32 k.icalClip, clipped := true, moved := true },
        !k.clipRun)

/-- Put a newly placed boundary into the task, clipped where it must be, with the record of the first clip of a run (R142). -/
def placeBoundary (m : Module) (t : Nat) (k : Task) : Module :=
  let (k1, first) := icalClipped k
  let m1 := taskMod m t (fun _ => k1)
  if first then logBoth m1 0x0306 2 t k.part (leBytes 8 k1.next.toNat ++ leBytes 8 (unsigned 64 k1.offset)) else m1

/-- An event for a running task (R141). -/
def icalPlace (m : Module) (t : Nat) (c learned : W64) : Module :=
  match taskOf m t with
  | none => m
  | some k => if k.st = .running then placeBoundary m t (icalEvent k c learned) else m

/-- TASK.ICAL: the settings take effect at the first window that opens afterwards (R140, R152). -/
def hTaskIcal (m _p : Module) (c : Cmd) : QRes :=
  let t := prm c 0 2
  let src := prmB c 2
  let d := prm c 8 4
  match taskCheck m (pid c) t with
  | some e => .refused e 0
  | none =>
    if 3 < src ∨ ((src = 1 ∨ src = 2) ∧ (d < 3 ∨ 1000 < d)) then .refused 7 0
    else if src = 2 ∧ thas m.field.drops (prm c 4 2) = false then .refused 8 0
    else ok (taskMod m t (fun k =>
      let k1 := { k with icalNext := some (src, bit (prmB c 3) 0, prm c 4 2, d, w64 (prm c 12 8)) }
      if windowOpen k (now m) then k1 else icalNow k1))

/-! ### The rows of the TASK commands -/

def execTaskDefine (sl : Slot) (c : Cmd) (s : State) : Res := quondi hTaskDefine .work .part 0x0301 s sl c
def execTaskLoad (sl : Slot) (c : Cmd) (s : State) : Res := quondi hTaskLoad .work .part 0x0302 s sl c
def execTaskSwap (sl : Slot) (c : Cmd) (s : State) : Res := quondi hTaskSwap .work .part 0x0303 s sl c
def execTaskStart (sl : Slot) (c : Cmd) (s : State) : Res := quondi hTaskStart .work .part 0x0304 s sl c
def execTaskStop (sl : Slot) (c : Cmd) (s : State) : Res := quondi hTaskStop .work .part 0x0305 s sl c
def execTaskDelete (sl : Slot) (c : Cmd) (s : State) : Res := quondi hTaskDelete .work .part 0x0306 s sl c
def execTaskStatus (sl : Slot) (c : Cmd) (s : State) : Res := quondi hTaskStatus .query .part 0x0307 s sl c
def execTaskIcal (sl : Slot) (c : Cmd) (s : State) : Res := quondi hTaskIcal .work .part 0x0308 s sl c

end Sys2Proof.Machine
end

