-- ==== Sys2Proof/Machine/Float.lean ====
section
/-! DEFINITION. Machine/Float.lean: IEEE 754 binary32 and binary64 with rounding to nearest, ties to even, and subnormal values
(R158, R162), computed exactly on integers. -/

namespace Sys2Proof.Machine
open Sys2Proof Sys2Proof.Bits

/-- What a bit pattern means: the value of `fin` is ± m × 2^e. -/
inductive Fv where
  | nan
  | inf (neg : Bool)
  | fin (neg : Bool) (m : Nat) (e : Int)
  deriving DecidableEq, Repr

/-- A format: REAL64, or REAL32. -/
abbrev Dbl := Bool

/-- Precision in bits. -/
def fPrec (d : Dbl) : Nat := if d then 53 else 24
/-- Exponent of the last place of subnormal values. -/
def fQmin (d : Dbl) : Int := if d then -1074 else -149
/-- Exponent field of infinities and NaNs. -/
def fExpMax (d : Dbl) : Nat := if d then 2047 else 255
/-- The sign bit as a number. -/
def fSign (d : Dbl) : Nat := if d then 2 ^ 63 else 2 ^ 31

/-- The canonical quiet NaN (R162). -/
def fNaN (d : Dbl) : W64 := if d then 0x7FF8000000000000 else 0x7FC00000

/-- ±infinity. -/
def fInf (d neg : Bool) : W64 := w64 (fExpMax d * 2 ^ (fPrec d - 1) + (if neg then fSign d else 0))

/-- ±0. -/
def fZero (d neg : Bool) : W64 := w64 (if neg then fSign d else 0)

/-- Read a pattern. -/
def fDec (d : Dbl) (v : W64) : Fv :=
  let n := v.toNat % (2 * fSign d)
  let neg := decide (fSign d ≤ n)
  let x := n % fSign d
  let ex := x / 2 ^ (fPrec d - 1)
  let fr := x % 2 ^ (fPrec d - 1)
  if ex = fExpMax d then (if fr = 0 then .inf neg else .nan)
  else if ex = 0 then .fin neg fr (fQmin d)
  else .fin neg (fr + 2 ^ (fPrec d - 1)) (fQmin d + ex - 1)

/-- Write ± m × 2^q, where m < 2^p and q is the last place chosen for it; beyond the finite range, infinity and OVF. -/
def fPack (d neg : Bool) (m : Nat) (q : Int) : W64 × Bool :=
  let p := fPrec d
  let s := if neg then fSign d else 0
  if m < 2 ^ (p - 1) then (w64 (s + m), false)
  else
    let ex := (q - fQmin d + 1).toNat
    if fExpMax d ≤ ex then (fInf d neg, true) else (w64 (s + ex * 2 ^ (p - 1) + (m - 2 ^ (p - 1))), false)

/-- The last place of a positive quotient num ÷ den rounded in the format. -/
def fPlace (d : Dbl) (num den : Nat) : Int :=
  let k : Int := (Nat.log2 num : Int) - Nat.log2 den
  let low : Bool := if 0 ≤ k then decide (num < den * 2 ^ k.toNat) else decide (num * 2 ^ (-k).toNat < den)
  let e := if low then k - 1 else k
  max (e - (fPrec d - 1)) (fQmin d)

/-- n ÷ k to the nearest integer, ties to even. -/
def divNearest (n k : Nat) : Nat :=
  let q := n / k
  let r := n % k
  if 2 * r < k then q else if k < 2 * r then q + 1 else q + q % 2

/-- ± num ÷ den rounded to nearest, ties to even. -/
def fRound (d neg : Bool) (num den : Nat) : W64 × Bool :=
  if num = 0 then (fZero d neg, false)
  else
    let q := fPlace d num den
    let m := if 0 ≤ q then divNearest num (den * 2 ^ q.toNat) else divNearest (num * 2 ^ (-q).toNat) den
    if m = 2 ^ fPrec d then fPack d neg (2 ^ (fPrec d - 1)) (q + 1) else fPack d neg m q

/-- ± m × 2^e rounded in a format. -/
def fScale (d neg : Bool) (m : Nat) (e : Int) : W64 × Bool :=
  if 0 ≤ e then fRound d neg (m * 2 ^ e.toNat) 1 else fRound d neg m (2 ^ (-e).toNat)

/-- The result of an operation: bits, exception flags (R163) and what they do to the quality: 0 nothing, 1 RANGE and CLASS
at most 0b01, 2 RANGE and CLASS 0b00, 3 CLASS 0b00. -/
structure Ar where
  val : W64
  flags : Nat := 0
  qual : Nat := 0
  deriving DecidableEq, Repr

/-- A NaN result (R163). -/
def arNaN (d : Dbl) : Ar := { val := fNaN d, flags := 4, qual := 2 }
/-- A rounded result; beyond the finite range OVF. -/
def arRounded (r : W64 × Bool) : Ar := if r.2 then { val := r.1, flags := 1, qual := 1 } else { val := r.1 }
/-- An exact result. -/
def arExact (v : W64) : Ar := { val := v }

/-- Sum of finite values as a signed integer at the smaller place. -/
def fSum (n1 : Bool) (m1 : Nat) (e1 : Int) (n2 : Bool) (m2 : Nat) (e2 : Int) : Int × Int :=
  let e := min e1 e2
  let a : Int := m1 * 2 ^ (e1 - e).toNat
  let b : Int := m2 * 2 ^ (e2 - e).toNat
  ((if n1 then -a else a) + (if n2 then -b else b), e)

/-- Addition. -/
def fAdd (d : Dbl) (a b : W64) : Ar :=
  match fDec d a, fDec d b with
  | .nan, _ => arNaN d
  | _, .nan => arNaN d
  | .inf x, .inf y => if x = y then arExact (fInf d x) else arNaN d
  | .inf x, _ => arExact (fInf d x)
  | _, .inf y => arExact (fInf d y)
  | .fin n1 m1 e1, .fin n2 m2 e2 =>
    let s := fSum n1 m1 e1 n2 m2 e2
    if s.1 = 0 then arExact (fZero d (n1 && n2 && m1 == 0 && m2 == 0))
    else arRounded (fScale d (decide (s.1 < 0)) s.1.natAbs s.2)

/-- Change of sign, of the bits. -/
def fFlip (d : Dbl) (a : W64) : W64 := a ^^^ w64 (fSign d)

/-- Is the pattern a NaN? -/
def fIsNaN (d : Dbl) (a : W64) : Bool := match fDec d a with | .nan => true | _ => false

/-- Negation; a NaN gives the canonical NaN. -/
def fNeg (d : Dbl) (a : W64) : Ar := if fIsNaN d a then arNaN d else arExact (fFlip d a)

/-- Magnitude. -/
def fAbs (d : Dbl) (a : W64) : Ar :=
  if fIsNaN d a then arNaN d else arExact (w64 (a.toNat % fSign d))

/-- Subtraction. -/
def fSub (d : Dbl) (a b : W64) : Ar := if fIsNaN d b then arNaN d else fAdd d a (fFlip d b)

/-- Multiplication. -/
def fMul (d : Dbl) (a b : W64) : Ar :=
  match fDec d a, fDec d b with
  | .nan, _ => arNaN d
  | _, .nan => arNaN d
  | .inf x, .inf y => arExact (fInf d (x != y))
  | .inf x, .fin y m _ => if m = 0 then arNaN d else arExact (fInf d (x != y))
  | .fin x m _, .inf y => if m = 0 then arNaN d else arExact (fInf d (x != y))
  | .fin n1 m1 e1, .fin n2 m2 e2 => arRounded (fScale d (n1 != n2) (m1 * m2) (e1 + e2))

/-- Division; a non-zero finite value by ±0 sets DIVZ (R163). -/
def fDiv (d : Dbl) (a b : W64) : Ar :=
  match fDec d a, fDec d b with
  | .nan, _ => arNaN d
  | _, .nan => arNaN d
  | .inf _, .inf _ => arNaN d
  | .inf x, .fin y _ _ => arExact (fInf d (x != y))
  | .fin x _ _, .inf y => arExact (fZero d (x != y))
  | .fin n1 m1 e1, .fin n2 m2 e2 =>
    if m2 = 0 then (if m1 = 0 then arNaN d else { val := fInf d (n1 != n2), flags := 2, qual := 1 })
    else
      let e := e1 - e2
      arRounded (if 0 ≤ e then fRound d (n1 != n2) (m1 * 2 ^ e.toNat) m2 else fRound d (n1 != n2) m1 (m2 * 2 ^ (-e).toNat))

/-- Order of two values: `none` with a NaN; −0 and +0 are equal. -/
def fCmp (d : Dbl) (a b : W64) : Option Ordering :=
  match fDec d a, fDec d b with
  | .nan, _ => none
  | _, .nan => none
  | .inf x, .inf y => some (if x = y then .eq else if x then .lt else .gt)
  | .inf x, _ => some (if x then .lt else .gt)
  | _, .inf y => some (if y then .gt else .lt)
  | .fin n1 m1 e1, .fin n2 m2 e2 =>
    let s := (fSum n1 m1 e1 (!n2) m2 e2).1
    some (if s < 0 then .lt else if s = 0 then .eq else .gt)

/-- Sign bit of a pattern. -/
def fNegBit (d : Dbl) (a : W64) : Bool := decide (fSign d ≤ a.toNat % (2 * fSign d))

/-- The smaller; of −0 and +0, −0 (R165). -/
def fMin (d : Dbl) (a b : W64) : Ar :=
  match fCmp d a b with
  | none => arNaN d
  | some .lt => arExact a
  | some .gt => arExact b
  | some .eq => arExact (if fNegBit d a then a else b)

/-- The larger; of −0 and +0, +0 (R165). -/
def fMax (d : Dbl) (a b : W64) : Ar :=
  match fCmp d a b with
  | none => arNaN d
  | some .lt => arExact b
  | some .gt => arExact a
  | some .eq => arExact (if fNegBit d a then b else a)

/-- An integer as a real. -/
def fOfInt (d : Dbl) (i : Int) : W64 := (fRound d (decide (i < 0)) i.natAbs 1).1

/-- The integer nearest to a finite value, ties to even. -/
def fNearestInt (neg : Bool) (m : Nat) (e : Int) : Int :=
  let n := if 0 ≤ e then m * 2 ^ e.toNat else divNearest m (2 ^ (-e).toNat)
  if neg then -(n : Int) else n

/-- The square root of a finite positive value m × 2^e, among the values within 1 unit in the last place (R162): the
candidate numbered `pick`. -/
def fSqrtFin (d : Dbl) (m : Nat) (e : Int) (pick : Nat) : W64 :=
  -- bring the exponent to an even number far below the last place, then take the integer root
  let e0 : Int := e - e % 2
  let m0 := m * 2 ^ (e % 2).toNat
  let half : Int := e0 / 2
  -- the place of the root: root = sqrt m0 × 2^half
  let lg : Int := (Nat.log2 m0 : Int) / 2 + half
  let q : Int := max (lg - (fPrec d - 1)) (fQmin d)
  let sh : Int := 2 * (half - q)
  let n := if 0 ≤ sh then m0 * 2 ^ sh.toNat else m0 / 2 ^ (-sh).toNat
  let r := Nat.sqrt n
  let exact := decide (r * r = n ∧ (0 ≤ sh ∨ m0 % 2 ^ (-sh).toNat = 0))
  let cand := if exact then [r, r - 1, r + 1] else [r, r + 1]
  let c := cand.getD (pick % cand.length) r
  (fScale d false c q).1

/-- SQRT (R166): √(−0) = −0, a negative value gives NaN. -/
def fSqrt (d : Dbl) (a : W64) (version : W32) : Ar :=
  match fDec d a with
  | .nan => arNaN d
  | .inf true => arNaN d
  | .inf false => arExact (fInf d false)
  | .fin neg m e =>
    if m = 0 then arExact (fZero d neg)
    else if neg then arNaN d
    else arExact (fSqrtFin d m e (Config.sqrtPick (if d then 64 else 32) a version))

end Sys2Proof.Machine
end

