-- ==== Sys2Proof/Machine/MathFn.lean ====
section
/-! DEFINITION. Machine/MathFn.lean: EXP, LN, SIN, COS and ATAN2 (R162, R166): the exact value is enclosed between two fixed-point
numbers, and the result is one of the values of the format within 1 unit in the last place of it; which one is free. -/

namespace Sys2Proof.Machine
open Sys2Proof Sys2Proof.Bits

/-! ### Enclosures in fixed point -/

/-- Bits behind the point. -/
def mBits : Nat := 1400
/-- 1 in fixed point. -/
def mOne : Int := 2 ^ mBits
/-- Each enclosure is widened by this much, far more than the truncations of its terms add up to. -/
def mSlack : Int := 2 ^ 40

/-- An exact value lies between `lo` and `hi`, both × 2^−1400. -/
structure Enc where
  lo : Int
  hi : Int
  deriving DecidableEq, Repr

/-- The enclosure of a fixed-point value. -/
def encOf (v : Int) : Enc := { lo := v - mSlack, hi := v + mSlack }
/-- The same for a value known to be positive; the smallest unit stands for all that lies below it. -/
def encPos (v : Int) : Enc := { lo := max (v - mSlack) 1, hi := v + mSlack }
/-- The negative of an enclosed value. -/
def encNeg (x : Enc) : Enc := { lo := -x.hi, hi := -x.lo }

/-- Σ t(n), t(n + 1) = t(n) × a ÷ (b(n) × one). -/
def mSeries (one a : Int) (den : Nat → Int) : Nat → Nat → Int → Int → Int
  | 0, _, _, acc => acc
  | fuel + 1, n, term, acc => mSeries one a den fuel (n + 1) (term * a / (one * den n)) (acc + term)

/-- Σ z^(2n+1) ÷ (2n+1), the signs alternating when `sgn` is −1: atanh or atan of z. -/
def mOdd (one sgn z2 : Int) : Nat → Nat → Int → Int → Int
  | 0, _, _, acc => acc
  | fuel + 1, n, pow, acc => mOdd one sgn z2 fuel (n + 1) (sgn * (pow * z2) / one) (acc + pow / (2 * n + 1))

/-- atan of 1 ÷ k with `one` as 1. -/
def mAtanInv (one : Int) (k : Int) : Int := mOdd one (-1) (one / (k * k)) 700 0 (one / k) 0

/-- π with `one` as 1 (Machin). -/
def mPiAt (one : Int) : Int := 4 * (4 * mAtanInv one 5 - mAtanInv one 239)
/-- π in fixed point. -/
def mPi : Int := mPiAt mOne

/-- atanh of z. -/
def mAtanh (z : Int) : Int := mOdd mOne 1 (z * z / mOne) 600 0 z 0
/-- ln 2. -/
def mLn2 : Int := 2 * mAtanh (mOne / 3)

/-- e^r for 0 ≤ r < 1. -/
def mExp (r : Int) : Int := mSeries mOne r (fun n => n + 1) 300 0 mOne 0
/-- sin r for 0 ≤ r < 7. -/
def mSin (r : Int) : Int := mSeries mOne (-(r * r / mOne)) (fun n => (2 * n + 2) * (2 * n + 3)) 250 0 r 0
/-- cos r for 0 ≤ r < 7. -/
def mCos (r : Int) : Int := mSeries mOne (-(r * r / mOne)) (fun n => (2 * n + 1) * (2 * n + 2)) 250 0 mOne 0

/-- atan of t, 0 ≤ t ≤ 1. -/
def mAtan (t : Int) : Int :=
  if 5 * t ≤ 2 * mOne then mOdd mOne (-1) (t * t / mOne) 700 0 t 0
  else
    let z := (t - mOne) * mOne / (t + mOne)
    mPi / 4 + mOdd mOne (-1) (z * z / mOne) 700 0 z 0

/-- m × 2^e in fixed point, truncated. -/
def mFix (m : Nat) (e : Int) : Int :=
  let k := e + mBits
  if 0 ≤ k then m * 2 ^ k.toNat else m / 2 ^ (-k).toNat

/-! ### From an enclosure to a result -/

/-- A signed multiple k of 2^q as a value of the format; a zero takes the sign `zneg`. -/
def mValue (d zneg : Bool) (k : Int) (q : Int) : Ar :=
  if k = 0 then arExact (fZero d zneg) else arRounded (fScale d (decide (k < 0)) k.natAbs q)

/-- The multiples of half a last place within 1 last place of an enclosed value, as far as the format has them: the value is
`e` × 2^`sh`, and its last place is 2^q. -/
def mCandidates (d : Bool) (e : Enc) (sh q : Int) : List Int :=
  -- one half last place in the unit of the enclosure, both brought to integers
  let k := sh - mBits - (q - 1)
  let s : Int := if 0 ≤ k then 2 ^ k.toNat else 1
  let h : Int := if 0 ≤ k then 1 else 2 ^ (-k).toNat
  let a := -((2 * h - e.lo * s) / h)
  let b := (e.hi * s + 2 * h) / h
  ((List.range (b - a + 1).toNat).map (fun (i : Nat) => a + (i : Int))).filter (fun c => c % 2 == 0 || (decide (c.natAbs < 2 ^ fPrec d) && decide (fQmin d < q)))

/-- The result for an enclosed value × 2^sh: free among the candidates. -/
def mResult (d : Dbl) (pick : Nat) (e : Enc) (sh : Int) (keep : Int → Int → Bool) : Ar :=
  let top := max e.lo.natAbs e.hi.natAbs
  let q : Int := max ((Nat.log2 top : Int) + sh - mBits - (fPrec d - 1)) (fQmin d)
  let cs := (mCandidates d e sh q).filter (fun c => keep c q)
  let c := cs.getD (pick % max cs.length 1) 0
  mValue d (if e.hi ≤ 0 then true else if 0 ≤ e.lo then false else decide (pick / max cs.length 1 % 2 = 1)) c (q - 1)

/-- The free choice for an operation, by the image version. -/
def mPick (d : Dbl) (fn : Config.MathFn) (a b : W64) (version : W32) : Nat := Config.mathPick fn (if d then 64 else 32) a b version

/-- e^(± m × 2^e): beyond ± 2,000 no format holds it. -/
def expFin (d neg : Bool) (m : Nat) (e : Int) (pick : Nat) : Ar :=
  if m ≠ 0 ∧ 11 ≤ (Nat.log2 m : Int) + e then
    (if neg then mResult d pick { lo := 1, hi := 1 } 0 (fun _ _ => true) else { val := fInf d false, flags := 1, qual := 1 })
  else
    let x := if neg then -(mFix m e) else mFix m e
    let k := x / mLn2
    mResult d pick (encPos (mExp (x - k * mLn2))) k (fun _ _ => true)

/-- EXP (R166). -/
def fExp (d : Dbl) (a : W64) (version : W32) : Ar :=
  match fDec d a with
  | .nan => arNaN d
  | .inf neg => arExact (if neg then fZero d false else fInf d false)
  | .fin neg m e => expFin d neg m e (mPick d .exp a 0 version)

/-- ln (m × 2^e), m ≠ 0: the mantissa is taken in 3 ÷ 4 … 3 ÷ 2. -/
def lnFin (m : Nat) (e : Int) : Enc :=
  let l := Nat.log2 m
  let f := mFix m (-(l : Int))
  let big : Bool := decide (3 * mOne ≤ 2 * f)
  let g := if big then f / 2 else f
  let k : Int := e + l + b2n big
  encOf (2 * mAtanh ((g - mOne) * mOne / (g + mOne)) + k * mLn2)

/-- LN (R166): ln 0 = −infinity with DIVZ; a negative value gives NaN. -/
def fLn (d : Dbl) (a : W64) (version : W32) : Ar :=
  match fDec d a with
  | .nan => arNaN d
  | .inf neg => if neg then arNaN d else arExact (fInf d false)
  | .fin neg m e =>
    if m = 0 then { val := fInf d true, flags := 2, qual := 1 }
    else if neg then arNaN d else mResult d (mPick d .ln a 0 version) (lnFin m e) 0 (fun _ _ => true)

/-- m × 2^e modulo 2π, in fixed point: 2π is taken with 1,100 more bits than the result. -/
def modTwoPi (m : Nat) (e : Int) : Int :=
  let wide : Int := 2 ^ 1100
  let t := 2 * mPiAt (mOne * wide)
  (mFix m e * wide) % t / wide

/-- SIN (R166); IEEE 754 gives NaN for an infinity. -/
def fSin (d : Dbl) (a : W64) (version : W32) : Ar :=
  match fDec d a with
  | .fin neg m e =>
    let r := if m = 0 then { lo := -1, hi := 1 } else encOf (mSin (modTwoPi m e))
    mResult d (mPick d .sin a 0 version) (if neg then encNeg r else r) 0 (fun _ _ => true)
  | _ => arNaN d

/-- COS (R166). -/
def fCos (d : Dbl) (a : W64) (version : W32) : Ar :=
  match fDec d a with
  | .fin _ m e => mResult d (mPick d .cos a 0 version) (encOf (mCos (modTwoPi m e))) 0 (fun _ _ => true)
  | _ => arNaN d

/-- An angle with the sign of y. It lies in [−π, π], where π is the value of the format nearest to it. -/
def angle (d neg : Bool) (pick : Nat) (v : Int) : Ar :=
  let e := encPos v
  mResult d pick (if neg then encNeg e else e) 0 (fun c q => match fCmp d (fScale d false c.natAbs (q - 1)).1 (fScale d false mPi.toNat (-(mBits : Int))).1 with
    | some .gt => false
    | _ => true)

/-- (m1 × 2^e1) ÷ (m2 × 2^e2) in fixed point, m2 ≠ 0. -/
def mQuot (m1 : Nat) (e1 : Int) (m2 : Nat) (e2 : Int) : Int :=
  let k := e1 - e2 + mBits
  if 0 ≤ k then m1 * 2 ^ k.toNat / m2 else m1 / (m2 * 2 ^ (-k).toNat)

/-- The angle of finite x and y of which neither is 0, from the magnitudes. -/
def quadrant (m1 : Nat) (e1 : Int) (nx : Bool) (m2 : Nat) (e2 : Int) : Int :=
  let a := if mFix m1 (e1 - min e1 e2) ≤ mFix m2 (e2 - min e1 e2) then mAtan (mQuot m1 e1 m2 e2) else mPi / 2 - mAtan (mQuot m2 e2 m1 e1)
  if nx then mPi - a else a

/-- ATAN2 of y and x (R166): zeros and infinities per IEEE 754. -/
def fAtan2 (d : Dbl) (y x : W64) (version : W32) : Ar :=
  let pick := mPick d .atan2 y x version
  match fDec d y, fDec d x with
  | .nan, _ => arNaN d
  | _, .nan => arNaN d
  | .inf ny, .inf nx => angle d ny pick (if nx then 3 * mPi / 4 else mPi / 4)
  | .inf ny, .fin _ _ _ => angle d ny pick (mPi / 2)
  | .fin ny _ _, .inf nx => if nx then angle d ny pick mPi else arExact (fZero d ny)
  | .fin ny m1 e1, .fin nx m2 e2 =>
    if m1 = 0 then (if nx then angle d ny pick mPi else arExact (fZero d ny))
    else if m2 = 0 then angle d ny pick (mPi / 2)
    else angle d ny pick (quadrant m1 e1 nx m2 e2)

end Sys2Proof.Machine
end

