-- ==== Sys2Proof/Machine/Flags.lean ====
section
/-! DEFINITION. Machine/Flags.lean: the exception word, the saturation of integer results (R163) and the rules of quality
(R160). -/

namespace Sys2Proof.Machine
open Sys2Proof Sys2Proof.Bits

/-- Flags of the exception word (R163). -/
def fOVF : Nat := 1
def fDIVZ : Nat := 2
def fINVALID : Nat := 4
def fINDEX : Nat := 8
def fPRIM : Nat := 16

/-- QUALITY.RANGE (R96). -/
def qRange : W16 := 0x0004

/-- A quality word with another CLASS. -/
def withClass (q : W16) (cls : Nat) : W16 := (q &&& 0x3FFF) ||| (w16 cls <<< 14)

/-- The quality of a result on several operands: the lowest CLASS and the OR of bits [6:2] (R160). -/
def qJoin (a b : W16) : W16 := withClass ((a ||| b) &&& 0x007C) (min (qClass a) (qClass b))

/-- The same over a list of operands; none gives 0xC000. -/
def qJoinAll : List W16 → W16
  | [] => 0xC000
  | q :: qs => qs.foldl qJoin (withClass (q &&& 0x007C) (qClass q))

/-- CLASS at most 0b01. -/
def qUncertain (q : W16) : W16 := withClass q (min (qClass q) 1)

/-- What an exception does to the result quality (R163, R173), by the number in `Ar.qual`: 4 is CLASS at most 0b01. -/
def qLower (q : W16) : Nat → W16
  | 0 => q
  | 1 => qUncertain q ||| qRange
  | 2 => withClass q 0 ||| qRange
  | 3 => withClass q 0
  | _ => qUncertain q

/-- Bits of an integer type: INT32, else 64. -/
def iBits (t : LType) : Nat := match t with | .int32 => 32 | _ => 64

/-- An integer operand as two's complement (R165). -/
def iVal (t : LType) (v : W64) : Int := signed (iBits t) (v.toNat % 2 ^ iBits t)

/-- Least and greatest value of an integer type. -/
def iMin (t : LType) : Int := -(2 ^ (iBits t - 1) : Int)
def iMax (t : LType) : Int := (2 ^ (iBits t - 1) : Int) - 1

/-- The word of an integer, unused bits 0. -/
def iWord (t : LType) (i : Int) : W64 := w64 (unsigned (iBits t) i)

/-- An integer result beyond its type is saturated and sets OVF (R163). -/
def iSat (t : LType) (i : Int) : Ar :=
  if i < iMin t then { val := iWord t (iMin t), flags := fOVF, qual := 1 }
  else if iMax t < i then { val := iWord t (iMax t), flags := fOVF, qual := 1 }
  else { val := iWord t i }

/-- Integer DIV: truncated toward 0; by 0 the maximum, the minimum or 0 with DIVZ (R163, R165). -/
def iDiv (t : LType) (a b : Int) : Ar :=
  if b = 0 then
    { val := iWord t (if 0 < a then iMax t else if a < 0 then iMin t else 0), flags := fDIVZ, qual := 1 }
  else iSat t (a.tdiv b)

/-- Integer MOD: sign of a; by 0 it is 0 with DIVZ (R163, R165). -/
def iMod (t : LType) (a b : Int) : Ar :=
  if b = 0 then { val := 0, flags := fDIVZ, qual := 1 } else { val := iWord t (a.tmod b) }

/-- Is the type real, and which format? -/
def realFmt (t : LType) : Option Dbl :=
  match t with
  | .real32 => some false
  | .real64 => some true
  | _ => none

/-- BOOL of a truth value. -/
def bWord (b : Bool) : W64 := if b then 1 else 0

/-- Order of two operands of a type; TIME64 by the signed difference (R165); none with a NaN. -/
def cmpVals (t : LType) (a b : W64) : Option Ordering :=
  match t with
  | .real32 => fCmp false a b
  | .real64 => fCmp true a b
  | .time64 => some (compare (a - b).toInt 0)
  | .bool => some (compare (a.toNat % 2) (b.toNat % 2))
  | _ => some (compare (iVal t a) (iVal t b))

/-- A compare for equality: NaN never equal, no flag (R165). -/
def eqAr (t : LType) (want : Bool) (a b : W64) : Ar := { val := bWord ((cmpVals t a b == some .eq) == want) }

/-- An ordered compare: with a NaN 0, INVALID and CLASS 0b00 (R163). -/
def ordAr (t : LType) (p : Ordering → Bool) (a b : W64) : Ar :=
  match cmpVals t a b with
  | none => { val := 0, flags := fINVALID, qual := 3 }
  | some o => { val := bWord (p o) }

end Sys2Proof.Machine
end

