-- ==== Sys2Proof/Machine/Operands.lean ====
section
/-! DEFINITION. Machine/Operands.lean: where Lumen instructions find their operands (R130, R155 to R161, R168): the evaluation
stack, locals, constants and points of the cycle that runs on a unit, each access under the guard (R112 to R114). -/

namespace Sys2Proof.Machine
open Sys2Proof Sys2Proof.Bits

/-- What a cycle runs with: its module, task and parts. -/
structure LEnv where
  m : Module
  t : Nat
  k : Task
  code : Bytes
  table : Bytes
  /-- The descriptors of its unit. -/
  descs : List GuardDesc

/-- What an instruction does: the cycle goes on; it ends; the guard blocks an access (level, kind, unit, deciding
descriptor); the operands do not fit. -/
inductive LRes where
  | go (c : Cycle)
  | ended (c : Cycle)
  | blocked (privileged : Bool) (kind unit desc : Nat)
  | typing

/-- The cycle that runs on a unit, with its environment. -/
def running (m : Module) (u : Nat) : Option (LEnv × Cycle) :=
  if !inRun m then none
  else match m.exec.units[u]? with
  | none => none
  | some x => match x.running with
    | none => none
    | some t => match taskOf m t with
      | none => none
      | some k => match k.cycle with
        | none => none
        | some c =>
          if c.ready && !c.ended then
            some ({ m := m, t := t, k := k, code := (partIn k c.bank 0).bytes, table := (partIn k c.bank 1).bytes,
                    descs := x.descs }, c)
          else none

/-- A block of the code. -/
def blockOf (code : Bytes) (b : Nat) : Option Blk := match readBlock code b with | .ok k => some k | .error _ => none

/-- 0 of a declared type with quality 0xC000 (R168). -/
def zeroEntry (t : LType) : SEntry := { ty := t, val := 0, q := 0xC000 }

/-- A cycle begins in block 0 with an empty stack and its locals initialised (R168). -/
def beginCycle (env : LEnv) (c : Cycle) : Cycle :=
  if c.begun then c
  else match blockOf env.code 0 with
    | none => c
    | some b => { c with begun := true, stack := [], frames := [{ block := 0, pc := b.start, locals := b.ltypes.map zeroEntry, base := 0 }] }

/-- The frame that runs. -/
def topFrame (c : Cycle) : Option LFrame := c.frames.head?

/-- Change the frame that runs. -/
def modFrame (c : Cycle) (f : LFrame → LFrame) : Cycle :=
  match c.frames with
  | [] => c
  | x :: xs => { c with frames := f x :: xs }

/-- Entries of callers, which the running block does not see (R159). -/
def baseOf (c : Cycle) : Nat := match topFrame c with | some f => f.base | none => 0

/-! ### The guard -/

/-- The first unit of a part in the program banks (log entry 12). -/
def partUnit (env : LEnv) (c : Cycle) (part : Nat) : Nat := 0x02000000 + Config.bankPlace env.t c.bank part % 0x02000000

/-- A user access to the code part or the point table: descriptors 0 to 28 as they match, else descriptor 29 (UX, UR) or
30 (UR) (R112). Blocked: the deciding descriptor. -/
def partBlocked (env : LEnv) (u kind : Nat) : Option Nat :=
  match env.descs.findIdx? (fun d => descMatches d u) with
  | none => none
  | some i => match env.descs[i]? with
    | none => none
    | some d => if d.perm.getLsbD (permBit false kind) then none else some i

/-- The unit of byte `o` of a part. -/
def unitAt (env : LEnv) (c : Cycle) (part o : Nat) : Nat := partUnit env c part + o / 32

/-- The unit the next fetch reads. -/
def fetchUnit (env : LEnv) (c : Cycle) : Nat :=
  unitAt env c 0 (le env.code 0x18 4 + 4 * (match topFrame c with | some f => f.pc | none => 0))

/-- A data access to a point: privileged for a SHARED point of another partition (R112, R113). -/
def pointBlocked (env : LEnv) (kind owner slot : Nat) : Option (Bool × Nat) :=
  let priv := decide (owner ≠ env.k.part)
  let g := guardCheck env.descs priv kind slot
  if g.1 then none else some (priv, g.2)

/-! ### The stack -/

/-- The entry on top, if the running block pushed one. -/
def pop (c : Cycle) : Option (SEntry × Cycle) :=
  match c.stack with
  | [] => none
  | e :: es => if es.length < baseOf c then none else some (e, { c with stack := es })

/-- The entry on top, if it has the type. -/
def popT (t : LType) (c : Cycle) : Option (SEntry × Cycle) :=
  match pop c with
  | some (e, c1) => if e.ty = t then some (e, c1) else none
  | none => none

/-- Push an entry; the stack has 64 (R159). -/
def push (e : SEntry) (c : Cycle) : LRes := if c.stack.length < 64 then .go { c with stack := e :: c.stack } else .typing

/-- Set flags of the exception word (R163). -/
def raise (n : Nat) (c : Cycle) : Cycle := { c with exc := c.exc ||| w32 n }

/-- Push the result of an operation: its flags, and its quality from that of the operands (R160, R163). -/
def pushAr (t : LType) (q : W16) (r : Ar) (c : Cycle) : LRes :=
  push { ty := t, val := maskVal t r.val, q := qLower q r.qual } (raise r.flags c)

/-- A one-operand operation. -/
def unary (ta tr : LType) (f : W64 → Ar) (c : Cycle) : LRes :=
  match popT ta c with
  | some (a, c1) => pushAr tr (qJoinAll [a.q]) (f a.val) c1
  | none => .typing

/-- A two-operand operation: pops b, then a. -/
def binary (ta tb tr : LType) (f : W64 → W64 → Ar) (c : Cycle) : LRes :=
  match popT tb c with
  | none => .typing
  | some (b, c1) => match popT ta c1 with
    | some (a, c2) => pushAr tr (qJoin a.q b.q) (f a.val b.val) c2
    | none => .typing

/-! ### Points (R130, R160, R161) -/

/-- Entry `i` of the point table, checked against TYPE and the needed access: bit 0 READ, bit 1 WRITE. -/
def entryOf (env : LEnv) (i acc : Nat) (t : LType) : Option W32 :=
  let e := tableEntry env.table i
  if 8 * i < env.table.length ∧ e.2.1 = typeCode t ∧ bit e.2.2 acc = true then some e.1 else none

/-- The record of a handle in the cycle's snapshot. -/
def snapOf (c : Cycle) (h : W32) : Option PointRec := liveAt c.snap h

/-- Is the point in the write set, and with what? -/
def wsOf (c : Cycle) (h : W32) : Option WEnt := tget c.ws (hIdx h)

/-- The value LDP pushes: FORCE_VALUE of a forced point, else what the cycle wrote, else the snapshot (R102, R130, R161). -/
def viewVal (c : Cycle) (h : W32) (r : PointRec) : W64 :=
  if r.forced then r.force else match wsOf c h with | some w => w.value | none => r.value

/-- The quality word of the cycle's view. -/
def viewQ (c : Cycle) (h : W32) (r : PointRec) : W16 := match wsOf c h with | some w => w.quality | none => r.quality

/-- LDQ and LDTM: TIME is the starting boundary for a point in the write set. -/
def viewTime (c : Cycle) (h : W32) (r : PointRec) : W64 := match wsOf c h with | some _ => c.start | none => r.time

/-- Read an entry under the guard and go on with its handle and record. -/
def withEntry (env : LEnv) (c : Cycle) (i : Nat) (t : LType) (f : W32 → PointRec → LRes) : LRes :=
  match entryOf env i 0 t with
  | none => .typing
  | some h => match partBlocked env (unitAt env c 1 (8 * i)) 0 with
    | some d => .blocked false 0 (unitAt env c 1 (8 * i)) d
    | none => match snapOf c h with
      | none => .typing
      | some r => match pointBlocked env 0 r.owner (hIdx h) with
        | some (p, d) => .blocked p 0 (hIdx h) d
        | none => f h r

/-- The entry LDP pushes: bits [7], [1] and [0] of QUALITY are 0 (R160). -/
def loadEntry (c : Cycle) (t : LType) (h : W32) (r : PointRec) : SEntry :=
  { ty := t, val := maskVal t (viewVal c h r), q := viewQ c h r &&& 0xFF7C }

/-- Enter a value into the write set with bits [15:14] and [6:2] of the quality (R161). -/
def wsPut (c : Cycle) (h : W32) (t : LType) (v : W64) (q : W16) : Cycle :=
  { c with ws := tset c.ws (hIdx h) { handle := h, value := maskVal t v, quality := q &&& 0xC07C } }

/-- Write an entry under the guard. -/
def storeEntry (env : LEnv) (c : Cycle) (i : Nat) (t : LType) (v : W64) (q : W16) (f : Cycle → LRes) : LRes :=
  match entryOf env i 1 t with
  | none => .typing
  | some h => match partBlocked env (unitAt env c 1 (8 * i)) 0 with
    | some d => .blocked false 0 (unitAt env c 1 (8 * i)) d
    | none => match snapOf c h with
      | none => .typing
      | some r => match pointBlocked env 1 r.owner (hIdx h) with
        | some (p, d) => .blocked p 1 (hIdx h) d
        | none => f (wsPut c h t v q)

/-! ### Constants -/

/-- Constant k (R156), under the guard. -/
def withConst (env : LEnv) (c : Cycle) (k : Nat) (f : W64 → LRes) : LRes :=
  let o := le env.code 8 4 + 8 * k
  if le env.code 12 4 ≤ 8 * k then .typing
  else match partBlocked env (unitAt env c 0 o) 0 with
    | some d => .blocked false 0 (unitAt env c 0 o) d
    | none => f (w64 (le env.code o 8))

end Sys2Proof.Machine
end

