-- ==== Sys2Proof/Machine/HaloPdu.lean ====
section
/-! DEFINITION. Machine/HaloPdu.lean: HALO connections at run time, the message format (R345) and the PDU that a HALO task sends
(R347). -/

namespace Sys2Proof.Machine
open Sys2Proof Sys2Proof.Bits

/-- The connections of the active, confirmed set: index and record (R352). -/
def activeConns (m : Module) : List (Nat × Bytes) :=
  match m.halo.active with
  | some b => if m.halo.activeConfirmed then (List.range (setConns b)).map (fun i => (i, connRec b i)) else []
  | none => []

/-- The connections of a task in one direction. -/
def taskConns (m : Module) (t : Nat) (out : Bool) : List (Nat × Bytes) :=
  (activeConns m).filter (fun x => connTask x.2 == t && connIsOut x.2 == out)

/-- A connection at run time. -/
def connOf (m : Module) (i : Nat) : Conn := (tget m.halo.conns i).getD {}
/-- Change one. -/
def connMod (m : Module) (i : Nat) (f : Conn → Conn) : Module :=
  { m with halo := { m.halo with conns := tset m.halo.conns i (f (connOf m i)) } }

/-- The release token of a drop (R349). -/
def tokenOf (m : Module) (drop : Nat) : Nat := (tget m.halo.tokens drop).getD 0

/-! ### PDUs (R345) -/

/-- HFLAGS. -/
def hflags (sub held : Bool) (rel : Nat) : Nat := 128 * b2n sub + 64 * b2n held + 16 * (rel % 4)

/-- The CRC over IDENTITY and the bytes before it. -/
def pduCrc (ident : Nat) (body : Bytes) : Bytes := beBytes 4 (crc32c (beBytes 4 ident ++ body)).toNat

/-- A PDU. -/
def pduOf (ident : Nat) (seq : W16) (flags : Nat) (data : Bytes) : Bytes :=
  let body := beBytes 2 seq.toNat ++ [BitVec.ofNat 8 flags, BitVec.ofNat 8 data.length] ++ data
  body ++ pduCrc ident body

/-- The data of a connection from the values of its entries: bits with the most significant first (R197), or INT16 words, beyond
whose range the nearest value stands (R223, log entry 30). -/
def pduData (r : Bytes) (vals : List W64) : Bytes :=
  if connWords r then
    (vals.map (fun v => beBytes 2 (unsigned 16 (max (-32768) (min 32767 (iVal .int32 v)))))).flatten
  else (List.range (connLen r)).map (fun k =>
    BitVec.ofNat 8 (((List.range 8).map (fun i => (vals.getD (8 * k + i) 0).toNat % 2 * 2 ^ (7 - i))).sum))

/-- An input connection from the same drop waits for HALO.ACK (R347, R349). -/
def dropWaits (m : Module) (drop : Nat) : Bool :=
  (activeConns m).any (fun x => !connIsOut x.2 && connDrop x.2 == drop && (connOf m x.1).st == 3)

/-- The output PDU of a connection under the next SEQ: SUB with data 0 unless it runs and its task does (R347). -/
def nextPduOf (m : Module) (i : Nat) (r : Bytes) (sub : Bool) (vals : List W64) : Bytes :=
  let c := connOf m i
  let sub' := sub || c.st != 1
  pduOf (connId r) (c.seq + 1) (hflags sub' (dropWaits m (connDrop r)) (tokenOf m (connDrop r)))
    (if sub' then zeros (connLen r) else pduData r vals)

/-- What the task's view shows of the points a connection binds (R130, R347). -/
def connView (k : Task) (c : Cycle) (r : Bytes) : List W64 :=
  (connEntries r).map (fun e =>
    let h := (tableEntry (partIn k c.bank 1).bytes e.1).1
    match snapOf c h with
    | some p => viewVal c h p
    | none => match wsOf c h with | some w => w.value | none => 0)

/-- HALO_PDU_BUILD at the seal of a cycle: it leaves once the cycle is released (R347). -/
def buildPdus (m : Module) (t : Nat) (c : Cycle) : Module :=
  match taskOf m t with
  | none => m
  | some k => (taskConns m t true).foldl (fun a x => connMod a x.1 (fun y => { y with nextPdu := nextPduOf m x.1 x.2 false (connView k c x.2) })) m

/-- The PDUs built at the seal become those that leave: the cycle is released (R347). -/
def releasePdus (m : Module) (t : Nat) : Module :=
  (taskConns m t true).foldl (fun a x => connMod a x.1 (fun y =>
    if y.nextPdu.isEmpty then y else { y with pdu := y.nextPdu, nextPdu := [], seq := y.seq + 1 })) m

/-- While its task is stopped or faulted a connection sends SUB: one PDU is built so and then repeated (R347, log entry 31). -/
def stoppedPdus (m : Module) (t : Nat) : Module :=
  (taskConns m t true).foldl (fun a x => connMod a x.1 (fun y =>
    if y.pdu.isEmpty || bit (byteAt y.pdu 2) 7 then y
    else { y with pdu := nextPduOf m x.1 x.2 true [], nextPdu := [], seq := y.seq + 1 })) m

/-- Where the PDU lies in the DATA of an OUT frame: on a bus, in its OUT part, 58 bytes apart (R251, R346). -/
def pduPlace (bus : Bool) (r : Bytes) : Nat := connOff r + (if bus then 58 * connPart r else 0)

/-- The PDUs of a drop laid over its OUT DATA. -/
def overlayPdus (m : Module) (drop : Nat) (bus : Bool) (data : Bytes) : Bytes :=
  ((activeConns m).filter (fun x => connIsOut x.2 && connDrop x.2 == drop)).foldl (fun b x =>
    let p := (connOf m x.1).pdu
    if p.isEmpty then b else (overwrite b (pduPlace bus x.2) p).take b.length) data

end Sys2Proof.Machine
end

