-- ==== Sys2Proof/Machine/Lumen.lean ====
section
/-! DEFINITION. Machine/Lumen.lean: the instructions of Lumen code on the unit that executes them (R164 to R170), the seal of a
cycle (R133) and what a guard violation does (R114, R115). -/

namespace Sys2Proof.Machine
open Sys2Proof Sys2Proof.Bits

/-! ### Seal and violation -/

/-- An entry of the digest: handle, value, quality, 2 bytes of 0 (R133). -/
def digestEntry (e : WEnt) : Bytes := leBytes 4 e.handle.toNat ++ leBytes 8 e.value.toNat ++ leBytes 2 e.quality.toNat ++ zeros 2

/-- The digest of a write set, in ascending slot index (R133). -/
def digestOf (ws : Table WEnt) : W32 := crc32c (ws.map (fun x => digestEntry x.2)).flatten

/-- The retained entries of a write set: with FORCED = 1, FORCE_VALUE (R20, R103). -/
def retainedOf (m : Module) (time : W64) (ws : Table WEnt) : List (Nat × RetRec) :=
  ws.filterMap (fun x => match live m x.2.handle with
    | none => none
    | some r => match r.ty with
      | none => none
      | some t =>
        if r.retained then
          some (x.1, { handle := x.2.handle, owner := r.owner, ty := t, value := if r.forced then r.force else x.2.value,
                       time := time, quality := x.2.quality })
        else none)

/-- Entries the 16 MiB log has room for: 64 bytes each, so that 262,144 fill it (R414). -/
def logFree (m : Module) : Nat := 262144 - (m.store.log.map (fun l => l.entries.length)).sum

/-- The entries of a write set as a list. -/
def wsList (c : Cycle) : List WEnt := c.ws.map (·.2)

/-- The partner restarts the cycle that began at start, or has just released it so (R150), as it shows over the sync link. -/
def partnerRestarts (m p : Module) (t : Nat) (start : W64) : Bool :=
  linked m p && match taskOf p t with
    | some k => k.lastRestarted == some start
        || (match k.cycle with | some c => c.start == start && c.restarting | none => false)
    | none => false

/-- Seal an ended cycle: its retained values join the log, or wait for space, or never fit; seal time and digest go to an
in-step partner, with the write set while the partner restarts (R20, R133, R150, R414). -/
def sealCycle (m p : Module) (t : Nat) : Module :=
  match taskOf m t with
  | none => m
  | some k => match k.cycle with
    | none => m
    | some c =>
      let ents := retainedOf m (now m) c.ws
      if 262144 < ents.length then faultTask m t 2 k.next
      else if logFree m < ents.length then
        taskMod m t (fun k => { k with cycle := some { c with waitsLog := true } })
      else
        let m1 := if ents.isEmpty then m
          else { m with store := { m.store with log := m.store.log ++ [{ task := t, start := c.start, entries := ents }] } }
        let dg := digestOf c.ws
        let m2 := buildPdus (taskMod m1 t (fun k =>
          { k with cycle := some { c with waitsLog := false, sealedAt := some (now m), digest := dg } })) t c
        if m.pair.mode = .inStep ∧ linked m p = true ∧ c.restarting = false then
          let m3 := emit m2 (.sync (.sealMsg t c.start (now m) dg))
          if partnerRestarts m p t c.start then emit m3 (.sync (.writeSet t c.start (wsList c))) else m3
        else m2

/-- The end of a cycle's execution: all frames are discarded, the write set is sealed and the unit takes its next cycle (R139,
R170). -/
def endOfCycle (m p : Module) (t : Nat) (c : Cycle) : Module :=
  match taskOf m t with
  | none => m
  | some k =>
    let m1 := taskMod m t (fun k => { k with cycle := some { c with ended := true, frames := [], stack := [] } })
    dispatch (sealCycle m1 p t) (unitOf k)

/-- The latch of a cluster takes its first violation; later ones are counted (R115). -/
def latchViolation (m : Module) (u : Nat) (v : Violation) : Module :=
  unitMod m (2 * (u / 2)) (fun x => match x.latch with
    | none => { x with latch := some v }
    | some _ => { x with violations := inc16 x.violations })

/-- A blocked access: it is latched and recorded, the cycle is abandoned without commit and the task stops faulted (R114,
R115). -/
def guardFault (m : Module) (t u : Nat) (privileged : Bool) (kind unit desc : Nat) : Module :=
  match taskOf m t with
  | none => m
  | some k =>
    let v : Violation :=
      { privileged := privileged, kind := kind, unit := unit, task := t, partition := k.part, desc := desc, time := now m }
    let m1 := latchViolation m u v
    let m2 := logBoth m1 0x0B01 2 t k.part
      ([BitVec.ofNat 8 (u / 2), BitVec.ofNat 8 (levelKind v)] ++ zeros 2 ++ leBytes 4 unit ++ leBytes 1 desc)
    faultTask m2 t 1 k.next

/-! ### One instruction -/

/-- Store the cycle of a task. -/
def setCycle (m : Module) (t : Nat) (c : Cycle) : Module := taskMod m t (fun k => { k with cycle := some c })

/-- The module after an instruction. -/
def applyLRes (m p : Module) (t u : Nat) : LRes → Option Module
  | .go c => some (setCycle m t c)
  | .ended c => some (endOfCycle m p t c)
  | .blocked pr kind unit d => some (guardFault m t u pr kind unit d)
  | .typing => none

/-- An instruction of `len` words and `cost` core cycles on unit `u`: fetch under the guard, step past its words, its own
effect. Where no cycle runs on the unit, nothing happens. -/
def lumen (len : Nat) (cost : Nat) (f : LEnv → Cycle → LRes) (s : State) (sl : Slot) (u : Nat) : Res :=
  let m := modOf s sl
  match running m u with
  | none => .next s
  | some (env, c0) =>
    let c := beginCycle env c0
    let r := match partBlocked env (fetchUnit env c) 2 with
      | some d => LRes.blocked false 2 (fetchUnit env c) d
      | none => f env (modFrame { c with cost := c.cost + cost } (fun x => { x with pc := x.pc + len }))
    match applyLRes m (modOf s (otherSlot sl)) env.t u r with
    | some m' => .next (withMod s sl m')
    | none => .fault .lumenTyping

/-- The version of the current control image, by which results within R162 may differ. -/
def imageVersion (m : Module) : W32 :=
  let sl := if m.boot.cur = 0 then m.boot.slot0 else if m.boot.cur = 1 then m.boot.slot1 else m.boot.slot2
  w32 (leVal (memRead sl.control.bytes 0x08 4))

/-- Cost of a typed operation: integer, real. -/
def costOf (t : LType) (int real : Nat) : Nat := if (realFmt t).isSome then real else int

/-! ### Constants, points, locals and the stack (R164) -/

def execLNop (sl : Slot) (u : Nat) (s : State) : Res := lumen 1 1 (fun _ c => .go c) s sl u

def execPushi (sl : Slot) (u : Nat) (imm : BitVec 24) (s : State) : Res :=
  lumen 1 1 (fun _ c => push { ty := .int32, val := iWord .int32 imm.toInt, q := 0xC000 } c) s sl u

def execPushb (sl : Slot) (u : Nat) (imm : Bool) (s : State) : Res :=
  lumen 1 1 (fun _ c => push { ty := .bool, val := bWord imm, q := 0xC000 } c) s sl u

def execPushc (sl : Slot) (u : Nat) (t : LType) (k : Nat) (s : State) : Res :=
  lumen 1 3 (fun env c => withConst env c k (fun v => push { ty := t, val := maskVal t v, q := 0xC000 } c)) s sl u

def execLdp (sl : Slot) (u : Nat) (t : LType) (idx : Nat) (s : State) : Res :=
  lumen 1 6 (fun env c => withEntry env c idx t (fun h r => push (loadEntry c t h r) c)) s sl u

def execStp (sl : Slot) (u : Nat) (t : LType) (idx : Nat) (s : State) : Res :=
  lumen 1 4 (fun env c => match popT t c with
    | some (a, c1) => storeEntry env c1 idx t a.val a.q .go
    | none => .typing) s sl u

def execLdq (sl : Slot) (u : Nat) (t : LType) (idx : Nat) (s : State) : Res :=
  lumen 1 6 (fun env c => withEntry env c idx t (fun h r =>
    push { ty := .int32, val := (viewQ c h r).setWidth 64, q := 0xC000 } c)) s sl u

def execLdtm (sl : Slot) (u : Nat) (t : LType) (idx : Nat) (s : State) : Res :=
  lumen 1 6 (fun env c => withEntry env c idx t (fun h r =>
    push { ty := .time64, val := viewTime c h r, q := 0xC000 } c)) s sl u

/-- LDX: an index outside 0 to COUNT − 1 pushes 0 with INDEX, CLASS 0b00 and RANGE (R163). -/
def execLdx (sl : Slot) (u : Nat) (t : LType) (base count : Nat) (s : State) : Res :=
  lumen 2 8 (fun env c => match popT .int32 c with
    | none => .typing
    | some (j, c1) =>
      let i := iVal .int32 j.val
      if i < 0 ∨ (count : Int) ≤ i then push { ty := t, val := 0, q := qRange } (raise fINDEX c1)
      else withEntry env c1 (base + i.toNat) t (fun h r => push (loadEntry c1 t h r) c1)) s sl u

/-- STX: an index outside 0 to COUNT − 1 writes nothing, with INDEX (R163). -/
def execStx (sl : Slot) (u : Nat) (t : LType) (base count : Nat) (s : State) : Res :=
  lumen 2 6 (fun env c => match popT .int32 c with
    | none => .typing
    | some (j, c1) => match popT t c1 with
      | none => .typing
      | some (v, c2) =>
        let i := iVal .int32 j.val
        if i < 0 ∨ (count : Int) ≤ i then .go (raise fINDEX c2)
        else storeEntry env c2 (base + i.toNat) t v.val v.q .go) s sl u

def execLdl (sl : Slot) (u : Nat) (l : Nat) (s : State) : Res :=
  lumen 1 1 (fun _ c => match topFrame c with
    | some f => (match f.locals[l]? with | some e => push e c | none => .typing)
    | none => .typing) s sl u

def execStl (sl : Slot) (u : Nat) (l : Nat) (s : State) : Res :=
  lumen 1 1 (fun _ c => match pop c with
    | none => .typing
    | some (e, c1) => match topFrame c1 with
      | none => .typing
      | some f => match f.locals[l]? with
        | some o => if o.ty = e.ty then .go (modFrame c1 (fun f => { f with locals := f.locals.set l e })) else .typing
        | none => .typing) s sl u

/-- Pop `n` entries, top first. -/
def popN : Nat → Cycle → Option (List SEntry × Cycle)
  | 0, c => some ([], c)
  | n + 1, c => match pop c with
    | none => none
    | some (e, c1) => match popN n c1 with
      | none => none
      | some (es, c2) => some (e :: es, c2)

/-- Push entries, the first one deepest. -/
def pushAll : List SEntry → Cycle → LRes
  | [], c => .go c
  | e :: es, c => if c.stack.length < 64 then pushAll es { c with stack := e :: c.stack } else .typing

/-- Rearrange the top `n` entries: `f` takes them top first and gives what stands there, deepest first. -/
def shuffle (n : Nat) (f : List SEntry → List SEntry) (c : Cycle) : LRes :=
  match popN n c with
  | some (es, c1) => pushAll (f es) c1
  | none => .typing

def execDup (sl : Slot) (u : Nat) (s : State) : Res :=
  lumen 1 1 (fun _ => shuffle 1 (fun es => es ++ es)) s sl u

def execLDrop (sl : Slot) (u : Nat) (s : State) : Res :=
  lumen 1 1 (fun _ => shuffle 1 (fun _ => [])) s sl u

/-- SWAP: a b → b a; `es` is b, a. -/
def execLSwap (sl : Slot) (u : Nat) (s : State) : Res :=
  lumen 1 1 (fun _ => shuffle 2 (fun es => es)) s sl u

/-- OVER: a b → a b a. -/
def execOver (sl : Slot) (u : Nat) (s : State) : Res :=
  lumen 1 1 (fun _ => shuffle 2 (fun es => match es with | [b, a] => [a, b, a] | _ => [])) s sl u

/-- ROT: a b c → b c a. -/
def execRot (sl : Slot) (u : Nat) (s : State) : Res :=
  lumen 1 1 (fun _ => shuffle 3 (fun es => match es with | [c, b, a] => [b, c, a] | _ => [])) s sl u

/-! ### Arithmetic, comparison and logic (R165) -/

/-- A two-operand arithmetic operation on two operands of type t, by integer and real function. -/
def arith (t : LType) (fi : Int → Int → Ar) (fr : Dbl → W64 → W64 → Ar) (c : Cycle) : LRes :=
  match t with
  | .int32 | .int64 => binary t t t (fun a b => fi (iVal t a) (iVal t b)) c
  | .real32 => binary t t t (fr false) c
  | .real64 => binary t t t (fr true) c
  | _ => .typing

def execAdd (sl : Slot) (u : Nat) (t : LType) (s : State) : Res :=
  lumen 1 (costOf t 1 3) (fun _ c => match t with
    | .time64 => binary .time64 .int64 .time64 (fun a b => { val := a + b }) c
    | _ => arith t (fun a b => iSat t (a + b)) fAdd c) s sl u

def execSub (sl : Slot) (u : Nat) (t : LType) (s : State) : Res :=
  lumen 1 (costOf t 1 3) (fun _ c => match t with
    | .time64 => binary .time64 .time64 .int64 (fun a b => { val := a - b }) c
    | _ => arith t (fun a b => iSat t (a - b)) fSub c) s sl u

def execMul (sl : Slot) (u : Nat) (t : LType) (s : State) : Res :=
  lumen 1 (costOf t 3 4) (fun _ => arith t (fun a b => iSat t (a * b)) fMul) s sl u

def execDiv (sl : Slot) (u : Nat) (t : LType) (s : State) : Res :=
  lumen 1 (match t with | .real32 => 12 | .real64 => 18 | _ => 20) (fun _ => arith t (iDiv t) fDiv) s sl u

def execMod (sl : Slot) (u : Nat) (t : LType) (s : State) : Res :=
  lumen 1 20 (fun _ c => match t with
    | .int32 | .int64 => arith t (iMod t) fDiv c
    | _ => .typing) s sl u

/-- A one-operand arithmetic operation. -/
def arith1 (t : LType) (fi : Int → Ar) (fr : Dbl → W64 → Ar) (c : Cycle) : LRes :=
  match t with
  | .int32 | .int64 => unary t t (fun a => fi (iVal t a)) c
  | .real32 => unary t t (fr false) c
  | .real64 => unary t t (fr true) c
  | _ => .typing

def execNeg (sl : Slot) (u : Nat) (t : LType) (s : State) : Res :=
  lumen 1 1 (fun _ => arith1 t (fun a => iSat t (-a)) fNeg) s sl u

def execAbs (sl : Slot) (u : Nat) (t : LType) (s : State) : Res :=
  lumen 1 1 (fun _ => arith1 t (fun a => iSat t a.natAbs) fAbs) s sl u

def execMin (sl : Slot) (u : Nat) (t : LType) (s : State) : Res :=
  lumen 1 (costOf t 1 2) (fun _ => arith t (fun a b => { val := iWord t (min a b) }) fMin) s sl u

def execMax (sl : Slot) (u : Nat) (t : LType) (s : State) : Res :=
  lumen 1 (costOf t 1 2) (fun _ => arith t (fun a b => { val := iWord t (max a b) }) fMax) s sl u

def execEq (sl : Slot) (u : Nat) (t : LType) (s : State) : Res :=
  lumen 1 (costOf t 1 2) (fun _ => binary t t .bool (eqAr t true)) s sl u

def execNe (sl : Slot) (u : Nat) (t : LType) (s : State) : Res :=
  lumen 1 (costOf t 1 2) (fun _ => binary t t .bool (eqAr t false)) s sl u

/-- An ordered compare of any type but BOOL. -/
def ordered (t : LType) (p : Ordering → Bool) (c : Cycle) : LRes :=
  if t = .bool then .typing else binary t t .bool (ordAr t p) c

def execLt (sl : Slot) (u : Nat) (t : LType) (s : State) : Res :=
  lumen 1 (costOf t 1 2) (fun _ => ordered t (fun o => o == .lt)) s sl u

def execLe (sl : Slot) (u : Nat) (t : LType) (s : State) : Res :=
  lumen 1 (costOf t 1 2) (fun _ => ordered t (fun o => o != .gt)) s sl u

def execGt (sl : Slot) (u : Nat) (t : LType) (s : State) : Res :=
  lumen 1 (costOf t 1 2) (fun _ => ordered t (fun o => o == .gt)) s sl u

def execGe (sl : Slot) (u : Nat) (t : LType) (s : State) : Res :=
  lumen 1 (costOf t 1 2) (fun _ => ordered t (fun o => o != .lt)) s sl u

/-- A logic operation on BOOL. -/
def logic2 (f : Bool → Bool → Bool) : Cycle → LRes :=
  binary .bool .bool .bool (fun a b => { val := bWord (f (a.getLsbD 0) (b.getLsbD 0)) })

def execAnd (sl : Slot) (u : Nat) (s : State) : Res := lumen 1 1 (fun _ => logic2 and) s sl u
def execOr (sl : Slot) (u : Nat) (s : State) : Res := lumen 1 1 (fun _ => logic2 or) s sl u
def execXor (sl : Slot) (u : Nat) (s : State) : Res := lumen 1 1 (fun _ => logic2 xor) s sl u
def execNot (sl : Slot) (u : Nat) (s : State) : Res :=
  lumen 1 1 (fun _ => unary .bool .bool (fun a => { val := bWord (!a.getLsbD 0) })) s sl u

/-- A bitwise operation on INT32 or INT64. -/
def bits2 (t : LType) (f : W64 → W64 → W64) (c : Cycle) : LRes :=
  match t with
  | .int32 | .int64 => binary t t t (fun a b => { val := f a b }) c
  | _ => .typing

def execBand (sl : Slot) (u : Nat) (t : LType) (s : State) : Res :=
  lumen 1 1 (fun _ => bits2 t (fun a b => a &&& b)) s sl u
def execBor (sl : Slot) (u : Nat) (t : LType) (s : State) : Res :=
  lumen 1 1 (fun _ => bits2 t (fun a b => a ||| b)) s sl u
def execBxor (sl : Slot) (u : Nat) (t : LType) (s : State) : Res :=
  lumen 1 1 (fun _ => bits2 t (fun a b => a ^^^ b)) s sl u
def execBnot (sl : Slot) (u : Nat) (t : LType) (s : State) : Res :=
  lumen 1 1 (fun _ c => match t with
    | .int32 | .int64 => unary t t (fun a => { val := maskVal t (~~~a) }) c
    | _ => .typing) s sl u

/-- A shift by an INT32 count: `out` is the result for a count outside 0 to width − 1. -/
def shift (t : LType) (f : W64 → Nat → W64) (out : W64 → W64) (c : Cycle) : LRes :=
  match t with
  | .int32 | .int64 =>
    binary t .int32 t (fun a n =>
      let k := iVal .int32 n
      { val := maskVal t (if k < 0 ∨ (iBits t : Int) ≤ k then out a else f a k.toNat) }) c
  | _ => .typing

/-- Sign-filled right shift of an integer of a type. -/
def sarOf (t : LType) (a : W64) (n : Nat) : W64 := iWord t (iVal t a / 2 ^ n)

def execShl (sl : Slot) (u : Nat) (t : LType) (s : State) : Res :=
  lumen 1 1 (fun _ => shift t (fun a n => a <<< n) (fun _ => 0)) s sl u
def execShr (sl : Slot) (u : Nat) (t : LType) (s : State) : Res :=
  lumen 1 1 (fun _ => shift t (sarOf t) (fun a => sarOf t a 63)) s sl u
def execShru (sl : Slot) (u : Nat) (t : LType) (s : State) : Res :=
  lumen 1 1 (fun _ => shift t (fun a n => maskVal t a >>> n) (fun _ => 0)) s sl u

/-! ### Conversion, mathematics and quality (R166) -/

/-- A real value as an integer of a type: nearest, ties to even, then saturated; NaN gives 0 with INVALID (R163). -/
def realToInt (t : LType) (d : Dbl) (v : W64) : Ar :=
  match fDec d v with
  | .nan => { val := 0, flags := fINVALID, qual := 2 }
  | .inf neg => iSat t (if neg then iMin t - 1 else iMax t + 1)
  | .fin neg m e => iSat t (fNearestInt neg m e)

/-- A real value in the other format; a NaN gives the canonical NaN. -/
def realToReal (d src : Dbl) (v : W64) : Ar :=
  match fDec src v with
  | .nan => arNaN d
  | .inf neg => arExact (fInf d neg)
  | .fin neg m e => arRounded (fScale d neg m e)

/-- A ≠ 0, NaN included. -/
def nonZero (t : LType) (v : W64) : Bool :=
  match realFmt t with
  | some d => (match fDec d v with | .fin _ 0 _ => false | _ => true)
  | none => maskVal t v != 0

/-- CVT (R166). -/
def cvtVal (target source : LType) (v : W64) : Option Ar :=
  match target, source with
  | .time64, .int64 | .int64, .time64 => some { val := v }
  | .time64, _ | _, .time64 => none
  | .bool, _ => some { val := bWord (nonZero source v) }
  | .int32, .bool | .int64, .bool => some { val := bWord (v.getLsbD 0) }
  | .real32, .bool => some { val := fOfInt false (b2n (v.getLsbD 0)) }
  | .real64, .bool => some { val := fOfInt true (b2n (v.getLsbD 0)) }
  | .int32, .real32 | .int64, .real32 => some (realToInt target false v)
  | .int32, .real64 | .int64, .real64 => some (realToInt target true v)
  | .int32, _ | .int64, _ => some (iSat target (iVal source v))
  | .real32, .real64 => some (realToReal false true v)
  | .real64, .real32 => some (realToReal true false v)
  | .real32, _ => some { val := fOfInt false (iVal source v) }
  | .real64, _ => some { val := fOfInt true (iVal source v) }

def execCvt (sl : Slot) (u : Nat) (target source : LType) (s : State) : Res :=
  lumen 1 2 (fun _ c =>
    if target = source then .typing
    else if (cvtVal target source 0).isNone then .typing
    else unary source target (fun v => (cvtVal target source v).getD { val := 0 }) c) s sl u

/-- A function of one real operand. -/
def real1 (t : LType) (f : Dbl → W64 → Ar) (c : Cycle) : LRes :=
  match realFmt t with
  | some d => unary t t (f d) c
  | none => .typing

def execSqrt (sl : Slot) (u : Nat) (t : LType) (s : State) : Res :=
  lumen 1 24 (fun env => real1 t (fun d a => fSqrt d a (imageVersion env.m))) s sl u
def execExp (sl : Slot) (u : Nat) (t : LType) (s : State) : Res :=
  lumen 1 40 (fun env => real1 t (fun d a => fExp d a (imageVersion env.m))) s sl u
def execLn (sl : Slot) (u : Nat) (t : LType) (s : State) : Res :=
  lumen 1 40 (fun env => real1 t (fun d a => fLn d a (imageVersion env.m))) s sl u
def execSin (sl : Slot) (u : Nat) (t : LType) (s : State) : Res :=
  lumen 1 44 (fun env => real1 t (fun d a => fSin d a (imageVersion env.m))) s sl u
def execCos (sl : Slot) (u : Nat) (t : LType) (s : State) : Res :=
  lumen 1 44 (fun env => real1 t (fun d a => fCos d a (imageVersion env.m))) s sl u
/-- ATAN2: y x → atan2(y, x). -/
def execAtan2 (sl : Slot) (u : Nat) (t : LType) (s : State) : Res :=
  lumen 1 52 (fun env c => match realFmt t with
    | some d => binary t t t (fun y x => fAtan2 d y x (imageVersion env.m)) c
    | none => .typing) s sl u

/-- QGET: a → a q (R166). -/
def execQget (sl : Slot) (u : Nat) (s : State) : Res :=
  lumen 1 1 (fun _ => shuffle 1 (fun es => es ++ es.map (fun a => { ty := .int32, val := a.q.setWidth 64, q := 0xC000 }))) s sl u

/-- QSET: a q → a with quality q & 0xC07C; CLASS 0b10 is stored as 0b00 (R160, R166). -/
def execQset (sl : Slot) (u : Nat) (s : State) : Res :=
  lumen 1 1 (fun _ c => match popT .int32 c with
    | none => .typing
    | some (q, c1) => match pop c1 with
      | none => .typing
      | some (a, c2) => push { a with q := qRw (q.val.setWidth 16) } c2) s sl u

/-! ### Control (R167 to R170) -/

def execEndCycle (sl : Slot) (u : Nat) (s : State) : Res := lumen 1 2 (fun _ c => .ended c) s sl u

/-- A branch by OFFSET words from the word after it. -/
def branchBy (off : BitVec 24) (c : Cycle) : LRes :=
  .go (modFrame c (fun f => { f with pc := ((f.pc : Int) + off.toInt).toNat }))

def execBr (sl : Slot) (u : Nat) (off : BitVec 24) (s : State) : Res := lumen 1 2 (fun _ => branchBy off) s sl u

/-- A conditional branch, taken on the given value. -/
def branchIf (want : Bool) (off : BitVec 24) (c : Cycle) : LRes :=
  match popT .bool c with
  | none => .typing
  | some (x, c1) => if x.val.getLsbD 0 = want then branchBy off c1 else .go c1

def execBrt (sl : Slot) (u : Nat) (off : BitVec 24) (s : State) : Res := lumen 1 2 (fun _ => branchIf true off) s sl u
def execBrf (sl : Slot) (u : Nat) (off : BitVec 24) (s : State) : Res := lumen 1 2 (fun _ => branchIf false off) s sl u

/-- Do entries, deepest first, have the types of a signature? -/
def typesFit (es : List SEntry) (ts : List LType) : Bool := decide (es.map (fun e => e.ty) = ts)

/-- CALL (R169): the parameters become the first locals, deepest first; the block starts at its first word. -/
def callBlock (env : LEnv) (block : Nat) (c : Cycle) : LRes :=
  match blockOf env.code block with
  | none => .typing
  | some b => match popN b.params c with
    | none => .typing
    | some (es, c1) =>
      if le env.code 6 2 ≤ block ∨ 32 ≤ c1.frames.length ∨ typesFit es.reverse (b.ltypes.take b.params) = false then .typing
      else
        let ls := es.reverse ++ (b.ltypes.drop b.params).map zeroEntry
        .go { c1 with cost := c1.cost + b.nlocals
                      frames := { block := block, pc := b.start, locals := ls, base := c1.stack.length } :: c1.frames }

def execCall (sl : Slot) (u : Nat) (block : Nat) (s : State) : Res := lumen 1 8 (fun env => callBlock env block) s sl u

/-- RET (R169): exactly the return values stand on the block's part; RET of block 0 ends the cycle (R170). -/
def retBlock (env : LEnv) (c : Cycle) : LRes :=
  match c.frames with
  | [] => .typing
  | f :: fs => match blockOf env.code f.block with
    | none => .typing
    | some b =>
      let own := c.stack.take (c.stack.length - f.base)
      if typesFit own.reverse b.rtypes then
        (if fs.isEmpty then .ended c else .go { c with frames := fs })
      else .typing

def execRet (sl : Slot) (u : Nat) (s : State) : Res := lumen 1 4 retBlock s sl u

def execNow (sl : Slot) (u : Nat) (s : State) : Res :=
  lumen 1 1 (fun _ c => push { ty := .time64, val := c.start, q := 0xC000 } c) s sl u
def execDt (sl : Slot) (u : Nat) (s : State) : Res :=
  lumen 1 1 (fun _ c => push { ty := .int64, val := c.dt, q := 0xC000 } c) s sl u
def execFirst (sl : Slot) (u : Nat) (s : State) : Res :=
  lumen 1 1 (fun _ c => push { ty := .bool, val := bWord c.first, q := 0xC000 } c) s sl u
/-- EXC: the exception word; then clears it. -/
def execExc (sl : Slot) (u : Nat) (s : State) : Res :=
  lumen 1 1 (fun _ c => push { ty := .int32, val := c.exc.setWidth 64, q := 0xC000 } { c with exc := 0 }) s sl u

end Sys2Proof.Machine
end

