-- ==== Sys2Proof/Machine/Primitives.lean ====
section
/-! DEFINITION. Machine/Primitives.lean: the eight primitives of Lumen code (R173 to R183), computed in REAL64 in the order their
equations are written. -/

namespace Sys2Proof.Machine
open Sys2Proof Sys2Proof.Bits

/-! ### REAL64 arithmetic that carries its exceptions -/

/-- A value without exceptions. -/
def pv (v : W64) : Ar := { val := v }
/-- An integer in REAL64. -/
def pInt (i : Int) : Ar := pv (fOfInt true i)
/-- An operation on two values: the exceptions of both and its own. -/
def pOp (f : Dbl → W64 → W64 → Ar) (a b : Ar) : Ar :=
  let r := f true a.val b.val
  { val := r.val, flags := a.flags ||| b.flags ||| r.flags, qual := max (max a.qual b.qual) r.qual }
def pAdd (a b : Ar) : Ar := pOp fAdd a b
def pSub (a b : Ar) : Ar := pOp fSub a b
def pMul (a b : Ar) : Ar := pOp fMul a b
def pDiv (a b : Ar) : Ar := pOp fDiv a b
def pMin (a b : Ar) : Ar := pOp fMin a b
def pMax (a b : Ar) : Ar := pOp fMax a b
def pNeg (a : Ar) : Ar := { a with val := fFlip true a.val }
def pAbs (a : Ar) : Ar := { a with val := (fAbs true a.val).val }

/-- Order of two REAL64 values. -/
def pCmp (a b : Ar) : Option Ordering := fCmp true a.val b.val
def pLt (a b : Ar) : Bool := pCmp a b == some .lt
def pLe (a b : Ar) : Bool := pCmp a b == some .lt || pCmp a b == some .eq
def pNaN (a : Ar) : Bool := fIsNaN true a.val
def pZero : Ar := pv 0
/-- −1, 0 or 1. -/
def pSign (a : Ar) : Int := match pCmp a pZero with | some .lt => -1 | some .gt => 1 | _ => 0
/-- min(max(x, lo), hi). -/
def pClamp (x lo hi : Ar) : Ar := pMin (pMax x lo) hi

/-- dt = DT ÷ 10^9 (section Primitives). -/
def pDt (c : Cycle) : Ar := pDiv (pInt c.dt.toInt) (pInt 1000000000)

/-! ### Instances -/

/-- Read the entries of an instance, each by its type and access (0 R, 1 W): value and INIT. -/
def readInst (env : LEnv) (c : Cycle) : Nat → List (LType × Nat) → (List (W64 × Bool) → LRes) → LRes
  | _, [], f => f []
  | i, (t, acc) :: ts, f =>
    match entryOf env i acc t with
    | none => .typing
    | some h => match partBlocked env (unitAt env c 1 (8 * i)) 0 with
      | some d => .blocked false 0 (unitAt env c 1 (8 * i)) d
      | none => match snapOf c h with
        | none => .typing
        | some r => match pointBlocked env 0 r.owner (hIdx h) with
          | some (p, d) => .blocked p 0 (hIdx h) d
          | none => readInst env c (i + 1) ts (fun vs => f ((maskVal t (viewVal c h r), (viewQ c h r).getLsbD 0) :: vs))

/-- Write state entries with the output's quality (R173). -/
def writeInst (env : LEnv) : List (Nat × LType × W64) → W16 → Cycle → (Cycle → LRes) → LRes
  | [], _, c, f => f c
  | (i, t, v) :: ws, q, c, f => storeEntry env c i t v q (fun c1 => writeInst env ws q c1 f)

/-- What a primitive gives: its output, the state it writes by entry from BASE, its flags and what they do to the output's
quality. -/
structure POut where
  ty : LType := .real64
  out : W64
  state : List (Nat × LType × W64) := []
  flags : Nat := 0
  qual : List Nat := []
  /-- A quality that replaces the joined one (R181). -/
  q : Option W16 := none
  /-- The OUT a PID leaves. -/
  pidOut : Option W64 := none

/-- The exceptions of values that reached the result or the state. -/
def exFlags (l : List Ar) : Nat := l.foldl (fun a x => a ||| x.flags) 0
def exQual (l : List Ar) : List Nat := l.map (fun x => x.qual)

/-- An invalid parameter: PRIM, CLASS at most 0b01, the held value, state unchanged (R173). -/
def pInvalid (ty : LType) (held : W64) : POut := { ty := ty, out := held, flags := fPRIM, qual := [4] }
/-- A NaN operand: INVALID, CLASS 0b00, the held value (R173). -/
def pNanHold (held : W64) : POut := { out := held, flags := fINVALID, qual := [3] }

/-- Finish a primitive: state with the output's quality, then the output. -/
def primDone (env : LEnv) (base : Nat) (q : W16) (c : Cycle) (r : POut) : LRes :=
  let oq := r.qual.foldl qLower (r.q.getD q)
  let c1 := match r.pidOut, tableEntry env.table (base + 6) with
    | some o, e => { c with outs := tset c.outs (hIdx e.1) o }
    | none, _ => c
  writeInst env (r.state.map (fun x => (base + x.1, x.2))) oq (raise r.flags c1)
    (fun c2 => push { ty := r.ty, val := r.out, q := oq } c2)

/-- A primitive with an instance: `ts` are the types of its stack operands, deepest first. -/
def prim (ts : List LType) (inst : List (LType × Nat)) (base : Nat)
    (f : LEnv → Cycle → List W64 → List (W64 × Bool) → POut) (env : LEnv) (c : Cycle) : LRes :=
  match popN ts.length c with
  | none => .typing
  | some (es, c1) =>
    if typesFit es.reverse ts then
      readInst env c1 base inst (fun vs =>
        primDone env base (qJoinAll (es.reverse.map (fun e => e.q))) c1 (f env c1 (es.reverse.map (fun e => e.val)) vs))
    else .typing

/-! ### PID (R175) -/

/-- The entries of a PID instance. -/
def pidInst : List (LType × Nat) :=
  [(.real64, 0), (.real64, 0), (.real64, 0), (.real64, 0), (.real64, 0), (.real64, 0), (.real64, 1), (.real64, 1), (.real64, 1)]

/-- An invalid parameter of PID. -/
def pidBad (kp ti td n lo hi : Ar) : Bool :=
  pNaN kp || pNaN ti || pNaN td || pNaN n || pNaN lo || pNaN hi || pLt ti pZero || pLt td pZero
    || (pLt pZero td && !pLt pZero n) || pLt hi lo

/-- D of R175. -/
def pidD (kp td n dt pvv pvp d' : Ar) : Ar :=
  if pLt pZero td then
    pDiv (pSub (pMul td d') (pMul (pMul (pMul kp td) n) (pSub pvv pvp))) (pAdd td (pMul n dt))
  else pZero

/-- The held value: the last OUT, or LO if I is INIT; without a last OUT, P + I′ + D′ in the limits (log entry 13). -/
def pidHeld (env : LEnv) (c : Cycle) (slot : Nat) (iInit : Bool) (p i' d' lo hi : Ar) : W64 :=
  if iInit then lo.val
  else match tget c.outs slot with
    | some o => o
    | none => match tget env.k.outs slot with
      | some o => o
      | none => (pClamp (pAdd (pAdd p i') d') lo hi).val

/-- PID on SP, PV, MAN, MV and its entries. -/
def pidRun (env : LEnv) (c : Cycle) (base : Nat) (ops : List W64) (vs : List (W64 × Bool)) : POut :=
  let op (i : Nat) : Ar := pv (ops.getD i 0)
  let en (i : Nat) : Ar := pv (vs.getD i (0, false)).1
  let ini (i : Nat) : Bool := (vs.getD i (0, false)).2
  let sp := op 0
  let pvv := op 1
  let man := (ops.getD 2 0).getLsbD 0
  let mv := op 3
  let kp := en 0
  let ti := en 1
  let td := en 2
  let n := en 3
  let lo := en 4
  let hi := en 5
  let dt := pDt c
  let i' := if ini 6 then pZero else en 6
  let d' := if ini 8 then pZero else en 7
  let pvp := if ini 8 then pvv else en 8
  let p := pMul kp (pSub sp pvv)
  let slot := hIdx (tableEntry env.table (base + 6)).1
  let held := pidHeld env c slot (ini 6) p i' d' lo hi
  if pidBad kp ti td n lo hi then pInvalid .real64 held
  else if pNaN sp || pNaN pvv || (man && pNaN mv) then pNanHold held
  else
    let d := pidD kp td n dt pvv pvp d'
    if man then
      let out := pClamp mv lo hi
      let i := pSub (pSub out p) d
      { out := out.val, state := [(6, .real64, i.val), (7, .real64, d.val), (8, .real64, pvv.val)],
        flags := exFlags [out, i, d], qual := exQual [out, i, d], pidOut := some out.val }
    else
      let iNew := if pLt pZero ti then pAdd i' (pDiv (pMul (pMul kp dt) (pSub sp pvv)) ti) else i'
      let v := pAdd (pAdd p iNew) d
      let hold := (pLt hi v && pLt pZero p) || (pLt v lo && pLt p pZero)
      let i := if hold then i' else iNew
      let out := pClamp (pAdd (pAdd p i) d) lo hi
      { out := out.val, state := [(6, .real64, i.val), (7, .real64, d.val), (8, .real64, pvv.val)],
        flags := exFlags [out, i, d, v], qual := exQual [out, i, d, v], pidOut := some out.val }

def execPid (sl : Slot) (u : Nat) (base : Nat) (s : State) : Res :=
  lumen 1 110 (prim [.real64, .real64, .bool, .real64] pidInst base (fun env c => pidRun env c base)) s sl u

/-! ### RAMP (R176) -/

/-- X and V after a step with ACC > 0. -/
def rampAcc (target x v rate acc dt : Ar) (version : W32) : Ar × Ar :=
  let d := pSub target x
  let sd := pSign d
  let root := fSqrt true (pMul (pMul (pInt 2) acc) (pAbs d)).val version
  let vstar := if sd = 0 then pZero else pMul (pInt sd) (pMin rate root)
  let v1 := pAdd v (pClamp (pSub vstar v) (pNeg (pMul acc dt)) (pMul acc dt))
  let x1 := pAdd x (pMul v1 dt)
  if sd ≠ 0 ∧ pSign v1 = sd ∧ pSign (pSub target x1) ≠ sd then (target, pZero) else (x1, v1)

/-- RAMP on TARGET and RATE, ACC, X, V. -/
def rampRun (env : LEnv) (c : Cycle) (ops : List W64) (vs : List (W64 × Bool)) : POut :=
  let target := pv (ops.getD 0 0)
  let en (i : Nat) : Ar := pv (vs.getD i (0, false)).1
  let rate := en 0
  let acc := en 1
  let x := en 2
  let v := en 3
  let dt := pDt c
  if pNaN rate || pNaN acc || !pLt pZero rate || pLt acc pZero then
    { pInvalid .real64 x.val with state := [(3, .real64, 0)] }
  else if pNaN target then
    if pLt pZero acc then
      let v1 := pAdd v (pClamp (pNeg v) (pNeg (pMul acc dt)) (pMul acc dt))
      let x1 := pAdd x (pMul v1 dt)
      { out := x1.val, state := [(2, .real64, x1.val), (3, .real64, v1.val)],
        flags := fINVALID ||| exFlags [x1, v1], qual := 3 :: exQual [x1, v1] }
    else { pNanHold x.val with state := [(3, .real64, 0)] }
  else if (vs.getD 2 (0, false)).2 then
    { out := target.val, state := [(2, .real64, target.val), (3, .real64, 0)] }
  else
    let r :=
      if pLt pZero acc then rampAcc target x v rate acc dt (imageVersion env.m)
      else
        let x1 := pAdd x (pClamp (pSub target x) (pNeg (pMul rate dt)) (pMul rate dt))
        (x1, pDiv (pSub x1 x) dt)
    { out := r.1.val, state := [(2, .real64, r.1.val), (3, .real64, r.2.val)], flags := exFlags [r.1, r.2], qual := exQual [r.1, r.2] }

def execRamp (sl : Slot) (u : Nat) (base : Nat) (s : State) : Res :=
  lumen 1 80 (prim [.real64] [(.real64, 0), (.real64, 0), (.real64, 1), (.real64, 1)] base rampRun) s sl u

/-! ### LEADLAG (R178) -/

/-- LEADLAG on x and T1, T2, XP, Y. -/
def leadlagRun (_env : LEnv) (c : Cycle) (ops : List W64) (vs : List (W64 × Bool)) : POut :=
  let x := pv (ops.getD 0 0)
  let en (i : Nat) : Ar := pv (vs.getD i (0, false)).1
  let ini := (vs.getD 2 (0, false)).2 || (vs.getD 3 (0, false)).2
  let t1 := en 0
  let t2 := en 1
  let xp := if ini then x else en 2
  let yo := if ini then x else en 3
  let dt := pDt c
  if pNaN t1 || pNaN t2 || pLt t1 pZero || pLt t2 pZero then pInvalid .real64 yo.val
  else if pNaN x then pNanHold (en 3).val
  else
    let one := pInt 1
    let a := pDiv (pMul (pInt 2) t2) dt
    let b := pDiv (pMul (pInt 2) t1) dt
    let y :=
      if pLt pZero t2 then
        pDiv (pSub (pAdd (pMul (pAdd one b) x) (pMul (pSub one b) xp)) (pMul (pSub one a) yo)) (pAdd one a)
      else if pLt pZero t1 then pAdd x (pDiv (pMul t1 (pSub x xp)) dt)
      else x
    { out := y.val, state := [(2, .real64, x.val), (3, .real64, y.val)], flags := y.flags, qual := [y.qual] }

def execLeadlag (sl : Slot) (u : Nat) (base : Nat) (s : State) : Res :=
  lumen 1 50 (prim [.real64] [(.real64, 0), (.real64, 0), (.real64, 1), (.real64, 1)] base leadlagRun) s sl u

/-! ### TOTAL (R179) -/

/-- TOTAL on x, RST and LOWCUT, S, C, XP. -/
def totalRun (_env : LEnv) (c : Cycle) (ops : List W64) (vs : List (W64 × Bool)) : POut :=
  let x := pv (ops.getD 0 0)
  let rst := (ops.getD 1 0).getLsbD 0
  let en (i : Nat) : Ar := pv (vs.getD i (0, false)).1
  let low := en 0
  let s := en 1
  let k := en 2
  if pNaN low || pLt low pZero then pInvalid .real64 s.val
  else if pNaN x then
    { out := if rst then 0 else s.val, state := if rst then [(1, .real64, 0), (2, .real64, 0)] else [],
      flags := fINVALID, qual := [1] }
  else
    let cut := if pLe low (pAbs x) then x else pZero
    if rst then { out := 0, state := [(1, .real64, 0), (2, .real64, 0), (3, .real64, cut.val)] }
    else
      let xp := if (vs.getD 3 (0, false)).2 then cut else en 3
      let inc := pDiv (pMul (pAdd cut xp) (pDt c)) (pInt 2)
      let y := pSub inc k
      let t := pAdd s y
      let k1 := pSub (pSub t s) y
      { out := t.val, state := [(1, .real64, t.val), (2, .real64, k1.val), (3, .real64, cut.val)],
        flags := exFlags [t, k1], qual := exQual [t, k1] }

def execTotal (sl : Slot) (u : Nat) (base : Nat) (s : State) : Res :=
  lumen 1 40 (prim [.real64, .bool] [(.real64, 0), (.real64, 1), (.real64, 1), (.real64, 1)] base totalRun) s sl u

/-! ### TIMER (R180) -/

/-- ET and Q of a timer: variant, IN, INP, QS, ET, PT and DT. -/
def timerNext (variant : Nat) (inp prev qs : Bool) (et pt dt : Int) : Int × Bool :=
  let counted := min (et + dt) pt
  match variant with
  | 0 => if inp then (let e := if prev then counted else 0; (e, decide (pt ≤ e))) else (0, false)
  | 1 =>
    if inp then (0, true)
    else if qs then (let e := if prev then 0 else counted; (e, decide (e < pt))) else (et, false)
  | _ =>
    if qs then (counted, decide (counted < pt))
    else if inp && !prev then (0, true)
    else if inp then (et, false) else (0, false)

/-- TIMER on IN and PT, ET, QS, INP. -/
def timerRun (variant : Nat) (_env : LEnv) (c : Cycle) (ops : List W64) (vs : List (W64 × Bool)) : POut :=
  let inp := (ops.getD 0 0).getLsbD 0
  let v (i : Nat) : W64 := (vs.getD i (0, false)).1
  let ini (i : Nat) : Bool := (vs.getD i (0, false)).2
  let pt := iVal .int64 (v 0)
  if pt ≤ 0 then pInvalid .bool (bWord (if variant = 2 then false else inp))
  else
    let prev := !ini 3 && (v 3).getLsbD 0
    let qs := !ini 2 && (v 2).getLsbD 0
    let et := if ini 1 then 0 else iVal .int64 (v 1)
    let r := timerNext variant inp prev qs et pt c.dt.toInt
    { ty := .bool, out := bWord r.2,
      state := [(1, .int64, iWord .int64 r.1), (2, .bool, bWord r.2), (3, .bool, bWord inp)] }

def execTimer (sl : Slot) (u : Nat) (variant base : Nat) (s : State) : Res :=
  lumen 1 30 (prim [.bool] [(.int64, 0), (.int64, 1), (.bool, 1), (.bool, 1)] base (timerRun variant)) s sl u

/-! ### SELECT (R181) -/

/-- Insert into a list sorted by value. -/
def insSorted (x : SEntry) : List SEntry → List SEntry
  | [] => [x]
  | y :: ys => if pLt (pv x.val) (pv y.val) then x :: y :: ys else y :: insSorted x ys

/-- The first of the least, or of the greatest. -/
def bestOf (greater : Bool) : List SEntry → Option SEntry
  | [] => none
  | x :: xs => some (xs.foldl (fun b y => if (if greater then pLt (pv b.val) (pv y.val) else pLt (pv y.val) (pv b.val)) then y else b) x)

/-- A chosen or computed value with the combined quality of the inputs used. -/
def selOut (r : Ar) (q : W16) : POut :=
  { out := r.val, state := [(2, .real64, r.val)], flags := r.flags, qual := [r.qual], q := some q }

/-- SELECT on its inputs and MODE, SEL, Y. -/
def selectRun (es : List SEntry) (vs : List (W64 × Bool)) : POut :=
  let v (i : Nat) : W64 := (vs.getD i (0, false)).1
  let y := v 2
  let usable := es.filter (fun e => (qClass e.q == 1 || qClass e.q == 3) && !fIsNaN true e.val)
  let q := qJoinAll (usable.map (fun e => e.q))
  let mode := iVal .int32 (v 0)
  if mode < 0 ∨ 4 < mode then pInvalid .real64 y
  else if mode = 4 then
    let i := iVal .int32 (v 1)
    if i < 0 then pInvalid .real64 y
    else match es[i.toNat]? with
      | none => pInvalid .real64 y
      | some e => if fIsNaN true e.val then pNanHold y else selOut (pv e.val) e.q
  else if usable.isEmpty then { out := y, state := [(2, .real64, y)], qual := [3] }
  else if mode = 0 then (match bestOf false usable with | some e => selOut (pv e.val) e.q | none => pNanHold y)
  else if mode = 1 then (match bestOf true usable with | some e => selOut (pv e.val) e.q | none => pNanHold y)
  else if mode = 2 then
    let l := usable.foldl (fun a x => insSorted x a) []
    let at_ (i : Nat) : Ar := pv (match l[i]? with | some e => e.val | none => 0)
    let n := l.length
    if n % 2 = 1 then selOut (at_ (n / 2)) q else selOut (pDiv (pAdd (at_ (n / 2 - 1)) (at_ (n / 2))) (pInt 2)) q
  else
    match usable with
    | [] => pNanHold y
    | e :: rest => selOut (pDiv (rest.foldl (fun a x => pAdd a (pv x.val)) (pv e.val)) (pInt usable.length)) q

/-- SELECT needs the qualities of its operands, so it takes them itself. -/
def selectPrim (n base : Nat) (env : LEnv) (c : Cycle) : LRes :=
  match popN n c with
  | none => .typing
  | some (es, c1) =>
    if typesFit es.reverse (List.replicate n .real64) ∧ 2 ≤ n ∧ n ≤ 8 then
      readInst env c1 base [(.int32, 0), (.int32, 0), (.real64, 1)] (fun vs =>
        primDone env base (qJoinAll (es.reverse.map (fun e => e.q))) c1 (selectRun es.reverse vs))
    else .typing

def execSelect (sl : Slot) (u : Nat) (n base : Nat) (s : State) : Res := lumen 1 (30 + 8 * n) (selectPrim n base) s sl u

/-! ### LIMIT (R182) -/

/-- LIMIT on reals. -/
def limitReal (d : Dbl) (x lo hi : W64) : Ar :=
  if fIsNaN d x then arNaN d
  else if fCmp d lo hi = some .gt then { val := lo, flags := fPRIM, qual := 1 }
  else
    let a := if fIsNaN d lo then x else (fMax d x lo).val
    arExact (if fIsNaN d hi then a else (fMin d a hi).val)

/-- LIMIT on integers. -/
def limitInt (t : LType) (x lo hi : Int) : Ar :=
  if hi < lo then { val := iWord t lo, flags := fPRIM, qual := 1 } else { val := iWord t (min (max x lo) hi) }

/-- LIMIT in its TYPE. -/
def limitOp (t : LType) (x lo hi : W64) : Ar :=
  match realFmt t with
  | some d => limitReal d x lo hi
  | none => limitInt t (iVal t x) (iVal t lo) (iVal t hi)

/-- LIMIT: x lo hi → y. -/
def limitPrim (t : LType) (c : Cycle) : LRes :=
  match t with
  | .bool | .time64 => .typing
  | _ => match popT t c with
    | none => .typing
    | some (hi, c1) => match popT t c1 with
      | none => .typing
      | some (lo, c2) => match popT t c2 with
        | none => .typing
        | some (x, c3) => pushAr t (qJoinAll [x.q, lo.q, hi.q]) (limitOp t x.val lo.val hi.val) c3

def execLimit (sl : Slot) (u : Nat) (t : LType) (s : State) : Res := lumen 1 3 (fun _ => limitPrim t) s sl u

/-! ### DEADBAND (R183) -/

/-- DEADBAND on x and W, Y. -/
def deadbandRun (variant : Nat) (_env : LEnv) (_c : Cycle) (ops : List W64) (vs : List (W64 × Bool)) : POut :=
  let x := pv (ops.getD 0 0)
  let w := pv (vs.getD 0 (0, false)).1
  let y := pv (vs.getD 1 (0, false)).1
  let ini := (vs.getD 1 (0, false)).2
  if pNaN w || pLt w pZero then pInvalid .real64 (if variant = 0 then y.val else x.val)
  else if pNaN x then pNanHold y.val
  else if variant = 0 then
    let diff := pAbs (pSub x y)
    if ini || pLt w diff || pNaN diff then { out := x.val, state := [(1, .real64, x.val)] } else { out := y.val }
  else
    let r := if pLe (pAbs x) w then pZero else pSub x (pMul (pInt (pSign x)) w)
    { out := r.val, state := [(1, .real64, r.val)], flags := r.flags, qual := [r.qual] }

def execDeadband (sl : Slot) (u : Nat) (variant base : Nat) (s : State) : Res :=
  lumen 1 20 (prim [.real64] [(.real64, 0), (.real64, 1)] base (deadbandRun variant)) s sl u

end Sys2Proof.Machine
end

