-- ==== Sys2Proof/Machine/Outputs.lean ====
section
/-! DEFINITION. Machine/Outputs.lean: which output of the local front is driven and by what: carrier wiring (R319, R320, R357), the
Glint selects (R189, R190), vigil (R335 to R337) and the conditions of the safety outputs (R354). -/

namespace Sys2Proof.Machine
open Sys2Proof Sys2Proof.Bits

/-! ### The active Glint bank -/

/-- A part of a bank. -/
def gPart (b : GBank) (i : Nat) : Part :=
  match i with
  | 0 => b.p0
  | 1 => b.p1
  | 2 => b.p2
  | 3 => b.p3
  | _ => b.p4

/-- A bank. -/
def gBank (g : Glint) (i : Nat) : GBank := if i = 0 then g.bank0 else g.bank1

/-- The bytes of a part of the active bank; without an active bank there are none (R210). -/
def activePart (g : Glint) (i : Nat) : Bytes :=
  match g.active with
  | some b => (gPart (gBank g b) i).bytes
  | none => []

/-- The source a select entry names, if it is enabled (R189). -/
def selSource (sel : Bytes) (i : Nat) : Option Nat :=
  let w := le sel (2 * i) 2
  if bit w 15 then some (field w 10 0) else none

/-- Is the select of a destination enabled in the active bank? -/
def selected (g : Glint) (i : Nat) : Bool := (selSource (activePart g 1) i).isSome

/-! ### Carrier wiring -/

/-- The wiring code a module acts on (R36, R319). -/
def wiringOf (m : Module) : Nat := m.hw.wiring.toNat

/-- Shared codes 0b100 to 0b110. -/
def sharedWiring (m : Module) : Bool := decide (4 ≤ wiringOf m ∧ wiringOf m ≤ 6)

/-- Are the terminals of the front wired to this module (R319)? -/
def wired (m : Module) : Bool :=
  match wiringOf m with
  | 1 => m.slot == .a
  | 2 => m.slot == .b
  | 3 | 4 | 5 | 6 => true
  | _ => false

/-- May this module drive its DO (kind 1) or FDO (kind 2) channels (R319, R320)? -/
def mayDrive (m : Module) (kind : Nat) : Bool :=
  wired m && !(m.pair.wiringMismatch && m.pair.role == .shadow) &&
    match wiringOf m with
    | 4 | 5 => kind == 1 || isLead m
    | 6 => isLead m
    | _ => true

/-- May this module drive its SO channels (R357)? -/
def mayDriveSo (m : Module) : Bool := wired m && (wiringOf m != 6 || isLead m)

/-! ### DO and FDO channels -/

/-- A DIO (kind 1) or FDO (kind 2) channel. -/
def outChOf (m : Module) (kind ch : Nat) : Option OutCh := if kind = 1 then m.lio.dio[ch]? else m.lio.fdo[ch]?

/-- Change one. -/
def outChMod (m : Module) (kind ch : Nat) (f : OutCh → OutCh) : Module :=
  if kind = 1 then { m with lio := { m.lio with dio := modNth m.lio.dio ch f } }
  else { m with lio := { m.lio with fdo := modNth m.lio.fdo ch f } }

/-- Is the channel an output: a DIO configured as DO, or an FDO that is on? -/
def isOutput (kind : Nat) (o : OutCh) : Bool := if kind = 1 then o.mode == 3 else o.mode == 1

/-- Entry of the select table of a channel (R189). -/
def selEntry (kind ch : Nat) : Nat := if kind = 1 then ch else 32 + ch

/-- The Glint engine owns the channel (R190). -/
def glintOwns (m : Module) (kind ch : Nat) : Bool :=
  match outChOf m kind ch with
  | some o => isOutput kind o && selected m.glint (selEntry kind ch)
  | none => false

/-- The binding of a channel of this module's own front. -/
def bindingOf (m : Module) (kind ch : Nat) : Option LocalBind :=
  m.lio.binds.find? (fun b => b.kind == kind && b.channel == ch && (wiringOf m != 3 || b.slot == slotN m.slot))

/-- The output register of a channel. -/
def glintOut (m : Module) (kind ch : Nat) : Bool :=
  if kind = 1 then m.glint.dioOut.getLsbD ch else m.glint.fdoOut.getLsbD ch

/-- The safe state; hold keeps the value last driven (R335). -/
def safeValue (o : OutCh) : Bool := if o.safe = 0 then false else if o.safe = 1 then true else o.driven

/-- A task of the binding is unchecked, so that only the lead drives (R148, R321). -/
def uncheckedBind (m : Module) (b : LocalBind) : Bool :=
  match taskOf m b.task with
  | some k => k.unchecked
  | none => false

/-- What a channel drives now (R55, R333 to R337); unchanged through the flush of a power-down (R400). -/
def wantOut (m : Module) (kind ch : Nat) (o : OutCh) : Bool :=
  if m.power.phase == .goingDown then o.driven
  else match m.boot.state with
  | .off => false
  | .loader | .verify | .starting => if o.expired then safeValue o else o.driven
  | .halt => if isOutput kind o then safeValue o else false
  | _ =>
    if !isOutput kind o || o.latched || !mayDrive m kind then false
    else if o.expired then safeValue o
    else if glintOwns m kind ch then glintOut m kind ch
    else match bindingOf m kind ch with
      | some b => if uncheckedBind m b && !isLead m then false else o.demand
      | none => false

/-- Drive one channel. -/
def refreshOut (m : Module) (kind ch : Nat) : Module :=
  outChMod m kind ch (fun o => { o with driven := wantOut m kind ch o })

/-- Drive all channels. -/
def refreshOuts (m : Module) : Module :=
  let m1 := { m with lio := { m.lio with dio := m.lio.dio.mapIdx (fun i (o : OutCh) => { o with driven := wantOut m 1 i o }) } }
  { m1 with lio := { m1.lio with fdo := m.lio.fdo.mapIdx (fun i (o : OutCh) => { o with driven := wantOut m 2 i o }) } }

/-- What stands at the terminal: the field feed supplies DO and FDO (R397). -/
def outOn (m : Module) (o : OutCh) : Bool := o.driven && m.power.field

/-- Restart a vigil timer; a channel in its safe state returns to its driven value (R335). -/
def vigilRestart (m : Module) (kind ch : Nat) : Module :=
  match outChOf m kind ch with
  | none => m
  | some o =>
    let m1 := outChMod m kind ch (fun o => { o with vigilRunning := true, restartAt := now m, expired := false, status := o.status &&& 0xFFDF })
    if o.expired then
      refreshOut (logEv m1 0x0804 5 ch 0xFFFF
        ([BitVec.ofNat 8 kind, BitVec.ofNat 8 ch] ++ zeros 2 ++ leBytes 4 (sat32 ((now m - o.expiredAt).toNat / 1000)))) kind ch
    else m1

/-- Every channel of the front: kind and number. -/
def allOut : List (Nat × Nat) := (List.range 32).map (fun i => (1, i)) ++ (List.range 8).map (fun i => (2, i))

/-- At a completed sweep the timers of Glint-driven channels restart (R335). -/
def vigilSweep (m : Module) : Module :=
  allOut.foldl (fun a x => if glintOwns a x.1 x.2 then vigilRestart a x.1 x.2 else a) m

/-! ### Safety outputs -/

/-- The record of a channel in the active set. -/
def soActive (m : Module) (c : Nat) : Bytes := match m.halo.active with | some b => soRec b c | none => zeros 16
/-- Change an SO channel. -/
def soMod (m : Module) (c : Nat) (f : So → So) : Module := { m with halo := { m.halo with so := modNth m.halo.so c f } }

/-- Conditions 1 to 5, 7 and 8 of R354 for a channel to stay energised. -/
def soMay (m : Module) (c : Nat) (x : So) : Bool :=
  m.halo.activeConfirmed && soEnabled (soActive m c) && x.enable && x.live && !m.glint.soOff.getLsbD c && !x.locked
    && !x.interlock && inRun m && mayDriveSo m && m.power.field

/-- Condition 6: EDM read 1 during the 10 ms before energising (R354). -/
def soEdmReady (m : Module) (c : Nat) (x : So) : Bool :=
  !soEdmUsed (soActive m c) || (x.edm && decide (10000000 ≤ (now m - x.edmAt).toNat))

/-- A channel as its conditions now stand: it opens when any lapses, and the demand wins over a test (R354, R360); it
energises when all hold and no closing test runs. -/
def soNext (m : Module) (c : Nat) (x : So) : So :=
  if m.power.phase == .goingDown then x
  else if x.energised then
    if soMay m c x then x
    else { x with
      energised := false
      edmDue := soEdmUsed (soActive m c)
      interlock := x.interlock || soInterlock (soActive m c)
      test := none }
  else if soMay m c x && soEdmReady m c x && x.test.isNone then
    { x with energised := true, edmDue := soEdmUsed (soActive m c) }
  else x

/-- All safety outputs. -/
def refreshSo (m : Module) : Module := { m with halo := { m.halo with so := m.halo.so.mapIdx (fun c x => soNext m c x) } }

/-- All outputs of the module. -/
def refresh (m : Module) : Module := refreshSo (refreshOuts m)

/-- Readback of a switch: closed while energised, but for the one under test (R186, R355). -/
def switchClosed (x : So) (high : Bool) : Bool :=
  match x.test with
  | some (h, dark) => if h = high then !dark else x.energised
  | none => x.energised || (x.fallback && x.stuckHigh == high)

end Sys2Proof.Machine
end

