-- ==== Sys2Proof/Machine/Glint.lean ====
section
/-! DEFINITION. Machine/Glint.lean: the Glint engine: literals, term array, selects, the bit program, Gleam comparators (R184 to R195)
and the GLINT commands (R208 to R211). -/

namespace Sys2Proof.Machine
open Sys2Proof Sys2Proof.Bits

/-- Change the engine. -/
def gMod (m : Module) (f : Glint → Glint) : Module := { m with glint := f m.glint }

/-! ### Literals (R186) -/

/-- A number whose bit i is element i. -/
def natOfBits : List Bool → Nat
  | [] => 0
  | b :: bs => b2n b + 2 * natOfBits bs

/-- Replace `n` bits of the literal map from index `o`. -/
def litField (l : BitVec 1024) (o n v : Nat) : BitVec 1024 :=
  (l &&& ~~~(BitVec.ofNat 1024 ((2 ^ n - 1) * 2 ^ o))) ||| BitVec.ofNat 1024 (v % 2 ^ n * 2 ^ o)

/-- Replace one literal. -/
def litSet (l : BitVec 1024) (i : Nat) (b : Bool) : BitVec 1024 := litField l i 1 (b2n b)

/-- The pins as they stand: DIO, FDO readback, SO high and low readback, EDM. -/
def pinLits (m : Module) : BitVec 64 :=
  BitVec.ofNat 64 (natOfBits (m.lio.dio.map (fun o => o.terminal) ++ m.lio.fdo.map (outOn m)
    ++ m.halo.so.map (fun x => switchClosed x true) ++ m.halo.so.map (fun x => switchClosed x false)
    ++ m.halo.so.map (fun x => x.edm)))

/-- The literals that show the module itself: RING_CLOSED, ONE, MOD_RUN, LEAD, IN_STEP, MOD_UMBRA. -/
def statusLits (m : Module) (l : BitVec 1024) : BitVec 1024 :=
  let l1 := litField l 0x70 8 (natOfBits (m.field.rings.map (fun r => r.closed)))
  litField l1 0x78 5 (1 + 2 * b2n (inRun m) + 4 * b2n (isLead m) + 8 * b2n (m.pair.mode == .inStep)
    + 16 * b2n (m.boot.state == .umbra))

/-- The literals the engine reads: in SPLIT-OFF every splice input literal reads 0 (R184). -/
def litsNow (m : Module) : BitVec 1024 :=
  if m.boot.state = .splitOff then m.glint.lits &&& BitVec.ofNat 1024 (2 ^ 512 - 1) else m.glint.lits

/-! ### Term array and selects (R187 to R189) -/

/-- A product: the AND over its used slots. -/
def evalProduct (l : BitVec 1024) (slots : Bytes) : Bool :=
  (chunks 2 16 slots).all (fun b => let w := leVal b; !bit w 15 || (l.getLsbD (field w 9 0) != bit w 14))

/-- A term. -/
def evalTerm (l : BitVec 1024) (rec : Bytes) : Bool :=
  let hdr := le rec 0 4
  bit hdr 31 && (bit hdr 30 != ((chunks 32 8 (rec.drop 16)).mapIdx (fun j p => bit hdr j && evalProduct l p)).any id)

/-- All 64 terms; without an active bank they are 0. -/
def evalTerms (l : BitVec 1024) (part : Bytes) : BitVec 64 :=
  if part.isEmpty then 0 else BitVec.ofNat 64 (natOfBits ((chunks 272 64 part).map (evalTerm l)))

/-- The words of the select table. -/
def selWords (part : Bytes) : List Nat := (chunks 2 816 part).map leVal

/-- The value of a select's source; a disabled select gives 0. -/
def srcVal (l : BitVec 1024) (t : BitVec 64) (w : Nat) : Bool :=
  bit w 15 && (if field w 10 0 < 0x400 then l.getLsbD (field w 10 0) else t.getLsbD (field w 10 0 - 0x400))

/-- Flags whose select is enabled take their source (R190). -/
def drivenFlags (l : BitVec 1024) (t : BitVec 64) (sels : List Nat) (old : BitVec 1024) : BitVec 1024 :=
  litField old 0x100 256 (natOfBits (((sels.drop 48).take 256).mapIdx (fun i w =>
    if bit w 15 then srcVal l t w else old.getLsbD (0x100 + i))))

/-! ### One Glint cycle -/

/-- Words of the bit program of the active bank: the sweep length N. -/
def sweepLen (g : Glint) : Nat := (activePart g 2).length / 4

/-- One Glint cycle: evaluate on the literals registered before, output registers from the evaluate of the cycle before, the
instruction `f`, then the literals for the next cycle (R188, R189, R191, R203). -/
def glintCycle (m : Module) (f : Glint → Glint) : Module :=
  let l := litsNow m
  let g := m.glint
  let sels := selWords (activePart g 1)
  let t := evalTerms l (activePart g 0)
  let outs := sels.map (srcVal g.pipe g.terms)
  let g1 := f g
  let l1 := drivenFlags l t sels g1.lits
  let l2 := litField l1 0 64 g.sync1.toNat
  let g2 : Glint :=
    { g1 with
      lits := statusLits m l2
      terms := t
      pipe := l
      sync1 := pinLits m
      dioOut := BitVec.ofNat 32 (natOfBits (outs.take 32))
      fdoOut := BitVec.ofNat 8 (natOfBits ((outs.drop 32).take 8))
      soOff := BitVec.ofNat 8 (natOfBits ((outs.drop 40).take 8))
      spliceOut := BitVec.ofNat 512 (natOfBits ((outs.drop 304).take 512)) }
  refresh { m with glint := g2 }

/-- What an instruction reads at an operand address (R191). -/
def gBit (m : Module) (g : Glint) (a : Nat) : Bool :=
  if a < 0x400 then (litsNow m).getLsbD a
  else if a < 0x440 then g.terms.getLsbD (a - 0x400)
  else if 0x500 ≤ a ∧ a < 0x600 then (match tget g.timers (a - 0x500) with | some t => t.q | none => false)
  else if 0x600 ≤ a ∧ a < 0x680 then (tget g.counterQ (a - 0x600)).getD false
  else false

/-- May the bit program write the address (R191)? -/
def gWritable (g : Glint) (a : Nat) : Bool :=
  decide (0x80 ≤ a ∧ a < 0x100) || (decide (0x100 ≤ a ∧ a < 0x200) && !selected g (a - 0x100 + 48))

/-- Write a bit; it is visible from the following Glint cycle on. -/
def gWrite (g : Glint) (a : Nat) (b : Bool) : Glint := if gWritable g a then { g with lits := litSet g.lits a b } else g

/-- An instruction word of the sweep takes one Glint cycle; a skipped one acts as NOP (R192). Where no word of a sweep is
due, nothing happens. -/
def glintIns (f : Module → Glint → Glint) (s : State) (sl : Slot) : Res :=
  onMod s sl (fun m =>
    if !glintRuns m || decide (sweepLen m.glint ≤ m.glint.pc) then m
    else glintCycle m (fun g =>
      let g1 := if 0 < g.skip then { g with skip := g.skip - 1 } else f m g
      { g1 with pc := g.pc + 1 }))

def execGlintLd (sl : Slot) (addr : BitVec 12) (s : State) : Res :=
  glintIns (fun m g => { g with acc := gBit m g addr.toNat }) s sl
def execGlintLdn (sl : Slot) (addr : BitVec 12) (s : State) : Res :=
  glintIns (fun m g => { g with acc := !gBit m g addr.toNat }) s sl
def execGlintAnd (sl : Slot) (addr : BitVec 12) (s : State) : Res :=
  glintIns (fun m g => { g with acc := g.acc && gBit m g addr.toNat }) s sl
def execGlintAndn (sl : Slot) (addr : BitVec 12) (s : State) : Res :=
  glintIns (fun m g => { g with acc := g.acc && !gBit m g addr.toNat }) s sl
def execGlintOr (sl : Slot) (addr : BitVec 12) (s : State) : Res :=
  glintIns (fun m g => { g with acc := g.acc || gBit m g addr.toNat }) s sl
def execGlintOrn (sl : Slot) (addr : BitVec 12) (s : State) : Res :=
  glintIns (fun m g => { g with acc := g.acc || !gBit m g addr.toNat }) s sl
def execGlintXor (sl : Slot) (addr : BitVec 12) (s : State) : Res :=
  glintIns (fun m g => { g with acc := xor g.acc (gBit m g addr.toNat) }) s sl
def execGlintSt (sl : Slot) (addr : BitVec 12) (s : State) : Res :=
  glintIns (fun _ g => gWrite g addr.toNat g.acc) s sl
def execGlintStn (sl : Slot) (addr : BitVec 12) (s : State) : Res :=
  glintIns (fun _ g => gWrite g addr.toNat (!g.acc)) s sl
def execGlintSet (sl : Slot) (addr : BitVec 12) (s : State) : Res :=
  glintIns (fun _ g => if g.acc then gWrite g addr.toNat true else g) s sl
def execGlintRst (sl : Slot) (addr : BitVec 12) (s : State) : Res :=
  glintIns (fun _ g => if g.acc then gWrite g addr.toNat false else g) s sl

/-- ANDP and ORP push (ACC, op) and load a bit. -/
def gPush (isOr : Bool) (a : Nat) (m : Module) (g : Glint) : Glint :=
  { g with branch := (g.acc, isOr) :: g.branch, acc := gBit m g a }
def execGlintAndp (sl : Slot) (addr : BitVec 12) (s : State) : Res := glintIns (gPush false addr.toNat) s sl
def execGlintOrp (sl : Slot) (addr : BitVec 12) (s : State) : Res := glintIns (gPush true addr.toNat) s sl
/-- POP: ACC := v op ACC. -/
def gPop (g : Glint) : Glint :=
  match g.branch with
  | [] => g
  | (v, isOr) :: r => { g with branch := r, acc := if isOr then v || g.acc else v && g.acc }
def execGlintPop (sl : Slot) (s : State) : Res := glintIns (fun _ => gPop) s sl

/-! #### Timers (R193) and counters -/

/-- One execution of a timer: mode 0 TON, 1 TOF, 2 TP. -/
def timerExec (mode : Nat) (inp : Bool) (t : GTimer) : GTimer :=
  match mode with
  | 0 =>
    if !inp then { t with input := false, counting := false, expired := false, q := false }
    else if !t.input then { t with input := true, counting := true, expired := false, q := false }
    else { t with q := t.counting && t.expired }
  | 1 =>
    if inp then { t with input := true, counting := false, expired := false, q := true }
    else if t.input then { t with input := false, counting := true, expired := false, q := true }
    else { t with q := t.counting && !t.expired }
  | _ =>
    if t.counting && !t.expired then { t with input := inp, q := true }
    else if inp && !t.input then { t with input := true, counting := true, expired := false, q := true }
    else { t with input := inp, counting := false, q := false }

/-- A timer instruction: ACC is the input and becomes Q. -/
def gTimer (mode n : Nat) (g : Glint) : Glint :=
  let t := timerExec mode g.acc ((tget g.timers n).getD {})
  { g with timers := tset g.timers n t, acc := t.q }
def execGlintTon (sl : Slot) (n : Nat) (s : State) : Res := glintIns (fun _ => gTimer 0 n) s sl
def execGlintTof (sl : Slot) (n : Nat) (s : State) : Res := glintIns (fun _ => gTimer 1 n) s sl
def execGlintTp (sl : Slot) (n : Nat) (s : State) : Res := glintIns (fun _ => gTimer 2 n) s sl

/-- Preset PV of a counter, in part 3 after the timer presets. -/
def counterPv (g : Glint) (n : Nat) : Nat := le (activePart g 3) (1024 + 2 * n) 2
/-- CV of a counter. -/
def counterCv (g : Glint) (n : Nat) : Nat := (tget g.counters n).getD 0

/-- A counting instruction: on a rising ACC `f` moves CV; ACC becomes `q` of CV. The edge memory belongs to the word. -/
def gCount (n : Nat) (f : Nat → Nat) (q : Nat → Bool) (g : Glint) : Glint :=
  let rising := g.acc && !(tget g.edges g.pc).getD false
  let cv := if rising then f (counterCv g n) else counterCv g n
  { g with
    edges := tset g.edges g.pc g.acc
    counters := tset g.counters n cv
    counterQ := tset g.counterQ n (q cv)
    acc := q cv }
def execGlintCtu (sl : Slot) (n : Nat) (s : State) : Res :=
  glintIns (fun _ g => gCount n (fun v => min (v + 1) 65535) (fun v => decide (counterPv g n ≤ v)) g) s sl
def execGlintCtd (sl : Slot) (n : Nat) (s : State) : Res :=
  glintIns (fun _ => gCount n (fun v => v - 1) (fun v => v == 0)) s sl
def execGlintCrst (sl : Slot) (n : Nat) (s : State) : Res :=
  glintIns (fun _ g => if g.acc then { g with counters := tset g.counters n 0 } else g) s sl
def execGlintCld (sl : Slot) (n : Nat) (s : State) : Res :=
  glintIns (fun _ g => if g.acc then { g with counters := tset g.counters n (counterPv g n) } else g) s sl

def execGlintSkipf (sl : Slot) (n : Nat) (s : State) : Res :=
  glintIns (fun _ g => if g.acc then g else { g with skip := n }) s sl
def execGlintSkipt (sl : Slot) (n : Nat) (s : State) : Res :=
  glintIns (fun _ g => if g.acc then { g with skip := n } else g) s sl
def execGlintNop (sl : Slot) (s : State) : Res := glintIns (fun _ g => g) s sl

/-! ### Sweep, timer expiry, bank switch, Gleam -/

/-- A sweep has completed: ACC and the branch stack restart, FIRST_SWEEP ends and the vigil timers of Glint-driven channels
restart (R191, R335). -/
def execGlintSweepEnd (sl : Slot) (s : State) : Res :=
  onMod s sl (fun m =>
    if !glintRuns m || sweepLen m.glint == 0 || decide (m.glint.pc < sweepLen m.glint) then m
    else vigilSweep (gMod m (fun g =>
      { g with pc := 0, acc := false, branch := [], skip := 0, sweeps := g.sweeps + 1, lits := litSet g.lits 0x7D false })))

/-- The count of a timer reaches PT + 1 (R193). -/
def execGlintTimerExpiry (sl : Slot) (n : Nat) (s : State) : Res :=
  onMod s sl (fun m =>
    if glintRuns m then gMod m (fun g => { g with timers := tmod g.timers n (fun t => if t.counting then { t with expired := true } else t) })
    else m)

/-- All five parts of a bank are sealed. -/
def gSealed (b : GBank) : Bool := b.p0.sealed && b.p1.sealed && b.p2.sealed && b.p3.sealed && b.p4.sealed

/-- The bank a swap activates: the inactive one; before the first swap the first that is sealed. -/
def gTarget (g : Glint) : Option Nat :=
  match g.active with
  | some a => if gSealed (gBank g (1 - a)) then some (1 - a) else none
  | none => if gSealed g.bank0 then some 0 else if gSealed g.bank1 then some 1 else none

/-- The switch (R209): splice input literals and comparators go to 0, FIRST_SWEEP to 1; flags, outputs, timers and counters
keep their state. -/
def execGlintBankSwitch (sl : Slot) (s : State) : Res :=
  onMod s sl (fun m =>
    if !glintRuns m || !m.glint.swapOrdered || (m.glint.pc != 0 && sweepLen m.glint != 0) then m
    else match gTarget m.glint with
      | none => gMod m (fun g => { g with swapOrdered := false })
      | some b => gMod m (fun g =>
          { g with
            active := some b
            swapOrdered := false
            lits := litSet (litField (litField g.lits 0x200 512 0) 0x40 8 0) 0x7D true
            pc := 0, acc := false, branch := [], skip := 0, edges := []
            lastSwap := now m }))

/-- A comparator on a Gleam value (R195): its setting, its state and the value. -/
def comparator (w : Nat) (old : Bool) (v : Nat) : Bool :=
  let th := field w 9 0
  let h := field w 25 16
  if !bit w 31 then false
  else if bit w 30 then (if v ≤ th then true else if th + h < v then false else old)
  else (if th ≤ v then true else if v + h < th then false else old)

/-- A Gleam value of AI0 to AI3 and the two comparators on it (R195, R327). -/
def execGleamValue (sl : Slot) (channel : Nat) (value : BitVec 10) (s : State) : Res :=
  onMod s sl (fun m =>
    if !fw m || decide (4 ≤ channel) then m
    else
      let m1 := { m with lio := { m.lio with ai := modNth m.lio.ai channel (fun a => { a with gleam := value }) } }
      gMod m1 (fun g => [2 * channel, 2 * channel + 1].foldl (fun g i =>
        { g with lits := litSet g.lits (0x40 + i) (comparator (le (activePart g 3) (1280 + 4 * i) 4) (g.lits.getLsbD (0x40 + i)) value.toNat) }) g))

/-! ### Load checks (R189, R194, R198, R201) -/

/-- Opcode of a word: reads address A, writes address A, timer, counter, skip, none. -/
def gWordOk (w : Nat) : Bool :=
  let op := field w 31 24
  let a := field w 23 12
  let b := field w 11 0
  let readable := decide (a < 0x440 ∨ (0x500 ≤ a ∧ a < 0x600) ∨ (0x600 ≤ a ∧ a < 0x680))
  let writable := decide (0x80 ≤ a ∧ a < 0x200)
  if op ∈ [0x01, 0x02, 0x03, 0x04, 0x05, 0x06, 0x07, 0x10, 0x11] then readable && b == 0
  else if op ∈ [0x08, 0x09, 0x0A, 0x0B] then writable && b == 0
  else if op ∈ [0x13, 0x3E] then a == 0 && b == 0
  else if op ∈ [0x18, 0x19, 0x1A] then a == 0 && decide (b < 256)
  else if op ∈ [0x1C, 0x1D, 0x1E, 0x1F] then a == 0 && decide (b < 128)
  else if op ∈ [0x20, 0x21] then a == 0 && decide (1 ≤ b)
  else false

/-- What a word does to the branch depth. -/
def gDepth (w : Nat) : Int :=
  let op := field w 31 24
  if op = 0x10 ∨ op = 0x11 then 1 else if op = 0x13 then -1 else 0

/-- Words at which the depth leaves 0 to 16, walking from depth d. -/
def depthBad : List Nat → Nat → Int → Option Nat
  | [], _, _ => none
  | w :: ws, i, d => if d + gDepth w < 0 ∨ 16 < d + gDepth w then some i else depthBad ws (i + 1) (d + gDepth w)

/-- A skip whose range leaves the program or changes the depth. -/
def skipBad (ws : List Nat) (i : Nat) : Bool :=
  let w := ws.getD i 0
  let op := field w 31 24
  let n := field w 11 0
  decide (op = 0x20 ∨ op = 0x21) &&
    (decide (ws.length < i + 1 + n) || ((((ws.drop (i + 1)).take n).map gDepth).foldl (· + ·) 0 != 0))

/-- A timer number that appeared before. -/
def timerTwice (ws : List Nat) (i : Nat) : Bool :=
  let isT (w : Nat) : Bool := decide (field w 31 24 ∈ [0x18, 0x19, 0x1A])
  let w := ws.getD i 0
  isT w && (ws.take i).any (fun x => isT x && field x 11 0 == field w 11 0)

/-- The checks of the bit program: the offset of the first failing word (R194). -/
def bitProgramCheck (part : Bytes) : Option Nat :=
  let ws := (chunks 4 (part.length / 4) part).map leVal
  let n := ws.length
  let bad := ((List.range n).filter (fun i => !gWordOk (ws.getD i 0) || skipBad ws i || timerTwice ws i))
    ++ (depthBad ws 0 0).toList
    ++ (if (ws.map gDepth).foldl (· + ·) 0 = 0 then [] else [n - 1])
  (bad.min?).map (fun i => 4 * i)

/-- The select table: a source is a literal or a term (R189). -/
def selectCheck (part : Bytes) : Option Nat :=
  match firstFail (fun w => if 0x440 ≤ field w 10 0 then some () else none) (selWords part) 0 with
  | some (i, _) => some (2 * i)
  | none => none

/-- An entry of the splice map (R198). -/
structure SpliceEnt where
  en : Bool
  output : Bool
  clr : Bool
  segment : Nat
  len : Nat
  offset : Nat
  frameId : Nat
  seed : W16
  bit0 : Nat
  vbit : Nat
  timeout : Nat
  deriving DecidableEq, Repr

/-- Read an entry. -/
def spliceEnt (b : Bytes) : SpliceEnt :=
  let c := le b 0 4
  { en := bit c 31, output := bit c 30, clr := bit c 29, segment := field c 26 24, len := field c 19 16,
    offset := field c 10 0, frameId := le b 4 2, seed := w16 (le b 6 2), bit0 := le b 8 2, vbit := le b 10 2,
    timeout := le b 12 2 }

/-- The enabled entries of a map, with their numbers. -/
def spliceMap (part : Bytes) : List (Nat × SpliceEnt) :=
  (((chunks 16 256 part).map spliceEnt).mapIdx (fun i e => (i, e))).filter (fun x => x.2.en)

/-- Splice input bits an entry names. -/
def inBits (e : SpliceEnt) (b : Nat) : Bool := decide (e.bit0 ≤ b ∧ b < e.bit0 + 8 * e.len) || (e.vbit != 0xFFFF && e.vbit == b)

/-- Two entries clash: bytes of one frame, or input bits (R198). -/
def spliceClash (a b : SpliceEnt) : Bool :=
  (a.segment == b.segment && a.frameId == b.frameId && decide (a.offset < b.offset + b.len + 2 ∧ b.offset < a.offset + a.len + 2))
    || (!a.output && !b.output && (List.range 512).any (fun i => inBits a i && inBits b i))

/-- An output field that begins within 15 bytes before the end of an input field of its frame (R201). -/
def spliceOrderBad (i o : SpliceEnt) : Bool :=
  !i.output && o.output && i.segment == o.segment && i.frameId == o.frameId
    && decide (i.offset + i.len + 1 ≤ o.offset + 15 ∧ o.offset ≤ i.offset + i.len + 1)

/-- The checks of the splice map: status of the first that fails. -/
def spliceCheck (part : Bytes) : Option (Nat × Nat) :=
  let es := spliceMap part
  let pairs := es.flatMap (fun a => (es.filter (fun b => a.1 < b.1)).map (fun b => (a.2, b.2)))
  match es.find? (fun x => decide (x.2.len < 1 ∨ 8 < x.2.len ∨ (x.2.output = false ∧ x.2.timeout = 0))) with
  | some x => some (0x0310, 16 * x.1)
  | none =>
    if es.any (fun x => decide (512 < x.2.bit0 + 8 * x.2.len) || (!x.2.output && x.2.vbit != 0xFFFF && decide (512 ≤ x.2.vbit)))
        || pairs.any (fun x => spliceClash x.1 x.2) then some (0x0311, 0)
    else if pairs.any (fun x => spliceOrderBad x.1 x.2 || spliceOrderBad x.2 x.1) then some (0x0312, 0)
    else none

/-- Is the length one the part may have? -/
def gLength (part n : Nat) : Bool :=
  match part with
  | 0 => n == 17408
  | 1 => n == 1632
  | 2 => decide (4 ≤ n ∧ n ≤ 16384) && n % 4 == 0
  | 3 => n == 1312
  | _ => n == 4096

/-- Most bytes a part holds. -/
def gCap (part : Nat) : Nat :=
  match part with
  | 0 => 17408
  | 1 => 1632
  | 2 => 16384
  | 3 => 1312
  | _ => 4096

/-- The checks at LAST (R208). -/
def gLastCheck (part : Nat) (bytes : Bytes) (total crc : Nat) : Option (Nat × Nat) :=
  if bytes.length ≠ total ∨ gLength part bytes.length = false ∨ (crc32c bytes).toNat ≠ crc then some (0x0310, 0)
  else match part with
    | 1 => (selectCheck bytes).map (fun o => (0x0310, o))
    | 2 => (bitProgramCheck bytes).map (fun o => (0x0310, o))
    | 4 => spliceCheck bytes
    | _ => none

/-- Put a part into a bank. -/
def gSetPart (b : GBank) (i : Nat) (x : Part) : GBank :=
  match i with
  | 0 => { b with p0 := x }
  | 1 => { b with p1 := x }
  | 2 => { b with p2 := x }
  | 3 => { b with p3 := x }
  | _ => { b with p4 := x }

/-- GLINT.LOAD (R208, R211). -/
def hGlintLoad (m _p : Module) (c : Cmd) : QRes :=
  let bank := prmB c 0
  let part := prmB c 1
  let first := bit (prmB c 2) 0
  let last := bit (prmB c 2) 1
  let off := prm c 4 4
  if 1 < bank ∨ 4 < part then .refused 7 0
  else if m.glint.active = some bank then .refused 16 0
  else if gCap part < off + c.req.length then .refused 9 0
  else
    let bytes := chunkInto first off c.req (gPart (gBank m.glint bank) part).bytes
    match if last then gLastCheck part bytes (prm c 8 4) (prm c 12 4) else none with
    | some (st, d) => .refused st d
    | none => ok (gMod m (fun g =>
        let b := gSetPart (gBank g bank) part { bytes := bytes, sealed := last }
        if bank = 0 then { g with bank0 := b } else { g with bank1 := b }))

/-- A flag the bit program writes has its select disabled: the offset of the first word that breaks it (R194). -/
def flagWriteBad (b : GBank) : Option Nat :=
  let ws := (chunks 4 (b.p2.bytes.length / 4) b.p2.bytes).map leVal
  match firstFail (fun w =>
      let a := field w 23 12
      if field w 31 24 ∈ [0x08, 0x09, 0x0A, 0x0B] ∧ 0x100 ≤ a ∧ (selSource b.p1.bytes (a - 0x100 + 48)).isSome = true then some () else none) ws 0 with
  | some (i, _) => some (4 * i)
  | none => none

/-- Does an output field of a map lie over data-map bytes or DSTATUS of a drop's frame (R227)? `f` and `n` are a FRAME_ID and
the bytes of DATA that are named, by frame offset. -/
def overSplice (part : Bytes) (segment fid : Nat) (named : Nat → Bool) : Bool :=
  (spliceMap part).any (fun x => x.2.output && x.2.segment == segment && x.2.frameId == fid &&
    (List.range (x.2.len + 2)).any (fun k => named (x.2.offset + k)))

/-- Bits an encoding takes (R223). -/
def encBits (e : Nat) : Nat := if e = 1 then 1 else if e = 2 ∨ e = 4 then 32 else if e = 8 ∨ e = 9 then 16 else 64

/-- Is byte `k` of DATA named by the data map in a direction, DSTATUS of IN frames included? -/
def mapNames (d : DropCfg) (out : Bool) (k : Nat) : Bool :=
  (!out && d.kind == .ring && decide (k < 2)) || d.map.any (fun e => e.out == out &&
    (decide (8 * k < e.bit + encBits e.enc ∧ e.bit < 8 * k + 8)
      || (e.qbit != 0xFFFF && decide (8 * k < e.qbit + 2 ∧ e.qbit < 8 * k + 8))))

/-- Does a bank's map write over a configured ring drop's named bytes (R227)? -/
def spliceOverDrop (part : Bytes) (d : DropCfg) : Bool :=
  d.kind == .ring &&
    (overSplice part d.segment d.outFid.toNat (fun o => decide (36 ≤ o) && mapNames d true (o - 36))
      || overSplice part d.segment d.inFid.toNat (fun o => decide (36 ≤ o) && mapNames d false (o - 36)))

/-- GLINT.SWAP (R194, R209, R227). -/
def hGlintSwap (m _p : Module) (_c : Cmd) : QRes :=
  match gTarget m.glint with
  | none => .refused 0x0310 0
  | some b => match flagWriteBad (gBank m.glint b) with
    | some o => .refused 0x0310 o
    | none =>
      if m.field.drops.any (fun x => spliceOverDrop (gBank m.glint b).p4.bytes x.2) then .refused 0x0310 0
      else ok (gMod m (fun g => { g with swapOrdered := true }))

/-- Sealed parts of a bank, bits [4:0]. -/
def sealedBits (b : GBank) : Nat := natOfBits [b.p0.sealed, b.p1.sealed, b.p2.sealed, b.p3.sealed, b.p4.sealed]

/-- DIO selects on channels configured as DI (R190). -/
def deadSelects (m : Module) : Nat :=
  natOfBits (m.lio.dio.mapIdx (fun i o => selected m.glint i && (o.mode == 1 || o.mode == 2)))

/-- GLINT.STATUS (R211); before the first swap the active bank reads 0 as the engine has none (log entry 15). -/
def hGlintStatus (m _p : Module) (_c : Cmd) : QRes :=
  let g := m.glint
  okRsp (leBytes 1 (g.active.getD 0) ++ leBytes 1 (sealedBits g.bank0) ++ leBytes 1 (sealedBits g.bank1) ++ zeros 1
    ++ leBytes 2 (sweepLen g) ++ zeros 2 ++ leBytes 8 g.sweeps.toNat ++ leBytes 8 g.lastSwap.toNat
    ++ leBytes 4 g.fieldCrcBad ++ leBytes 4 g.fieldTimeout ++ leBytes 4 g.fcsBad ++ leBytes 4 g.stompSeen
    ++ leBytes 4 g.fieldShort ++ leBytes 4 (deadSelects m) ++ zeros 16) m

def execGlintLoad (sl : Slot) (c : Cmd) (s : State) : Res := quondi hGlintLoad .work .sys 0x0309 s sl c
def execGlintSwap (sl : Slot) (c : Cmd) (s : State) : Res := quondi hGlintSwap .work .sys 0x030A s sl c
def execGlintStatus (sl : Slot) (c : Cmd) (s : State) : Res := quondi hGlintStatus .query .any 0x030B s sl c

end Sys2Proof.Machine
end

