-- ==== Sys2Proof/Machine/Frames.lean ====
section
/-! DEFINITION. Machine/Frames.lean: the frames of the ring protocol (R213 to R216), the data map of a drop (R223) and the splice of
fields into frames (R196 to R200). -/

namespace Sys2Proof.Machine
open Sys2Proof Sys2Proof.Bits

/-! ### Ring frames -/

/-- Destination MAC of a segment (R213). -/
def ringDst (k : Nat) : Bytes := [0x03, 0x4E, 0x1F, 0x00, 0x00, BitVec.ofNat 8 k]
/-- Source MAC of a module (R213). -/
def moduleMac (sl : Slot) (k : Nat) : Bytes := [0x02, 0x4E, 0x1F, 0x00, BitVec.ofNat 8 (slotN sl), BitVec.ofNat 8 k]

/-- A frame of 60 bytes or fewer is padded with zeros to 60 bytes (R213). -/
def padFrame (b : Bytes) : Bytes := b ++ zeros (60 - b.length)

/-- FLAGS of a frame of a module: STALE and SLOT (R214). -/
def modFlags (sl : Slot) (stale : Bool) : Nat := 128 * b2n stale + 8 * slotN sl

/-- A v2 frame (R214). -/
def frameV2 (dst src : Bytes) (ety ty flags fid drop : Nat) (seq : W32) (time : W64) (data : Bytes) : Bytes :=
  padFrame (dst ++ src ++ beBytes 2 ety ++ beBytes 1 (0x20 + ty) ++ beBytes 1 flags ++ beBytes 2 fid ++ beBytes 2 drop
    ++ beBytes 4 seq.toNat ++ beBytes 8 time.toNat ++ beBytes 2 data.length ++ zeros 2 ++ data)

/-- A v1 frame (R215). -/
def frameV1 (dst src : Bytes) (ety ty flags drop : Nat) (seq : W32) (data : Bytes) : Bytes :=
  padFrame (dst ++ src ++ beBytes 2 ety ++ beBytes 1 (0x10 + ty) ++ beBytes 1 flags ++ beBytes 2 drop
    ++ beBytes 4 seq.toNat ++ beBytes 2 data.length ++ data)

/-- A frame of a module in a version. -/
def moduleFrame (m : Module) (seg version ety ty : Nat) (stale : Bool) (fid drop : Nat) (seq : W32) (time : W64) (data : Bytes) : Bytes :=
  if version = 1 then frameV1 (ringDst seg) (moduleMac m.slot seg) ety ty (modFlags m.slot stale) drop seq data
  else frameV2 (ringDst seg) (moduleMac m.slot seg) ety ty (modFlags m.slot stale) fid drop seq time data

/-- A received frame by its fields. -/
structure RFrame where
  dst : Bytes
  src : Bytes
  ety : Nat
  ver : Nat
  ty : Nat
  flags : Nat
  fid : Nat
  drop : Nat
  seq : W32
  time : W64
  len : Nat
  data : Bytes
  deriving DecidableEq, Repr

/-- Read the fields of a frame. LEN fits when the data are all there. -/
def parseFrame (b : Bytes) : RFrame :=
  let ver := be b 14 1 / 16
  let v1 : Bool := ver == 1
  { dst := b.take 6, src := (b.drop 6).take 6, ety := be b 12 2, ver := ver, ty := be b 14 1 % 16, flags := be b 15 1,
    fid := if v1 then 0 else be b 16 2, drop := (if v1 then be b 16 2 else be b 18 2) % 4096,
    seq := w32 (if v1 then be b 18 4 else be b 20 4), time := if v1 then 0 else w64 (be b 24 8),
    len := if v1 then be b 22 2 else be b 32 2,
    data := (b.drop (if v1 then 24 else 36)).take (if v1 then be b 22 2 else be b 32 2) }

/-- LEN fits the frame and the limit of its version. -/
def lenFits (f : RFrame) : Bool := f.data.length == f.len && decide (f.len ≤ if f.ver = 1 then 1490 else 1478)

/-- A station address as a number. -/
def macNat (b : Bytes) : Nat := beVal b

/-! ### The data map (R223, R248, R251) -/

/-- DATA as one big-endian number has bit b of the map at this power of two. -/
def putField (len bitOff width v : Nat) : Nat := (v % 2 ^ width) * 2 ^ (8 * len - bitOff - width)

/-- The field of a map entry in DATA. -/
def getField (data : Bytes) (bitOff width : Nat) : Nat := beVal data / 2 ^ (8 * data.length - bitOff - width) % 2 ^ width

/-- The type an encoding binds (R223). -/
def encType (e : Nat) : Option LType := if e = 8 ∨ e = 9 then some .int32 else typeOfCode e

/-- The bits of a presented value under an encoding; beyond 16 bits it is saturated (R223). -/
def encVal (e : Nat) (v : W64) : Nat :=
  if e = 8 then (max 0 (min 65535 (iVal .int32 v))).toNat
  else if e = 9 then unsigned 16 (max (-32768) (min 32767 (iVal .int32 v)))
  else v.toNat % 2 ^ encBits e

/-- The value of received bits under an encoding. -/
def decVal (e n : Nat) : W64 := if e = 9 then iWord .int32 (signed 16 n) else w64 n

/-- The map entry of a channel in a direction. -/
def mapEnt (d : DropCfg) (ch : Nat) (out : Bool) : Option MapEnt := d.map.find? (fun e => e.channel == ch && e.out == out)

/-- Bytes of DATA that part p of an OUT frame of a bus carries: stride 58 in FD frames, 2 in classical ones (R251). -/
def partStride (d : DropCfg) : Nat := if d.fd then 58 else 2

/-- DATA of a drop from values by output channel: unnamed bits are 0 (R223). -/
def packData (d : DropCfg) (vals : List (Nat × W64)) : Bytes :=
  beBytes d.outLen ((vals.map (fun x => match mapEnt d x.1 true with
    | some e => putField d.outLen e.bit (encBits e.enc) (encVal e.enc x.2)
    | none => 0)).sum)

/-- The values a drop's bound output points present (R102, R136). -/
def boundOuts (m : Module) (d : DropCfg) : List (Nat × W64) :=
  d.binds.filterMap (fun b => if b.out then (live m b.handle).map (fun r => (b.channel, presented r)) else none)

/-- The input bytes as the map counts them: DATA on a ring, the bytes after the header elsewhere. The first two bytes of what
is held show INPUT_FAULT and INPUTS_STALE. -/
def mapInput (d : DropCfg) (data : Bytes) : Bytes := if d.kind = .ring then data else data.drop 2

/-- An input channel: value and CLASS of its quality field, or 0b11 (R223). -/
def unpackInput (d : DropCfg) (data : Bytes) (e : MapEnt) : W64 × Nat :=
  let b := mapInput d data
  let q := if e.qbit = 0xFFFF then 3 else getField b e.qbit 2
  (decVal e.enc (getField b e.bit (encBits e.enc)), if q = 2 then 0 else q)

/-- INPUT_FAULT and INPUTS_STALE of an input frame (R216). -/
def inFault (data : Bytes) : Bool := bit (byteAt data 0) 7
def inStale (data : Bytes) : Bool := bit (byteAt data 0) 6

/-- Bytes of a HALO PDU in an input frame of a drop (R225, R346). -/
def haloNames (m : Module) (drop k : Nat) : Bool :=
  match m.halo.active with
  | none => false
  | some b => (List.range (setConns b)).any (fun i =>
      let r := (b.drop (0x20 + 32 * i)).take 32
      le r 4 2 == drop && byteAt r 6 == 0 && decide (le r 8 2 ≤ k ∧ k < le r 8 2 + 8 + byteAt r 7))

/-- The content an input agreement compares: on a ring, DATA with every byte 0 that neither the data map, DSTATUS nor a HALO
PDU names (R225, R346). -/
def contentOf (m : Module) (drop : Nat) (d : DropCfg) (data : Bytes) : Bytes :=
  if d.kind = .ring then data.mapIdx (fun k b => if mapNames d false k || haloNames m drop k then b else 0) else data

/-! ### Splice (R197 to R200) -/

/-- The entries of the active bank that match a frame. -/
def spliceMatch (m : Module) (seg : Nat) (f : RFrame) (output : Bool) : List SpliceEnt :=
  if f.ver = 2 ∧ f.fid ≠ 0 ∧ m.boot.state ≠ .splitOff ∧ glintRuns m = true then
    ((spliceMap (activePart m.glint 4)).map (·.2)).filter (fun e => e.output == output && e.segment == seg && e.frameId == f.fid)
  else []

/-- Bits of data, the most significant bit of the first byte first (R197). -/
def msbBits (b : Bytes) : List Bool := b.flatMap (fun x => (List.range 8).map (fun i => x.getMsbD i))

/-- An input field at the tap: a good verdict writes its literals and VBIT; a bad one and a short frame are counted (R199). -/
def spliceIn (g : Glint) (b : Bytes) (e : SpliceEnt) : Glint :=
  if b.length < e.offset + e.len + 2 then { g with fieldShort := inc32 g.fieldShort }
  else
    let d := (b.drop e.offset).take e.len
    if (crc16 e.seed d).toNat = be b (e.offset + e.len) 2 then
      let l := (msbBits d).mapIdx (fun i x => (0x200 + e.bit0 + i, x))
      let l1 := l.foldl (fun a x => litSet a x.1 x.2) g.lits
      { g with lits := if e.vbit = 0xFFFF then l1 else litSet l1 (0x200 + e.vbit) true }
    else { g with fieldCrcBad := inc32 g.fieldCrcBad }

/-- An output field at the insertion stage: the splice output bits as they stand and the CRC-16 over them (R200). -/
def spliceOutField (g : Glint) (b : Bytes) (e : SpliceEnt) : Bytes :=
  if b.length < e.offset + e.len + 2 then b
  else
    let d := beBytes e.len (((List.range (8 * e.len)).map (fun i => b2n (g.spliceOut.getLsbD (e.bit0 + i)) * 2 ^ (8 * e.len - 1 - i))).sum)
    overwrite b e.offset (d ++ beBytes 2 (crc16 e.seed d).toNat)

/-- A frame as it leaves the insertion stage; a short one skips its field and is counted. -/
def insertFields (m : Module) (seg : Nat) (b : Bytes) : Bytes × Nat :=
  let es := spliceMatch m seg (parseFrame b) true
  (es.foldl (spliceOutField m.glint) b, (es.filter (fun e => decide (b.length < e.offset + e.len + 2))).length)

/-- Launch a frame of this module on lane 2k + 1; its output fields are written at the insertion stage (R196). -/
def launchRing (m : Module) (seg : Nat) (b : Bytes) : Module :=
  let x := insertFields m seg b
  emit (gMod m (fun g => { g with fieldShort := sat32 (g.fieldShort + x.2) })) (.ring seg { bytes := x.1 })

end Sys2Proof.Machine
end

