-- ==== Sys2Proof/Machine/Segments.lean ====
section
/-! DEFINITION. Machine/Segments.lean: segments and configured drops: attainable cycles (R242, R254, R261), the checks of a schedule
(R252 to R254) and the SEGMENT and DROP commands (R136, R137, R230, R243 to R248, R268). -/

namespace Sys2Proof.Machine
open Sys2Proof Sys2Proof.Bits

/-- The configured drop of an ID. -/
def dropOf (m : Module) (id : Nat) : Option DropCfg := tget m.field.drops id
/-- Change a drop. -/
def dropMod (m : Module) (id : Nat) (f : DropCfg → DropCfg) : Module :=
  { m with field := { m.field with drops := tmod m.field.drops id f } }
/-- Change a ring, a bus, a line. -/
def ringMod (m : Module) (k : Nat) (f : Ring → Ring) : Module := { m with field := { m.field with rings := modNth m.field.rings k f } }
def busMod (m : Module) (k : Nat) (f : Bus → Bus) : Module := { m with field := { m.field with buses := modNth m.field.buses k f } }
def lineMod (m : Module) (k : Nat) (f : Line → Line) : Module := { m with field := { m.field with lines := modNth m.field.lines k f } }

/-- Kind, segment and station of a drop ID of gen-0 or gen-1 (R27). -/
def legacyPlace (id : Nat) : SegKind × Nat × Nat :=
  if id < 0x80 then (.line, id / 32, id % 32) else (.bus, (id - 0x80) / 64, (id - 0x80) % 64)

/-- Drops of a segment, with their IDs, in ascending ID. -/
def dropsOn (m : Module) (kind : SegKind) (seg : Nat) : List (Nat × DropCfg) :=
  m.field.drops.filter (fun x => x.2.kind == kind && x.2.segment == seg)

/-- SOURCE index of a segment (R312): 0 to 7 rings, 8 to 11 buses, 12 to 15 lines. -/
def segIndex (kind : SegKind) (seg : Nat) : Nat :=
  match kind with
  | .ring => seg
  | .bus => 8 + seg
  | .line => 12 + seg

/-- A module sends on rings, buses and lines only in RUN (R28). -/
def sends (m : Module) : Bool := inRun m

/-- A warm shadow. -/
def warmShadow (m : Module) : Bool := m.pair.role == .shadow && m.pair.mode == .warm

/-! ### Attainable cycles -/

/-- Version that the length of a drop's frames follows: the one in use, else the ceiling. -/
def lenVersion (d : DropCfg) : Nat := if d.version = 0 then d.ceiling else d.version

/-- w(D) of R242. -/
def wireBytes (version n : Nat) : Nat := if version = 1 then max n 32 + 48 else max n 24 + 60

/-- n ÷ k rounded up. -/
def ceilDiv (n k : Nat) : Nat := (n + k - 1) / k

/-- T_seg of a ring in µs from its settings and drops (R242): computed in 1/90 ns and rounded up. -/
def ringTseg (rate delta dApply length : Nat) (ds : List DropCfg) : Nat :=
  if rate = 0 then 0
  else
    let tb10 := if rate = 1 then 32 else 80
    let w := (ds.map (fun d => 2 * wireBytes (lenVersion d) d.outLen + 2 * wireBytes (lenVersion d) d.inLen)).sum
    ceilDiv (90000 * (delta + dApply + 4) + 10 * w * tb10 + 9 * (64 * ds.length + 50) * tb10 + 900 * length) 90000

/-- Length of a row: its slots up to the first of length 0 (R252). -/
def rowSlots (row : List BusSlot) : List BusSlot := row.takeWhile (fun s => s.len != 0)
def rowLen (row : List BusSlot) : Nat := ((rowSlots row).map (fun s => s.len)).sum

/-- T_seg of a bus (R254). -/
def busTseg (b : Bus) : Nat := if b.nominal = 0 then 0 else b.delta + (b.rows.map rowLen).foldl max 0 + 4

/-- Line rates in units of 0.5 kbit/s (R259). -/
def lineRate2 (rate : Nat) : Nat := ([375, 375, 750, 1000, 1500, 2000, 3000] : List Nat).getD rate 375

/-- Duration of a slot of a line in µs, rounded up (R261). -/
def lineSlotUs (l : Line) (cq cr : Nat) : Nat :=
  ceilDiv (((cq + cr + 5) * (if l.bits11 then 11 else 10) + 20) * 2000) (lineRate2 l.rate)

/-- The longest slot of a drop: POLL or START and its REPLY (R260, R261). -/
def lineDropUs (l : Line) (d : DropCfg) : Nat := lineSlotUs l (max (8 + d.outLen) 9) (9 + d.inLen)

/-- T_seg of a line with every configured drop polled (R261). -/
def lineTseg (l : Line) (ds : List DropCfg) : Nat :=
  if l.rate = 0 then 0
  else l.delta + (ds.map (lineDropUs l)).sum + l.k * lineSlotUs l 72 6 + lineSlotUs l 5 13 + 4

/-- T_seg of a segment. -/
def tSeg (m : Module) (kind : SegKind) (seg : Nat) : Nat :=
  let ds := (dropsOn m kind seg).map (·.2)
  match kind with
  | .ring => (match m.field.rings[seg]? with | some r => ringTseg r.rate r.delta r.dApply r.length ds | none => 0)
  | .bus => (match m.field.buses[seg]? with | some b => busTseg b | none => 0)
  | .line => (match m.field.lines[seg]? with | some l => lineTseg l ds | none => 0)

/-- The tasks bound, or about to be bound, to drops of a segment. -/
def boundTasks (m : Module) (kind : SegKind) (seg : Nat) : List Nat :=
  (dropsOn m kind seg).flatMap (fun x => x.2.task.toList ++ (match x.2.bindNext with | some (some t, _) => [t] | _ => []))

/-- Some task bound to a drop of the segment is RUNNING, STOPPED or FAULTED (R243). -/
def segBusy (m : Module) (kind : SegKind) (seg : Nat) : Bool :=
  (boundTasks m kind seg).any (fun t => match taskOf m t with
    | some k => decide (k.st = .running ∨ k.st = .stopped ∨ k.st = .faulted)
    | none => false)

/-- T_seg exceeds the period of a task bound to a drop of the segment. -/
def tooFast (m : Module) (kind : SegKind) (seg : Nat) : Bool :=
  (boundTasks m kind seg).any (fun t => match taskOf m t with
    | some k => decide (k.period < tSeg m kind seg)
    | none => false)

/-! ### The bus schedule (R252 to R254) -/

/-- Nominal and data-phase rates in kbit/s. -/
def nominalKbit (n : Nat) : Nat := ([250, 250, 500, 1000] : List Nat).getD n 1000
def dataKbit (n : Nat) : Nat := ([1000, 1000, 2000, 4000, 5000] : List Nat).getD n 1000

/-- The smallest FD length that holds n bytes (R251). -/
def fdLen (n : Nat) : Nat := (([0, 1, 2, 3, 4, 5, 6, 7, 8, 12, 16, 20, 24, 32, 48, 64] : List Nat).find? (fun x => decide (n ≤ x))).getD 64

/-- Worst-case duration of a frame in ns (R253). -/
def frameNs (b : Bus) (fd : Bool) (n : Nat) : Nat :=
  if fd then
    let k := fdLen n
    34 * 1000000 / nominalKbit b.nominal + ceilDiv ((6 + 10 * k + (if k ≤ 16 then 27 else 32)) * 1000000) (dataKbit b.dataRate)
  else (47 + 8 * n + (33 + 8 * n) / 4) * 1000000 / nominalKbit b.nominal

/-- Every drop of the bus uses FD. -/
def allFd (m : Module) (bus : Nat) : Bool := (dropsOn m .bus bus).all (fun x => x.2.fd)

/-- The configured drop of a node. -/
def nodeDrop (m : Module) (bus node : Nat) : Option DropCfg :=
  match dropOf m (0x80 + 64 * bus + node) with
  | some d => some d
  | none => none

/-- Output bytes of one part. -/
def perPart (d : DropCfg) : Nat := d.outLen - partStride d * (d.parts - 1)

/-- The largest ACY frame the bus allows: 4 + 60 bytes FD, 4 + 4 classical. -/
def busAcyNs (m : Module) (b : Bus) (bus : Nat) : Nat :=
  if (dropsOn m .bus bus).any (fun x => x.2.fd) then frameNs b true 64 else frameNs b false 8

/-- Duration of the largest frame a slot may carry, in ns; entries of nodes without a drop stay silent. -/
def slotNs (m : Module) (b : Bus) (bus : Nat) (s : BusSlot) : Nat :=
  match s.kind with
  | 1 => frameNs b (allFd m bus && b.dataRate != 0) 8
  | 2 | 3 => (match nodeDrop m bus s.node with | some d => frameNs b d.fd (6 + perPart d) | none => 0)
  | 4 => (match nodeDrop m bus s.node with | some d => frameNs b d.fd (6 + d.inLen) | none => 0)
  | 5 | 6 => busAcyNs m b bus
  | 7 => frameNs b (allFd m bus && b.dataRate != 0) 8
  | _ => 0

/-- Offsets of the slots of a row, in µs from the row start. -/
def slotOffsets : Nat → List BusSlot → List (Nat × BusSlot)
  | _, [] => []
  | o, s :: ss => (o, s) :: slotOffsets (o + s.len) ss

/-- IN offset of a node in a row. -/
def inOffset (row : List BusSlot) (node : Nat) : List Nat :=
  ((slotOffsets 0 (rowSlots row)).filter (fun x => x.2.kind == 4 && x.2.node == node)).map (·.1)

/-- A bound drop has its slots in every used row: OUT_A and OUT_B of each part, one IN slot, at one offset (R254). -/
def dropSlotsOk (rows : List (List BusSlot)) (node parts : Nat) : Bool :=
  rows.all (fun r => let ss := rowSlots r
    (List.range parts).all (fun p => ss.any (fun s => s.kind == 2 && s.node == node && s.part == p)
      && ss.any (fun s => s.kind == 3 && s.node == node && s.part == p))
    && (inOffset r node).length == 1)
  && ((rows.map (inOffset · node)).eraseDups.length ≤ 1 : Bool)

/-- The rules of R254 for a bus as it stands. Without rows nothing is scheduled and only bound drops are missing. -/
def scheduleOk (m : Module) (bus : Nat) : Bool :=
  match m.field.buses[bus]? with
  | none => false
  | some b =>
    b.rows.all (fun r => let ss := rowSlots r
      (match ss.head? with | some s => s.kind == 1 | none => false)
      && ss.all (fun s => decide (slotNs m b bus s + 2000 ≤ 1000 * s.len))
      && decide (rowLen r ≤ 65535))
    && (dropsOn m .bus bus).all (fun x =>
      (x.2.task.isNone && (match x.2.bindNext with | some (some _, _) => false | _ => true))
        || (!b.rows.isEmpty && dropSlotsOk b.rows x.2.position x.2.parts))

/-! ### SEGMENT.CONFIG, SEGMENT.SCHEDULE -/

/-- A configuration applied if the segment is not busy and no bound task is too fast (R243). -/
def configSeg (m : Module) (kind : SegKind) (seg : Nat) (m' : Module) : QRes :=
  if segBusy m kind seg then .refused 0x0401 0
  else if tooFast m' kind seg then .refused 0x0482 0
  else ok m'

/-- EtherTypes that a ring may not use (R243). -/
def etherBad (e : Nat) : Bool := decide (e < 0x0600 ∨ e ∈ [0x0800, 0x0806, 0x8100, 0x86DD, 0x88F7])

/-- SEGMENT.CONFIG (R243, R268). -/
def hSegmentConfig (m _p : Module) (c : Cmd) : QRes :=
  let seg := prmB c 1
  match prmB c 0 with
  | 0 =>
    if 7 < seg ∨ 2 < prmB c 2 ∨ etherBad (prm c 4 2) = true ∨ prm c 6 2 < 2 ∨ 50 < prm c 6 2 ∨ 100000 < prm c 8 4
        ∨ 100000 < prm c 12 4 then .refused 7 0
    else configSeg m .ring seg (ringMod m seg (fun r =>
      { r with rate := prmB c 2, etherType := prm c 4 2, delta := prm c 6 2, dApply := prm c 8 4, length := prm c 12 4 }))
  | 1 =>
    if 3 < seg ∨ 3 < prmB c 2 ∨ 4 < prmB c 3 ∨ prmB c 4 < 50 ∨ 90 < prmB c 4 ∨ prmB c 5 < 50 ∨ 90 < prmB c 5
        ∨ prm c 6 2 < 2 ∨ 1000 < prm c 6 2 then .refused 7 0
    else configSeg m .bus seg (busMod m seg (fun b =>
      { b with nominal := prmB c 2, dataRate := prmB c 3, samplePt := prmB c 4, dataSamplePt := prmB c 5, delta := prm c 6 2 }))
  | 2 =>
    if 3 < seg ∨ 6 < prmB c 2 ∨ 1 < prmB c 3 ∨ prm c 4 2 < 2 ∨ 1000 < prm c 4 2 ∨ 4 < prmB c 6 then .refused 7 0
    else configSeg m .line seg (lineMod m seg (fun l =>
      { l with rate := prmB c 2, bits11 := prmB c 3 == 1, delta := prm c 4 2, k := prmB c 6 }))
  | _ => .refused 7 0

/-- A slot entry (R252). -/
def busSlot (w : Nat) : BusSlot := { kind := field w 31 28, part := field w 27 26, node := field w 25 20, len := field w 9 0 }

/-- Entries of a row are usable: KIND below 8, lengths 10 to 1,000, and 0 to the end after the first 0. -/
def rowForm (row : List BusSlot) : Bool :=
  (rowSlots row).all (fun s => decide (s.kind < 8 ∧ 10 ≤ s.len ∧ s.len ≤ 1000))
    && (row.drop (rowSlots row).length).all (fun s => s.len == 0 && s.kind == 0 && s.node == 0 && s.part == 0)

/-- SEGMENT.SCHEDULE (R252, R254, R268). -/
def hSegmentSchedule (m _p : Module) (c : Cmd) : QRes :=
  let bus := prmB c 0
  let n := prmB c 1
  if 3 < bus ∨ n ∉ [1, 2, 4, 8, 16] then .refused 7 0
  else if segBusy m .bus bus then .refused 0x0401 0
  else
    let rows := (chunks 256 n c.req).map (fun r => (chunks 4 64 r).map (fun b => busSlot (leVal b)))
    let m' := busMod m bus (fun b => { b with rows := rows, nextRow := 0 })
    if rows.all rowForm && scheduleOk m' bus then
      (if tooFast m' .bus bus then .refused 0x0482 0 else ok m')
    else .refused 0x0409 0

/-! ### DROP.ADD, DROP.REMOVE -/

/-- Channels of a generation (R248). -/
def channelLimit (kind : SegKind) : Nat :=
  match kind with
  | .line => 64
  | .bus => 256
  | .ring => 1024

/-- A map descriptor (R243). -/
def mapDesc (b : Bytes) : MapEnt :=
  { channel := le b 0 2 % 1024, out := bit (le b 0 2) 15, enc := byteAt b 2, bit := le b 4 2, qbit := le b 6 2 }

/-- Bit ranges an entry takes. -/
def entRanges (e : MapEnt) : List (Nat × Nat) := (e.bit, encBits e.enc) :: (if e.qbit = 0xFFFF then [] else [(e.qbit, 2)])

/-- A bit range lies within DATA; on a bus within the bytes some OUT part carries. -/
def rangeIn (d : DropCfg) (out : Bool) (r : Nat × Nat) : Bool :=
  let len := if out then d.outLen else d.inLen
  decide (r.1 + r.2 ≤ 8 * len)
    && (d.kind != .bus || !out || (List.range ((r.1 + r.2 + 7) / 8 - r.1 / 8)).all (fun k => decide ((r.1 / 8 + k) % partStride d < perPart d)))
    && (d.kind != .ring || out || decide (16 ≤ r.1))

/-- Does an entry break the rules of the map (R223, R247)? -/
def mapBad (d : DropCfg) (before : List MapEnt) (e : MapEnt) : Bool :=
  (e.enc == 0 || e.enc == 7 || decide (9 < e.enc))
    || decide (channelLimit d.kind ≤ e.channel)
    || (e.enc != 1 && e.bit % 8 != 0)
    || (e.out && e.qbit != 0xFFFF)
    || (entRanges e).any (fun r => !rangeIn d e.out r)
    || before.any (fun x => x.out == e.out && (x.channel == e.channel
        || (entRanges x).any (fun r => (entRanges e).any (fun t => rangesMeet r.1 r.2 t.1 t.2))))
    || (match entRanges e with | [a, b] => rangesMeet a.1 a.2 b.1 b.2 | _ => false)

/-- The first bad entry of a map. -/
def mapFirstBad (d : DropCfg) : List MapEnt → List MapEnt → Nat → Option Nat
  | _, [], _ => none
  | done, e :: es, i => if mapBad d done e then some i else mapFirstBad d (done ++ [e]) es (i + 1)

/-- The data map carried by request data: COUNT, then descriptors; `none` where the length does not fit COUNT (R423). -/
def reqMap (req : Bytes) : Option (List MapEnt) :=
  let n := le req 0 4
  if req.length < 4 ∨ req.length ≠ 4 + 8 * n then none else some ((chunks 8 n (req.drop 4)).map mapDesc)

/-- The splice output fields of either Glint bank lie clear of the drop's bytes (R227). -/
def spliceClear (m : Module) (d : DropCfg) : Bool :=
  !spliceOverDrop m.glint.bank0.p4.bytes d && !spliceOverDrop m.glint.bank1.p4.bytes d

/-- Enter a new drop, after the checks of its place. -/
def addDrop (m : Module) (id : Nat) (d : DropCfg) : QRes :=
  match mapFirstBad d [] d.map 0 with
  | some i => .refused 0x0407 i
  | none =>
    if !spliceClear m d then .refused 0x0407 0
    else
      let mine := (m.field.acyWaiting.filter (fun x => x.1 == id)).map (·.2)
      let next := mine.foldl (fun a x => if newer32 (x.seq + 1) a then x.seq + 1 else a) d.acyNext
      let m' := { m with field := { m.field with
        drops := tset m.field.drops id { d with acyPending := mine, acyNext := next }
        acyWaiting := m.field.acyWaiting.filter (fun x => x.1 != id) } }
      if d.kind == .bus && !scheduleOk m' d.segment then .refused 0x0409 0
      else if tooFast m' d.kind d.segment then .refused 0x0482 0
      else ok m'

/-- DROP.ADD on a ring (R243). -/
def addRing (m : Module) (c : Cmd) (id : Nat) : QRes :=
  let seg := prmB c 2
  let pos := prm c 4 2
  if 7 < seg ∨ prmB c 3 < 1 ∨ 2 < prmB c 3 ∨ pos < 1 ∨ 464 < pos ∨ 1478 < prm c 6 2 ∨ prm c 8 2 < 2 ∨ 1478 < prm c 8 2
      ∨ prmB c 14 = 0 ∨ prm c 16 4 < 100 ∨ 60000000 < prm c 16 4 then .refused 7 0
  else match reqMap c.req with
    | none => .refused 7 0
    | some es =>
      if thas m.field.drops id then .refused 0x0404 0
      else if 464 ≤ (dropsOn m .ring seg).length then .refused 0x0403 0
      else if (dropsOn m .ring seg).any (fun x => x.2.position == pos) then .refused 0x0405 0
      else addDrop m id
        { kind := .ring, segment := seg, position := pos, ceiling := prmB c 3, outLen := prm c 6 2, inLen := prm c 8 2,
          outFid := w16 (prm c 10 2), inFid := w16 (prm c 12 2), wIn := prmB c 14, watchdog := prm c 16 4, map := es }

/-- DROP.ADD on a bus or line (R268). -/
def addLegacy (m : Module) (c : Cmd) (id : Nat) : QRes :=
  let pl := legacyPlace id
  let fd := bit (prmB c 2) 0 && pl.1 == .bus
  let parts := prmB c 3
  let outB := prm c 4 2
  let inB := prm c 6 2
  let maxOut := if pl.1 = .line then 237 else if fd then 58 else 2
  let maxIn := if pl.1 = .line then 236 else if fd then 58 else 2
  if parts < 1 ∨ 4 < parts ∨ (pl.1 = .line ∧ parts ≠ 1) ∨ prmB c 8 = 0 ∨ prm c 12 4 < 1000 ∨ 60000000 < prm c 12 4 then .refused 7 0
  else match reqMap c.req with
    | none => .refused 7 0
    | some es =>
      if thas m.field.drops id then .refused 0x0404 0
      else if maxOut < outB ∨ maxIn < inB then .refused 0x0407 0
      else addDrop m id
        { kind := pl.1, segment := pl.2.1, position := pl.2.2, outLen := (if fd then 58 else 2) * (parts - 1) + outB, inLen := inB,
          wIn := prmB c 8, watchdog := prm c 12 4, fd := fd, parts := parts, map := es }

/-- DROP.ADD (R27, R243, R268). -/
def hDropAdd (m _p : Module) (c : Cmd) : QRes :=
  let id := prm c 0 2
  if 0xFFF < id then .refused 0x0402 0
  else if 0x180 ≤ id then addRing m c id
  else addLegacy m c id

/-- Is the drop bound, or about to be? -/
def dropBound (d : DropCfg) : Bool := d.task.isSome || (match d.bindNext with | some (some _, _) => true | _ => false)

/-- Response of DROP.SEND: the assigned SEQ (R232, R243). -/
def acyRsp (seq : W32) : Bytes := leBytes 4 seq.toNat ++ zeros 4

/-- Complete the DROP.SEND of a message, if it is still open. -/
def acyFinish (m : Module) (status : Nat) (a : AcyMsg) : Module :=
  match a.cmd with
  | none => m
  | some (qp, c) => finish m .work 0x0407 { c with qp := qp } 3 status 0 (acyRsp a.seq)

/-- DROP.REMOVE (R232, R243): pending messages are discarded and counted in a record. -/
def hDropRemove (m _p : Module) (c : Cmd) : QRes :=
  let id := prm c 0 2
  match dropOf m id with
  | none => .refused 8 0
  | some d =>
    if dropBound d then .refused 0x0408 0
    else
      let m1 := d.acyPending.foldl (fun a x => acyFinish a 0x8401 x) m
      let m2 := match d.acyPending with
        | [] => m1
        | a :: _ => logBoth m1 0x0406 4 id 0xFFFF (leBytes 2 d.acyPending.length ++ zeros 2 ++ leBytes 4 a.seq.toNat)
      ok { m2 with field := { m2.field with drops := tdel m2.field.drops id } }

/-! ### SEGMENT.BIND (R136, R137, R152) -/

/-- An element: handle and channel with direction. -/
def bindElem (c : Cmd) (i : Nat) : Bind :=
  { handle := w32 (le c.req (8 * i) 4), channel := le c.req (8 * i + 4) 2 % 1024, out := bit (le c.req (8 * i + 4) 2) 15 }

/-- The points a drop binds now or at the next boundary. -/
def dropInputs (d : DropCfg) : List W32 :=
  ((d.binds ++ (match d.bindNext with | some (_, b) => b | none => [])).filter (fun b => !b.out)).map (fun b => b.handle)

/-- The checks of one element; `before` are the elements before it. -/
def bindCheck (m : Module) (p : Nat) (d : DropCfg) (before : List Bind) (b : Bind) : Option Nat :=
  match live m b.handle with
  | none => some 8
  | some r =>
    if r.owner ≠ p then some 0x0481
    else match mapEnt d b.channel b.out with
      | none => some 7
      | some e =>
        if channelLimit d.kind ≤ b.channel ∨ encType e.enc ≠ r.ty then some 7
        else if before.any (fun x => (x.channel == b.channel && x.out == b.out) || (!x.out && !b.out && x.handle == b.handle)) then some 0x0481
        else if b.out then none
        else if r.input && !(dropInputs d).contains b.handle then some 0x0481
        else if tableWrites m b.handle then some 0x0481
        else none

/-- ATTR.OUTPUT of a point. -/
def setOutput (b : Bool) (m : Module) (h : W32) : Module :=
  match live m h with
  | some _ => pointMod m (hIdx h) (fun r => { r with output := b })
  | none => m

/-- Is the point an output of some drop or local channel? -/
def outputBound (m : Module) (h : W32) : Bool :=
  m.field.drops.any (fun x => x.2.binds.any (fun b => b.out && b.handle == h)
      || (match x.2.bindNext with | some (_, bs) => bs.any (fun b => b.out && b.handle == h) | none => false))
    || m.lio.binds.any (fun b => (b.kind == 1 || b.kind == 2) && b.valueH == h && (match live m h with | some r => r.output | none => false))

/-- Take over a binding: the marks INPUT and OUTPUT of the points follow it. -/
def applyBind (m : Module) (id : Nat) (t : Option Nat) (bs : List Bind) : Module :=
  match dropOf m id with
  | none => m
  | some d =>
    let m1 := (dropInputs d).foldl (setInput false) m
    let m2 := dropMod m1 id (fun d =>
      { d with task := t, binds := bs, bindNext := none, held := if t.isNone then none else d.held,
               agreed := if t.isNone then none else d.agreed })
    let m3 := (bs.filter (fun b => !b.out)).foldl (fun a b => setInput true a b.handle) m2
    (((d.binds ++ bs).filter (fun b => b.out)).map (fun b => b.handle)).foldl (fun a h => setOutput (outputBound a h) a h) m3

/-- Mark the points of a binding that waits for the boundary, so that no other binding takes them. -/
def reserveBind (m : Module) (id : Nat) (t : Option Nat) (bs : List Bind) : Module :=
  (bs.filter (fun b => !b.out)).foldl (fun a b => setInput true a b.handle) (dropMod m id (fun d => { d with bindNext := some (t, bs) }))

/-- A binding takes effect at the boundary of a running task, else at once (R137). -/
def enterBind (m : Module) (id : Nat) (old : Option Nat) (t : Option Nat) (bs : List Bind) : Module :=
  let running := [old, t].any (fun x => match x with
    | some k => (match taskOf m k with | some y => y.st == .running | none => false)
    | none => false)
  if running then reserveBind m id t bs else applyBind m id t bs

/-- Task of a drop as its last binding left it. -/
def boundTask (d : DropCfg) : Option Nat := match d.bindNext with | some (t, _) => t | none => d.task

/-- The checks of a binding as a whole: period and segment (R137, R248, R254). -/
def bindSegCheck (m : Module) (id t : Nat) (d : DropCfg) : Option Nat :=
  let m' := dropMod m id (fun d => { d with task := some t, bindNext := none })
  if d.kind != .ring && (boundTasks m' d.kind d.segment).any (fun x => x != t) then some 0x040A
  else if tooFast m' d.kind d.segment then some 0x0482
  else if d.kind == .bus && !scheduleOk m' d.segment then some 0x0409
  else none

/-- Element by element. -/
def bindElems (m : Module) (p : Nat) (d : DropCfg) : List Bind → List Bind → Nat → Option (Nat × Nat)
  | _, [], _ => none
  | done, b :: bs, i => match bindCheck m p d done b with
    | some e => some (e, i)
    | none => bindElems m p d (done ++ [b]) bs (i + 1)

/-- SEGMENT.BIND (R105, R136, R137). -/
def hSegmentBind (m _p : Module) (c : Cmd) : QRes :=
  let t := prm c 0 2
  let id := prm c 2 2
  let n := prm c 4 4
  let p := pid c
  if 1024 < n ∨ (t = 0xFFFF ∧ n ≠ 0) then .refused 7 0
  else if !hasCap m p 5 then .refused 10 0
  else match (if t = 0xFFFF then none else taskCheck m p t), dropOf m id with
    | some e, _ => .refused e 0
    | none, none => .refused 8 0
    | none, some d =>
      let foreign := match boundTask d with
        | some k => (match taskOf m k with | some y => y.part != p | none => false)
        | none => false
      if t = 0xFFFF then
        (if (boundTask d).isNone then ok m
         else if foreign then .refused 10 0
         else ok (enterBind m id d.task none []))
      else if (match boundTask d with | some k => k != t | none => false) then .refused 0x0481 0
      else
        let bs := (List.range n).map (bindElem c)
        match bindElems m p d [] bs 0 with
        | some (e, i) => .refused e i
        | none => match bindSegCheck m id t d with
          | some e => .refused e 0
          | none => ok (enterBind m id d.task (some t) bs)

/-! ### Acyclic messages -/

/-- An ACY frame of a ring drop in its version (R216). -/
def acyFrame (m : Module) (seg id : Nat) (d : DropCfg) (a : AcyMsg) : Bytes :=
  let ety := match m.field.rings[seg]? with | some r => r.etherType | none => 0x88B5
  moduleFrame m seg d.version ety 3 false d.outFid.toNat id a.seq 0 (beBytes 2 a.cls.toNat ++ zeros 2 ++ a.payload)

/-- A frame that the lead alone sends also goes over the sync link while the ring is open (R234). -/
def sendLeadOnly (m p : Module) (seg : Nat) (b : Bytes) : Module :=
  let m1 := launchRing m seg b
  match m.field.rings[seg]? with
  | some r => if !r.closed && linked m p && isLead m then emit m1 (.sync (.relayFrame seg { bytes := (insertFields m seg b).1 })) else m1
  | none => m1

/-- Transmit the ACY frames of a ring drop that lie in its window of 8: a lead and an in-step shadow do, a warm shadow does
not (R230). `all` sends again what was sent before. -/
def sendAcy (m p : Module) (id : Nat) (all : Bool) : Module :=
  match dropOf m id with
  | none => m
  | some d =>
    if d.kind != .ring || d.st != .online || !sends m || warmShadow m then m
    else
      let due := (d.acyPending.take 8).filter (fun a => all || !a.sent)
      let m1 := due.foldl (fun x a =>
        if m.pair.mode = .warm then sendLeadOnly x p d.segment (acyFrame m d.segment id d a)
        else launchRing x d.segment (acyFrame m d.segment id d a)) m
      dropMod m1 id (fun d => { d with acyPending := d.acyPending.mapIdx (fun i a => if i < 8 then { a with sent := true } else a) })

/-- Limit of an acyclic payload on a segment (R216, R251, R260). -/
def acyLimit (d : DropCfg) : Nat :=
  match d.kind with
  | .ring => 1400
  | .line => 64
  | .bus => if d.fd then 60 else 4

/-- DROP.SEND (R230, R232, R233, R266): it ends with the acknowledgement or with DELIVERY_PENDING. -/
def hDropSend (m p : Module) (c : Cmd) : QRes :=
  let id := prm c 0 2
  let cls := prm c 2 2
  let n := prm c 4 4
  if n < 1 ∨ 1400 < n ∨ 0xFF00 ≤ cls then .refused 7 0
  else if !hasCap m (pid c) 4 then .refused 10 0
  else
    let old := match journalFind m c.qp c.ticket with | some e => e.acySeq | none => none
    match dropOf m id, old with
    | none, some q => .done 0x8401 0 (acyRsp q) { m with field := { m.field with
        acyWaiting := m.field.acyWaiting ++ [(id, { seq := q, cls := w16 cls, payload := c.req, cmd := none })] } }
    | none, none => .refused 8 0
    | some d, _ =>
      if acyLimit d < n then .refused 7 0
      else if d.st ≠ .online ∧ old.isNone = true then .refused 0x0406 0
      else if 256 ≤ d.acyPending.length then .refused 9 0
      else
        let q := old.getD d.acyNext
        let msg : AcyMsg := { seq := q, cls := w16 cls, payload := c.req, cmd := some (c.qp, c) }
        let m1 := dropMod m id (fun d =>
          { d with acyPending := d.acyPending ++ [msg], acyNext := if old.isNone then d.acyNext + 1 else d.acyNext })
        .later (sendAcy (journalMod m1 c.qp c.ticket (fun e => { e with acySeq := some q })) p id false)

/-- `a` is at or below `b` in serial order. -/
def atOrBelow (a b : W32) : Bool := decide (dist32 b a < 0x80000000)

/-- An acknowledgement of a drop covers every message at or below it: they complete, and the next ones are sent (R230, R232). -/
def acyAcked (m p : Module) (id : Nat) (seq : W32) : Module :=
  match dropOf m id with
  | none => m
  | some d =>
    let done := d.acyPending.filter (fun a => atOrBelow a.seq seq)
    let m1 := dropMod m id (fun d =>
      { d with acyPending := d.acyPending.filter (fun a => !atOrBelow a.seq seq),
               acyAcked := if newer32 seq d.acyAcked then seq else d.acyAcked })
    sendAcy (done.foldl (fun x a => acyFinish x 0 a) m1) p id false

/-! ### Status -/

/-- Drop states of R244. -/
def dropStateCode : DropState → Nat
  | .absent => 1
  | .negotiating => 2
  | .online => 3
  | .offline => 4

/-- A DROP.STATUS element (R244, R268). -/
def dropStatusBytes (d : DropCfg) : Bytes :=
  leBytes 1 (dropStateCode d.st) ++ leBytes 1 (if d.kind = .ring then d.version else 0) ++ leBytes 1 d.segment ++ zeros 1
    ++ leBytes 2 d.position
    ++ (if d.kind = .ring then beBytes 6 d.mac else leBytes 1 (d.family.toNat % 256) ++ leBytes 1 (d.family.toNat / 256 % 256) ++ leBytes 2 d.channels ++ zeros 2)
    ++ leBytes 4 d.lastSeq.toNat ++ leBytes 4 (match d.agreed with | some h => h.key.toNat | none => 0)
    ++ leBytes 4 d.acyNext.toNat ++ leBytes 4 d.acyAcked.toNat ++ leBytes 2 d.acyPending.length ++ zeros 2
    ++ leBytes 4 (sat32 d.expiries) ++ leBytes 4 (sat32 d.duplicates) ++ leBytes 8 d.lastAgreedAt.toNat ++ zeros 16

/-- DROP.STATUS (R243, R244): a drop that is not configured reads 0. -/
def hDropStatus (m _p : Module) (c : Cmd) : QRes :=
  let n := prm c 0 4
  if n < 1 ∨ 4096 < n then .refused 7 0
  else okRsp (((List.range n).map (fun i => match dropOf m (le c.req (2 * i) 2) with
    | some d => dropStatusBytes d
    | none => zeros 64)).flatten) m

/-- Ring state (R245): 0 off, 1 closed, 2 open, 3 lanes down. -/
def ringState (r : Ring) : Nat :=
  if r.rate = 0 then 0 else if r.held then 3 else if r.closed then 1 else 2

/-- Wrapping drop toward A: of those reporting WRAP_DOWN the lowest position; toward B: of WRAP_UP the highest (R245). -/
def wrapA (m : Module) (k : Nat) : Nat :=
  (((dropsOn m .ring k).filter (fun x => x.2.wrapDown)).foldl
    (fun b x => match b with | none => some x | some y => if x.2.position < y.2.position then some x else b) none).map (·.1) |>.getD 0xFFFF
def wrapB (m : Module) (k : Nat) : Nat :=
  (((dropsOn m .ring k).filter (fun x => x.2.wrapUp)).foldl
    (fun b x => match b with | none => some x | some y => if y.2.position < x.2.position then some x else b) none).map (·.1) |>.getD 0xFFFF

/-- SEGMENT.STATUS of a ring (R245). -/
def ringStatusBytes (m : Module) (k : Nat) (r : Ring) : Bytes :=
  leBytes 1 (ringState r) ++ leBytes 1 (b2n r.rxUp + 2 * b2n r.txUp) ++ leBytes 2 (dropsOn m .ring k).length
    ++ leBytes 2 (wrapA m k) ++ leBytes 2 (wrapB m k) ++ leBytes 4 (tSeg m .ring k) ++ leBytes 4 r.badHeader
    ++ leBytes 4 r.unknownDrop ++ leBytes 4 r.launchLate ++ leBytes 4 r.dupDropId ++ leBytes 4 r.checkMissing
    ++ leBytes 4 r.changes ++ zeros 28

/-- SEGMENT.STATUS of a bus (R268). -/
def busStatusBytes (m : Module) (k : Nat) (b : Bus) : Bytes :=
  leBytes 1 (if b.nominal = 0 then 0 else if b.busOff then 3 else if b.cycling then 2 else 1) ++ leBytes 1 (min b.tec 255)
    ++ leBytes 2 (dropsOn m .bus k).length ++ leBytes 4 (tSeg m .bus k) ++ leBytes 4 b.arbLost ++ leBytes 4 b.bitError
    ++ leBytes 4 b.stuffForm ++ leBytes 4 b.ackError ++ leBytes 4 b.errorFrame ++ leBytes 4 b.notSent ++ leBytes 4 b.outMissed
    ++ leBytes 4 b.outDiff ++ leBytes 4 b.rowCut ++ zeros 12 ++ leBytes 4 b.foreign ++ zeros 4

/-- SEGMENT.STATUS of a line (R268). -/
def lineStatusBytes (m : Module) (k : Nat) (l : Line) : Bytes :=
  leBytes 1 (if l.rate = 0 then 0 else if l.slots.isEmpty && l.awaiting.isNone then 1 else 2) ++ zeros 1
    ++ leBytes 2 (dropsOn m .line k).length ++ leBytes 4 (tSeg m .line k) ++ zeros 32 ++ leBytes 4 l.rowCut
    ++ leBytes 4 l.takeover ++ leBytes 4 l.replyMissing ++ leBytes 4 l.lineError ++ zeros 8

/-- SEGMENT.STATUS (R243, R268). -/
def hSegmentStatus (m _p : Module) (c : Cmd) : QRes :=
  let k := prmB c 1
  match prmB c 0 with
  | 0 => (match m.field.rings[k]? with | some r => okRsp (ringStatusBytes m k r) m | none => .refused 7 0)
  | 1 => (match m.field.buses[k]? with | some b => okRsp (busStatusBytes m k b) m | none => .refused 7 0)
  | 2 => (match m.field.lines[k]? with | some l => okRsp (lineStatusBytes m k l) m | none => .refused 7 0)
  | _ => .refused 7 0

/-- Rate code of a lane (R246): ring lanes by their segment, the sync link 25.78125 Gb/s. -/
def laneRate (m : Module) (i : Nat) : Nat :=
  if 16 ≤ i then 3 else match m.field.rings[i / 2]? with | some r => r.rate | none => 0

/-- DIAG.LANES (R246). -/
def hDiagLanes (m _p : Module) (_c : Cmd) : QRes :=
  okRsp ((m.field.lanes.mapIdx (fun i l =>
    leBytes 1 (b2n l.up) ++ leBytes 1 (laneRate m i) ++ zeros 2 ++ leBytes 4 l.codeViolations ++ leBytes 4 l.blockErrors
      ++ leBytes 4 l.losses ++ leBytes 4 l.fcsErrors ++ leBytes 8 l.received ++ zeros 4)).flatten) m

def execSegmentConfig (sl : Slot) (c : Cmd) (s : State) : Res := quondi hSegmentConfig .work .sys 0x0401 s sl c
def execSegmentBind (sl : Slot) (c : Cmd) (s : State) : Res := quondi hSegmentBind .work .part 0x0402 s sl c
def execSegmentSchedule (sl : Slot) (c : Cmd) (s : State) : Res := quondi hSegmentSchedule .work .sys 0x0403 s sl c
def execSegmentStatus (sl : Slot) (c : Cmd) (s : State) : Res := quondi hSegmentStatus .query .any 0x0404 s sl c
def execDropAdd (sl : Slot) (c : Cmd) (s : State) : Res := quondi hDropAdd .work .sys 0x0405 s sl c
def execDropRemove (sl : Slot) (c : Cmd) (s : State) : Res := quondi hDropRemove .work .sys 0x0406 s sl c
def execDropSend (sl : Slot) (c : Cmd) (s : State) : Res := quondi hDropSend .work .part 0x0407 s sl c
def execDropStatus (sl : Slot) (c : Cmd) (s : State) : Res := quondi hDropStatus .query .any 0x0408 s sl c
def execDiagLanes (sl : Slot) (c : Cmd) (s : State) : Res := quondi hDiagLanes .query .any 0x0C04 s sl c

end Sys2Proof.Machine
end

