-- ==== Sys2Proof/Machine/Ring.lean ====
section
/-! DEFINITION. Machine/Ring.lean: what arrives on and leaves the ring segments at a module: forwarding and splice (R217, R196 to R202,
R422), take-up (R219, R225), sync frames (R235), version negotiation (R236, R237), ring state (R239, R240) and time (R241). -/

namespace Sys2Proof.Machine
open Sys2Proof Sys2Proof.Bits

/-- A ring of the module. -/
def ringOf (m : Module) (k : Nat) : Option Ring := m.field.rings[k]?

/-- The lanes of a segment run: the rate is on and they are not held without link (R28, R240). -/
def ringRuns (m : Module) (k : Nat) : Bool :=
  hasPower m && (match m.boot.state with | .ready | .run | .umbra => true | _ => false) &&
    match ringOf m k with
    | some r => r.rate != 0 && !r.held
    | none => false

/-- Change a lane. -/
def laneMod (m : Module) (i : Nat) (f : Lane → Lane) : Module := { m with field := { m.field with lanes := modNth m.field.lanes i f } }

/-! ### Forwarding (R217, R24, R202, R422) -/

/-- Is the frame one of the ring protocol on this segment? -/
def isRingFrame (r : Ring) (f : RFrame) : Bool := f.ety == r.etherType

/-- The PASS bit of a slot in FLAGS. -/
def passBit (sl : Slot) : Nat := match sl with | .a => 0x40 | .b => 0x20

/-- The module originated the frame: it carries its PASS bit or its source MAC (R217). -/
def ownFrame (m : Module) (k : Nat) (f : RFrame) : Bool := (f.flags &&& passBit m.slot != 0) || f.src == moduleMac m.slot k

/-- Set the PASS bit of a slot. -/
def setPass (sl : Slot) (b : Bytes) : Bytes := overwrite b 15 [BitVec.ofNat 8 (be b 15 1 ||| passBit sl)]

/-- Residence time in the forwarding pipeline, in ns: 25 port cycles (R196). -/
def residenceNs (r : Ring) : Nat := if r.rate = 1 then 80 else 200

/-- A PTP event message takes the residence time and the upstream link delay into correctionField, in units of 2^−16 ns
(R241). -/
def ptpCorrect (b : Bytes) (ns : Nat) : Bytes :=
  if be b 14 1 % 16 ≤ 1 then overwrite b 22 (beBytes 8 ((be b 22 8 + ns * 65536) % 2 ^ 64)) else b

/-- Pdelay messages are not forwarded (R241). -/
def isPdelay (b : Bytes) : Bool := decide (be b 14 1 % 16 ∈ [2, 3, 0xA])

/-- The FCS a forwarded frame leaves with: stomped where it came wrong (R202). -/
def fcsOut (f : Fcs) : Fcs := match f with | .good => .good | _ => .stomped

/-- Count the FCS of a forwarded frame (R202, R246). -/
def countFcs (m : Module) (k : Nat) (f : Fcs) : Module :=
  match f with
  | .good => m
  | .bad => laneMod (gMod m (fun g => { g with fcsBad := inc32 g.fcsBad })) (2 * k) (fun l => { l with fcsErrors := inc32 l.fcsErrors })
  | .stomped => laneMod (gMod m (fun g => { g with stompSeen := inc32 g.stompSeen })) (2 * k) (fun l => { l with fcsErrors := inc32 l.fcsErrors })

/-- A forwarded frame leaves, or waits behind the OUT frames of the step (R422). -/
def departRing (m : Module) (k : Nat) (f : Frame) : Module :=
  match ringOf m k with
  | none => m
  | some r =>
    if r.launching || !r.buffer.isEmpty then ringMod m k (fun r => { r with buffer := r.buffer ++ [f] })
    else emit m (.ring k f)

/-- A ring-protocol frame on its way through: input fields at the tap, PASS bit, output fields, FCS. -/
def passFrame (m : Module) (k : Nat) (f : Frame) : Module :=
  let m1 := gMod m (fun g => (spliceMatch m k (parseFrame f.bytes) false).foldl (fun a e => spliceIn a f.bytes e) g)
  let x := insertFields m1 k (setPass m.slot f.bytes)
  let m2 := gMod m1 (fun g => { g with fieldShort := sat32 (g.fieldShort + x.2) })
  departRing (countFcs m2 k f.fcs) k { bytes := x.1, fcs := fcsOut f.fcs }

/-- RING_FRAME_FORWARD. -/
def forwardRing (m : Module) (k : Nat) (f : Frame) : Module :=
  match ringOf m k with
  | none => m
  | some r =>
    if !ringRuns m k then m
    else
      let m := laneMod m (2 * k) (fun l => { l with received := l.received + 1 })
      let rf := parseFrame f.bytes
      if rf.ety = 0x88F7 then
        (if isPdelay f.bytes then m
         else
          let ns := residenceNs r + (match m.field.lanes[2 * k]? with | some l => l.delay | none => 0)
          departRing (countFcs m k f.fcs) k { bytes := ptpCorrect f.bytes ns, fcs := fcsOut f.fcs })
      else if !isRingFrame r rf then departRing (countFcs m k f.fcs) k { f with fcs := fcsOut f.fcs }
      else if rf.ty = 0 ∨ 9 ≤ rf.ty ∨ (rf.ver ≠ 1 ∧ rf.ver ≠ 2) then
        ringMod m k (fun r => { r with badHeader := inc32 r.badHeader })
      else if ownFrame m k rf then m
      else passFrame m k f

def execRingFrameForward (sl : Slot) (segment : Nat) (f : Frame) (s : State) : Res :=
  onMod s sl (fun m => forwardRing m segment f)

/-- Held frames follow the last OUT frame of the step in arrival order (R422). -/
def execHeldFrameRelease (sl : Slot) (segment : Nat) (s : State) : Res :=
  onMod s sl (fun m => match ringOf m segment with
    | none => m
    | some r => ringMod (emits m (r.buffer.map (fun f => .ring segment f))) segment (fun r => { r with launching := false, buffer := [] }))

/-- No good verdict for TIMEOUT µs (R199). -/
def execSpliceFieldTimeout (sl : Slot) (entry : Nat) (s : State) : Res :=
  onMod s sl (fun m => match (spliceMap (activePart m.glint 4)).find? (fun x => x.1 == entry && !x.2.output) with
    | none => m
    | some (_, e) =>
      if !glintRuns m then m
      else gMod m (fun g =>
        let l1 := if e.vbit = 0xFFFF then g.lits else litSet g.lits (0x200 + e.vbit) false
        { g with
          lits := if e.clr then litField l1 (0x200 + e.bit0) (8 * e.len) 0 else l1
          fieldTimeout := inc32 g.fieldTimeout }))

/-! ### Take-up (R219) -/

/-- Count a frame that fails a check. -/
def countBad (m : Module) (k : Nat) : Module := ringMod m k (fun r => { r with badHeader := inc32 r.badHeader })
def countUnknown (m : Module) (k : Nat) : Module := ringMod m k (fun r => { r with unknownDrop := inc32 r.unknownDrop })

/-- The checks of R219 on a frame from a drop; what passes goes on with the drop. -/
def takeUp (m : Module) (k : Nat) (ty : Nat) (f : Frame) (g : Nat → DropCfg → RFrame → Module) : Module :=
  let rf := parseFrame f.bytes
  if !ringRuns m k || f.fcs != .good || rf.ty != ty then m
  else if rf.ver ≠ 1 ∧ rf.ver ≠ 2 then countBad m k
  else match dropOf m rf.drop with
    | none => countUnknown m k
    | some d =>
      if d.kind != .ring || d.segment != k then countUnknown m k
      else if rf.ver ≠ d.version then countBad m k
      else if macNat rf.src ≠ d.mac then countUnknown m k
      else if !lenFits rf then countBad m k
      else g rf.drop d rf

/-- The first good copy of an input SEQ is held if it is newer; later copies are duplicates (R224, R225). -/
def holdInput (m : Module) (id : Nat) (d : DropCfg) (h : Held) : Module :=
  match d.held with
  | some o =>
    if newer32 h.key o.key then dropMod m id (fun d => { d with held := some h })
    else if h.key = o.key then dropMod m id (fun d => { d with duplicates := inc32 d.duplicates })
    else m
  | none => dropMod m id (fun d => { d with held := some h })

def execInFrameReceive (sl : Slot) (segment : Nat) (f : Frame) (s : State) : Res :=
  onMod s sl (fun m => takeUp m segment 2 f (fun id d rf => holdInput m id d { key := rf.seq, time := rf.time, data := rf.data }))

/-- An ACK: the lead completes; a shadow also passes it to the lead (R232). -/
def ackSeen (m p : Module) (id : Nat) (seq : W32) : Module :=
  let m1 := acyAcked m p id seq
  if !isLead m && linked m p then emit m1 (.sync (.acyAck id seq)) else m1

def execAcyAckReceive (sl : Slot) (segment : Nat) (f : Frame) (s : State) : Res :=
  onPair s sl (fun m p => takeUp m segment 4 f (fun id _ rf => ackSeen m p id rf.seq))

/-! ### Intercalation events (R140, R141, R235) -/

/-- The lead learns an event with candidate C for a task: C′ is the later of C and now + 1 µs, announced to the partner; it
counts after the wrap of a window as icalEvent says. -/
def icalLearn (m p : Module) (t : Nat) (c : W64) : Module :=
  let soon := now m + 1000
  let c' := if almGe c soon then c else soon
  let m1 := icalPlace m t c' (now m)
  if linked m p then emit m1 (.sync (.ical t c')) else m1

/-- An event of a drop for every task that names it as its source. -/
def icalDropEvent (m p : Module) (id : Nat) (te : W64) : Module :=
  if !isLead m then m
  else m.exec.tasks.foldl (fun a x =>
    if x.2.icalSource = 2 ∧ x.2.icalDrop = id ∧ x.2.st = .running then icalLearn a p x.1 (te + w64 (1000 * x.2.icalD)) else a) m

/-- Is the drop named as a source? -/
def icalNamed (m : Module) (id : Nat) : Bool := m.exec.tasks.any (fun x => x.2.icalSource == 2 && x.2.icalDrop == id)

/-- A SYNC event number against the last one accepted. -/
def syncEvent (m p : Module) (id : Nat) (d : DropCfg) (n : W32) (te : W64) (ok dup : Bool) : Module :=
  if !icalNamed m id then dropMod m id (fun d => { d with syncIgnored := inc32 d.syncIgnored })
  else if ok || d.lastEvent.isNone then icalDropEvent (dropMod m id (fun d => { d with lastEvent := some n })) p id te
  else if dup then dropMod m id (fun d => { d with duplicates := inc32 d.duplicates })
  else m

def execSyncFrameReceive (sl : Slot) (segment : Nat) (f : Frame) (s : State) : Res :=
  onPair s sl (fun m p => takeUp m segment 5 f (fun id d rf =>
    let last := d.lastEvent.getD 0
    let k := dist32 rf.seq last
    syncEvent m p id d rf.seq rf.time (decide (1 ≤ k ∧ k ≤ 65536)) (rf.seq == last)))

/-! ### Version negotiation (R236, R237) -/

/-- The highest version both the drop and the ceiling support. -/
def chooseVersion (versions ceiling : Nat) : Option Nat :=
  if bit versions 1 && decide (2 ≤ ceiling) then some 2 else if bit versions 0 then some 1 else none

/-- DATA of an ASSIGN (R237). -/
def assignData (d : DropCfg) : Bytes :=
  beBytes 6 d.mac ++ beBytes 1 d.version ++ zeros 1 ++ beBytes 4 d.outSeq.toNat
    ++ beBytes 4 (match d.acyPending with | a :: _ => a.seq.toNat | [] => d.acyNext.toNat)
    ++ beBytes 2 d.outFid.toNat ++ beBytes 2 d.inFid.toNat ++ beBytes 4 d.watchdog ++ zeros 4

/-- Send an ASSIGN (R234, R237). -/
def sendAssign (m p : Module) (id : Nat) : Module :=
  match dropOf m id with
  | none => m
  | some d =>
    match ringOf m d.segment with
    | none => m
    | some r =>
      let m1 := sendLeadOnly m p d.segment
        (frameV1 (ringDst d.segment) (moduleMac m.slot d.segment) r.etherType 7 (modFlags m.slot false) id d.assignCtr (assignData d))
      dropMod m1 id (fun d => { d with assignCtr := d.assignCtr + 1 })

/-- Begin an assignment of a ring drop: version, MAC, delivered messages, acyclic stream (R229, R233, R237). -/
def startAssign (m p : Module) (id : Nat) (mac : Nat) (applied : W32) : Module :=
  match dropOf m id with
  | none => m
  | some d =>
    match chooseVersion d.versions d.ceiling with
    | none => dropMod m id (fun d => { d with st := .negotiating, mac := mac })
    | some v =>
      let m1 := dropMod m id (fun d =>
        { d with st := .negotiating, mac := mac, version := v, assigning := true, onlineAt := none,
                 acyNext := if newer32 (applied + 1) d.acyNext then applied + 1 else d.acyNext })
      let m2 := acyAcked m1 p id applied
      if sends m && !m.pair.window then sendAssign m2 p id else m2

/-- The step from which a drop is ONLINE: the first multiple of 100 µs at least 10 µs later (log entry 16). -/
def onlineStep (m : Module) : W64 :=
  let t := (now m).toNat + 10000
  w64 (t + (100000 - t % 100000) % 100000)

/-- The assignment is confirmed: the step is chosen and announced (R237). -/
def confirmAssign (m p : Module) (id : Nat) : Module :=
  match dropOf m id with
  | none => m
  | some d =>
    let st := onlineStep m
    let m1 := dropMod m id (fun d => { d with assigning := false, onlineAt := some st })
    if linked m p then emit m1 (.sync (.online id d.version st d.outSeq d.mac)) else m1

/-- A HELLO of a configured drop, by its fields, at the lead (R237). -/
def helloAtLead (m p : Module) (id : Nat) (d : DropCfg) (mac : Nat) (assigned changed : Bool) (applied : W32) : Module :=
  match d.st with
  | .online =>
    if !assigned || changed then startAssign m p id mac applied else m
  | .negotiating =>
    if d.assigning && assigned && !changed && d.mac == mac then confirmAssign m p id
    else if d.assigning && d.mac == mac && !changed then m
    else if d.onlineAt.isSome && assigned && !changed then m
    else startAssign m p id mac applied
  | _ => startAssign m p id mac applied

/-- A second MAC reports the ID of an assigned drop (R237). -/
def dupDrop (m : Module) (k id : Nat) (src : Bytes) : Module :=
  logBoth (ringMod m k (fun r => { r with dupDropId := inc32 r.dupDropId })) 0x0403 4 id 0xFFFF src

/-- A HELLO (R219, R236, R237). -/
def helloRing (m p : Module) (k : Nat) (f : Frame) : Module :=
  let rf := parseFrame f.bytes
  if !ringRuns m k || f.fcs != .good || rf.ty != 6 then m
  else if rf.ver ≠ 1 ∨ rf.data.length < 24 then countBad m k
  else match dropOf m rf.drop with
    | none => countUnknown m k
    | some d =>
      let mac := macNat rf.src
      if d.kind != .ring || d.segment != k then countUnknown m k
      else if d.st = .online ∧ mac ≠ d.mac then dupDrop m k rf.drop rf.src
      else
        let versions := byteAt rf.data 0
        let fl := byteAt rf.data 1
        let fam := w32 (be rf.data 12 4)
        let changed := d.st != .absent && (fam != d.family || versions != d.versions)
        let m1 := dropMod m rf.drop (fun d =>
          { d with family := fam, versions := versions, channels := be rf.data 2 2, wrapUp := bit fl 0, wrapDown := bit fl 1 })
        if isLead m then helloAtLead m1 p rf.drop d mac (bit fl 2) changed (w32 (be rf.data 4 4)) else m1

def execHelloReceive (sl : Slot) (segment : Nat) (f : Frame) (s : State) : Res := onPair s sl (fun m p => helloRing m p segment f)

def execAssignRetransmit (sl : Slot) (drop : Nat) (s : State) : Res :=
  onPair s sl (fun m p => match dropOf m drop with
    | some d => if d.assigning && isLead m && !m.pair.window && sends m && d.kind == .ring then sendAssign m p drop else m
    | none => m)

def execAcyRetransmit (sl : Slot) (drop : Nat) (s : State) : Res := onPair s sl (fun m p => sendAcy m p drop true)

/-- No acknowledgement in time: DROP.SEND ends DONE with DELIVERY_PENDING, the message stays pending (R232). -/
def execAcyDeliveryTimeout (sl : Slot) (drop : Nat) (seq : W32) (s : State) : Res :=
  onMod s sl (fun m => match dropOf m drop with
    | none => m
    | some d => match d.acyPending.find? (fun a => a.seq == seq && a.cmd.isSome && a.sent) with
      | none => m
      | some a => dropMod (acyFinish m 0x8401 a) drop (fun d =>
          { d with acyPending := d.acyPending.map (fun x => if x.seq = seq then { x with cmd := none } else x) }))

/-! ### Ring state (R239, R240) -/

/-- The record of a change of ring state, written by the lead (R240, R315). -/
def ringRecord (m : Module) (k : Nat) : Module :=
  match ringOf m k with
  | none => m
  | some r =>
    let m1 := ringMod m k (fun r => { r with changes := inc32 r.changes })
    if isLead m then
      logEv m1 0x0401 3 k 0xFFFF (leBytes 1 (ringState r) ++ zeros 1 ++ leBytes 2 (wrapA m k) ++ leBytes 2 (wrapB m k))
    else m1

/-- Ring state before and after an event. -/
def ringIfChanged (old m : Module) (k : Nat) : Module :=
  match ringOf old k, ringOf m k with
  | some a, some b => if ringState a = ringState b then m else ringRecord m k
  | _, _ => m

/-- A CHECK frame on one segment. -/
def launchCheck (m : Module) (k : Nat) : Module :=
  match ringOf m k with
  | none => m
  | some r =>
    if !ringRuns m k then m
    else launchRing (ringMod m k (fun r => { r with checkSeq := r.checkSeq + 1, checkOut := r.checkOut + 1 })) k
      (frameV2 (ringDst k) (moduleMac m.slot k) r.etherType 8 (modFlags m.slot false) 0 0 r.checkSeq (now m) [])

/-- Every 20 µs on each enabled segment; only in RUN does a module send (R28, R239). -/
def execCheckFrameLaunch (sl : Slot) (s : State) : Res :=
  onMod s sl (fun m => if sends m then (List.range 8).foldl launchCheck m else m)

/-- An own CHECK frame returns; with the partner's PASS bit the ring is closed. Frames launched before it and not returned are
lost. -/
def execCheckFrameReturn (sl : Slot) (segment : Nat) (f : Frame) (s : State) : Res :=
  onMod s sl (fun m => match ringOf m segment with
    | none => m
    | some _ =>
      let rf := parseFrame f.bytes
      if !ringRuns m segment || f.fcs != .good || rf.ty != 8 || rf.src != moduleMac m.slot segment
          || (rf.flags &&& passBit (otherSlot m.slot)) == 0 then m
      else ringIfChanged m (ringMod m segment (fun r =>
        { r with closed := true, checkMissing := sat32 (r.checkMissing + (r.checkOut - 1)), checkOut := 0 })) segment)

/-- No own CHECK frame within 50 µs: RING_CLOSED falls. -/
def execRingClosedTimeout (sl : Slot) (segment : Nat) (s : State) : Res :=
  onMod s sl (fun m => match ringOf m segment with
    | none => m
    | some _ => ringIfChanged m (ringMod m segment (fun r =>
        { r with closed := false, checkMissing := sat32 (r.checkMissing + r.checkOut), checkOut := 0 })) segment)

/-- Loss of receive lock: both lanes of the segment are held without link (R240). -/
def execRingLaneLockLoss (sl : Slot) (lane : Nat) (s : State) : Res :=
  onMod s sl (fun m =>
    if decide (16 ≤ lane) || !powered m then m
    else
      let k := lane / 2
      let m1 := laneMod m lane (fun l => { l with up := false, losses := inc32 l.losses })
      ringIfChanged m (ringMod m1 k (fun r =>
        if lane % 2 = 0 then { r with rxUp := false, held := true } else { r with txUp := false, held := true })) k)

/-- A lane regains lock and link: with both lanes up the segment runs again (R240). -/
def execRingLaneLinkUp (sl : Slot) (lane : Nat) (s : State) : Res :=
  onMod s sl (fun m =>
    if decide (16 ≤ lane) || !powered m then m
    else
      let k := lane / 2
      let m1 := laneMod m lane (fun l => { l with up := true })
      let m2 := ringMod m1 k (fun r => if lane % 2 = 0 then { r with rxUp := true } else { r with txUp := true })
      ringIfChanged m (ringMod m2 k (fun r => { r with held := !(r.rxUp && r.txUp) })) k)

/-! ### Time on the ring (R241) -/

/-- Enabled segments. -/
def enabledRings (m : Module) : List Nat := (List.range 8).filter (fun k => ringRuns m k)

end Sys2Proof.Machine
end

