-- ==== Sys2Proof/Machine/Almanac.lean ====
section
/-! DEFINITION. Machine/Almanac.lean: Almanac time, its steps and sources, PPS and PTP (R293 to R308, R316, R317). -/

namespace Sys2Proof.Machine
open Sys2Proof Sys2Proof.Bits

/-! ### The counter -/

/-- 2^40. -/
def frac40 : Nat := 1099511627776

/-- Change the Almanac. -/
def almMod (m : Module) (f : Alm → Alm) : Module := { m with alm := f m.alm }

/-- Every task of a module. -/
def allTasks (m : Module) (f : Task → Task) : Module :=
  { m with exec := { m.exec with tasks := m.exec.tasks.map (fun x => (x.1, f x.2)) } }

/-- The wrap of T carries a task's grid forward (R143). -/
def wrapGrid (t : Task) : Task :=
  let p := periodNs t
  if p = 0 then t else { t with shift := (t.shift + (p - 2 ^ 64 % p)) % p }

/-- One Almanac cycle of a module from power-good on: T and the fraction advance by 4 ns × (1 + ADJ × 2^−40) (R293). -/
def almTick (m : Module) : Module :=
  if !powered m && m.power.phase != .bringUp then m
  else
    let inc : Int := 4 * (frac40 : Int) + 4 * m.alm.adj
    let sum := m.alm.frac + inc.toNat
    let t' := m.alm.t.toNat + sum / frac40
    let m1 := { m with phys := m.phys + 4, alm := { m.alm with t := w64 t', frac := sum % frac40 } }
    if 2 ^ 64 ≤ t' then allTasks m1 wrapGrid else m1

/-! ### Steps of time -/

/-- A time moved by Δ. -/
def moved (delta : W64) (t : Option W64) : Option W64 := t.map (fun x => x + delta)

/-- A task's grid and boundaries move by Δ; its cycle keeps its physical length (R143, log entry 18). -/
def shiftTask (delta : W64) (t : Task) : Task :=
  let p := periodNs t
  let d := (unsigned 64 delta.toInt)
  let step : Nat := if p = 0 then 0 else ((delta.toInt % (p : Int)).toNat)
  { t with
    shift := if p = 0 then 0 else (t.shift + step) % p
    next := t.next + w64 d
    lastBoundary := t.lastBoundary + w64 d
    lastReleased := moved delta t.lastReleased
    lastRestarted := moved delta t.lastRestarted
    cycle := t.cycle.map (fun c =>
      { c with start := c.start + delta, sealedAt := moved delta c.sealedAt, repeats := moved delta c.repeats,
               partnerSeal := c.partnerSeal.map (fun x => (x.1 + delta, x.2)) }) }

/-- The record of a step (R296, R315). -/
def timeStepEvent (m : Module) (a delta : W64) (trigger : Nat) : ChronEvent :=
  { code := 0x0601, time := now m, source := srcOf m 0 0, partition := 0xFFFF, severity := 0
    data := fit 24 (leBytes 8 a.toNat ++ leBytes 8 delta.toNat ++ leBytes 1 trigger) }

/-- T changes by Δ on one edge and the fraction stays; boundaries and launches shift; one TIME_STEP record (R296, R297, R143).
A step of 0 is none. A step back lets the steps of the control cycle come again (log entry 18). -/
def applyStep (m : Module) (delta : W64) (trigger : Nat) : Module :=
  if delta = 0 then m
  else
    let a := now m
    let m1 := almMod m (fun x => { x with t := x.t + delta, steps := inc32 x.steps, lastStep := a + delta })
    let m2 := allTasks m1 (shiftTask delta)
    let shiftOpen (o : OpenStep) : OpenStep := { o with instant := o.instant + delta }
    let m3 := { m2 with exec := { m2.exec with
      lastStep := if delta.toInt < 0 then m2.exec.lastStep + delta else m2.exec.lastStep
      agreeing := m2.exec.agreeing.map shiftOpen
      waitingSteps := m2.exec.waitingSteps.map shiftOpen
      early := m2.exec.early.map (fun x => (x.1 + delta, x.2)) } }
    let e := timeStepEvent m3 a delta trigger
    if fw m3 then routeEvent m3 false e else queueEvent m3 e

/-- The first multiple of 100 µs at least 200 µs ahead (R296). -/
def stepInstant (m : Module) : W64 :=
  let t := (now m).toNat + 200000
  w64 ((t + 99999) / 100000 * 100000)

/-- The lead schedules a step and announces it (R296). -/
def scheduleStep (m p : Module) (delta : W64) (trigger : Nat) : Module :=
  let a := stepInstant m
  let m1 := almMod m (fun x => { x with sched := some (a, delta, trigger) })
  if linked m p then emit m1 (.sync (.stepAnnounce a delta)) else m1

/-- T reaches A (R296). -/
def execTimeStepApply (sl : Slot) (s : State) : Res :=
  onMod s sl (fun m => match m.alm.sched with
    | none => m
    | some (a, delta, trig) =>
      if !powered m || !almGe (now m) a then m
      else applyStep (almMod m (fun x => { x with sched := none })) delta trig)

/-- A follower receives A and Δ (R296). -/
def execSyncStepAnnounceReceive (sl : Slot) (instant : W64) (delta : W64) (s : State) : Res :=
  onPair s sl (fun m p =>
    if fw m && linked m p && !isLead m then almMod m (fun x => { x with sched := some (instant, delta, 1) }) else m)

/-! ### The BAR0 window (R299) -/

/-- The Host island answers on PCIe. -/
def bar0Up (m : Module) : Bool := powered m && m.boot.loaderUp && m.boot.pcie == .trained

/-- Writing ALM_CAPTURE. -/
def almCaptureWrite (m : Module) (cap : Bool) : Module :=
  if bar0Up m && cap then almMod m (fun x => { x with snap := x.t, capCount := x.capCount + 1 }) else m

def execAlmCapture (sl : Slot) (cap : Bool) (s : State) : Res := onMod s sl (fun m => almCaptureWrite m cap)

/-- A BAR0 step is allowed: SOURCE 0, and not in RUN, UMBRA or SPLIT-OFF. -/
def mayBar0Step (m : Module) : Bool :=
  m.alm.source == 0 && m.boot.state != .run && m.boot.state != .umbra && m.boot.state != .splitOff

/-- Writing ALM_STEP: KEY in [31:16], REL in [1], STEP in [0]. -/
def almStepWrite (m : Module) (value : W32) : Module :=
  if !bar0Up m || field value.toNat 31 16 != 0xA1A5 || !value.getLsbD 0 then m
  else if mayBar0Step m then almMod m (fun x => { x with bar0Step := some (value.getLsbD 1, x.stage) })
  else almMod m (fun x => { x with stepIgn := true })

def execAlmStep (sl : Slot) (value : W32) (s : State) : Res := onMod s sl (fun m => almStepWrite m value)

/-- The step lands and STEP_PEND clears. -/
def execBar0StepLand (sl : Slot) (s : State) : Res :=
  onMod s sl (fun m => match m.alm.bar0Step with
    | none => m
    | some (rel, v) =>
      if !powered m then m
      else applyStep (almMod m (fun x => { x with bar0Step := none })) (if rel then v else v - now m) 0)

/-- Reserved fields of the window read as 0 (R7, R299). -/
def almRead (m : Module) (o : Nat) : W32 :=
  let a := m.alm
  let sec := a.snap.toNat / 1000000000
  if o = 0x4004 then w32 (a.capCount.toNat * 65536 + a.source * 16 + b2n a.stepIgn * 4 + b2n a.bar0Step.isSome * 2
    + b2n ((a.source == 1 || a.source == 2 || a.source == 3) && a.locked))
  else if o = 0x4008 then w32 (a.snap.toNat)
  else if o = 0x400C then w32 (a.snap.toNat / 4294967296)
  else if o = 0x4010 then w32 (a.snap.toNat % 1000000000)
  else if o = 0x4014 then w32 sec
  else if o = 0x4018 then w32 (sec / 4294967296 % 65536)
  else if o = 0x401C then w32 (unsigned 32 a.adj)
  else if o = 0x4020 then w32 (a.stage.toNat)
  else if o = 0x4024 then w32 (a.stage.toNat / 4294967296)
  else 0

/-! ### ADJ, sources and the servo -/

/-- The limit of ADJ (R293). -/
def adjMax : Int := 1099511627

/-- DISCIPLINED: SOURCE is 1, 2 or 3 and the servo is locked. -/
def disciplined (m : Module) : Bool := (m.alm.source == 1 || m.alm.source == 2 || m.alm.source == 3) && m.alm.locked

/-- A new ADJ, remembered for the mean of R300. -/
def setAdj (m : Module) (v : Int) : Module :=
  let v := Max.max (-adjMax) (Min.min adjMax v)
  almMod m (fun x =>
    { x with adj := v, adjHist := ((m.phys, v) :: x.adjHist).takeWhile (fun h => decide (m.phys ≤ h.1 + 60000000000))
        ++ ((((m.phys, v) :: x.adjHist).dropWhile (fun h => decide (m.phys ≤ h.1 + 60000000000))).take 1) })

/-- Sum of ADJ × ns over the 60 s before `upTo`, newest value first. -/
def adjIntegral (from_ upTo : Nat) : List (Nat × Int) → Int
  | [] => 0
  | (t, v) :: rest =>
    if upTo ≤ from_ then 0
    else v * ((upTo - Max.max t from_ : Nat) : Int) + adjIntegral from_ (Min.min upTo (Max.max t from_)) rest

/-- The mean of ADJ over the last 60 s, or over as long as it is known (R300); rounded down (log entry 19). -/
def adjMean (m : Module) : Int :=
  let first := match m.alm.adjHist.getLast? with
    | some h => h.1
    | none => m.phys
  let start := Max.max first (m.phys - 60000000000)
  if m.phys ≤ start then m.alm.adj else adjIntegral start m.phys m.alm.adjHist / ((m.phys - start : Nat) : Int)

/-- The reference is lost: HOLDOVER with the mean ADJ, and REFERENCE_LOST (R300, R302). -/
def holdover (m : Module) : Module :=
  let former := m.alm.source
  let m1 := almMod (setAdj m (adjMean m)) (fun x => { x with source := 4, locked := false })
  logEv m1 0x0602 0 0 0xFFFF (leBytes 1 former ++ zeros 3 ++ leBytes 4 (unsigned 32 m1.alm.adj))

/-- The SOURCE code that TIME.CONFIG selects: FREE 0, PTP 2, PPS 3. -/
def cfgCode (m : Module) : Nat := if m.alm.cfgSource = 0 then 0 else m.alm.cfgSource + 1

/-- How far the servo may move ADJ since its last change: SLEW_MAX per second (R298), in units of 2^−40. -/
def slewRoom (m : Module) : Nat :=
  let since := match m.alm.adjHist with
    | h :: _ => m.phys - h.1
    | [] => m.phys
  m.alm.slewMax * 1099512 * since / 1000000000

/-- The servo's new ADJ: any value within the slew limit; the manual gives no control law (R302, log entry 19). -/
def servoAdj (m : Module) (free : W64) : Int :=
  m.alm.adj - slewRoom m + ((free.toNat % (2 * slewRoom m + 1) : Nat) : Int)

/-- A measured offset of T from the reference of the lead's source: lock with its record if it was not locked, a step where the
offset exceeds STEP_LIMIT and none is scheduled, else a slew (R296, R298, R302). -/
def servo (m p : Module) (offset : Int) (free : W64) : Module :=
  let relock := !m.alm.locked || m.alm.source != cfgCode m
  let m1 := almMod m (fun x => { x with source := cfgCode m, locked := true, offset := offset })
  let m2 := if relock
    then logEv m1 0x0603 0 0 0xFFFF (leBytes 1 m1.alm.source ++ zeros 7 ++ leBytes 8 (unsigned 64 offset) ++ leBytes 8 m1.alm.gmId.toNat)
    else m1
  if m.alm.stepLimit ≠ 0 ∧ m.alm.stepLimit < offset.natAbs then
    if m.alm.sched.isNone then scheduleStep m2 p (w64 (unsigned 64 (-offset))) 2 else m2
  else setAdj m2 (servoAdj m2 free)

/-- An event that reads one free value and sees the partner. -/
def onPairFree (s : State) (sl : Slot) (f : Module → Module → W64 → Module) : Res :=
  .next { withMod s sl (f (modOf s sl) (modOf s (otherSlot sl)) (Config.freeValue s.fresh)) with fresh := s.fresh + 1 }

/-! ### The pair's time (R300, R301) -/

/-- Every 10 µs the lead sends its T. -/
def execPartnerTimeSend (sl : Slot) (s : State) : Res :=
  onPair s sl (fun m p => if fw m && isLead m && linked m p then emit m (.sync (.time (now m) m.alm.adj)) else m)

/-- The lead's T arrives, corrected for the link delay. From READY on the module follows: role shadow, SOURCE 1; one step when
the link has trained (trigger 3), then the servo steers ADJ. -/
def execSyncTimeReceive (sl : Slot) (time : W64) (_adj : Int) (s : State) : Res :=
  onPairFree s sl (fun m p free =>
    if !serving m || !linked m p || isLead m || !isLead p then m
    else
      let m1 := { m with pair := { m.pair with role := .shadow } }
      let off := almDiff (now m) time
      let m2 := almMod m1 (fun x => { x with source := 1, locked := true, partnerOffset := off })
      let m3 := if m.alm.alignDue
        then applyStep (almMod m2 (fun x => { x with alignDue := false, partnerOffset := 0 })) (time - now m) 3
        else setAdj m2 (servoAdj m2 free)
      anchorIfChanged m m3)

/-- The dual-lead window has passed: the new lead leaves HOLDOVER for its configured reference (R280, R302). -/
def execHoldoverEnd (sl : Slot) (s : State) : Res :=
  onMod s sl (fun m =>
    if !fw m || !isLead m || !m.pair.window then m
    else almMod { m with pair := { m.pair with window := false } } (fun x => { x with source := cfgCode m, locked := false }))

/-! ### PPS and PTP -/

/-- An edge at PPS in (R302, R305). -/
def execPpsInEdge (sl : Slot) (time : W64) (s : State) : Res :=
  onPairFree s sl (fun m p free =>
    if !fw m || !m.alm.ppsInOn then m
    else
      let glitch := match m.alm.ppsLast with
        | some l => decide ((almDiff time l).natAbs < 500000000)
        | none => false
      let outlier (m : Module) : Module := almMod m (fun x => { x with ppsOutliers := inc32 x.ppsOutliers })
      if glitch then outlier m
      else
        let m1 := almMod m (fun x => { x with ppsLast := some time, ppsPresent := true })
        if !isLead m || m.alm.cfgSource != 2 || m.pair.window then m1
        else
          let r := time.toNat % 1000000000
          let off : Int := if r < 500000000 then r else (r : Int) - 1000000000
          if 1000000 < off.natAbs then
            logEv (outlier m1) 0x0605 0 0 0xFFFF (leBytes 8 time.toNat)
          else servo m1 p off free)

/-- PPS in has missed 3 consecutive seconds (R302). -/
def execPpsInMissing (sl : Slot) (s : State) : Res :=
  onMod s sl (fun m =>
    if !fw m || !m.alm.ppsInOn then m
    else
      let m1 := almMod m (fun x => { x with ppsPresent := false })
      if isLead m && m.alm.source == 3 then holdover m1 else m1)

/-- PPS out rises at a whole second of T from READY on (R307). -/
def execPpsOutRise (sl : Slot) (s : State) : Res :=
  onMod s sl (fun m =>
    if fw m && m.alm.ppsOutOn && !m.alm.ppsOut && decide ((now m).toNat % 1000000000 < 5)
    then emit (almMod m (fun x => { x with ppsOut := true })) (.pps true) else m)

/-- PPS out goes low. -/
def ppsLow (m : Module) : Module :=
  if m.alm.ppsOut then emit (almMod m (fun x => { x with ppsOut := false })) (.pps false) else m

/-- At the end of its width. -/
def execPpsOutFall (sl : Slot) (s : State) : Res := onMod s sl (fun m => if fw m then ppsLow m else m)

/-- Port state of IEEE 1588 by host port. -/
def portState (m : Module) (port : Nat) : Nat := if port = 2 then m.alm.port2 else m.alm.port1
/-- Change it. -/
def setPort (m : Module) (port v : Nat) : Module :=
  almMod m (fun x => if port = 2 then { x with port2 := v } else { x with port1 := v })

/-- A PTP message on a host port, which a shadow discards (R303). States: 4 LISTENING, 6 MASTER, 8 UNCALIBRATED, 9 SLAVE. -/
def execPtpMessageReceive (sl : Slot) (msg : PtpMsg) (s : State) : Res :=
  onPairFree s sl (fun m p free =>
    if !fw m || !isLead m || (m.alm.role != 1 && m.alm.role != 3) || (msg.port != 1 && msg.port != 2) then m
    else
      let m1 := match msg.announce with
        | some gm => almMod (if portState m msg.port = 9 then m else setPort m msg.port 8) (fun x => { x with gmId := gm })
        | none => m
      match msg.offset with
      | none => m1
      | some (off, delay) =>
        if portState m1 msg.port ≠ 8 ∧ portState m1 msg.port ≠ 9 then m1
        else
          let m2 := almMod (setPort m1 msg.port 9) (fun x => { x with pathDelay := delay, offset := off })
          if m.alm.cfgSource = 1 ∧ !m.pair.window then servo m2 p off free else m2)

/-- The announce receipt timeout: the port leaves SLAVE (R302, R303). -/
def execPtpAnnounceTimeout (sl : Slot) (port : Nat) (s : State) : Res :=
  onMod s sl (fun m =>
    if !fw m || !isLead m || (port != 1 && port != 2) || (portState m port != 8 && portState m port != 9) then m
    else
      let m1 := setPort m port (if m.alm.role = 3 then 6 else 4)
      if portState m port == 9 && m.alm.source == 2 then holdover m1 else m1)

/-! ### TX timestamp queues (R308) -/

/-- The firmware asks for a timestamp on a port (0 to 15 ring lanes, 16, 17 host): whether it was kept. -/
def txStamp (m : Module) (port : Nat) : Module × Bool :=
  let q := (tget m.alm.txTs port).getD []
  let q := q.drop (Config.stampsRead (slotN m.slot) port (now m) % (q.length + 1))
  if q.length < 32 then
    (almMod m (fun x => { x with txTs := tset x.txTs port (q ++ [(x.txNextId, x.t)]), txNextId := x.txNextId + 1 }), true)
  else
    let m1 := almMod m (fun x => { x with txTs := tset x.txTs port q, txNextId := x.txNextId + 1, tsOverflow := inc32 x.tsOverflow })
    (logEv m1 0x0604 0 0 0xFFFF (leBytes 1 port ++ zeros 3 ++ leBytes 4 1), false)

/-- A host port sends PTP messages: the lead's, in role master or as BMCA gives it. -/
def hostMaster (m : Module) (port : Nat) : Bool :=
  fw m && isLead m && !m.pair.window && (port == 1 || port == 2) && portState m port == 6

/-- Sync on a host port, and its Follow_Up in two-step mode unless the timestamp was dropped (R303, R308). -/
def execHostPtpSyncSend (sl : Slot) (port : Nat) (s : State) : Res :=
  onMod s sl (fun m =>
    if !hostMaster m port then m
    else
      let (m1, kept) := txStamp m (15 + port)
      let m2 := emit m1 (.ptp 0 port (now m))
      if m.alm.twoStep && kept then emit m2 (.ptp 4 port (now m)) else m2)

/-- Announce on the rings and, as master, on host Ethernet (R304). -/
def execPtpAnnounceSend (sl : Slot) (s : State) : Res :=
  onMod s sl (fun m =>
    if !fw m || !isLead m || m.pair.window then m
    else
      let rings := if sends m then (enabledRings m).map (fun k => Emit.ptp 1 (3 + k) (now m)) else []
      let host := ([1, 2].filter (fun p => portState m p == 6)).map (fun p => Emit.ptp 1 p (now m))
      emits m (rings ++ host))

/-- Delay_Req (E2E) or Pdelay_Req (P2P) of a slave port (R303). -/
def execPtpDelayReqSend (sl : Slot) (port : Nat) (s : State) : Res :=
  onMod s sl (fun m =>
    if !fw m || !isLead m || m.pair.window || (port != 1 && port != 2) || (portState m port != 8 && portState m port != 9) then m
    else emit (txStamp m (15 + port)).1 (.ptp (if m.alm.p2p then 3 else 2) port (now m)))

/-- Every 1/16 s the lead sends a one-step Sync on each ring (R241, R304). -/
def execRingPtpSyncSend (sl : Slot) (s : State) : Res :=
  onMod s sl (fun m =>
    if sends m && isLead m && !m.pair.window then emits m ((enabledRings m).map (fun k => .ptp 0 (3 + k) (now m))) else m)

/-- A Pdelay exchange on a lane, with its timestamp, gives the link delay (R241, R304, R308). -/
def execPdelayMeasure (sl : Slot) (lane : Nat) (delay : Nat) (s : State) : Res :=
  onMod s sl (fun m =>
    if !fw m || decide (16 ≤ lane) then m
    else emit (txStamp (laneMod m lane (fun l => { l with delay := delay })) lane).1 (.ptp 3 (3 + lane / 2) (now m)))

/-! ### Commands (R316) -/

/-- TIME.STATUS (R317). -/
def hTimeStatus (m _p : Module) (_c : Cmd) : QRes :=
  let a := m.alm
  okRsp (leBytes 1 a.source ++ leBytes 1 a.port1 ++ leBytes 1 a.port2
    ++ leBytes 1 (b2n (disciplined m) + 2 * b2n (isLead m && !m.pair.window) + 4 * b2n a.ppsPresent)
    ++ leBytes 4 (unsigned 32 a.adj) ++ leBytes 8 (unsigned 64 a.offset) ++ leBytes 8 a.pathDelay
    ++ leBytes 8 (if a.source = 1 then unsigned 64 a.partnerOffset else 0)
    ++ leBytes 8 a.lastStep.toNat ++ leBytes 8 a.gmId.toNat ++ leBytes 4 a.steps ++ leBytes 4 a.tsOverflow
    ++ leBytes 4 a.ppsOutliers ++ leBytes 4 a.icalGlitch) m

/-- Port state that a PTP role starts in: 3 DISABLED, 4 LISTENING, 6 MASTER. -/
def roleState (role : Nat) : Nat := if role = 0 then 3 else if role = 2 then 6 else 4

/-- TIME.CONFIG. -/
def hTimeConfig (m _p : Module) (c : Cmd) : QRes :=
  let ls := signed 8 (prmB c 7)
  let ld := signed 8 (prmB c 9)
  let lim := prm c 12 4
  let slew := prm c 16 2
  if 2 < prmB c 0 ∨ 3 < prmB c 1 ∨ 2 < prmB c 2 ∨ 127 < prmB c 4 ∨ ls < -4 ∨ 1 < ls ∨ 3 < prmB c 8 ∨ ld < -4 ∨ 5 < ld
      ∨ prmB c 10 < 2 ∨ 10 < prmB c 10 ∨ 127 < prmB c 11 ∨ (lim ≠ 0 ∧ (lim < 1000 ∨ 1000000000 < lim)) ∨ slew < 1 ∨ 1000 < slew
  then .refused 7 0
  else
    let m1 := almMod m (fun x =>
      { x with cfgSource := prmB c 0, role := prmB c 1, transport := prmB c 2, p2p := bit (prmB c 3) 0, twoStep := bit (prmB c 3) 1,
               domainNumber := prmB c 4, priority1 := prmB c 5, priority2 := prmB c 6, logSync := ls, logAnnounce := prmB c 8,
               logDelayReq := ld, receiptTimeout := prmB c 10, ringDomain := prmB c 11, stepLimit := lim, slewMax := slew })
    let m2 := if prmB c 1 = m.alm.role then m1 else setPort (setPort m1 1 (roleState (prmB c 1))) 2 (roleState (prmB c 1))
    if isLead m && !m.pair.window && prmB c 0 != m.alm.cfgSource
    then ok (almMod m2 (fun x => { x with source := cfgCode m2, locked := false }))
    else ok m2

/-- The module whose servo answers for the pair: the lead. -/
def leadOf (m p : Module) : Module := if isLead m then m else if linked m p && isLead p then p else m

/-- The servo owns T and ADJ: SOURCE 2 or 3, disciplined (R316). -/
def servoOwns (m : Module) : Bool := (m.alm.source == 2 || m.alm.source == 3) && m.alm.locked

/-- TIME.STEP: Δ, or with ABSOLUTE the time T shall have at A (log entry 20). -/
def hTimeStep (m p : Module) (c : Cmd) : QRes :=
  let fl := prmB c 0
  let l := leadOf m p
  let a := stepInstant l
  let v := w64 (prm c 8 8)
  let delta := if bit fl 0 then v - a else v
  if servoOwns l && !bit fl 1 then .refused 0x0601 0
  else if isLead m && m.alm.sched.isSome then .refused 0x0602 0
  else
    let rsp := leBytes 8 a.toNat ++ leBytes 8 delta.toNat
    if delta = 0 || !isLead m then okRsp rsp m else okRsp rsp (scheduleStep m p delta 1)

/-- TIME.RATE: with SOURCE 0 it sets ADJ; with any other source the servo sets it (R298). -/
def hTimeRate (m p : Module) (c : Cmd) : QRes :=
  let v := signed 32 (prm c 0 4)
  if v < -adjMax ∨ adjMax < v then .refused 7 0
  else if servoOwns (leadOf m p) then .refused 0x0601 0
  else if m.alm.source = 0 then ok (setAdj m v) else ok m

/-- TIME.PPS (R307, R316). -/
def hTimePps (m _p : Module) (c : Cmd) : QRes :=
  let w := prm c 2 2
  if w < 1 ∨ 500 < w then .refused 7 0
  else
    let m1 := almMod m (fun x =>
      { x with ppsOutOn := bit (prmB c 0) 0, ppsInOn := bit (prmB c 0) 1, ppsFalling := bit (prmB c 0) 2, ppsWidth := w })
    ok (if bit (prmB c 0) 0 then m1 else ppsLow m1)

def execTimeStatus (sl : Slot) (c : Cmd) (s : State) : Res := quondi hTimeStatus .query .any 0x0601 s sl c
def execTimeConfig (sl : Slot) (c : Cmd) (s : State) : Res := quondi hTimeConfig .work .sys 0x0602 s sl c
def execTimeStep (sl : Slot) (c : Cmd) (s : State) : Res := quondi hTimeStep .work .sys 0x0603 s sl c
def execTimeRate (sl : Slot) (c : Cmd) (s : State) : Res := quondi hTimeRate .work .sys 0x0604 s sl c
def execTimePps (sl : Slot) (c : Cmd) (s : State) : Res := quondi hTimePps .work .sys 0x0605 s sl c

/-! ### Intercalation events of the ICAL input (R140, R141, R305) -/

/-- An edge at the ICAL input: the glitch rule, then an event for every task that names the input and the edge; only the lead's
captures are used. -/
def execIcalEdge (sl : Slot) (falling : Bool) (time : W64) (s : State) : Res :=
  onPair s sl (fun m p =>
    if !fw m then m
    else
      let last := if falling then m.alm.icalFall else m.alm.icalRise
      let glitch := match last with
        | some l => decide ((almDiff time l).natAbs < 1000)
        | none => false
      if glitch then almMod m (fun x => { x with icalGlitch := inc32 x.icalGlitch })
      else
        let m1 := almMod m (fun x => if falling then { x with icalFall := some time } else { x with icalRise := some time })
        if !isLead m then m1
        else m1.exec.tasks.foldl (fun a x =>
          let k := x.2
          if k.icalSource = 1 ∧ k.icalFalling = falling ∧ k.st = .running
          then icalLearn a p x.1 (time + w64 (1000 * k.icalD)) else a) m1)

/-- The shadow receives the lead's C'. -/
def execSyncIcalAnnounceReceive (sl : Slot) (task : Nat) (candidate : W64) (s : State) : Res :=
  onPair s sl (fun m p =>
    if !fw m || !linked m p || isLead m then m
    else icalPlace m task candidate (now m))

/-- A window closes without an accepted event (R141). Settings of TASK.ICAL wait for the next window to open. -/
def execIcalWindowClose (sl : Slot) (task : Nat) (s : State) : Res :=
  onMod s sl (fun m =>
    if !fw m then m
    else taskMod m task (fun k =>
      if k.st = .running ∧ (k.icalSource = 1 ∨ k.icalSource = 2)
      then icalNow { k with syncAbsent := if k.icalHit then k.syncAbsent else inc32 k.syncAbsent, icalHit := false }
      else k))

end Sys2Proof.Machine
end

