-- ==== Sys2Proof/Machine/Chronicle.lean ====
section
/-! DEFINITION. Machine/Chronicle.lean: the record of events, its sequence, its limits and its commands (R309 to R316). -/

namespace Sys2Proof.Machine
open Sys2Proof Sys2Proof.Bits

/-- Records the Chronicle holds (R309). -/
def chronMax : Nat := 524288

/-- Change the Chronicle. -/
def chronMod (m : Module) (f : Chron → Chron) : Module := { m with chron := f m.chron }

/-- The two modules after an event that also reaches the partner. -/
def onBoth (s : State) (sl : Slot) (f : Module → Module → Module × Module) : Res :=
  let r := f (modOf s sl) (modOf s (otherSlot sl))
  .next (withMod (withMod s sl r.1) (otherSlot sl) r.2)

/-- The first 60 bytes of a record (R312). -/
def recBody (r : ChronRec) : Bytes :=
  leBytes 8 r.seq ++ leBytes 8 r.ev.time.toNat ++ leBytes 2 (r.ev.code % 4096) ++ leBytes 2 r.ev.source.toNat
    ++ leBytes 2 r.ev.partition.toNat
    ++ leBytes 2 (r.ev.severity % 4 * 16384 + b2n r.localFlag * 4 + b2n r.imported * 2) ++ leBytes 4 r.leadEpoch.toNat
    ++ leBytes 4 r.origSeq.toNat ++ fit 24 r.ev.data ++ zeros 4

/-- The 64 bytes of a record. -/
def recBytes (r : ChronRec) : Bytes := recBody r ++ leBytes 4 (crc32c (recBody r)).toNat

/-- A record takes the place of the record 524,288 sequence numbers older (R309). -/
def storeRec (l : List ChronRec) (r : ChronRec) : List ChronRec :=
  l.filter (fun x => x.seq % chronMax != r.seq % chronMax) ++ [r]

/-- A partner in the acceptance set must acknowledge the mirror (R310). -/
def mirrors (m : Module) : Bool := m.pair.linkUp && m.pair.inSet && m.pair.partnerInSet

/-- LAST: the newest record that is written, which in a pair means acknowledged (R310). -/
def chronLast (m : Module) : Nat :=
  if mirrors m then
    match m.chron.unacked with
    | [] => m.chron.lastSeq
    | a :: rest => rest.foldl min a - 1
  else m.chron.lastSeq

/-- FIRST = max(1, LAST − 524,287). -/
def chronFirst (last : Nat) : Nat := max 1 (last - 524287)

/-- Number a record and write it; a partner in the acceptance set gets the mirror (R310, R311). -/
def writeChron (m : Module) (e : ChronEvent) (imported : Bool) (orig : W32) : Module :=
  let seq := m.chron.lastSeq + 1
  let r : ChronRec :=
    { seq := seq, ev := e, localFlag := writesLocal m, imported := imported,
      leadEpoch := m.pair.leadEpoch, origSeq := orig }
  let m1 := chronMod m (fun c => { c with recs := storeRec c.recs r, lastSeq := seq })
  if mirrors m && isLead m
  then emit (chronMod m1 (fun c => { c with unacked := c.unacked ++ [seq] })) (.sync (.chronicle r)) else m1

/-- The oldest pending record gets its SEQ and goes to MRAM; a module that lost the lead hands it to the lead (R310, R311). -/
def execChronicleRecordWrite (sl : Slot) (s : State) : Res :=
  onMod s sl (fun m => match m.chron.pendingRecs with
    | [] => m
    | e :: rest =>
      if !fw m then m
      else
        let m1 := chronMod m (fun c => { c with pendingRecs := rest })
        if isLead m || writesLocal m then writeChron m1 e false 0 else emit m1 (.sync (.shadowEvent e)))

/-- 1 s after the first suppression of a run (R313). -/
def execSummaryTimeout (sl : Slot) (code : Nat) (s : State) : Res :=
  onMod s sl (fun m => if fw m then endRun m code else m)

/-- The partner stores a mirrored record and acknowledges it; the acknowledgement reaches the sender with it (R310). -/
def execSyncChronicleMirrorReceive (sl : Slot) (rec : ChronRec) (s : State) : Res :=
  onBoth s sl (fun m p =>
    if !fw m || !linked m p || isLead m then (m, p)
    else
      (emit (chronMod m (fun c => { c with recs := storeRec c.recs rec, lastSeq := rec.seq })) (.sync (.chronicleAck rec.seq)),
       chronMod p (fun c => { c with unacked := c.unacked.filter (fun x => x != rec.seq) })))

/-- The lead records what the shadow alone saw (R310). -/
def execSyncShadowEventReceive (sl : Slot) (ev : ChronEvent) (s : State) : Res :=
  onPair s sl (fun m p => if fw m && linked m p && isLead m then queueEvent m ev else m)

/-! ### Commands -/

/-- CHRONICLE.BOUNDS (R314). -/
def hChronicleBounds (m _p : Module) (_c : Cmd) : QRes :=
  let last := chronLast m
  okRsp (leBytes 8 (chronFirst last) ++ leBytes 8 last ++ leBytes 8 (now m).toNat) m

/-- Records of a range, in order. -/
def recRange (m : Module) (a b : Nat) : List ChronRec :=
  (List.range (b + 1 - a)).filterMap (fun i => m.chron.recs.find? (fun r => r.seq == a + i))

/-- CHRONICLE.READ (R314). -/
def hChronicleRead (m _p : Module) (c : Cmd) : QRes :=
  let start := max 1 (prm c 0 8)
  let n := prm c 8 4
  let last := chronLast m
  let first := chronFirst last
  if n < 1 ∨ 1024 < n then .refused 7 0
  else
    let a := max start first
    let l := if last < start then [] else recRange m a (min (a + n - 1) last)
    let rsp := leBytes 8 first ++ leBytes 8 last ++ leBytes 4 l.length ++ zeros 4 ++ (l.map recBytes).flatten
    if start < first then .done 0x8701 (sat32 (first - start)) rsp m else okRsp rsp m

/-- CHRONICLE.LIMIT: the bucket of a code is set or restored, and full (R313, R316). -/
def hChronicleLimit (m _p : Module) (c : Cmd) : QRes :=
  let code := prm c 0 2
  let restore := bit (prmB c 6) 0
  if 0x0FFF < code ∨ exemptCode code ∨ (!restore ∧ prm c 4 2 = 0) then .refused 7 0
  else if restore then ok (chronMod m (fun x => { x with buckets := tdel x.buckets code }))
  else ok (chronMod m (fun x => { x with buckets := tset x.buckets code (fullBucket (prm c 2 2) (prm c 4 2) m.phys) }))

/-- The record of a note (R316). -/
def noteEvent (m : Module) (c : Cmd) : ChronEvent :=
  { code := prm c 0 2, time := now m, source := srcOf m 7 0, partition := w16 ((actPart c).getD 0xFFFF), severity := prmB c 2
    data := fit 24 c.req }

/-- CHRONICLE.NOTE, for a partition with the capability NOTE (R105): the lead writes the record. The SEQ is the one that its place in the queue gives it (R309, R311). -/
def hChronicleNote (m p : Module) (c : Cmd) : QRes :=
  if prm c 0 2 < 0x0D00 ∨ 0x0DFF < prm c 0 2 ∨ 3 < prmB c 2 then .refused 7 0
  else if !hasCap m (pid c) 7 then .refused 10 0
  else
    let l := leadOf m p
    let ok? := permitted l (noteEvent l c)
    let m' := if isLead m then queueEvent m (noteEvent m c) else m
    if ok? then okRsp (leBytes 8 (m'.chron.lastSeq + m'.chron.pendingRecs.length)) m' else .done 0x8702 0 (zeros 8) m'

def execChronicleBounds (sl : Slot) (c : Cmd) (s : State) : Res := quondi hChronicleBounds .query .any 0x0701 s sl c
def execChronicleRead (sl : Slot) (c : Cmd) (s : State) : Res := quondi hChronicleRead .query .any 0x0702 s sl c
def execChronicleLimit (sl : Slot) (c : Cmd) (s : State) : Res := quondi hChronicleLimit .work .sys 0x0703 s sl c
def execChronicleNote (sl : Slot) (c : Cmd) (s : State) : Res := quondi hChronicleNote .work .part 0x0704 s sl c

end Sys2Proof.Machine
end

