-- ==== Sys2Proof/Machine/Legacy.lean ====
section
/-! DEFINITION. Machine/Legacy.lean: CAN FD buses and RS-485 lines at a module (R248 to R267). -/

namespace Sys2Proof.Machine
open Sys2Proof Sys2Proof.Bits

/-! ### Who sends -/

/-- The drop is bound to an unchecked task: the lead alone sends for it. -/
def leadOnlyDrop (m : Module) (d : DropCfg) : Bool :=
  match d.task with
  | some t => (match taskOf m t with | some k => k.unchecked | none => false)
  | none => false

/-- The task restarts on this module (R150): in step until its partner's write set is released, else while its cluster resets and
until the repeated cycle is sealed, for at most 400 µs from the mismatch. -/
def taskQuiet (m : Module) (t : Nat) : Bool :=
  match taskOf m t with
  | none => false
  | some k =>
    let resets := match m.exec.units[unitOf k]? with
      | some x => x.resetting
      | none => false
    let restarts := match k.cycle with
      | some c => (m.pair.mode == .inStep && c.restarting)
          || (match c.repeats with | some x => c.sealedAt.isNone && decide (almDiff (now m) x < 400000) | none => false)
      | none => false
    resets || restarts

/-- The module sends the drop's cyclic frames: not as a warm shadow, not before the catch-up of a warm takeover, not while its task
restarts here, and for an unchecked task only as lead outside the dual-lead window (R136, R150, R255, R262, R280, R282). -/
def sendsFor (m : Module) (d : DropCfg) : Bool :=
  sends m && !warmShadow m && !m.pair.catchup && (!leadOnlyDrop m d || (isLead m && !m.pair.window))
    && (match d.task with | some t => !taskQuiet m t | none => true)

/-! ### Acyclic messages (R266) -/

/-- The first waiting message of each ONLINE drop that was not sent in the last 1 ms. -/
def acyCandidates (m : Module) (kind : SegKind) (seg : Nat) : List (Nat × AcyMsg) :=
  (dropsOn m kind seg).filterMap (fun x => match x.2.acyPending with
    | a :: _ => if x.2.st == .online && (!a.sent || decide (a.sentAt + 1000000 ≤ m.phys)) then some (x.1, a) else none
    | [] => none)

/-- The oldest by SEQ, then by drop ID. -/
def acyPick (l : List (Nat × AcyMsg)) : Option (Nat × AcyMsg) :=
  l.foldl (fun b x => match b with
    | none => some x
    | some y => if x.2.seq.toNat < y.2.seq.toNat then some x else some y) none

/-- The message was transmitted now. -/
def acySent (m : Module) (id : Nat) (seq : W32) : Module :=
  dropMod m id (fun d => { d with acyPending := d.acyPending.map (fun a => if a.seq = seq then { a with sent := true, sentAt := m.phys } else a) })

/-- A report of the low 8 bits of the last applied SEQ acknowledges the message in transmission if it shows its SEQ. -/
def acyReport (m p : Module) (id : Nat) (d : DropCfg) (low : Nat) : Module :=
  match d.acyPending with
  | a :: _ => if a.sent ∧ a.seq.toNat % 256 = low then ackSeen m p id a.seq else m
  | [] => m

/-! ### Negotiation by the fields of R251 and R260 -/

/-- The exchange of R237 for a gen-0 or gen-1 drop: a new assignment begins. -/
def startLegacy (m p : Module) (id : Nat) (d : DropCfg) (applied : W32) : Module :=
  let m1 := dropMod m id (fun d =>
    { d with st := .negotiating, version := 1, assigning := true, onlineAt := none,
             acyNext := if newer32 (applied + 1) d.acyNext then applied + 1 else d.acyNext })
  let m2 := acyAcked m1 p id applied
  if d.kind = .bus then
    busMod m2 d.segment (fun b => if b.assignNodes.contains d.position then b else { b with assignNodes := b.assignNodes ++ [d.position] })
  else m2

/-- A HELLO or IDENT_REPLY at the lead (R237, R258, R263). -/
def helloLegacy (m p : Module) (id : Nat) (d : DropCfg) (assigned changed : Bool) (applied : W32) : Module :=
  match d.st with
  | .online => if !assigned || changed then startLegacy m p id d applied else m
  | .negotiating =>
    if d.assigning && assigned && !changed then confirmAssign m p id
    else if d.onlineAt.isSome && assigned && !changed then m
    else startLegacy m p id d applied
  | _ => startLegacy m p id d applied

/-- The ONLINE announcement of the lead: version, S0, station address and step (R237). -/
def execSyncOnlineAnnounceReceive (sl : Slot) (drop : Nat) (version : Nat) (online : W64) (s0 : W32) (mac : Nat) (s : State) : Res :=
  onPair s sl (fun m p =>
    if !fw m || !linked m p || isLead m then m
    else dropMod m drop (fun d =>
      { d with st := .negotiating, assigning := false, version := version, mac := mac, outSeq := s0, onlineAt := some online }))

/-- An acknowledgement that the shadow saw (R232). -/
def execSyncAcyAckRelayReceive (sl : Slot) (drop : Nat) (seq : W32) (s : State) : Res :=
  onPair s sl (fun m p => if fw m && linked m p && isLead m then acyAcked m p drop seq else m)

/-- A frame of the lead alone, launched on the partner's own lane while the ring is open (R234). -/
def execSyncRelayFrameReceive (sl : Slot) (segment : Nat) (f : Frame) (s : State) : Res :=
  onPair s sl (fun m p => if sends m && linked m p && ringRuns m segment then emit m (.ring segment f) else m)

/-! ### Buses -/

/-- The bus port of a number, if it is on. -/
def busOf (m : Module) (k : Nat) : Option Bus :=
  match m.field.buses[k]? with
  | some b => if b.nominal = 0 then none else some b
  | none => none

/-- Frame bytes as sent: FD frames padded to their DLC (R251). -/
def canData (fd : Bool) (b : Bytes) : Bytes := if fd then b ++ zeros (fdLen b.length - b.length) else b

/-- Put a frame on the bus, or NOT_SENT when the port is bus-off (R256). -/
def canSend (m : Module) (bus : Nat) (b : Bus) (f : CanFrame) (tx : Nat × Nat × W32 × Bool × Bytes) : Module :=
  if b.busOff then
    busMod m bus (fun b => { b with notSent := inc32 b.notSent, failed := if tx.2.2.2.1 then b.failed ++ [(tx.1, tx.2.1, tx.2.2.1)] else b.failed })
  else emit (busMod m bus (fun b => { b with txNow := some tx })) (.can bus f)

/-- The ROW frame (R251, R255). -/
def busRowFrame (m : Module) (bus : Nat) (b : Bus) : Module :=
  if sends m && (m.pair.mode == .inStep || isLead m) then
    canSend m bus b { id := 0, data := beBytes 1 (b.row % 16) ++ zeros 1 ++ beBytes 6 (b.rowStart.toNat % 2 ^ 48) } (0, 0, 0, false, [])
  else m

/-- An OUT part in an own slot (R251, R252, R255). -/
def busOut (m : Module) (bus : Nat) (b : Bus) (node part : Nat) : Module :=
  match nodeDrop m bus node with
  | none => m
  | some d =>
    if d.st ≠ .online ∨ d.task.isNone = true ∨ d.parts ≤ part ∨ sendsFor m d = false then m
    else
      let data := (d.lastData.drop (partStride d * part)).take (perPart d)
      let fl := 128 * b2n d.lastStale + 64 * slotN m.slot + 16 * part
      canSend m bus b { id := 0x180 + 64 * slotN m.slot + node, data := canData d.fd (beBytes 4 d.lastSeq.toNat ++ beBytes 1 fl ++ zeros 1 ++ data) }
        (node, part, d.lastSeq, true, data)

/-- An acyclic message in an own slot: a lead and an in-step shadow send (R230, R266). -/
def busAcy (m : Module) (bus : Nat) (b : Bus) : Module :=
  if !sends m || warmShadow m then m
  else match acyPick (acyCandidates m .bus bus) with
    | none => m
    | some (id, a) => match dropOf m id with
      | none => m
      | some d =>
        canSend (acySent m id a.seq) bus b
          { id := 0x100 + 64 * slotN m.slot + d.position,
            data := canData d.fd (beBytes 1 (a.seq.toNat % 256) ++ beBytes 2 a.cls.toNat ++ beBytes 1 a.payload.length ++ a.payload) }
          (d.position, 0, a.seq, false, [])

/-- IN offset of a node, from the first row that has its slot. -/
def busInOffset (b : Bus) (node : Nat) : Nat := ((b.rows.flatMap (fun r => inOffset r node)).head?).getD 0

/-- ASSIGN by the lead in an OPEN slot (R251, R255). -/
def busAssign (m : Module) (bus : Nat) (b : Bus) : Module :=
  match b.assignNodes with
  | [] => m
  | n :: rest =>
    if !sends m || !isLead m || m.pair.window then m
    else match nodeDrop m bus n with
      | none => busMod m bus (fun b => { b with assignNodes := rest })
      | some d =>
        canSend (busMod m bus (fun b => { b with assignNodes := rest })) bus b
          { id := 0x280 + n, data := beBytes 4 d.outSeq.toNat ++ beBytes 2 (busInOffset b n) ++ beBytes 2 (ceilDiv d.watchdog 1000) }
          (n, 0, 0, false, [])

/-- The next slot of the running row starts (R252). -/
def execBusSlotStart (sl : Slot) (bus : Nat) (s : State) : Res :=
  onMod s sl (fun m => match busOf m bus with
    | none => m
    | some b =>
      if !b.cycling || !sends m then m
      else match (rowSlots (b.rows.getD b.row []))[b.slot]? with
        | none => m
        | some e =>
          let m1 := busMod m bus (fun b => { b with slot := b.slot + 1 })
          match e.kind with
          | 1 => busRowFrame m1 bus b
          | 2 => if m.slot = .a then busOut m1 bus b e.node e.part else m1
          | 3 => if m.slot = .b then busOut m1 bus b e.node e.part else m1
          | 5 => if m.slot = .a then busAcy m1 bus b else m1
          | 6 => if m.slot = .b then busAcy m1 bus b else m1
          | 7 => busAssign m1 bus b
          | _ => m1)

/-- The transmit error counter after a result (ISO 11898-1): −1 for success, +8 for an error, but not for an acknowledgement
error of an error-passive port. -/
def tecAfter (tec : Nat) (r : CanResult) : Nat :=
  match r with
  | .ok => tec - 1
  | .bitError | .stuffForm | .errorFrame => tec + 8
  | .ackError => if 128 ≤ tec then tec else tec + 8
  | .arbLost | .notSent => tec

/-- Counters of a result (R256). -/
def countTx (b : Bus) (r : CanResult) : Bus :=
  match r with
  | .ok => b
  | .arbLost => { b with arbLost := inc32 b.arbLost }
  | .bitError => { b with bitError := inc32 b.bitError }
  | .stuffForm => { b with stuffForm := inc32 b.stuffForm }
  | .ackError => { b with ackError := inc32 b.ackError }
  | .errorFrame => { b with errorFrame := inc32 b.errorFrame }
  | .notSent => { b with notSent := inc32 b.notSent }

/-- Both copies with one SEQ and PART but different DATA (R257). -/
def copyDiff (a b : Option (W32 × Bytes)) : Bool :=
  match a, b with
  | some x, some y => x.1 == y.1 && x.2 != y.2
  | _, _ => false

/-- Each transmission ends with one result (R256); a TEC above 255 is bus-off, with its record (R249). -/
def execCanTxResult (sl : Slot) (bus : Nat) (r : CanResult) (s : State) : Res :=
  onMod s sl (fun m => match busOf m bus with
    | none => m
    | some b => match b.txNow with
      | none => m
      | some (node, part, seq, isOut, data) =>
        let key := node * 4 + part
        let tec := tecAfter b.tec r
        let m1 := busMod m bus (fun b =>
          let b1 := { countTx b r with txNow := none, tec := tec }
          if !isOut then b1
          else if r == .ok then
            { b1 with sentOk := tset b1.sentOk key (seq, data),
                      outDiff := if copyDiff (some (seq, data)) (tget b1.shadowRx key) then inc32 b1.outDiff else b1.outDiff }
          else { b1 with failed := b1.failed ++ [(node, part, seq)] })
        if 255 < tec ∧ b.busOff = false
        then logEv (busMod m1 bus (fun b => { b with busOff := true })) 0x0404 3 (8 + bus) 0xFFFF (leBytes 1 255)
        else m1)

/-- After 128 occurrences of 11 recessive bits the port rejoins (R249). -/
def execBusOffRecovery (sl : Slot) (bus : Nat) (s : State) : Res :=
  onMod s sl (fun m => busMod m bus (fun b => if b.busOff then { b with busOff := false, tec := 0 } else b))

/-- Is the identifier one of the table of R250? -/
def canAssigned (i : Nat) : Bool :=
  i == 0 || decide (0x080 ≤ i ∧ i < 0x0C0) || decide (0x100 ≤ i ∧ i < 0x240) || decide (0x280 ≤ i ∧ i < 0x2C0)
    || decide (0x300 ≤ i ∧ i < 0x340)

/-- A received frame: extended-format, remote and reserved identifiers count as FOREIGN; a frame of the block from `base` with
its node goes on if the node has a drop. -/
def canRecv (m : Module) (bus base : Nat) (f : CanFrame) (g : Nat → Nat → DropCfg → Module) : Module :=
  match busOf m bus with
  | none => m
  | some _ =>
    if !fw m then m
    else if f.foreign || !canAssigned f.id then busMod m bus (fun b => { b with foreign := inc32 b.foreign })
    else if f.id < base ∨ base + 64 ≤ f.id then m
    else
      let n := f.id - base
      match nodeDrop m bus n with
      | none => m
      | some d => g n (0x80 + 64 * bus + n) d

/-- An IN frame: ordering key, status, acyclic report, inputs (R251, R266, R267). -/
def execCanInReceive (sl : Slot) (bus : Nat) (f : CanFrame) (s : State) : Res :=
  onPair s sl (fun m p => canRecv m bus 0x200 f (fun _ id d =>
    if f.data.length < 6 + d.inLen then m
    else
      let st : Byte := BitVec.ofNat 8 (be f.data 4 1 / 64 * 64)
      let m1 := holdInput m id d { key := w32 (be f.data 0 4), time := now m, data := [st, 0] ++ (f.data.drop 6).take d.inLen }
      acyReport m1 p id d (be f.data 5 1)))

/-- The partner's copy of an OUT part goes to the shadow receive buffer (R257). -/
def execCanPartnerOutReceive (sl : Slot) (bus : Nat) (f : CanFrame) (s : State) : Res :=
  onMod s sl (fun m => canRecv m bus (0x180 + 64 * slotN (otherSlot m.slot)) f (fun n _ d =>
    if f.data.length < 6 + perPart d then m
    else
      let key := n * 4 + field (be f.data 4 1) 5 4
      let v := (w32 (be f.data 0 4), (f.data.drop 6).take (perPart d))
      busMod m bus (fun b =>
        { b with shadowRx := tset b.shadowRx key v
                 outDiff := if copyDiff (tget b.sentOk key) (some v) then inc32 b.outDiff else b.outDiff })))

/-- A HELLO of a bus drop (R251, R258). -/
def execCanHelloReceive (sl : Slot) (bus : Nat) (f : CanFrame) (s : State) : Res :=
  onPair s sl (fun m p => canRecv m bus 0x300 f (fun _ id d =>
    if f.data.length < 8 then m
    else
      let fam := w32 (be f.data 1 1 + 256 * be f.data 0 1 / 2 % 2)
      let changed := d.st != .absent && fam != d.family
      let m1 := dropMod m id (fun d => { d with family := fam, channels := be f.data 2 2 })
      if isLead m then helloLegacy m1 p id d (bit (be f.data 0 1) 0) changed (w32 (be f.data 4 4)) else m1))

/-- A 48-bit time extended to the 64-bit value nearest the module's own (R251). -/
def extend48 (t : W64) (low : Nat) : W64 :=
  let d : Int := (low : Int) - (t.toNat % 2 ^ 48 : Nat)
  let d' := if 2 ^ 47 ≤ d then d - 2 ^ 48 else if d < -(2 ^ 47) then d + 2 ^ 48 else d
  t + w64 (unsigned 64 d')

/-- A SYNC frame of a bus drop: event numbers of 16 bits (R251). -/
def execCanSyncReceive (sl : Slot) (bus : Nat) (f : CanFrame) (s : State) : Res :=
  onPair s sl (fun m p => canRecv m bus 0x080 f (fun _ id d =>
    if f.data.length < 8 then m
    else
      let n := be f.data 0 2
      let last := (d.lastEvent.getD 0).toNat % 65536
      let k := (n + 65536 - last) % 65536
      syncEvent m p id d (w32 n) (extend48 (now m) (be f.data 2 6)) (decide (1 ≤ k ∧ k ≤ 32767)) (k == 0)))

/-- The row ends, or is cut: uncovered failures of the lead are OUT_MISSED with their records (R252, R257). -/
def endRow (m : Module) (bus : Nat) (cut : Bool) : Module :=
  match busOf m bus with
  | none => m
  | some b =>
    if !b.cycling then m
    else
      let missed := b.failed.filter (fun x => match tget b.shadowRx (x.1 * 4 + x.2.1) with
        | some y => y.1 != x.2.2
        | none => true)
      let m1 := busMod m bus (fun b =>
        { b with cycling := false, failed := [], sentOk := [], txNow := none, rowCut := if cut then inc32 b.rowCut else b.rowCut })
      if !isLead m then m1
      else missed.foldl (fun a x =>
        logEv (busMod a bus (fun b => { b with outMissed := inc32 b.outMissed })) 0x0405 4 (0x80 + 64 * bus + x.1) 0xFFFF
          (leBytes 4 x.2.2.toNat ++ leBytes 1 x.2.1)) m1

def execBusRowEnd (sl : Slot) (bus : Nat) (cut : Bool) (s : State) : Res := onMod s sl (fun m => endRow m bus cut)

/-- BUS_ROW_START at a boundary S: the row of the last boundary is cut if it still runs, the next row starts at S + Δ (R252). -/
def startRow (m : Module) (bus : Nat) (S : W64) : Module :=
  match busOf m bus with
  | none => m
  | some b =>
    if b.rows.isEmpty || !sends m then m
    else busMod (endRow m bus true) bus (fun b =>
      { b with row := b.nextRow % b.rows.length, nextRow := (b.nextRow + 1) % b.rows.length, slot := 0, cycling := true,
               rowStart := S + w64 (1000 * b.delta) })

/-! ### Lines -/

/-- The line port of a number, if it is on. -/
def lineOf (m : Module) (k : Nat) : Option Line :=
  match m.field.lines[k]? with
  | some l => if l.rate = 0 then none else some l
  | none => none

/-- The CRC of a line frame goes behind it, high byte first (R259). -/
def lineCrc (b : Bytes) : Bytes := b ++ beBytes 2 (crc16 0xFFFF b).toNat

/-- A frame of a module (R259). -/
def lineFrame (sl : Slot) (addr func : Nat) (data : Bytes) : Bytes :=
  lineCrc (beBytes 1 (64 * slotN sl + addr % 32) ++ beBytes 1 func ++ beBytes 1 data.length ++ data)

/-- The configured drop of a line address. -/
def lineDrop (m : Module) (line addr : Nat) : Option DropCfg := dropOf m (32 * line + addr)

/-- The request of a slot, with the drop it is for: POLL or START, ACY, IDENT (R260, R261). -/
def lineRequest (m : Module) (line kind addr : Nat) : Option (Nat × DropCfg × Nat × Bytes × Option W32) :=
  match kind with
  | 0 => match lineDrop m line addr with
    | none => none
    | some d =>
      if d.st == .online then
        some (addr, d, 0x10, beBytes 2 (d.lastSeq.toNat % 65536) ++ beBytes 1 (128 * b2n d.lastStale) ++ d.lastData, none)
      else some (addr, d, 0x16, beBytes 2 (d.outSeq.toNat % 65536) ++ beBytes 2 (ceilDiv d.watchdog 1000), none)
  | 1 => match acyPick (acyCandidates m .line line) with
    | none => none
    | some (id, a) => match dropOf m id with
      | none => none
      | some d => some (d.position, d, 0x12, beBytes 1 (a.seq.toNat % 256) ++ beBytes 2 a.cls.toNat ++ a.payload, some a.seq)
  | _ => (lineDrop m line addr).map (fun d => (addr, d, 0x14, [], none))

/-- Transmit a request. -/
def lineSend (m : Module) (line : Nat) (addr : Nat) (id : Nat) (func : Nat) (data : Bytes) (acy : Option W32) : Module :=
  let m1 := match acy with
    | some q => acySent m id q
    | none => m
  emit (lineMod m1 line (fun l => { l with awaiting := some (func, addr), request := [] })) (.line line (lineFrame m.slot addr func data))

/-- A slot of the poll cycle: the lead sends its request; an in-step shadow keeps it ready for a takeover, but not for a drop of
an unchecked task (R262). -/
def execLineSlotStart (sl : Slot) (line : Nat) (s : State) : Res :=
  onMod s sl (fun m => match lineOf m line with
    | none => m
    | some l => match l.slots with
      | [] => m
      | (kind, addr) :: rest =>
        if !sends m then m
        else
          let m1 := lineMod m line (fun l => { l with slots := rest, awaiting := none, request := [], startSeen := false })
          match lineRequest m line kind addr with
          | none => m1
          | some (a, d, func, data, acy) =>
            if isLead m then
              (if leadOnlyDrop m d && m.pair.window then m1 else lineSend m1 line a (32 * line + a) func data acy)
            else if m.pair.mode == .inStep && !leadOnlyDrop m d
            then lineMod m1 line (fun l => { l with request := beBytes 1 a ++ beBytes 1 func ++ data, awaiting := some (func, a) })
            else lineMod m1 line (fun l => { l with awaiting := some (func, a) }))

/-- An in-step shadow that has seen no start bit by slot start + 3.5 t_c sends the same request (R262). -/
def execLineTakeover (sl : Slot) (line : Nat) (s : State) : Res :=
  onMod s sl (fun m => match lineOf m line with
    | none => m
    | some l =>
      if !sends m || isLead m || m.pair.mode != .inStep || l.request.isEmpty || l.startSeen then m
      else
        let a := byteAt l.request 0
        let func := byteAt l.request 1
        let data := l.request.drop 2
        let acy := if func = 0x12 then (match acyPick (acyCandidates m .line line) with | some (_, x) => some x.seq | none => none) else none
        lineMod (lineSend m line a (32 * line + a) func data acy) line (fun l => { l with takeover := inc32 l.takeover }))

/-- The 32-bit SEQ whose low 16 bits a REPLY echoes: the newest of the output stream it answers (R267). -/
def extend16 (last : W32) (low : Nat) : W32 :=
  last - w32 ((last.toNat % 65536 + 65536 - low) % 65536)

/-- A frame from a drop: direction bit set, CRC good, LEN right (R259). -/
def lineParse (b : Bytes) : Option (Nat × Nat × Bytes) :=
  if b.length < 5 ∨ b.length ≠ 5 + be b 2 1 ∨ 240 < be b 2 1 ∨ (crc16 0xFFFF (b.take (b.length - 2))).toNat ≠ be b (b.length - 2) 2 then none
  else some (be b 0 1, be b 1 1, (b.drop 3).take (be b 2 1))

/-- A REPLY: inputs, UNASSIGNED, acyclic report (R260, R263, R267). A drop that answers START unassigned no more is confirmed; an
ONLINE drop that shows UNASSIGNED has restarted. -/
def lineReply (m p : Module) (id : Nat) (d : DropCfg) (data : Bytes) : Module :=
  if data.length < 4 + d.inLen then m
  else
    let fl := be data 2 1
    let unassigned := bit fl 5
    let st : Byte := BitVec.ofNat 8 (fl / 64 * 64)
    let key := extend16 (if d.st == .online then d.lastSeq else d.outSeq - 1) (be data 0 2)
    let m1 := if d.st == .online && !unassigned
      then holdInput m id d { key := key, time := now m, data := [st, 0] ++ (data.drop 4).take d.inLen } else m
    let m2 := acyReport m1 p id d (be data 3 1)
    if !isLead m then m2
    else if d.st == .negotiating && d.assigning && !unassigned then confirmAssign m2 p id
    else if d.st == .online && unassigned then startLegacy m2 p id d d.acyAcked
    else m2

/-- An IDENT_REPLY, as a HELLO (R260, R263). -/
def lineIdent (m p : Module) (line id : Nat) (d : DropCfg) (data : Bytes) : Module :=
  if data.length < 8 then m
  else
    let assigned := bit (be data 0 1) 0
    let fam := w32 (be data 1 1)
    let changed := d.st != .absent && fam != d.family
    let m1 := dropMod m id (fun d => { d with family := fam, channels := be data 2 2 })
    let m2 := if d.st == .online && !assigned then lineMod m1 line (fun l => { l with replyMissing := inc32 l.replyMissing }) else m1
    if isLead m then helloLegacy m2 p id d assigned changed (w32 (be data 4 4)) else m2

/-- Characters received in a slot. A frame with an error is LINE_ERROR; a reply is taken from the drop it is awaited from. -/
def execLineReplyReceive (sl : Slot) (line : Nat) (bytes : Bytes) (good : Bool) (s : State) : Res :=
  onPair s sl (fun m p => match lineOf m line with
    | none => m
    | some l =>
      if !fw m then m
      else
        let m0 := lineMod m line (fun l => { l with startSeen := true })
        match (if good then lineParse bytes else none) with
        | none => lineMod m0 line (fun l => { l with lineError := inc32 l.lineError })
        | some (a, func, data) =>
          let addr := a % 32
          if a / 128 = 0 then m0
          else match l.awaiting with
            | none => m0
            | some (req, aw) =>
              if aw ≠ addr then m0
              else match lineDrop m line addr with
                | none => m0
                | some d =>
                  let m1 := lineMod m0 line (fun l => { l with awaiting := none })
                  let id := 32 * line + addr
                  if func = 0x11 ∧ (req = 0x10 ∨ req = 0x16) then lineReply m1 p id d data
                  else if func = 0x13 ∧ req = 0x12 ∧ data ≠ [] then acyReport m1 p id d (be data 0 1)
                  else if func = 0x15 ∧ req = 0x14 then lineIdent m1 p line id d data
                  else m0)

/-- No reply within 24 bit times (R263). -/
def execLineReplyTimeout (sl : Slot) (line : Nat) (s : State) : Res :=
  onMod s sl (fun m => lineMod m line (fun l =>
    if l.awaiting.isSome then { l with awaiting := none, replyMissing := inc32 l.replyMissing } else l))

/-- The slots of a poll cycle and the address whose turn IDENT is next (R261). -/
def pollSlots (m : Module) (line : Nat) (l : Line) : List (Nat × Nat) × Nat :=
  let ds := dropsOn m .line line
  let polls := (ds.filter (fun x => x.2.st == .online || x.2.st == .negotiating)).map (fun x => (0, x.2.position))
  let idents := (ds.filter (fun x => x.2.st == .absent || x.2.st == .offline)).map (fun x => x.2.position)
  let turn := match idents.find? (fun a => decide (l.identTurn ≤ a)) with
    | some a => some a
    | none => idents.head?
  (polls ++ List.replicate l.k (1, 0) ++ (match turn with | some a => [(2, a)] | none => []),
   match turn with | some a => a + 1 | none => 0)

/-- LINE_POLL_CYCLE_START: a cycle that still runs is cut (R261). -/
def startPoll (m : Module) (line : Nat) : Module :=
  match lineOf m line with
  | none => m
  | some l =>
    if !sends m then m
    else
      let (ss, t) := pollSlots m line l
      lineMod m line (fun l =>
        { l with slots := ss, identTurn := t, awaiting := none, request := [], rowCut := if l.slots.isEmpty then l.rowCut else inc32 l.rowCut })

end Sys2Proof.Machine
end

