-- ==== Sys2Proof/Machine/Station.lean ====
section
/-! DEFINITION. Machine/Station.lean: what a drop of the field does (R218, R222, R224, R228, R229, R231, R235 to R237, R258, R263). -/

namespace Sys2Proof.Machine
open Sys2Proof Sys2Proof.Bits

/-- An event at a drop that draws one free value. -/
def onStationFree (s : State) (id : Nat) (f : Station → Nat → Station) : Res :=
  .next { s with stations := tmod s.stations id (fun x => f x s.fresh), fresh := s.fresh + 1 }

/-- What a drop sends or drives. -/
def dEmit (x : Station) (e : Emit) : Station := { x with out := x.out ++ [e] }

/-- The generation of a drop ID (R27). -/
def kindOf (id : Nat) : SegKind := if id < 0x80 then .line else if id < 0x180 then .bus else .ring

/-- Octets that a drop samples. -/
def sampled (draw n : Nat) : Bytes := (List.range n).map (fun i => Config.sampleByte draw (i + 1))

/-- Sample the inputs with their status (R224). -/
def sampleIn (x : Station) (draw : Nat) : Station :=
  { x with inputs := sampled draw x.inputs.length
           inputFault := (Config.sampleByte draw 0).getLsbD 7, inputsStale := (Config.sampleByte draw 0).getLsbD 6 }

/-- A frame of a ring drop (R213 to R215): FLAGS has ORIG_DROP. -/
def dropFrame (x : Station) (id ver ty fid : Nat) (seq : W32) (time : W64) (data : Bytes) : Frame :=
  let dst := ringDst x.segment
  let src := beBytes 6 x.mac
  { bytes := if ver = 1 then frameV1 dst src x.etherType ty 0x10 id seq data
             else frameV2 dst src x.etherType ty 0x10 fid id seq time data }

/-- DSTATUS (R216). -/
def dstatus (x : Station) : Nat := 128 * b2n x.inputFault + 64 * b2n x.inputsStale

/-- The IN frame goes out on both ports, or on the bus (R224, R251). -/
def sendIn (x : Station) (id : Nat) (time : W64) : Station :=
  let x := { x with inSeq := x.inSeq + 1 }
  match x.kind with
  | .ring => dEmit x (.dropRing 3 (dropFrame x id x.version 2 x.inFid.toNat x.inSeq time (beBytes 1 (dstatus x) ++ zeros 1 ++ x.inputs)))
  | .bus => dEmit x (.can x.segment
      { id := 0x200 + x.position,
        data := canData x.fd (beBytes 4 x.inSeq.toNat ++ beBytes 1 (dstatus x) ++ beBytes 1 (x.lastAcy.toNat % 256) ++ x.inputs) })
  | .line => x

/-- DATA of a HELLO (R236). -/
def helloData (x : Station) : Bytes :=
  beBytes 1 x.versions ++ beBytes 1 (4 * b2n x.assigned + 2 * b2n x.wrapDown + b2n x.wrapUp) ++ beBytes 2 x.channels
    ++ beBytes 4 x.lastAcy.toNat ++ beBytes 4 x.lastOut.toNat ++ beBytes 4 x.family.toNat ++ zeros 8

/-- Send a HELLO (R236, R251). -/
def sendHello (x : Station) (id : Nat) : Station :=
  match x.kind with
  | .ring => dEmit x (.dropRing 3 (dropFrame x id 1 6 0 0 0 (helloData x)))
  | .bus => dEmit { x with helloDue := false } (.can x.segment
      { id := 0x300 + x.position,
        data := beBytes 1 (b2n x.assigned + 2 * b2n x.fd) ++ beBytes 1 (x.family.toNat % 256) ++ beBytes 2 x.channels ++ beBytes 4 x.lastAcy.toNat })
  | .line => x

/-- Drive outputs from now on. -/
def drive (x : Station) (o : Bytes) : Station := dEmit { x with outputs := o } (.dropDrive o)

/-- Apply the outputs of an accepted copy: a STALE one leaves safe states in place (R222). -/
def applyOut (x : Station) (data : Bytes) (stale : Bool) : Station :=
  if stale && x.inSafe then x
  else drive (if stale then x else { x with inSafe := false }) data

/-- Apply, sample, send the IN frame of a ring drop (R222, R224); a bus drop samples in its own slot (R258). -/
def applyNow (x : Station) (id : Nat) (time : W64) (data : Bytes) (stale : Bool) (draw : Nat) : Station :=
  let x1 := applyOut x data stale
  match x1.kind with
  | .ring => sendIn (sampleIn x1 draw) id time
  | _ => x1

/-! ### Forwarding -/

/-- A frame passes from one port to the other, or back where the far port is wrapped: FCS stomped where it came wrong, PTP event
messages corrected by a v2 drop, own frames removed, Pdelay not forwarded (R218, R238, R241). `up`: it arrives at the port
toward lower positions. -/
def execDropFrameForward (id : Nat) (up : Bool) (f : Frame) (ptp : Option Nat) (s : State) : Res :=
  onStation s id (fun x =>
    let rf := parseFrame f.bytes
    let isPtp : Bool := rf.ety == 0x88F7
    if !x.powered || x.kind != .ring || !(if up then x.linkUp else x.linkDown) || macNat rf.src == x.mac || (isPtp && isPdelay f.bytes) then x
    else
      let b := match ptp with
        | some ns => if isPtp && x.version == 2 then ptpCorrect f.bytes ns else f.bytes
        | none => f.bytes
      let port := if up then (if x.wrapDown then 1 else 2) else (if x.wrapUp then 2 else 1)
      dEmit x (.dropRing port { bytes := b, fcs := fcsOut f.fcs }))

/-! ### Outputs -/

/-- An OUT copy on a ring: accepted when 1 ≤ d ≤ 65,536 (R222, R228). -/
def outRing (x : Station) (id : Nat) (f : Frame) (t : W64) (draw : Nat) : Station :=
  let rf := parseFrame f.bytes
  let d := dist32 rf.seq x.lastOut
  if f.fcs != .good || rf.ty != 1 || rf.ver != x.version || rf.drop != id || !x.assigned || !lenFits rf || d < 1 || decide (65536 < d) then x
  else
    let stale := bit rf.flags 7
    let x1 := { x with lastOut := rf.seq, etherType := rf.ety }
    if rf.time = 0 ∨ x.version = 1 then applyNow x1 id t rf.data stale draw
    else if almDiff t rf.time < 0 then { x1 with waitingOut := x1.waitingOut ++ [(rf.time, rf.data, stale)] }
    else applyNow { x1 with lateOut := x1.lateOut + 1 } id t rf.data stale draw

/-- An OUT part on a bus, as the bytes of its frame: counted per part, applied on receipt (R258). The part lies at its stride in
the outputs. -/
def outBus (x : Station) (b : Bytes) : Station :=
  let seq := w32 (be b 0 4)
  let part := field (be b 4 1) 5 4
  let stale := bit (be b 4 1) 7
  let last := (tget x.lastParts part).getD (x.lastOut)
  let d := dist32 seq last
  if !x.assigned || b.length < 6 || d < 1 || decide (65536 < d) then x
  else
    let stride := if x.fd then 58 else 2
    applyOut { x with lastParts := tset x.lastParts part seq } (overwrite x.outputs (stride * part) (b.drop 6)) stale

/-- The first copy of an output SEQ; on a bus `f` holds the data bytes of the OUT frame. -/
def execDropOutAccept (id : Nat) (f : Frame) (now : W64) (s : State) : Res :=
  onStationFree s id (fun x draw =>
    if !x.powered then x
    else match x.kind with
      | .ring => outRing x id f now draw
      | .bus => if f.fcs == .good then outBus x f.bytes else x
      | .line => x)

/-- At TIME (R222). -/
def execDropApplyTime (id : Nat) (s : State) : Res :=
  onStationFree s id (fun x draw => match x.waitingOut with
    | [] => x
    | (t, data, stale) :: rest => if !x.powered then x else applyNow { x with waitingOut := rest } id t data stale draw)

/-- No OUT frame without STALE for the output watchdog time (R222). -/
def execDropOutputWatchdogExpiry (id : Nat) (s : State) : Res :=
  onStation s id (fun x => if x.powered && !x.inSafe then drive { x with inSafe := true } x.safe else x)

/-- No accepted OUT frame for 100 ms: HELLO; a gen-1 drop counts itself not assigned (R224, R258). -/
def execDropOutAbsenceTimeout (id : Nat) (s : State) : Res :=
  onStation s id (fun x =>
    if !x.powered || !x.assigned then x
    else match x.kind with
      | .ring => sendHello x id
      | .bus => { x with assigned := false, lastParts := [], helloDue := true }
      | .line => x)

/-! ### Acyclic messages -/

/-- Apply the next message. -/
def applyAcy (x : Station) (cls : W16) (payload : Bytes) : Station :=
  { x with lastAcy := x.lastAcy + 1, applied := x.applied ++ [(x.lastAcy + 1, beBytes 2 cls.toNat ++ payload)] }

/-- The ACK of a ring drop, on both ports; its TIME is the drop's own time (R216, R231). -/
def sendAck (x : Station) (id : Nat) (t : W64) : Station :=
  dEmit x (.dropRing 3 (dropFrame x id x.version 4 0 x.lastAcy t []))

/-- The rule of 8 bits on buses and lines (R266). -/
def acy8 (x : Station) (low : Nat) (cls : W16) (payload : Bytes) : Station :=
  if (low + 256 - x.lastAcy.toNat % 256) % 256 = 1 then applyAcy x cls payload else x

/-- An acyclic message at a drop (R231, R266). -/
def execDropAcyReceive (id : Nat) (seq : W32) (cls : W16) (payload : Bytes) (s : State) : Res :=
  onStationFree s id (fun x draw =>
    if !x.powered then x
    else match x.kind with
      | .ring =>
        let d := dist32 seq x.lastAcy
        let t := Config.freeValue draw
        if d = 1 then sendAck (applyAcy x cls payload) id t
        else if d = 0 ∨ 0x80000000 ≤ d then sendAck x id t
        else x
      | .bus => acy8 x (seq.toNat % 256) cls payload
      | .line => x)

/-! ### Assignment, HELLO, SYNC -/

/-- An ASSIGN on a ring that the drop takes up: a repeat changes nothing, a new one brings version, S0, FRAME_IDs and watchdog;
either is answered with HELLO (R229, R237). -/
def assignRing (x : Station) (id : Nat) (f : Frame) : Station :=
  let rf := parseFrame f.bytes
  let v := byteAt rf.data 6
  if f.fcs != .good || rf.ty != 7 || rf.ver != 1 || rf.drop != id || rf.data.length < 28 || be rf.data 0 6 != x.mac
      || (v != 1 && v != 2) || !bit x.versions (v - 1) then x
  else if x.assigned && x.assign == rf.data then sendHello x id
  else
    sendHello { x with assigned := true, assign := rf.data, version := v, lastOut := w32 (be rf.data 8 4) - 1, outFid := w16 (be rf.data 16 2),
                       inFid := w16 (be rf.data 18 2), watchdog := be rf.data 20 4, etherType := rf.ety, waitingOut := [] } id

/-- An ASSIGN on a bus, as its 8 bytes (R251, R258). -/
def assignBus (x : Station) (b : Bytes) : Station :=
  if b.length < 8 then x
  else if x.assigned && x.assign == b then { x with helloDue := true }
  else { x with assigned := true, assign := b, lastOut := w32 (be b 0 4) - 1, lastParts := [], inOffset := be b 4 2,
                watchdog := 1000 * be b 6 2, helloDue := true }

def execDropAssignReceive (id : Nat) (f : Frame) (s : State) : Res :=
  onStation s id (fun x =>
    if !x.powered then x
    else match x.kind with
      | .ring => assignRing x id f
      | .bus => if f.fcs == .good then assignBus x f.bytes else x
      | .line => x)

/-- Periodic HELLO: until assigned, while it wraps, or to answer an ASSIGN on a bus (R236, R258). -/
def execDropHelloTimer (id : Nat) (s : State) : Res :=
  onStation s id (fun x =>
    if !x.powered then x
    else match x.kind with
      | .ring => if (x.linkUp || x.linkDown) && (!x.assigned || x.wrapUp || x.wrapDown) then sendHello x id else x
      | .bus => if !x.assigned || x.helloDue then sendHello x id else x
      | .line => x)

/-- A SYNC frame within 2 µs of the event; a v1 drop has none (R235, R238, R251, R258). -/
def execDropSyncEvent (id : Nat) (code : W16) (time : W64) (s : State) : Res :=
  onStation s id (fun x =>
    let n := x.lastEvent + 1
    match x.kind with
    | .ring =>
      if !x.powered || x.version != 2 then x
      else dEmit { x with lastEvent := n } (.dropRing 3 (dropFrame x id 2 5 0 n time (beBytes 2 code.toNat ++ zeros 2)))
    | .bus =>
      if !x.powered then x
      else dEmit { x with lastEvent := n } (.can x.segment
        { id := 0x080 + x.position, data := beBytes 2 (n.toNat % 65536) ++ beBytes 6 (time.toNat % 2 ^ 48) })
    | .line => x)

/-! ### Links and power -/

/-- Loss of link on a port: the drop wraps (R26, R218). -/
def execDropLinkLoss (id : Nat) (up : Bool) (s : State) : Res :=
  onStation s id (fun x =>
    if !x.powered || x.kind != .ring then x
    else if up then { x with linkUp := false, wrapUp := true } else { x with linkDown := false, wrapDown := true })

/-- Link stable for 1 ms: the drop leaves the wrap (R218). -/
def execDropLinkStable (id : Nat) (up : Bool) (s : State) : Res :=
  onStation s id (fun x =>
    if !x.powered || x.kind != .ring then x
    else if up then { x with linkUp := true, wrapUp := false } else { x with linkDown := true, wrapDown := false })

/-- A drop as it is made (log entry 21). -/
def newStation (id : Nat) : Station :=
  let place := legacyPlace id
  { kind := kindOf id
    segment := if kindOf id = .ring then 0 else place.2.1
    position := if kindOf id = .ring then 1 else place.2.2
    mac := Config.dropMac id % 2 ^ 48, versions := Config.dropVersions id % 3 + 1, family := Config.dropFamily id
    channels := Config.dropChannels id % 65536, inputs := zeros (Config.dropInputs id), fd := Config.dropFd id, safe := Config.dropSafe id }

/-- Power-up: safe states, an input SEQ of the drop's own choice, a wrap at any dark port; only the last applied acyclic SEQ is
kept (R218, R222, R224, R231). -/
def execDropPowerUp (id : Nat) (linkUp linkDown : Bool) (s : State) : Res :=
  let x := (tget s.stations id).getD (newStation id)
  let ring : Bool := x.kind == .ring
  let x1 : Station :=
    { x with powered := true, assigned := false, version := 0, assign := [], lastOut := 0, lastParts := [],
             inSeq := (Config.freeValue s.fresh).setWidth 32, lastEvent := 0, inSafe := true, waitingOut := [], lateOut := 0,
             linkUp := linkUp, linkDown := linkDown, wrapUp := ring && !linkUp, wrapDown := ring && !linkDown, rowStart := none,
             unassigned := true, helloDue := false }
  .next { s with stations := tset s.stations id (drive x1 x1.safe), fresh := s.fresh + 1 }

/-- Power loss: the drop stops (R289). -/
def execDropPowerLoss (id : Nat) (s : State) : Res :=
  onStation s id (fun x =>
    { x with powered := false, assigned := false, version := 0, assign := [], waitingOut := [], linkUp := false, linkDown := false,
             rowStart := none, unassigned := true, inSafe := true, outputs := [] })

/-! ### Gen-1 and gen-0 timing -/

/-- A ROW frame: its SOF is the row start (R258); the frame carries its time. -/
def execDropRowReceive (id : Nat) (f : CanFrame) (s : State) : Res :=
  onStation s id (fun x =>
    if x.powered && x.kind == .bus && f.id == 0 && !f.foreign && decide (8 ≤ f.data.length)
    then { x with rowStart := some (w64 (be f.data 2 6)) } else x)

/-- Row start plus IN offset: sample and transmit (R258). -/
def execDropInSlotTime (id : Nat) (s : State) : Res :=
  onStationFree s id (fun x draw =>
    if x.powered && x.kind == .bus && x.assigned && x.rowStart.isSome
    then sendIn { sampleIn x draw with rowStart := none } id 0 else x)

/-- A reply on a line (R259, R260). -/
def lineAnswer (x : Station) (func : Nat) (data : Bytes) : Station :=
  dEmit x (.line x.segment (lineCrc (beBytes 1 (128 + x.position % 32) ++ beBytes 1 func ++ beBytes 1 data.length ++ data)))

/-- REPLY with inputs sampled after the request (R260, R263). -/
def lineAnswerReply (x : Station) (echo : Nat) (draw : Nat) : Station :=
  let x1 := sampleIn x draw
  lineAnswer x1 0x11 (beBytes 2 echo ++ beBytes 1 (dstatus x1 + 32 * b2n x1.unassigned) ++ beBytes 1 (x1.lastAcy.toNat % 256) ++ x1.inputs)

/-- A request addressed to a gen-0 drop (R263). -/
def execLineDropRequestReceive (id : Nat) (bytes : Bytes) (s : State) : Res :=
  onStationFree s id (fun x draw =>
    if !x.powered || x.kind != .line then x
    else match lineParse bytes with
      | none => x
      | some (a, func, data) =>
        if a / 128 ≠ 0 ∨ a % 32 ≠ x.position % 32 then x
        else if func = 0x10 ∧ 3 ≤ data.length then
          let seq := be data 0 2
          let d := (seq + 65536 - x.lastOut.toNat % 65536) % 65536
          let x1 := if x.unassigned || d < 1 || decide (32767 < d) then x
            else applyOut { x with lastOut := w32 seq } (data.drop 3) (bit (be data 2 1) 7)
          lineAnswerReply x1 seq draw
        else if func = 0x16 ∧ 4 ≤ data.length then
          lineAnswerReply { x with lastOut := w32 ((be data 0 2 + 65535) % 65536), unassigned := false, assigned := true,
                                   watchdog := 1000 * be data 2 2 } (be data 0 2) draw
        else if func = 0x12 ∧ 3 ≤ data.length then
          let x1 := acy8 x (be data 0 1) (w16 (be data 1 2)) (data.drop 3)
          lineAnswer x1 0x13 (beBytes 1 (x1.lastAcy.toNat % 256))
        else if func = 0x14 then
          lineAnswer x 0x15 (beBytes 1 (b2n (!x.unassigned)) ++ beBytes 1 (x.family.toNat % 256) ++ beBytes 2 x.channels ++ beBytes 4 x.lastAcy.toNat)
        else x)

end Sys2Proof.Machine
end

