-- ==== Sys2Proof/Machine/Maint.lean ====
section
/-! DEFINITION. Machine/Maint.lean: the maintenance token of a pair and its commands (R385 to R388). -/

namespace Sys2Proof.Machine
open Sys2Proof Sys2Proof.Bits

/-- Change the maintenance state. -/
def maintMod (m : Module) (f : Maint → Maint) : Module := { m with maint := f m.maint }

/-- The table of R386: 0 both run together, 1 the request waits, 2 it is refused. `same`: one QP holds both. -/
def tokenRule (entered requested : Nat) (same : Bool) : Nat :=
  match entered with
  | 1 => ([2, 0, 1, 2, 2, 0] : List Nat).getD (requested - 1) 2
  | 2 => ([1, 2, 1, 1, 1, 2] : List Nat).getD (requested - 1) 2
  | 3 => ([0, 2, 2, 2, 2, 0] : List Nat).getD (requested - 1) 2
  | 4 => ([2, 0, 1, 2, if same then 0 else 2, 0] : List Nat).getD (requested - 1) 2
  | 5 => ([2, 0, 1, if same then 0 else 2, 2, 0] : List Nat).getD (requested - 1) 2
  | 6 => ([0, 0, 1, 0, 0, 2] : List Nat).getD (requested - 1) 2
  | _ => 0

/-- The row of a running confirm window. -/
def windowRule (requested : Nat) : Nat := ([0, 2, 0, 2, 2, 0] : List Nat).getD (requested - 1) 2

/-- A confirm window runs on this module or on a partner it can see. -/
def anyWindow (m p : Module) : Bool := m.boot.windowRunning || (linked m p && p.boot.windowRunning)

/-- The strictest entry governs (R386). -/
def judge (m p : Module) (cls : Nat) (h : Holder) : Nat :=
  let byEntries := m.maint.entries.foldl (fun a x => max a (tokenRule x.1 cls (x.2.holder == h))) 0
  if anyWindow m p then max byEntries (windowRule cls) else byEntries

/-- Holder codes of R388 and R390. -/
def holderCode : Holder → Nat
  | .qp _ => 1
  | .pair => 2
  | .frontA => 3
  | .frontB => 4
  | .relay => 5

/-- The QP of a holder. -/
def holderQp : Holder → Nat
  | .qp n => n
  | _ => 0

/-- MAINT_TOKEN: action 0 entered, 1 given, 2 lease expired, 3 ended (R387, R390). -/
def tokenRecord (m : Module) (action cls : Nat) (h : Holder) : Module :=
  logBoth m 0x0A05 0 0 0xFFFF (leBytes 1 action ++ leBytes 1 cls ++ leBytes 1 (holderCode h) ++ zeros 1 ++ leBytes 2 (holderQp h))

/-- Enter a class. -/
def enterClass (m : Module) (cls : Nat) (h : Holder) (leaseMin : Nat) : Module :=
  tokenRecord (maintMod m (fun x => { x with entries := tset x.entries cls { holder := h, leaseMin := leaseMin, since := m.phys } })) 0 cls h

/-- Leave a class. -/
def leaveClass (m : Module) (action cls : Nat) : Module :=
  match tget m.maint.entries cls with
  | none => m
  | some e => tokenRecord (maintMod m (fun x => { x with entries := tdel x.entries cls })) action cls e.holder

/-- Does the QP hold the class? -/
def holdsClass (m : Module) (cls qp : Nat) : Bool :=
  match tget m.maint.entries cls with
  | some e => e.holder == .qp qp
  | none => false

/-- The token is mirrored to a partner in the acceptance set (R385). -/
def mirrorToken (m p : Module) : Module :=
  if linked m p && m.pair.partnerInSet && isLead m then maintMod p (fun x => { x with entries := m.maint.entries }) else p

/-- An event of the lead that moves the token: the partner's copy follows. -/
def withToken (f : Module → Module → Module) (m p : Module) : Module × Module :=
  let m' := f m p
  (m', mirrorToken m' p)

/-- MAINT.TAKE (R385 to R388). -/
def hMaintTake (m p : Module) (c : Cmd) : QRes :=
  let cls := prmB c 0
  let lease := if prm c 2 2 = 0 then 60 else prm c 2 2
  if cls ∉ [1, 4, 5, 6] ∨ 1440 < lease then .refused 7 0
  else if holdsClass m cls c.qp then
    ok (maintMod m (fun x => { x with entries := tset x.entries cls { holder := .qp c.qp, leaseMin := lease, since := m.phys } }))
  else match judge m p cls (.qp c.qp) with
    | 0 => ok (enterClass m cls (.qp c.qp) lease)
    | 1 => .waits
    | _ => .refused 12 0

/-- MAINT.GIVE (R388). -/
def hMaintGive (m _p : Module) (c : Cmd) : QRes :=
  let cls := prmB c 0
  if cls < 1 ∨ 6 < cls then .refused 7 0
  else if holdsClass m cls c.qp || (bit (prmB c 1) 0 && c.qp == 0) then ok (leaveClass m 1 cls)
  else .refused 10 0

/-- Minutes of a lease that remain, rounded up. -/
def leaseRemains (m : Module) (e : MaintEntry) : Nat :=
  let total := e.leaseMin * 60000000000
  let gone := m.phys - e.since
  (total - gone + 59999999999) / 60000000000

/-- MAINT.STATUS (R388). -/
def hMaintStatus (m p : Module) (_c : Cmd) : QRes :=
  let entry (cls : Nat) : Bytes := match tget m.maint.entries cls with
    | some e => leBytes 1 1 ++ leBytes 1 (holderCode e.holder) ++ leBytes 2 (holderQp e.holder) ++ leBytes 2 (leaseRemains m e) ++ zeros 2
    | none => zeros 8
  let win (sl : Slot) : Bool := if m.slot = sl then m.boot.windowRunning else linked m p && p.boot.windowRunning
  okRsp (((List.range 6).map (fun i => entry (i + 1))).flatten ++ leBytes 1 (b2n (win .a) + 2 * b2n (win .b)) ++ zeros 15) m

def execMaintTake (sl : Slot) (c : Cmd) (s : State) : Res := quondi hMaintTake .work .sys 0x0A06 s sl c
def execMaintGive (sl : Slot) (c : Cmd) (s : State) : Res := quondi hMaintGive .work .sys 0x0A07 s sl c
def execMaintStatus (sl : Slot) (c : Cmd) (s : State) : Res := quondi hMaintStatus .query .any 0x0A08 s sl c

/-- The lead counts the lease of a QP's class (R385). -/
def execMaintLeaseExpiry (sl : Slot) (cls : Nat) (s : State) : Res :=
  onBoth s sl (withToken (fun m _ =>
    if !fw m || !isLead m then m
    else match tget m.maint.entries cls with
      | some e => if holderCode e.holder = 1 then leaveClass m 2 cls else m
      | none => m))

/-- A command that has waited 60 s for a class ends REFUSED with TIMEOUT (R386). -/
def execMaintWaitTimeout (sl : Slot) (qp : Nat) (ticket : W64) (s : State) : Res :=
  onMod s sl (fun m => match m.maint.waits.find? (fun w => w.1 == qp && w.2.2.ticket == ticket) with
    | none => m
    | some (_, code, c) =>
      finish (maintMod m (fun x => { x with waits := x.waits.filter (fun w => !(w.1 == qp && w.2.2.ticket == ticket)) }))
        .work code c 4 0x0011 0 [])

end Sys2Proof.Machine
end

