-- ==== Sys2Proof/Machine/LocalIo.lean ====
section
/-! DEFINITION. Machine/LocalIo.lean: the local front: analog inputs, calibration and trims, DIO and FDO, vigil, bindings and the
LOCALIO commands (R319 to R341). -/

namespace Sys2Proof.Machine
open Sys2Proof Sys2Proof.Bits

/-- Change the local front, an analog input. -/
def lioMod (m : Module) (f : Lio → Lio) : Module := { m with lio := f m.lio }
def aiMod (m : Module) (ch : Nat) (f : Ai → Ai) : Module := lioMod m (fun l => { l with ai := modNth l.ai ch f })

/-! ### Calibration (R328) -/

/-- The copy in use: the higher count among those that pass their CRC. -/
def calCopy (a : Ai) : CalCopy :=
  if a.copy0.good && (!a.copy1.good || decide (a.copy1.count ≤ a.copy0.count)) then a.copy0
  else if a.copy1.good then a.copy1 else a.copy0

/-- I = REF_LO + (I_raw − RAW_LO) × (REF_HI − REF_LO) ÷ (RAW_HI − RAW_LO); the rounding is open (log entry 22). -/
def calibrated (c : CalCopy) (raw : Int) : Int :=
  let num := (raw - c.rawLo) * (c.refHi - c.refLo)
  let den := c.rawHi - c.rawLo
  if den = 0 then c.refLo
  else c.refLo + num / den + (if num % den ≠ 0 ∧ Config.calRoundsUp num den = true then 1 else 0)

/-- A trim writes the copy with the lower count (R328). -/
def trimCopy (a : Ai) (span : Bool) (ref raw : Int) : Ai :=
  let c := calCopy a
  let n := max a.copy0.count a.copy1.count + 1
  let new := if span then { c with refHi := ref, rawHi := raw, count := n, good := true }
    else { c with refLo := ref, rawLo := raw, count := n, good := true }
  if a.copy1.count < a.copy0.count then { a with copy1 := new } else { a with copy0 := new }

/-- The raw point a trim replaces. -/
def oldPoint (a : Ai) (span : Bool) : Int := if span then (calCopy a).rawHi else (calCopy a).rawLo

/-! ### Analog status (R326, R340) -/

/-- Status bits of an analog input with a present current. -/
def aiStatus (m : Module) (a : Ai) (cal : Int) (unsettled limited : Bool) : W16 :=
  w16 (b2n unsettled + 2 * b2n (a.mode == 1 && decide (cal < 500000)) + 4 * b2n limited + 8 * b2n a.thermal
    + 16 * b2n (decide (cal < 3600000)) + 32 * b2n (decide (21000000 < cal)) + 64 * b2n a.supplySat + 128 * b2n (!wired m))

/-- QUALITY from the status bits (R326). -/
def aiQuality (b : W16) : W16 :=
  let range := b.getLsbD 4 || b.getLsbD 5
  let cls := if b.getLsbD 1 || b.getLsbD 2 || b.getLsbD 3 || b.getLsbD 6 || b.getLsbD 7 then 0
    else if b.getLsbD 0 || range then 1 else 3
  withClass (w16 (32 * b2n (b.getLsbD 0) + 4 * b2n range)) cls

/-- AI_FAULT on entry of a fault, that is of any bit but UNSETTLED and NOT_WIRED (R341, log entry 23). -/
def aiFault (m : Module) (ch : Nat) (bits : W16) : Module :=
  match m.lio.ai[ch]? with
  | none => m
  | some a =>
    let bad : Bool := (bits &&& 0x7E) != 0
    let m1 := aiMod m ch (fun a => { a with faulted := bad })
    if bad && !a.faulted
    then logEv m1 0x0801 5 ch 0xFFFF (leBytes 1 ch ++ zeros 1 ++ leBytes 2 bits.toNat ++ leBytes 4 (unsigned 32 a.cal) ++ leBytes 2 a.supply)
    else m1

/-- Order N of a response (R324). -/
def cicOrder (r : Nat) : Nat := ([3, 3, 4, 4, 5, 5, 5, 5] : List Nat).getD r 5

/-- Integrators and combs cleared, decimation restarted: the first N outputs are unsettled (R325). -/
def cicRestart (a : Ai) : Ai := { a with unsettled := cicOrder a.response, restarts := a.restarts + 1 }

/-- An output completes: scaled to 0 to 24 mA, calibrated, classified (R324 to R326). -/
def execCicOutput (sl : Slot) (channel : Nat) (raw : Int) (limited : Bool) (s : State) : Res :=
  onMod s sl (fun m => match m.lio.ai[channel]? with
    | none => m
    | some a =>
      if !fw m || a.mode == 0 then m
      else
        let r := max 0 (min 24000000 raw)
        let cal := calibrated (calCopy a) r
        let bits := aiStatus m a cal (a.unsettled != 0) limited
        aiFault (aiMod m channel (fun a =>
          { a with raw := r, cal := cal, limited := limited, unsettled := a.unsettled - 1, outAt := now m, bits := bits, prevCal := a.cal, prevBits := a.bits }))
          channel bits)

/-- The loop supplies every 1 ms: V = V_tx + I × (50 Ω + R_w) + 1 V within 8 V to 28 V, up by at most 2 V and down by at most
0.5 V (R323). -/
def supplyUpdate (a : Ai) : Ai :=
  if a.mode ≠ 1 then { a with supply := 0, supplySat := false }
  else
    let want : Nat := 100 * a.vtx + (a.cal.toNat * (50 + a.rw)) / 1000000 + 1000
    let v := max 8000 (min 28000 want)
    let sat : Bool := decide (28000 < want)
    if a.thermal then { a with supply := 0, supplySat := sat }
    else { a with supplySat := sat, supply := if a.supply < v then min v (a.supply + 2000) else max v (a.supply - 500) }

def execLoopSupplyUpdate (sl : Slot) (s : State) : Res :=
  onMod s sl (fun m =>
    if !fw m then m
    else (List.range 16).foldl (fun x i => match x.lio.ai[i]? with
      | some a => aiFault x i (aiStatus x a a.cal (a.unsettled != 0) a.limited)
      | none => x) (lioMod m (fun l => { l with ai := l.ai.map supplyUpdate })))

/-- The pass element exceeds 135 °C. -/
def execLoopSupplyThermal (sl : Slot) (channel : Nat) (s : State) : Res :=
  onMod s sl (fun m => match m.lio.ai[channel]? with
    | none => m
    | some a =>
      if !fw m || a.mode != 1 then m
      else
        let m1 := aiMod m channel (fun a => { a with thermal := true, supply := 0 })
        aiFault m1 channel (aiStatus m1 { a with thermal := true } a.cal (a.unsettled != 0) a.limited))

/-- Below 115 °C and after 1 s. -/
def execLoopSupplyRestart (sl : Slot) (channel : Nat) (s : State) : Res :=
  onMod s sl (fun m => if fw m then aiMod m channel (fun a => { a with thermal := false }) else m)

/-! ### Trims (R329, R330) -/

/-- A trim's outcome on the average and the spread: 0, or the refusal. -/
def trimVerdict (t : Trim) (average : Int) (spread : Nat) : Nat :=
  if 480000 < (average - t.reference).natAbs then 0x0802 else if 20000 < spread then 0x0803 else 0

/-- Write the point with its TRIM record (R328, R341). -/
def writeTrim (m : Module) (t : Trim) (button : Bool) (average : Int) : Module :=
  let m1 := aiMod m t.channel (fun a => trimCopy a t.span t.reference average)
  logEv m1 0x0805 5 t.channel 0xFFFF (leBytes 1 t.channel ++ leBytes 1 (b2n t.span) ++ leBytes 1 (b2n (!button)) ++ zeros 1
    ++ leBytes 4 (unsigned 32 t.reference) ++ leBytes 4 (unsigned 32 t.oldRaw) ++ leBytes 4 (unsigned 32 average))

/-- The end of a LOCALIO.TRIM at the lead. -/
def finishTrim (m : Module) (t : Trim) (average : Int) (spread : Nat) : Module :=
  let m1 := if t.ownClass then leaveClass m 3 6 else m
  let m2 := lioMod m1 (fun l => { l with trim := none })
  match t.cmd with
  | none => m2
  | some (_, c) => match trimVerdict t average spread with
    | 0 => finish m2 .work 0x0803 c 3 0 0 (leBytes 4 (unsigned 32 t.oldRaw) ++ leBytes 4 (unsigned 32 average))
    | e => finish m2 .work 0x0803 c 4 e 0 []

/-- The measuring module's end: the point is written or refused; a shadow reports to the lead. -/
def trimDone (m : Module) (t : Trim) (average : Int) (spread : Nat) : Module :=
  let v := trimVerdict t average spread
  let button : Bool := m.lio.trimMode.isSome && t.cmd.isNone && !t.remote && !t.ownClass
  let m1 := if v = 0 then writeTrim m t button average else m
  if button then lioMod m1 (fun l => { l with trim := none, trimShow := if v = 0 then 1 else if v = 0x0802 then 2 else 3 })
  else if isLead m then finishTrim m1 t average spread
  else
    let m2 := lioMod (if t.ownClass then maintMod m1 (fun x => { x with entries := tdel x.entries 6 }) else m1) (fun l => { l with trim := none })
    emit m2 (.sync (.trimReport t.channel average spread))

def execTrimMeasureDone (sl : Slot) (average : Int) (spread : Nat) (s : State) : Res :=
  onBoth s sl (fun m p => match m.lio.trim with
    | none => (m, p)
    | some t =>
      if !serving m || t.remote then (m, p)
      else
        let m' := trimDone m t average spread
        let p' := match p.lio.trim with
          | some u => if isLead m && linked m p && u.remote then lioMod p (fun l => { l with trim := none }) else p
          | none => p
        (m', mirrorToken m' p'))

/-- The shadow's measurement reaches the lead (R329). -/
def execSyncTrimReportReceive (sl : Slot) (channel : Nat) (average : Int) (spread : Nat) (s : State) : Res :=
  onPair s sl (fun m p => match m.lio.trim with
    | none => m
    | some t =>
      if !serving m || !linked m p || !isLead m || !t.remote || t.channel != channel then m else finishTrim m t average spread)

/-- LOCALIO.TRIM (R329). -/
def hLocalioTrim (m p : Module) (c : Cmd) : QRes :=
  let slot := prmB c 0
  let ch := prmB c 1
  let ref := prm c 4 4
  let span : Bool := prmB c 2 == 1
  if 1 < slot ∨ 15 < ch ∨ 1 < prmB c 2 ∨ (span = false ∧ (ref < 3000000 ∨ 6000000 < ref))
      ∨ (span = true ∧ (ref < 16000000 ∨ 22000000 < ref)) then .refused 7 0
  else
    let own : Bool := slotN m.slot == slot
    if !own && !linked m p then .refused 0x0502 0
    else match (if own then m else p).lio.ai[ch]? with
      | none => .refused 7 0
      | some a =>
        if a.mode = 0 then .refused 11 0
        else if m.lio.trim.isSome then .refused 12 0
        else if !holdsClass m 6 c.qp && judge m p 6 (.qp c.qp) == 1 then .waits
        else if !holdsClass m 6 c.qp && judge m p 6 (.qp c.qp) == 2 then .refused 12 0
        else
          let enter := !holdsClass m 6 c.qp
          let m1 := if enter then enterClass m 6 (.qp c.qp) 60 else m
          let t : Trim := { channel := ch, span := span, reference := ref, oldRaw := oldPoint a span, cmd := some (c.qp, c),
                            remote := !own, ownClass := enter }
          .later (lioMod m1 (fun l => { l with trim := some t }))

/-- The holder that stands for this module's buttons. -/
def frontHolder (m : Module) : Holder := match m.slot with | .a => .frontA | .b => .frontB

/-- Leave trim mode (R330). -/
def leaveTrimMode (m : Module) : Module :=
  match m.lio.trimMode with
  | none => m
  | some _ => leaveClass (lioMod m (fun l => { l with trimMode := none, trim := none })) 3 6

/-- A token moved by the buttons of either module is seen by both. -/
def shareToken (m p : Module) : Module × Module :=
  if linked m p && m.pair.inSet && p.pair.inSet then (m, maintMod p (fun x => { x with entries := m.maint.entries })) else (m, p)

/-- A brief ZERO press in trim mode. -/
def execButtonPress (sl : Slot) (s : State) : Res :=
  onMod s sl (fun m => if !serving m then m else lioMod m (fun l => { l with trimMode := l.trimMode.map (fun c => (c + 1) % 16), trimShow := 0 }))

/-- A button trim begins (R330): with the channel's mode off there is nothing to measure. -/
def buttonTrim (m : Module) (ch : Nat) (span : Bool) : Module :=
  match m.lio.ai[ch]? with
  | none => m
  | some a =>
    if a.mode = 0 ∨ m.lio.trim.isSome = true then m
    else
      let t : Trim := { channel := ch, span := span, reference := if span then 20000000 else 4000000, oldRaw := oldPoint a span, cmd := none }
      lioMod m (fun l => { l with trim := some t })

/-- A button held for 3 s: 0 both, 1 ZERO, 2 SPAN. -/
def buttonHeld (which : Nat) (m p : Module) : Module :=
  match m.lio.trimMode with
  | none =>
    if which ≠ 0 then m
    else if m.lio.trimLock then lioMod m (fun l => { l with trimShow := 4 })
    else if judge m p 6 (frontHolder m) ≠ 0 then lioMod m (fun l => { l with trimShow := 5 })
    else enterClass (lioMod m (fun l => { l with trimMode := some 0, trimShow := 0 })) 6 (frontHolder m) 0
  | some ch => if which = 0 then leaveTrimMode m else buttonTrim m ch (which == 2)

def execButtonHeld (sl : Slot) (which : Nat) (s : State) : Res :=
  onBoth s sl (fun m p => if !serving m || decide (2 < which) then (m, p) else shareToken (buttonHeld which m p) p)

/-- 60 s without a press. -/
def execTrimModeTimeout (sl : Slot) (s : State) : Res :=
  onBoth s sl (fun m p => if m.lio.trimMode.isNone then (m, p) else shareToken (leaveTrimMode m) p)

/-- LOCALIO.TRIM_LOCK (R331). -/
def hLocalioTrimLock (m _p : Module) (c : Cmd) : QRes :=
  if 1 < prmB c 0 then .refused 7 0
  else
    let on : Bool := prmB c 0 == 1
    let m1 := logBoth (lioMod m (fun l => { l with trimLock := on })) 0x0806 5 0 0xFFFF (leBytes 1 (prmB c 0))
    ok (if on then leaveTrimMode m1 else m1)

/-! ### DIO and FDO (R332 to R334) -/

/-- A terminal changes: the Glint literal follows; without a filter the point's state too. -/
def execDioInputChange (sl : Slot) (channel : Nat) (level : Bool) (s : State) : Res :=
  onMod s sl (fun m =>
    if !powered m then m
    else outChMod m 1 channel (fun o => { o with terminal := level, filtered := if o.filter = 0 then level else o.filtered }))

/-- The input has held its state for the filter time. -/
def execDiFilterPass (sl : Slot) (channel : Nat) (s : State) : Res :=
  onMod s sl (fun m => if powered m then outChMod m 1 channel (fun o => { o with filtered := o.terminal }) else m)

/-- A diagnostic on a channel: its bit, its record on entry, its latch. -/
def diagnose (m : Module) (kind ch bitMask : Nat) (latch : Bool) (load : Nat) : Module :=
  match outChOf m kind ch with
  | none => m
  | some o =>
    let m1 := outChMod m kind ch (fun o => { o with status := o.status ||| w16 bitMask, latched := o.latched || latch, load := load })
    let m2 := if o.status &&& w16 bitMask = 0
      then logEv m1 0x0802 5 ch 0xFFFF (leBytes 1 kind ++ leBytes 1 ch ++ leBytes 2 (o.status ||| w16 bitMask).toNat ++ leBytes 4 load) else m1
    refreshOut m2 kind ch

/-- A DO of the front, in a state where its switch works. -/
def isDo (m : Module) (ch : Nat) : Bool :=
  powered m && match outChOf m 1 ch with | some o => isOutput 1 o | none => false

def execDoOverload (sl : Slot) (channel : Nat) (milliamp : Nat) (s : State) : Res :=
  onMod s sl (fun m => if isDo m channel then diagnose m 1 channel 2 true milliamp else m)

/-- Every on channel of the group is latched off. -/
def execDoGroupLimit (sl : Slot) (group : Nat) (s : State) : Res :=
  onMod s sl (fun m => (List.range 8).foldl (fun a i => match outChOf a 1 (8 * group + i) with
    | some o => if isDo a (8 * group + i) && o.driven then diagnose a 1 (8 * group + i) 16 true o.load else a
    | none => a) m)

def execDoOvertemp (sl : Slot) (channel : Nat) (s : State) : Res :=
  onMod s sl (fun m => match outChOf m 1 channel with
    | some o => if isDo m channel then diagnose m 1 channel 8 true o.load else m
    | none => m)

/-- Reported only; in shared wiring by the lead alone. -/
def execDoOpenWire (sl : Slot) (channel : Nat) (s : State) : Res :=
  onMod s sl (fun m => match outChOf m 1 channel with
    | some o => if isDo m channel && o.openWireTest && (!sharedWiring m || isLead m) then diagnose m 1 channel 4 false o.load else m
    | none => m)

/-- What the channel's driver asks for. -/
def demandOf (m : Module) (kind ch : Nat) (o : OutCh) : Bool := if glintOwns m kind ch then glintOut m kind ch else o.demand

/-- Demand has been 0 for 1 ms: the latch ends. -/
def execDoLatchRearm (sl : Slot) (kind : Nat) (channel : Nat) (s : State) : Res :=
  onMod s sl (fun m => match outChOf m kind channel with
    | some o => if powered m && o.latched && !demandOf m kind channel o
        then refreshOut (outChMod m kind channel (fun o => { o with latched := false })) kind channel else m
    | none => m)

/-- Conditions absent for 100 ms after re-arming: OVERLOAD, OPEN_WIRE, OVERTEMP, GROUP_LIMIT clear. -/
def execDoDiagClear (sl : Slot) (kind : Nat) (channel : Nat) (bits : W16) (s : State) : Res :=
  onMod s sl (fun m => match outChOf m kind channel with
    | some o => if o.latched then m else outChMod m kind channel (fun o => { o with status := o.status &&& ~~~(bits &&& 0x1E) })
    | none => m)

/-- More than 20 µs at the current limit: high impedance, OVERLOAD, latch (R334). -/
def execFdoOverload (sl : Slot) (channel : Nat) (s : State) : Res :=
  onMod s sl (fun m => match outChOf m 2 channel with
    | some o => if powered m && isOutput 2 o then diagnose m 2 channel 2 true o.load else m
    | none => m)

/-- A vigil timer reaches its timeout: the safe state, bit VIGIL and VIGIL_EXPIRED (R335). -/
def execVigilExpiry (sl : Slot) (kind : Nat) (channel : Nat) (s : State) : Res :=
  onMod s sl (fun m => match outChOf m kind channel with
    | none => m
    | some o =>
      if !powered m || !o.vigilRunning || o.expired then m
      else
        let m1 := outChMod m kind channel (fun o =>
          { o with vigilRunning := false, expired := true, expiredAt := now m, status := o.status ||| 0x20 })
        refreshOut (logEv m1 0x0803 5 channel 0xFFFF (leBytes 1 kind ++ leBytes 1 channel ++ leBytes 1 o.safe)) kind channel)

/-- LOCALIO.VIGIL (R335, R338). -/
def hLocalioVigil (m p : Module) (c : Cmd) : QRes :=
  let n := prm c 0 4
  if n < 1 ∨ 40 < n then .refused 7 0
  else overElems m n (fun a i =>
      let e := (c.req.drop (4 * i)).take 4
      let kind := byteAt e 0
      let ch := byteAt e 1
      let w := le e 2 2
      let is (x : Module) : Bool := match outChOf x kind ch with | some o => isOutput kind o | none => false
      if (kind ≠ 1 ∧ kind ≠ 2) ∨ w / 16384 = 3 ∨ w % 1024 < 1 ∨ 1000 < w % 1024 ∨ !(is m || (linked m p && is p)) then .error 7
      else .ok (outChMod a kind ch (fun o => { o with timeout := w % 1024, safe := w / 16384 })))
    (fun a => ok a)

/-! ### LOCALIO.CONFIG (R320, R321, R338, R339) -/

/-- An element by its fields. -/
structure LocalElem where
  kind : Nat
  ch : Nat
  slot : Nat
  mode : Nat
  task : Nat
  valueH : W32
  statusH : W32
  readbackH : W32
  sel : Nat
  flags : Nat
  vtx : Nat
  rw : Nat
  deriving DecidableEq, Repr

def localElem (c : Cmd) (i : Nat) : LocalElem :=
  let e := (c.req.drop (32 * i)).take 32
  { kind := byteAt e 0, ch := byteAt e 1, slot := byteAt e 2, mode := byteAt e 3, task := le e 4 2, valueH := w32 (le e 8 4),
    statusH := w32 (le e 12 4), readbackH := w32 (le e 24 4), sel := byteAt e 16, flags := byteAt e 17, vtx := le e 18 2, rw := le e 20 2 }

/-- "None" in a handle field. -/
def noHandle : W32 := 0xFFFFFFFF

/-- The fields of an element are in range (R339). -/
def elemRange (m : Module) (e : LocalElem) : Bool :=
  let slotOk : Bool := if wiringOf m = 3 then decide (e.slot ≤ 1) else e.slot == 0
  slotOk && match e.kind with
    | 0 => decide (e.ch < 16 ∧ e.mode ≤ 2 ∧ e.sel ≤ 7) && (e.mode == 0 || decide (80 ≤ e.vtx ∧ e.vtx ≤ 240 ∧ e.rw ≤ 1000))
    | 1 => decide (e.ch < 32 ∧ e.mode ≤ 3 ∧ e.sel ≤ 5)
    | 2 => decide (e.ch < 8 ∧ e.mode ≤ 1)
    | 3 => decide (e.ch < 64 ∧ e.mode ≤ 1)
    | 4 => decide (e.ch < 128 ∧ e.mode ≤ 1)
    | _ => false

/-- The value point of an element is an output point: a DO or an FDO. -/
def elemOut (e : LocalElem) : Bool := (e.kind == 1 && e.mode == 3) || (e.kind == 2)

/-- TYPE that a value handle may have. -/
def valueTypeOk (e : LocalElem) (t : Option LType) : Bool :=
  if e.kind = 0 then t == some .int32 || t == some .real32 || t == some .real64 else t == some .bool

/-- The same channel, in SPLIT of the same slot. -/
def sameChannel (m : Module) (e : LocalElem) (b : LocalBind) : Bool :=
  b.kind == e.kind && b.channel == e.ch && (wiringOf m != 3 || b.slot == e.slot)

/-- The bindings of a channel now and at the next boundary. -/
def channelBinds (m : Module) (e : LocalElem) : List LocalBind :=
  (m.lio.binds ++ (m.lio.bindsNext.filter (fun x => x.2)).map (·.1)).filter (sameChannel m e)

/-- Input points of the channel's present binding. -/
def bindInputs (b : LocalBind) (out : Bool) : List W32 :=
  ((if out then [] else [b.valueH]) ++ [b.statusH, b.readbackH]).filter (fun h => h != noHandle)

/-- The check of one handle. -/
def handleCheck (m : Module) (e : LocalElem) (part : Nat) (h : W32) (typeOk : Option LType → Bool) (input : Bool) : Option Nat :=
  if h = noHandle then none
  else match live m h with
    | none => some 8
    | some r =>
      if r.owner ≠ part then some 0x0481
      else if !typeOk r.ty then some 7
      else if !input then none
      else if r.input && !(channelBinds m e).any (fun b => b.valueH == h || b.statusH == h || b.readbackH == h) then some 0x0481
      else if tableWrites m h then some 0x0481
      else none

/-- The checks of an element. -/
def elemCheck (m : Module) (e : LocalElem) : Option Nat :=
  let follow : Bool := e.kind == 0 && bit e.flags 0
  if !elemRange m e then some 7
  else if e.kind ≤ 2 ∧ (wiringOf m = 0 ∨ wiringOf m = 7) then some 0x0801
  else if e.task = 0xFFFF then (if follow then some 7 else none)
  else match taskOf m e.task with
    | none => some 8
    | some k =>
      if elemOut e && k.unchecked && wiringOf m == 5 then some 0x0801
      else if (channelBinds m e).any (fun b => b.task != e.task) then some 0x0481
      else match handleCheck m e k.part e.valueH (valueTypeOk e) (!elemOut e) with
        | some x => some x
        | none => match handleCheck m e k.part e.statusH (· == some .int32) true with
          | some x => some x
          | none => if e.readbackH ≠ noHandle ∧ !(e.kind = 1 ∧ e.mode = 3) then some 7
            else handleCheck m e k.part e.readbackH (· == some .bool) true

/-- Does the element configure this module's own channel? -/
def ownElem (m : Module) (e : LocalElem) : Bool := wiringOf m != 3 || e.slot == slotN m.slot

/-- Mode and settings of the channel take effect at the command commit (R325, R337). -/
def applyMode (m : Module) (e : LocalElem) : Module :=
  if !ownElem m e then m
  else match e.kind with
    | 0 => aiMod m e.ch (fun a =>
        let a1 := { a with mode := e.mode, response := e.sel, follow := bit e.flags 0, vtx := e.vtx, rw := e.rw }
        let a2 := if e.mode = a.mode ∧ e.sel = a.response then a1 else cicRestart a1
        if e.mode = 1 then a2 else { a2 with supply := 0, supplySat := false })
    | 1 => outChMod m 1 e.ch (fun o =>
        { o with mode := e.mode, filter := e.sel, badq := bit e.flags 0, openWireTest := bit e.flags 1,
                 demand := o.demand && e.mode == 3, filtered := if e.sel = 0 then o.terminal else o.filtered })
    | 2 => outChMod m 2 e.ch (fun o => { o with mode := e.mode, badq := bit e.flags 0, demand := o.demand && e.mode == 1 })
    | _ => m

/-- The binding an element asks for. -/
def elemBind (e : LocalElem) : LocalBind :=
  { kind := e.kind, channel := e.ch, slot := e.slot, task := e.task, valueH := e.valueH, statusH := e.statusH, readbackH := e.readbackH }

/-- Is the value point of a binding an output point? -/
def bindOut (m : Module) (b : LocalBind) : Bool :=
  match live m b.valueH with
  | some r => (b.kind == 1 || b.kind == 2) && !r.input
  | none => false

/-- Take a channel's bindings away: marks of their points, and the channel's demand. -/
def dropBind (m : Module) (e : LocalElem) : Module :=
  let old := channelBinds m e
  let m1 := old.foldl (fun a b => (bindInputs b (bindOut a b)).foldl (setInput false) a) m
  let m2 := lioMod m1 (fun l => { l with binds := l.binds.filter (fun b => !sameChannel m e b), bindsNext := l.bindsNext.filter (fun x => !sameChannel m e x.1) })
  old.foldl (fun a b => setOutput (outputBound a b.valueH) a b.valueH) m2

/-- Enter a binding now. -/
def putBind (m : Module) (b : LocalBind) (out : Bool) : Module :=
  let m1 := lioMod m (fun l =>
    { l with binds := l.binds.filter (fun x => !(x.kind == b.kind && x.channel == b.channel && (wiringOf m != 3 || x.slot == b.slot))) ++ [b] })
  let m2 := (bindInputs b out).foldl (setInput true) m1
  if out && b.valueH != noHandle then setOutput true m2 b.valueH else m2

/-- A changed binding of a running task waits for its boundary; its input points are taken at once. -/
def enterLocal (m : Module) (e : LocalElem) : Module :=
  let b := elemBind e
  let running : Bool := match taskOf m e.task with | some k => k.st == .running | none => false
  if running then
    (bindInputs b (elemOut e)).foldl (setInput true)
      (lioMod m (fun l => { l with bindsNext := l.bindsNext.filter (fun x => !sameChannel m e x.1) ++ [(b, true)] }))
  else putBind (dropBind m e) b (elemOut e)

/-- One element: mode off or no task unbinds at the commit (R337). -/
def applyElem (m : Module) (e : LocalElem) : Module :=
  let m1 := applyMode m e
  if e.mode = 0 ∨ e.task = 0xFFFF then
    let m2 := dropBind m1 e
    if e.kind = 1 ∨ e.kind = 2 then (if ownElem m e then outChMod m2 e.kind e.ch (fun o => { o with demand := false }) else m2) else m2
  else enterLocal m1 e

/-- One element of LOCALIO.CONFIG: checked, then applied. -/
def configElem (c : Cmd) (m : Module) (i : Nat) : Except Nat Module :=
  match elemCheck m (localElem c i) with
  | some e => .error e
  | none => .ok (applyElem m (localElem c i))

/-- LOCALIO.CONFIG is applied as a whole or refused as a whole. -/
def hLocalioConfig (m _p : Module) (c : Cmd) : QRes :=
  let n := prm c 0 4
  if n < 1 ∨ 248 < n then .refused 7 0
  else overElems m n (configElem c) (fun a => ok (refreshOuts a))

/-! ### Sampling and driving at a step (R322) -/

/-- A current in the type of its point: nA as INT32, mA as a real (R326). -/
def aiValue (t : LType) (cal : Int) : W64 :=
  match t with
  | .real32 => (fRound false (decide (cal < 0)) cal.natAbs 1000000).1
  | .real64 => (fRound true (decide (cal < 0)) cal.natAbs 1000000).1
  | _ => iWord .int32 cal

/-- The status bits of a DIO or FDO channel (R340). -/
def outStatus (m : Module) (kind ch : Nat) (o : OutCh) : W16 :=
  (o.status &&& 0x3E) ||| w16 (b2n (kind == 1 && o.mode == 3) + 64 * b2n (glintOwns m kind ch) + 128 * b2n (!wired m))

/-- The sample of one binding at instant `S`: handle, value, quality. -/
def sampleBind (m : Module) (S : W64) (b : LocalBind) : List (W32 × W64 × W16) :=
  let good : W16 := 0xC000
  let out := bindOut m b
  let val : List (W32 × W64 × W16) :=
    if b.valueH = noHandle ∨ out = true then []
    else match b.kind with
      | 0 => (match m.lio.ai[b.channel]?, live m b.valueH with
        | some a, some r =>
          let old : Bool := decide (almDiff S a.outAt < 1000)
          let cal := if old then a.prevCal else a.cal
          let bits := if old then a.prevBits else a.bits
          [(b.valueH, aiValue (r.ty.getD .int32) cal, aiQuality bits)]
        | _, _ => [])
      | 1 => (match outChOf m 1 b.channel with | some o => [(b.valueH, bWord o.filtered, good)] | none => [])
      | 3 => [(b.valueH, bWord (m.glint.terms.getLsbD b.channel), good)]
      | 4 => [(b.valueH, bWord (m.glint.lits.getLsbD (0x080 + b.channel)), good)]
      | _ => []
  let st : List (W32 × W64 × W16) :=
    if b.statusH = noHandle then []
    else match b.kind with
      | 0 => (match m.lio.ai[b.channel]? with | some a => [(b.statusH, w64 a.bits.toNat, good)] | none => [])
      | 1 | 2 => (match outChOf m b.kind b.channel with | some o => [(b.statusH, w64 (outStatus m b.kind b.channel o).toNat, good)] | none => [])
      | _ => [(b.statusH, 0, good)]
  let rb : List (W32 × W64 × W16) :=
    if b.readbackH = noHandle then []
    else match outChOf m 1 b.channel with | some o => [(b.readbackH, bWord o.filtered, good)] | none => []
  val ++ st ++ rb

/-- Does this module's own front carry the binding's channel? -/
def ownBind (m : Module) (b : LocalBind) : Bool :=
  match wiringOf m with
  | 3 => b.slot == slotN m.slot
  | _ => b.kind == 3 || b.kind == 4 || wired m

/-- Sample the local inputs of a task. -/
def sampleTask (m : Module) (S : W64) (t : Nat) : Module :=
  let l := (m.lio.binds.filter (fun b => b.task == t && ownBind m b)).flatMap (sampleBind m S)
  { m with exec := { m.exec with samples := m.exec.samples.filter (fun x => x.1 != t) ++ [(t, l)] } }

/-- What a bound output point asks its channel to drive (R335, R336): INIT the safe state with hold as off; BADQ with CLASS 0b00
the safe state. -/
def outDemand (o : OutCh) (r : PointRec) : Bool :=
  if r.quality.getLsbD 0 then o.safe == 1
  else if o.badq && qClass r.quality == 0 then safeValue o
  else presented r == 1

/-- Drive the bound outputs of a task (R322), and restart their vigil timers where the boundary was fresh (R335). -/
def driveTask (m : Module) (t : Nat) (fresh : Bool) : Module :=
  (m.lio.binds.filter (fun b => b.task == t && ownBind m b && bindOut m b)).foldl (fun a b =>
    match outChOf a b.kind b.channel, live a b.valueH with
    | some o, some r =>
      let a1 := outChMod a b.kind b.channel (fun x => { x with demand := outDemand o r })
      let a2 := if fresh && isOutput b.kind o && !glintOwns a1 b.kind b.channel then vigilRestart a1 b.kind b.channel else a1
      refreshOut a2 b.kind b.channel
    | _, _ => a) m

/-- Bindings of a task that wait for its boundary take effect (R321). -/
def takeBinds (m : Module) (t : Nat) : Module :=
  let due := m.lio.bindsNext.filter (fun x => x.1.task == t)
  let m1 := lioMod m (fun l => { l with bindsNext := l.bindsNext.filter (fun x => x.1.task != t) })
  due.foldl (fun a x =>
    let b := x.1
    let out : Bool := (b.kind == 2) || (b.kind == 1 && (match outChOf a 1 b.channel with | some o => o.mode == 3 | none => false))
    let old := a.lio.binds.filter (fun y => y.kind == b.kind && y.channel == b.channel && (wiringOf a != 3 || y.slot == b.slot))
    let a1 := old.foldl (fun z y => (bindInputs y (bindOut z y)).foldl (setInput false) z) a
    putBind a1 b out) m1

/-- FOLLOW channels of a task restart at a moved boundary (R324). -/
def followRestart (m : Module) (t : Nat) : Module :=
  (m.lio.binds.filter (fun b => b.kind == 0 && b.task == t && ownBind m b)).foldl (fun a b =>
    aiMod a b.channel (fun x => if x.follow then cicRestart x else x)) m

/-! ### LOCALIO.STATUS (R340) -/

/-- Vigil time remaining in ms, or 0xFFFF. -/
def vigilLeft (m : Module) (o : OutCh) : Nat :=
  if !o.vigilRunning then 0xFFFF else o.timeout - (now m - o.restartAt).toNat / 1000000

/-- An entry of an analog input. -/
def aiEntry (m : Module) (i : Nat) (a : Ai) : Bytes :=
  [0, BitVec.ofNat 8 i] ++ leBytes 2 (aiStatus m a a.cal (a.unsettled != 0) a.limited).toNat ++ leBytes 4 (unsigned 32 a.cal)
    ++ leBytes 4 (unsigned 32 a.raw) ++ leBytes 2 a.supply ++ zeros 2

/-- An entry of a DIO or FDO channel. -/
def outEntry (m : Module) (kind i : Nat) (o : OutCh) : Bytes :=
  let term : Bool := if kind = 1 then o.terminal else outOn m o
  [BitVec.ofNat 8 kind, BitVec.ofNat 8 i] ++ leBytes 2 (outStatus m kind i o).toNat ++ leBytes 4 (2 * b2n (demandOf m kind i o) + b2n term)
    ++ leBytes 4 o.load ++ zeros 2 ++ leBytes 2 (if isOutput kind o then vigilLeft m o else 0xFFFF)

/-- Current of a DIO group in 0.1 A. -/
def groupCurrent (m : Module) (g : Nat) : Nat := (((m.lio.dio.drop (8 * g)).take 8).map (fun o => o.load)).sum / 100

/-- LOCALIO.STATUS: the front of the serving module. -/
def hLocalioStatus (m _p : Module) (_c : Cmd) : QRes :=
  okRsp (leBytes 1 (wiringOf m) ++ leBytes 1 (slotN m.slot) ++ leBytes 1 (b2n m.lio.trimLock) ++ leBytes 1 (b2n m.lio.trimMode.isSome)
    ++ ((List.range 4).map (fun g => BitVec.ofNat 8 (groupCurrent m g))) ++ leBytes 8 (now m).toNat
    ++ (m.lio.ai.mapIdx (aiEntry m)).flatten ++ (m.lio.dio.mapIdx (outEntry m 1)).flatten ++ (m.lio.fdo.mapIdx (outEntry m 2)).flatten) m

def execLocalioConfig (sl : Slot) (c : Cmd) (s : State) : Res := quondi hLocalioConfig .work .sys 0x0801 s sl c
def execLocalioStatus (sl : Slot) (c : Cmd) (s : State) : Res := quondi hLocalioStatus .query .any 0x0802 s sl c
def execLocalioTrim (sl : Slot) (c : Cmd) (s : State) : Res := quondi hLocalioTrim .work .sys 0x0803 s sl c
def execLocalioTrimLock (sl : Slot) (c : Cmd) (s : State) : Res := quondi hLocalioTrimLock .work .sys 0x0804 s sl c
def execLocalioVigil (sl : Slot) (c : Cmd) (s : State) : Res := quondi hLocalioVigil .work .sys 0x0805 s sl c

end Sys2Proof.Machine
end

