-- ==== Sys2Proof/Machine/Crypto.lean ====
section
/-! DEFINITION. Machine/Crypto.lean: SHA-384 and ECDSA over P-384 as the image checks of R48 name them (log entry 24). -/

namespace Sys2Proof.Machine
open Sys2Proof Sys2Proof.Bits

/-! ### SHA-384 -/

/-- The round constants of SHA-384, in four runs of twenty. -/
def shaK0 : List W64 :=
  [ 0x428A2F98D728AE22, 0x7137449123EF65CD, 0xB5C0FBCFEC4D3B2F, 0xE9B5DBA58189DBBC,
    0x3956C25BF348B538, 0x59F111F1B605D019, 0x923F82A4AF194F9B, 0xAB1C5ED5DA6D8118,
    0xD807AA98A3030242, 0x12835B0145706FBE, 0x243185BE4EE4B28C, 0x550C7DC3D5FFB4E2,
    0x72BE5D74F27B896F, 0x80DEB1FE3B1696B1, 0x9BDC06A725C71235, 0xC19BF174CF692694,
    0xE49B69C19EF14AD2, 0xEFBE4786384F25E3, 0x0FC19DC68B8CD5B5, 0x240CA1CC77AC9C65 ]
def shaK1 : List W64 :=
  [ 0x2DE92C6F592B0275, 0x4A7484AA6EA6E483, 0x5CB0A9DCBD41FBD4, 0x76F988DA831153B5,
    0x983E5152EE66DFAB, 0xA831C66D2DB43210, 0xB00327C898FB213F, 0xBF597FC7BEEF0EE4,
    0xC6E00BF33DA88FC2, 0xD5A79147930AA725, 0x06CA6351E003826F, 0x142929670A0E6E70,
    0x27B70A8546D22FFC, 0x2E1B21385C26C926, 0x4D2C6DFC5AC42AED, 0x53380D139D95B3DF,
    0x650A73548BAF63DE, 0x766A0ABB3C77B2A8, 0x81C2C92E47EDAEE6, 0x92722C851482353B ]
def shaK2 : List W64 :=
  [ 0xA2BFE8A14CF10364, 0xA81A664BBC423001, 0xC24B8B70D0F89791, 0xC76C51A30654BE30,
    0xD192E819D6EF5218, 0xD69906245565A910, 0xF40E35855771202A, 0x106AA07032BBD1B8,
    0x19A4C116B8D2D0C8, 0x1E376C085141AB53, 0x2748774CDF8EEB99, 0x34B0BCB5E19B48A8,
    0x391C0CB3C5C95A63, 0x4ED8AA4AE3418ACB, 0x5B9CCA4F7763E373, 0x682E6FF3D6B2B8A3,
    0x748F82EE5DEFB2FC, 0x78A5636F43172F60, 0x84C87814A1F0AB72, 0x8CC702081A6439EC ]
def shaK3 : List W64 :=
  [ 0x90BEFFFA23631E28, 0xA4506CEBDE82BDE9, 0xBEF9A3F7B2C67915, 0xC67178F2E372532B,
    0xCA273ECEEA26619C, 0xD186B8C721C0C207, 0xEADA7DD6CDE0EB1E, 0xF57D4F7FEE6ED178,
    0x06F067AA72176FBA, 0x0A637DC5A2C898A6, 0x113F9804BEF90DAE, 0x1B710B35131C471B,
    0x28DB77F523047D84, 0x32CAAB7B40C72493, 0x3C9EBE0A15C9BEBC, 0x431D67C49C100D4C,
    0x4CC5D4BECB3E42B6, 0x597F299CFC657E2A, 0x5FCB6FAB3AD6FAEC, 0x6C44198C4A475817 ]
def shaK : List W64 := shaK0 ++ shaK1 ++ shaK2 ++ shaK3

/-- The eight working variables. -/
structure Sha where
  a : W64
  b : W64
  c : W64
  d : W64
  e : W64
  f : W64
  g : W64
  h : W64
  deriving DecidableEq, Repr

/-- The initial hash value of SHA-384. -/
def shaInit : Sha :=
  { a := 0xCBBB9D5DC1059ED8, b := 0x629A292A367CD507, c := 0x9159015A3070DD17, d := 0x152FECD8F70E5939,
    e := 0x67332667FFC00B31, f := 0x8EB44A8768581511, g := 0xDB0C2E0D64F98FA7, h := 0x47B5481DBEFA4FA4 }

def ror64 (x : W64) (n : Nat) : W64 := x.rotateRight n
def shaS0 (x : W64) : W64 := ror64 x 28 ^^^ ror64 x 34 ^^^ ror64 x 39
def shaS1 (x : W64) : W64 := ror64 x 14 ^^^ ror64 x 18 ^^^ ror64 x 41
def shaM0 (x : W64) : W64 := ror64 x 1 ^^^ ror64 x 8 ^^^ (x >>> 7)
def shaM1 (x : W64) : W64 := ror64 x 19 ^^^ ror64 x 61 ^^^ (x >>> 6)

/-- Extend the message schedule, newest word first. -/
def shaExtend : Nat → List W64 → List W64
  | 0, l => l
  | n + 1, l => shaExtend n ((shaM1 (l.getD 1 0) + l.getD 6 0 + shaM0 (l.getD 14 0) + l.getD 15 0) :: l)

/-- One round. -/
def shaRound (s : Sha) (kw : W64 × W64) : Sha :=
  let t1 := s.h + shaS1 s.e + ((s.e &&& s.f) ^^^ (~~~s.e &&& s.g)) + kw.1 + kw.2
  let t2 := shaS0 s.a + ((s.a &&& s.b) ^^^ (s.a &&& s.c) ^^^ (s.b &&& s.c))
  { a := t1 + t2, b := s.a, c := s.b, d := s.c, e := s.d + t1, f := s.e, g := s.f, h := s.g }

/-- One block of 128 octets. -/
def shaBlock (s : Sha) (blk : Bytes) : Sha :=
  let w := (shaExtend 64 ((chunks 8 16 blk).map (fun b => w64 (beVal b))).reverse).reverse
  let r := (shaK.zip w).foldl shaRound s
  { a := s.a + r.a, b := s.b + r.b, c := s.c + r.c, d := s.d + r.d,
    e := s.e + r.e, f := s.f + r.f, g := s.g + r.g, h := s.h + r.h }

/-- Padding: 0x80, zeros, the length in bits in 16 octets. -/
def shaPad (m : Bytes) : Bytes :=
  m ++ [0x80] ++ zeros ((239 - m.length % 128) % 128) ++ beBytes 16 (8 * m.length)

/-- SHA-384: 48 octets. -/
def sha384 (m : Bytes) : Bytes :=
  let p := shaPad m
  let s := (chunks 128 (p.length / 128) p).foldl shaBlock shaInit
  ([s.a, s.b, s.c, s.d, s.e, s.f].map (fun x => beBytes 8 x.toNat)).flatten

/-! ### ECDSA P-384 -/

/-- The prime, the coefficient b, the order and the base point of P-384. -/
def p384 : Nat := 2 ^ 384 - 2 ^ 128 - 2 ^ 96 + 2 ^ 32 - 1
def p384b : Nat := 0xB3312FA7E23EE7E4988E056BE3F82D19181D9C6EFE8141120314088F5013875AC656398D8A2ED19D2A85C8EDD3EC2AEF
def p384n : Nat := 0xFFFFFFFFFFFFFFFFFFFFFFFFFFFFFFFFFFFFFFFFFFFFFFFFC7634D81F4372DDF581A0DB248B0A77AECEC196ACCC52973
def p384gx : Nat := 0xAA87CA22BE8B05378EB1C71EF320AD746E1D3B628BA79B9859F741E082542A385502F25DBF55296C3A545E3872760AB7
def p384gy : Nat := 0x3617DE4A96262C6F5D9E98BF9292DC29F8F41DBD289A147CE9DA3113B5F0B8C00A60B1CE1D7E819D7A431D7C90EA0E5F

/-- b to the power e modulo n, by the bits of e. -/
def powMod (n : Nat) : Nat → Nat → Nat → Nat
  | 0, _, _ => 1 % n
  | k + 1, b, e =>
    if e = 0 then 1 % n
    else
      let h := powMod n k (b * b % n) (e / 2)
      if e % 2 = 1 then b * h % n else h

/-- The inverse modulo a prime. -/
def invMod (n a : Nat) : Nat := powMod n 384 (a % n) (n - 2)

/-- Difference modulo the prime. -/
def subP (a b : Nat) : Nat := (a + p384 - b % p384) % p384

/-- A point of the curve in projective form: x = X / Z² and y = Y / Z³, with Z = 0 at infinity. -/
structure EcPoint where
  x : Nat
  y : Nat
  z : Nat
  deriving DecidableEq, Repr

/-- Twice a point. -/
def ecDouble (q : EcPoint) : EcPoint :=
  let d := q.z * q.z % p384
  let g := q.y * q.y % p384
  let b := q.x * g % p384
  let a := 3 * subP q.x d * (q.x + d) % p384
  let x := subP (a * a) (8 * b)
  { x := x, y := subP (a * subP (4 * b) x) (8 * g * g), z := 2 * q.y * q.z % p384 }

/-- Sum of two points. -/
def ecAdd (p q : EcPoint) : EcPoint :=
  if p.z = 0 then q
  else if q.z = 0 then p
  else
    let zp := p.z * p.z % p384
    let zq := q.z * q.z % p384
    let u := p.x * zq % p384
    let s := p.y * q.z * zq % p384
    let h := subP (q.x * zp) u
    let r := subP (q.y * p.z * zp) s
    if h = 0 then (if r = 0 then ecDouble p else { x := 1, y := 1, z := 0 })
    else
      let h2 := h * h % p384
      let h3 := h2 * h % p384
      let v := u * h2 % p384
      let x := subP (r * r) (h3 + 2 * v)
      { x := x, y := subP (r * subP v x) (s * h3), z := p.z * q.z * h % p384 }

/-- Scalar multiplication by the low bits of the scalar. -/
def ecMul : Nat → Nat → EcPoint → EcPoint
  | 0, _, _ => { x := 1, y := 1, z := 0 }
  | k + 1, e, q =>
    let h := ecMul k (e / 2) (ecDouble q)
    if e % 2 = 1 then ecAdd h q else h

/-- Is the pair a point of the curve? -/
def onCurve (x y : Nat) : Bool := decide (x < p384 ∧ y < p384) && (y * y + 3 * x) % p384 == (x * x * x + p384b) % p384

/-- Verification of a signature over a digest: public key X, Y and signature r, s, each 48 octets, big-endian. -/
def ecdsaVerify (pub sig dg : Bytes) : Bool :=
  let x := be pub 0 48
  let y := be pub 48 48
  let r := be sig 0 48
  let s := be sig 48 48
  if !onCurve x y || r == 0 || s == 0 || decide (p384n ≤ r) || decide (p384n ≤ s) then false
  else
    let w := invMod p384n s
    let q := ecAdd (ecMul 384 (beVal dg * w % p384n) { x := p384gx, y := p384gy, z := 1 }) (ecMul 384 (r * w % p384n) { x := x, y := y, z := 1 })
    let i := invMod p384 q.z
    q.z != 0 && q.x * i % p384 * i % p384 % p384n == r

end Sys2Proof.Machine
end

