-- ==== Sys2Proof/Machine/Image.lean ====
section
/-! DEFINITION. Machine/Image.lean: image slots and their regions (R15, R33), the header and its checks (R47 to R50, R52) and the
image aperture (R39 to R43). -/

namespace Sys2Proof.Machine
open Sys2Proof Sys2Proof.Bits

/-- Change the boot state. -/
def bootMod (m : Module) (f : Boot → Boot) : Module := { m with boot := f m.boot }

/-! ### Slots and regions -/

/-- A slot by number. -/
def slotAt (b : Boot) (i : Nat) : ImgSlot := match i with | 0 => b.slot0 | 1 => b.slot1 | _ => b.slot2
/-- Change a slot. -/
def slotMod (m : Module) (i : Nat) (f : ImgSlot → ImgSlot) : Module :=
  bootMod m (fun b => match i with
    | 0 => { b with slot0 := f b.slot0 }
    | 1 => { b with slot1 := f b.slot1 }
    | _ => { b with slot2 := f b.slot2 })
/-- A region of a slot: class 1 control, 2 safety. -/
def regionIn (s : ImgSlot) (cls : Nat) : Region := if cls = 2 then s.safety else s.control
/-- Change a region; what was verified is verified no more. -/
def regionMod (m : Module) (i cls : Nat) (f : Region → Region) : Module :=
  slotMod m i (fun s => if cls = 2 then { s with safety := f s.safety, verified := false } else { s with control := f s.control, verified := false })
/-- A region of the module. -/
def regionOf (m : Module) (i cls : Nat) : Region := regionIn (slotAt m.boot i) cls
/-- Bytes of a class region (R33). -/
def regionSize (cls : Nat) : Nat := if cls = 2 then 0x01000000 else 0x03000000
/-- A region holds nothing: neither open nor closed nor being filled. -/
def regionEmpty (r : Region) : Bool := !r.isOpen && !r.closed && r.owner == 0
/-- The load slot (R33). -/
def loadSlot (b : Boot) : Nat := if b.rolesGood then b.cur else 0
/-- The bytes of a closed region. -/
def regionBytes (r : Region) (off n : Nat) : Bytes := memRead r.bytes off n
/-- Close a region: IMG_LEN stands, IMG_CRC is computed (R39). -/
def closeRegion (r : Region) : Region :=
  { r with isOpen := false, closed := true, owner := 0, crc := crc32c (memRead r.bytes 0 r.len) }

/-! ### The header (R47) -/

def hdrOf (r : Region) : Bytes := memRead r.bytes 0 4096
def imgFlags (r : Region) : Nat := byteAt (regionBytes r 7 1) 0
def imgVer (r : Region) : W32 := w32 (le (regionBytes r 8 4) 0 4)
def imgEpoch (r : Region) : Nat := le (regionBytes r 0x0C 2) 0 2
def imgEpochMin (r : Region) : Nat := le (regionBytes r 0x0E 2) 0 2
def imgPayload (r : Region) : Nat := le (regionBytes r 0x10 4) 0 4
def imgSec (r : Region) : Nat := byteAt (regionBytes r 0x14 1) 0
/-- Components: type, payload offset, length, CRC-32C. -/
def imgComps (h : Bytes) : List (Nat × Nat × Nat × Nat) :=
  (List.range (le h 0x16 2)).map (fun i => let o := 0x40 + 16 * i
    (le h o 2, le h (o + 4) 4, le h (o + 8) 4, le h (o + 12) 4))

/-- The header checks 1 to 8: 0, or the code (R48, R53). -/
def headerCode (m : Module) (cls : Nat) (r : Region) : Nat :=
  let h := hdrOf r
  let pub := (h.drop 0xF40).take 96
  if le h 0 4 ≠ 0x4D494B44 ∨ le h 4 2 ≠ 2 then 0x01
  else if byteAt h 6 ≠ cls then 0x02
  else if sha384 pub ≠ m.hw.keyHash then 0x03
  else if !ecdsaVerify pub ((h.drop 0xFA0).take 96) (sha384 (h.take 0xFA0)) then 0x04
  else if m.hw.issue.toNat < byteAt h 0x15 then 0x05
  else if regionSize cls - 4096 < le h 0x10 4 ∨ le h 0x16 2 < 1 ∨ 8 < le h 0x16 2
      ∨ (imgComps h).any (fun c => decide (le h 0x10 4 < c.2.1 + c.2.2.1)) = true then 0x06
  else if cls = 2 ∧ byteAt h 0x14 < m.hw.floor then 0x08
  else if le h 0x0C 2 < le h 0x0E 2 then 0x09
  else 0

/-- The CRC-32C of every component, from DRAM (R48 step 10, R375). -/
def compsGood (r : Region) : Bool :=
  (imgComps (hdrOf r)).all (fun c => (crc32c (regionBytes r (4096 + c.2.1) c.2.2.1)).toNat == c.2.2.2)

/-- All checks of a region: 0, or the code. -/
def regionCode (m : Module) (cls : Nat) (r : Region) : Nat :=
  match headerCode m cls r with
  | 0 =>
    if sha384 (regionBytes r 4096 (imgPayload r)) ≠ (hdrOf r).extract 0xC0 0xF0 then 0x07
    else if !compsGood r then 0x07 else 0
  | e => e

/-- Full verification: the control region, then the safety region (R49). -/
def slotCode (m : Module) (i : Nat) : Nat :=
  match regionCode m 1 (regionOf m i 1) with
  | 0 => regionCode m 2 (regionOf m i 2)
  | e => e

/-- Two modules are compatible (R271). -/
def compatible (m p : Module) : Bool :=
  [1, 2].all (fun cls => let a := regionOf m m.boot.cur cls
    let b := regionOf p p.boot.cur cls
    decide (imgEpochMin b ≤ imgEpoch a ∧ imgEpoch a ≤ imgEpoch b) && decide (imgEpochMin a ≤ imgEpoch b ∧ imgEpoch b ≤ imgEpoch a))

/-! ### The image aperture (R39 to R43, R52) -/

/-- BAR0 takes writes: the loader is ready and the link has trained (R31). -/
def bar0Writes (m : Module) : Bool := hasPower m && powered m && m.boot.loaderUp && m.boot.pcie == .trained

/-- The slot that the aperture addresses: the load slot in LOADER, the candidate in READY and RUN (R33, R43). -/
def apertureSlot (m : Module) : Option Nat :=
  match m.boot.state with
  | .loader => some (loadSlot m.boot)
  | .ready | .run => some m.boot.cand
  | _ => none

/-- IMG_CTL.CLASS as a class. -/
def clsOf (c : BitVec 2) : Option Nat := if c = 1 then some 1 else if c = 2 then some 2 else none

/-- The class image update is held by one of QPs 0 to 3 that is bound to PCIe on this module (R43). -/
def hostMayUpdate (m : Module) : Bool :=
  match tget m.maint.entries 1 with
  | some e => (match e.holder with
    | .qp n => decide (n ≤ 3) && (match tget m.mail.qps n with | some q => q.st != .closed && !q.udp | none => false)
    | _ => false)
  | none => false

/-- IMG_STAT.CODE. -/
def setCode (m : Module) (c : Nat) : Module := bootMod m (fun b => { b with code := BitVec.ofNat 8 c })

/-- Issue reads of the pull while fewer than 32 are outstanding (R42). -/
def pullIssue : Nat → Module → Module
  | 0, m => m
  | k + 1, m =>
    let b := m.boot
    if b.pullOut.length < 32 ∧ b.pullNext < b.pullEnd then
      let n := min 512 (b.pullEnd - b.pullNext)
      let a := w64 (b.srcHi.toNat * 2 ^ 32 + b.srcLo.toNat / 4096 * 4096 + b.pullNext)
      pullIssue k (emit (bootMod m (fun b => { b with pullOut := b.pullOut ++ [b.pullNext], pullNext := b.pullNext + n })) (.pullRead a n))
    else m

/-- CLOSE of the region of a class in a slot, if it is open for the host and not HDR_BAD (R39, R40, R52). -/
def closeNow (m : Module) (i cls : Nat) : Module :=
  let r := regionOf m i cls
  if r.isOpen && !r.hdrBad then regionMod m i cls closeRegion else m

/-- Start a pull into the region of a class (R42). -/
def startPull (m : Module) (cls : Option Nat) : Module :=
  if m.boot.pulling then m
  else if !m.boot.bme then setCode m 0x0B
  else match apertureSlot m, cls with
    | some i, some c =>
      let len := 4096 * m.boot.pullLen.toNat
      if regionSize c < len then setCode m 0x0F
      else if !(regionOf m i c).isOpen then setCode m 0x0E
      else if len = 0 then m
      else pullIssue 32 (bootMod m (fun b =>
        { b with pulling := true, pullAborted := false, pullSafety := c == 2, pullSlot := i, pullOut := [], pullNext := 0, pullEnd := len, closePending := false }))
    | _, _ => setCode m 0x0E

/-- OPEN: the refusals, or the region opened for the host (R39, R43, R45, R368). A relay that would start is withdrawn. -/
def openRegion (m : Module) (cls : BitVec 2) : Module × Bool :=
  match clsOf cls with
  | none => (setCode m 0x02, false)
  | some c => match apertureSlot m with
    | none => (setCode m 0x0E, false)
    | some i =>
      let r := regionOf m i c
      if 2 ≤ r.owner ∨ (m.boot.relaying = true ∧ m.boot.state = .loader) then (setCode m 0x0E, false)
      else if m.boot.state ≠ .loader ∧ hostMayUpdate m = false then (setCode m 0x0E, false)
      else
        let m1 := regionMod m i c (fun r =>
          { r with isOpen := true, closed := false, owner := 1, len := 0, crc := 0, hdrSeen := [], hdrDue := false, hdrOk := false,
                   hdrBad := false, hdrFirst := m.boot.hdrFirst })
        (setCode (slotMod m1 i (fun s => { s with reverted := false })) 0, true)

def setCls (m : Module) (cls : BitVec 2) : Module := bootMod m (fun b => { b with cls := cls })

def execImgOpen (sl : Slot) (cls : BitVec 2) (pull : Bool) (s : State) : Res :=
  onMod s sl (fun m =>
    if !bar0Writes m then m
    else
      let x := openRegion (setCls m cls) cls
      if pull && x.2 then startPull x.1 (clsOf cls) else x.1)

def execImgPull (sl : Slot) (cls : BitVec 2) (s : State) : Res :=
  onMod s sl (fun m => if !bar0Writes m then m else startPull (setCls m cls) (clsOf cls))

/-- ABORT: the region is neither open nor closed; a running pull issues no more reads (R40). A region that another owner fills
is not the host's. -/
def abortRegion (m : Module) (cls : BitVec 2) : Module :=
  match apertureSlot m, clsOf cls with
  | some i, some c =>
    if 2 ≤ (regionOf m i c).owner then m
    else
      let m1 := regionMod m i c (fun _ => {})
      if m.boot.pulling && m.boot.pullSlot == i && (m.boot.pullSafety == (c == 2)) then
        bootMod m1 (fun b => { b with pullAborted := true, pulling := !b.pullOut.isEmpty, closePending := false })
      else m1
  | _, _ => m

def execImgAbort (sl : Slot) (cls : BitVec 2) (s : State) : Res :=
  onMod s sl (fun m => if !bar0Writes m then m else abortRegion (setCls m cls) cls)

/-- CLOSE, held while a pull runs (R40). -/
def closeCtl (m : Module) (cls : BitVec 2) : Module :=
  match apertureSlot m, clsOf cls with
  | some i, some c =>
    if !(regionOf m i c).isOpen then m
    else if m.boot.pulling then bootMod m (fun b => { b with closePending := true })
    else closeNow m i c
  | _, _ => m

def execImgClose (sl : Slot) (cls : BitVec 2) (s : State) : Res :=
  onMod s sl (fun m => if !bar0Writes m then m else closeCtl (setCls m cls) cls)

/-- Bytes stored into a region: length, and the header words seen since OPEN; a complete header is due for its check (R39,
R52). -/
def storeBytes (r : Region) (off : Nat) (data : Bytes) (hdrFirst : Bool) : Region :=
  let words := ((List.range ((data.length + 3) / 4)).map (fun i => off / 4 + i)).filter (fun w => decide (w < 1024))
  let seen := words.foldl (fun l w => if l.contains w then l else w :: l) r.hdrSeen
  let r1 := { r with bytes := memWrite r.bytes off data, len := max r.len (off + data.length), hdrSeen := seen }
  if words.isEmpty then r1
  else { r1 with hdrOk := false, hdrBad := false, hdrDue := hdrFirst && seen.length == 1024 }

/-- A write at offset `o` of the aperture (R41). -/
def apertureStore (m : Module) (offset : Nat) (data : Bytes) : Module :=
  if !bar0Writes m then m
  else match apertureSlot m, clsOf m.boot.cls with
    | some i, some c =>
      let r := regionOf m i c
      let o := m.boot.win.toNat * 32768 + offset
      if !r.isOpen || m.boot.pulling || r.hdrBad then m
      else if regionSize c < o + data.length then setCode m 0x0F
      else regionMod m i c (fun r => storeBytes r o data m.boot.hdrFirst)
    | _, _ => m

def execApertureWrite (sl : Slot) (offset : Nat) (data : Bytes) (s : State) : Res := onMod s sl (fun m => apertureStore m offset data)

/-- The pull has failed: the region stays open, a pending CLOSE lapses (R40, R42). -/
def pullFail (m : Module) : Module := setCode (bootMod m (fun b => { b with pulling := false, pullOut := [], closePending := false })) 0x0B

/-- A read of the pull has ended. -/
def pullDone (m : Module) (offset : Nat) (data : Option Bytes) : Module :=
  if !m.boot.pulling || !m.boot.pullOut.contains offset then m
  else
    let m1 := bootMod m (fun b => { b with pullOut := b.pullOut.filter (fun x => x != offset) })
    let cls := if m.boot.pullSafety then 2 else 1
    if m.boot.pullAborted then bootMod m1 (fun b => { b with pulling := !b.pullOut.isEmpty })
    else match data with
      | none => pullFail m1
      | some d =>
        let m2 := pullIssue 32 (regionMod m1 m.boot.pullSlot cls (fun r => storeBytes r offset d m.boot.hdrFirst))
        if m2.boot.pullOut.isEmpty then
          let m3 := bootMod m2 (fun b => { b with pulling := false, closePending := false })
          if m2.boot.closePending then closeNow m3 m.boot.pullSlot cls else m3
        else m2

def execPullReadCompletion (sl : Slot) (offset : Nat) (data : Option Bytes) (s : State) : Res :=
  onMod s sl (fun m => if powered m then pullDone m offset data else m)

/-- A read not completed within 50 ms. -/
def execPullReadTimeout (sl : Slot) (offset : Nat) (s : State) : Res :=
  onMod s sl (fun m => if powered m then pullDone m offset none else m)

/-- The region whose header-first check is due: slot and class. -/
def hdrDueAt (m : Module) : Option (Nat × Nat) :=
  [(0, 1), (0, 2), (1, 1), (1, 2), (2, 1), (2, 2)].find? (fun x => (regionOf m x.1 x.2).hdrDue)

/-- Steps 1 to 8 on a region: HDR_OK or HDR_BAD; the code goes to IMG_STAT.CODE (R48, R52). -/
def checkHeader (m : Module) (i cls : Nat) : Module :=
  let e := headerCode m cls (regionOf m i cls)
  let m1 := regionMod m i cls (fun r => { r with hdrDue := false, hdrOk := e == 0, hdrBad := e != 0 })
  if e = 0 then m1 else setCode (slotMod m1 i (fun s => { s with lastCode := e })) e

def execHeaderFirstCheck (sl : Slot) (s : State) : Res :=
  onMod s sl (fun m => match hdrDueAt m with
    | some (i, c) => if hasPower m && powered m then checkHeader m i c else m
    | none => m)

end Sys2Proof.Machine
end

