-- ==== Sys2Proof/Machine/Transitions.lean ====
section
/-! DEFINITION. Machine/Transitions.lean: the state changes of a module that several causes share (R28 to R30): a change of state
with its record, HALT, UMBRA, SPLIT-OFF, module reset, the declaration of a power loss and OFF. Each rewrites the anchor block once
where STATE, ROLE, MODE or LEAD_EPOCH changed (R61). -/

namespace Sys2Proof.Machine
open Sys2Proof Sys2Proof.Bits

/-- Change the pair as a module holds it. -/
def pairMod (m : Module) (f : Pair → Pair) : Module := { m with pair := f m.pair }

/-- Change the mailbox. -/
def mailMod (m : Module) (f : Mailbox → Mailbox) : Module := { m with mail := f m.mail }

/-- The state changes; firmware records a change into a state in which it serves (R28, R315). -/
def setState (m : Module) (st : ModState) : Module :=
  let m1 := bootMod m (fun b => { b with state := st })
  if m.boot.state = st then m1
  else logEv m1 0x0002 0 0 0xFFFF
    ([BitVec.ofNat 8 (stateCode m.boot.state), BitVec.ofNat 8 (stateCode st), m1.boot.fail, BitVec.ofNat 8 (modeCode m1.pair.mode)])

/-- Every cycle is abandoned without commit: its retained entries are discarded (R20) and no unit runs. -/
def stopCycles (m : Module) : Module :=
  { m with
    exec := { m.exec with
      tasks := m.exec.tasks.map (fun x => (x.1, { x.2 with cycle := none }))
      units := m.exec.units.map (fun u => { u with running := none })
      agreeing := none
      waitingSteps := []
      early := [] }
    store := { m.store with log := m.store.log.filter (fun l => l.complete) } }

/-- The ring lanes are held without link, or released (R28, R240). -/
def holdLanes (m : Module) (held : Bool) : Module :=
  { m with field := { m.field with rings := m.field.rings.map (fun r =>
    { r with held := held, closed := r.closed && !held, launching := false, buffer := if held then [] else r.buffer }) } }

/-- Nothing is sent on buses and lines: a running row or poll cycle ends (R28). -/
def stopLegacy (m : Module) : Module :=
  { m with field := { m.field with
    buses := m.field.buses.map (fun b => { b with cycling := false, txNow := none })
    lines := m.field.lines.map (fun l => { l with slots := [], awaiting := none }) } }

/-- A module without a role: what the pair gave it ends (R281, R363). -/
def leavePair (m : Module) : Module :=
  pairMod m (fun p => { p with
    role := .none
    mode := .alone
    inSet := false
    partnerInSet := false
    acceptHeld := false
    leaseEnd := none
    claiming := false
    claimForce := false
    handover := none
    noticed := false
    resync := none
    joining := none
    cutover := none
    window := false
    forcedRun := none })

/-- Connections stop (R363). -/
def stopConns (m : Module) : Module :=
  { m with halo := { m.halo with conns := m.halo.conns.map (fun x => (x.1, { x.2 with st := 0, runN := 0, held := false })) } }

/-- HALT: nothing runs, and QPs are served no more (R28, R38). -/
def enterHalt (m : Module) : Module :=
  let m1 := leavePair (stopConns (stopLegacy (holdLanes (stopCycles m) true)))
  let m2 := mailMod (setState m1 .halt) (fun q => { q with qps := [], waiting := [], inFlight := 0 })
  refresh { m2 with halo := { m2.halo with testSlot := none } }

/-- UMBRA from READY, RUN or SPLIT-OFF, HALT from LOADER, VERIFY and STARTING, with a cause of R362; elsewhere the cause lapses
(R29, R363). -/
def enterUmbra (m : Module) (cause detail : Nat) : Module :=
  if !hasPower m then m
  else match m.boot.state with
    | .loader | .verify | .starting => enterHalt m
    | .ready | .run | .splitOff =>
      let m1 := leavePair (stopConns (stopLegacy (stopCycles m)))
      let m2 := pairMod m1 (fun p => { p with lane0 := false, lane1 := false, linkUp := false })
      let m3 := { m2 with
        halo := { m2.halo with umbraCause := cause }
        lio := { m2.lio with trim := none, trimMode := none }
        boot := { m2.boot with verifyingHandover := false, handover := false, portsDue := [] } }
      let m4 := logEv (setState m3 .umbra) 0x0908 6 0 0xFFFF (leBytes 1 cause ++ zeros 3 ++ leBytes 4 detail)
      anchorIfChanged m (refresh m4)
    | _ => m

/-- SPLIT-OFF from RUN (R29, R281). -/
def enterSplitOff (m : Module) : Module :=
  if !inRun m then m
  else
    let m1 := leavePair (stopLegacy (holdLanes (stopCycles m) true))
    anchorIfChanged m (refresh (setState m1 .splitOff))

/-- A joining module discards its point state when it leaves SPLIT-OFF (R29, R281). -/
def discardPoints (m : Module) : Module :=
  { m with store := { m.store with points := [], subs := [], imports := m.store.imports.map (fun x => (x.1, { x.2 with heldKey := none, agreedKey := none })) } }

/-! ### Module reset (R29) -/

/-- The image regions after a reset: contents and closed status stay; an open region is neither open nor closed (R34). -/
def resetRegion (r : Region) : Region :=
  { r with isOpen := false, owner := 0, hdrDue := false, hdrOk := false, hdrBad := false, hdrFirst := false, hdrSeen := [] }

/-- Both regions of a slot. -/
def resetSlot (s : ImgSlot) : ImgSlot := { s with control := resetRegion s.control, safety := resetRegion s.safety, verified := false }

/-- The boot registers after a reset: FAIL, slot roles, the confirm state and the links are kept (R33, R37, R376). -/
def resetBoot (b : Boot) : Boot :=
  { state := .loader
    fail := b.fail
    slot0 := resetSlot b.slot0
    slot1 := resetSlot b.slot1
    slot2 := resetSlot b.slot2
    cur := b.cur
    cand := b.cand
    prev := b.prev
    rolesGood := b.rolesGood
    confirm := b.confirm
    windowDue := b.confirm == 1
    windowLen := b.windowLen
    windowHandover := b.windowHandover
    floorTarget := b.floorTarget
    oldFloor := b.oldFloor
    newSplit := b.newSplit
    split := b.split
    mresetHeld := b.mresetHeld
    perstHeld := b.perstHeld
    pcie := b.pcie
    msiCount := b.msiCount
    bme := b.bme }

/-- The mailbox after a reset: the attachment and every QP end; journal, ticket windows and H stay (R16, R62, R80). -/
def resetMail (q : Mailbox) : Mailbox :=
  { journal := q.journal.map (fun e => { e with started := false })
    nextOrder := q.nextOrder
    tickets := q.tickets
    highest := q.highest
    floorH := q.floorH
    stalled := q.stalled }

/-- A ring after a reset: its settings stay, its counters are 0, its lanes are held (R28, R246). -/
def resetRing (r : Ring) : Ring :=
  { rate := r.rate, etherType := r.etherType, delta := r.delta, dApply := r.dApply, length := r.length, rxUp := r.rxUp, txUp := r.txUp,
    held := true }

/-- A bus after a reset. -/
def resetBus (b : Bus) : Bus :=
  { nominal := b.nominal, dataRate := b.dataRate, samplePt := b.samplePt, dataSamplePt := b.dataSamplePt, delta := b.delta, rows := b.rows }

/-- A line after a reset. -/
def resetLine (l : Line) : Line := { rate := l.rate, bits11 := l.bits11, delta := l.delta, k := l.k }

/-- A task after a reset: no cycle, counters 0. -/
def resetTask (k : Task) : Task :=
  { k with cycle := none, execLast := 0, execMax := 0, overruns := 0, syncMiss := 0, syncAbsent := 0, icalClip := 0, restarts := 0,
           agreeConflict := 0, clipRun := false, clipped := false, moved := false, fresh := false }

/-- The pair as a module holds it after a reset: what MRAM keeps, LEAD_EPOCH and the counters since power-up (R19). -/
def resetPair (p : Pair) : Pair :=
  { leadEpoch := p.leadEpoch, agen := p.agen, domain := p.domain, autoResync := p.autoResync, reminderDays := p.reminderDays, recordedSplit := p.recordedSplit,
    counter := p.counter, lastChange := p.lastChange, lastSwap := p.lastSwap, changes := p.changes }

/-- The Almanac after a reset: T and ADJ keep counting, a BAR0 step still lands, SOURCE is 0 (R294, R299). -/
def resetAlm (a : Alm) : Alm :=
  { t := a.t, frac := a.frac, adj := a.adj, bar0Step := a.bar0Step, adjHist := a.adjHist }

/-- The Chronicle after a reset: records written stay; everything pending is lost and buckets are full (R311). -/
def resetChron (c : Chron) : Chron := { recs := c.recs, lastSeq := c.lastSeq }

/-- The local front after a reset: settings and calibration stay; conversion restarts without supply (R55, R325). -/
def resetLio (l : Lio) : Lio :=
  { l with
    ai := l.ai.map (fun a => { cicRestart a with supply := 0, thermal := false })
    trimMode := none
    trim := none
    trimShow := 0 }

/-- HALO after a reset: the sets stay; connections, outputs and tests start anew (R55). -/
def resetHalo (h : Halo) : Halo :=
  { active := h.active, activeConfirmed := h.activeConfirmed, staged := h.staged, stagedSealed := h.stagedSealed,
    stagedConfirmed := h.stagedConfirmed, so := h.so.map (fun x => { edm := x.edm, edmAt := x.edmAt }) }

/-- MODULE_RESET into LOADER: the slot and wiring pins are sampled, DRAM stays, the Almanac keeps counting; an attachment that
ends writes DETACH with cause 1 (R29, R37, R62, R395). -/
def moduleReset (m : Module) : Module :=
  if !hasPower m || m.boot.state == .off then m
  else
    let m1 : Module := { m with
      hw := { m.hw with slotB := m.hw.slotBPin, wiring := m.hw.wcPins }
      boot := resetBoot m.boot
      mail := resetMail m.mail
      exec := { tasks := m.exec.tasks.map (fun x => (x.1, resetTask x.2)) }
      store := { m.store with log := m.store.log.filter (fun l => l.complete) }
      glint := {}
      field := { m.field with
        rings := m.field.rings.map resetRing
        buses := m.field.buses.map resetBus
        lines := m.field.lines.map resetLine
        lanes := m.field.lanes.map (fun l => { up := l.up, delay := l.delay }) }
      pair := resetPair m.pair
      alm := resetAlm m.alm
      chron := resetChron m.chron
      lio := resetLio m.lio
      halo := resetHalo m.halo
      maint := { m.maint with waits := [], verdict := none, tx := none, rx := none }
      diag := {} }
    let m2 := if attached m then pushPending m1
        { code := 0x0102, time := now m, source := srcOf m 1 0, partition := 0xFFFF, severity := 0, data := fit 24 [1] }
      else m1
    refresh m2

/-! ### Loss of power (R398 to R401) -/

/-- POWER_LOSS_DECLARATION: nothing is fetched, launched or started any more, the lanes are held, outputs stay (R400). A cause that
meets it lapses (R419). -/
def declarePowerLoss (m : Module) : Module :=
  if !(hasPower m || m.power.phase == .bringUp) then m
  else
    let m1 := stopLegacy (holdLanes m true)
    { m1 with power := { m1.power with phase := .goingDown } }

/-- What stays in MRAM and OTP without power (R19, R416), in a module that is otherwise as new. The journal keeps its accepted
entries (R417); H of each QP is the floor of later submissions (R80). -/
def unpowered (m : Module) : Module :=
  { slot := m.slot
    hw := m.hw
    power := { m.power with
      phase := .off
      tooHot := m.power.tooHot
      hotOnce := false
      warm140 := false
      outOfRange := false
      throttled := false
      throttledTenths := 0
      rideThroughs := 0
      inDip := false
      maxCold := m.power.coldPlate
      maxJunction := max (max m.power.j0 m.power.j1) (max m.power.j2 m.power.j3) }
    boot := { ({} : Boot) with
      state := .off
      cur := m.boot.cur
      cand := m.boot.cand
      prev := m.boot.prev
      rolesGood := m.boot.rolesGood
      confirm := m.boot.confirm
      split := m.boot.split
      loaderUp := false
      mresetHeld := m.boot.mresetHeld
      perstHeld := m.boot.perstHeld
      pcie := .down }
    mail := { ({} : Mailbox) with
      journal := (m.mail.journal.filter (fun e => e.accepted)).map (fun e => { e with started := false, step := none })
      nextOrder := m.mail.nextOrder
      highest := m.mail.highest
      floorH := m.mail.highest }
    store := { ({} : Store) with retained := m.store.retained, orphans := m.store.orphans, log := m.store.log }
    pair := { ({} : Pair) with agen := m.pair.agen, domain := m.pair.domain, autoResync := m.pair.autoResync,
                               reminderDays := m.pair.reminderDays, recordedSplit := m.pair.recordedSplit, lastSwap := m.pair.lastSwap }
    chron := resetChron m.chron
    lio := { ({} : Lio) with
      ai := m.lio.ai.map (fun a => { ({} : Ai) with copy0 := a.copy0, copy1 := a.copy1 })
      dio := m.lio.dio.map (fun o => { ({} : OutCh) with terminal := o.terminal })
      trimLock := m.lio.trimLock }
    halo := { ({} : Halo) with active := m.halo.active, activeConfirmed := m.halo.activeConfirmed,
                               so := m.halo.so.map (fun x => { edm := x.edm, edmAt := 0 }) }
    phys := m.phys
    out := m.out }

end Sys2Proof.Machine
end

