-- ==== Sys2Proof/Machine/Halo.lean ====
section
/-! DEFINITION. Machine/Halo.lean: input connections (R348, R349), the checks of a safety parameter set (R346, R350, R351), the HALO
commands (R352, R353, R365), the tests and faults of the safety outputs (R354 to R360) and the HALO self-check (R362). -/

namespace Sys2Proof.Machine
open Sys2Proof Sys2Proof.Bits

/-! ### Input connections -/

/-- HALO_QUARANTINED (R366). -/
def quarantineRec (m : Module) (i : Nat) (r : Bytes) (cause : Nat) (last got : W16) : Module :=
  logBoth m 0x0901 6 i (match taskOf m (connTask r) with | some k => k.part | none => 0xFFFF)
    (leBytes 2 i ++ leBytes 1 cause ++ zeros 1 ++ leBytes 2 last.toNat ++ leBytes 2 got.toNat)

/-- HALO_REJOINED (R366). -/
def rejoinRec (m : Module) (i : Nat) (r : Bytes) (byRelease : Bool) : Module :=
  logBoth m 0x0902 6 i (match taskOf m (connTask r) with | some k => k.part | none => 0xFFFF)
    (leBytes 2 i ++ leBytes 1 (b2n byRelease) ++ leBytes 1 (tokenOf m (connDrop r)))

/-- A failure: a running connection is quarantined with a record; in quarantine the run starts again (R348, R349). -/
def connFail (m : Module) (i : Nat) (r : Bytes) (cause : Nat) (got : W16) (count : Conn → Conn) : Module :=
  let c := connOf m i
  let m1 := connMod m i (fun c => { count c with st := 2, runN := 0 })
  if c.st = 1 then quarantineRec m1 i r cause c.seq got else m1

/-- HELD in an accepted PDU shows on the output connections of its drop (R348). -/
def showHeld (m : Module) (drop : Nat) (held : Bool) : Module :=
  ((activeConns m).filter (fun x => connIsOut x.2 && connDrop x.2 == drop)).foldl (fun a x => connMod a x.1 (fun y =>
    if held && y.st == 1 then { y with st := 3 } else if !held && y.st == 3 then { y with st := 1 } else y)) m

/-- The PDU of a connection in the agreed frame of its drop, with the key of the frame. -/
def agreedPdu (m : Module) (r : Bytes) : Option (W32 × Bytes) :=
  match dropOf m (connDrop r) with
  | none => none
  | some d => match d.agreed with
    | none => none
    | some h => some (h.key, ((mapInput d h.data).drop (connOff r)).take (8 + connLen r))

/-- CRC, LEN and REL of an input PDU are as they must be (R345, R348). -/
def pduGood (r pdu : Bytes) : Bool :=
  pdu.length == 8 + connLen r && byteAt pdu 3 == connLen r && field (byteAt pdu 2) 5 4 == 0
    && pdu.drop (4 + connLen r) == pduCrc (connId r) (pdu.take (4 + connLen r))

/-- No accepted PDU for T_exp at the check of time `S` (R348, R361). -/
def connLate (m : Module) (S : W64) (i : Nat) (r : Bytes) : Module :=
  let c := connOf m i
  if decide (1000 * connTexp r ≤ (S - c.lastAt).toNat) && (c.st == 1 || c.st == 3 || c.runN != 0)
  then connFail m i r 0 0 (fun c => { c with timeouts := inc16 c.timeouts }) else m

/-- A PDU is accepted: SEQ and the time expectation follow, and the run of a quarantined connection goes on (R348, R349). -/
def connAccept (m : Module) (S : W64) (i : Nat) (r : Bytes) (key : W32) (seq : W16) (held : Bool) : Module :=
  let c := connOf m i
  let n := if c.st = 2 then c.runN + 1 else c.runN
  let st := if c.st = 2 ∧ n = 4 then (if connAuto r then 1 else 3) else c.st
  let m1 := connMod m i (fun c => { c with seq := seq, lastAt := S, lastKey := some key, held := held, runN := if st = 2 then n else 0, st := st })
  let m2 := if c.st = 2 ∧ st = 1 then rejoinRec m1 i r false else m1
  showHeld m2 (connDrop r) held

/-- HALO_PDU_CHECK of one input connection at the start of a cycle: the module, and the data to write with their quality (R348,
R349). -/
def checkConn (m : Module) (S : W64) (i : Nat) (r : Bytes) : Module × Option (Bytes × W16) :=
  let safe : Option (Bytes × W16) := some (zeros (connLen r), 0x0040)
  let show' (m : Module) (d : Option (Bytes × W16)) : Module × Option (Bytes × W16) :=
    (m, if (connOf m i).st = 1 then d else safe)
  let c := connOf m i
  if c.st = 0 then (m, safe)
  else match agreedPdu m r with
  | none => show' (connLate m S i r) none
  | some (key, pdu) =>
    let seq := w16 (be pdu 0 2)
    if !pduGood r pdu then
      show' (connMod (connFail m i r 2 seq (fun c => { c with crcErr := inc32 c.crcErr })) i (fun c => { c with lastKey := some key })) none
    else if c.lastKey = some key ∨ (seq = c.seq ∧ ¬(c.st = 2 ∧ c.runN = 0)) then
      show' (connLate (connMod m i (fun c => { c with lastKey := some key })) S i r) none
    else if (c.st = 2 ∧ c.runN = 0) ∨ seq = c.seq + 1 then
      show' (connAccept m S i r key seq (bit (byteAt pdu 2) 6))
        (some (if bit (byteAt pdu 2) 7 then (zeros (connLen r), 0x4040) else ((pdu.drop 4).take (connLen r), 0xC000)))
    else
      show' (connMod (connFail m i r 1 seq (fun c => { c with seqErr := inc16 c.seqErr })) i (fun c => { c with lastKey := some key })) none

/-- The value of a bound entry in the data of a PDU (R351). -/
def pduValue (r data : Bytes) (n : Nat) : W64 :=
  if connWords r then iWord .int32 (signed 16 (be data (2 * n) 2)) else w64 (byteAt data (n / 8) / 2 ^ (7 - n % 8) % 2)

/-- HALO_PDU_CHECK before a cycle's first instruction: the points of each input connection enter the cycle's write set (R348). -/
def haloCheck (m : Module) (t : Nat) : Module :=
  (taskConns m t false).foldl (fun a x =>
    match taskOf a t with
    | none => a
    | some k => match k.cycle with
      | none => a
      | some c =>
        let r := checkConn a c.start x.1 x.2
        match r.2 with
        | none => r.1
        | some (data, q) =>
          let table := (partIn k c.bank 1).bytes
          let c' := ((connEntries x.2).mapIdx (fun n e => (n, e))).foldl (fun c ne =>
            wsPut c (tableEntry table ne.2.1).1 ne.2.2 (pduValue x.2 data ne.1) q) c
          taskMod r.1 t (fun k => { k with cycle := some c' })) m

/-- The WRITER word of a released point: kind 3 and the connection where one of the active set names it, else the task (R94,
R348). -/
def releasedWriter (m : Module) (t : Nat) (table : Bytes) (h : W32) : W16 :=
  match (taskConns m t false).find? (fun x => (connEntries x.2).any (fun e => (tableEntry table e.1).1 == h)) with
  | some x => w16 (0xC000 + x.1)
  | none => taskWriter t

/-! ### Safety outputs at a release (R354) -/

/-- A HALO task released a cycle: its channels take their enable values and count as live (R354, conditions 2 and 3). -/
def releaseSo (m : Module) (t : Nat) (table : Bytes) : Module :=
  (List.range 8).foldl (fun a c =>
    let r := soActive a c
    if soEnabled r && soTask r == t then
      let on := match live a (tableEntry table (soEntry r)).1 with
        | some p => p.value.getLsbD 0 && qClass p.quality == 3
        | none => false
      soMod a c (fun x => { x with enable := on, live := true })
    else a) m

/-! ### The checks at LAST (R346, R350, R351) -/

/-- An entry of a task's sealed point table with a type and an access bit: 0 READ, 1 WRITE. -/
def entryFits (k : Task) (i acc : Nat) (t : LType) : Bool :=
  [0, 1].any (fun b => (partIn k b 1).sealed && decide (8 * i < (partIn k b 1).bytes.length) &&
    (let e := tableEntry (partIn k b 1).bytes i
     e.2.1 == typeCode t && bit e.2.2 acc))

/-- A connection record is well formed, its task a HALO task and its entries fit (R351). -/
def connValid (m : Module) (r : Bytes) : Bool :=
  decide (byteAt r 6 ≤ 1 ∧ 1 ≤ connLen r ∧ connLen r ≤ 64 ∧ connPart r ≤ 3) && (!connWords r || connLen r % 2 == 0) &&
    match taskOf m (connTask r) with
    | some k => k.halo && (connEntries r).all (fun e => entryFits k e.1 (if connIsOut r then 0 else 1) e.2)
    | none => false

/-- An SO record is well formed (R351). -/
def soValid (m : Module) (r : Bytes) : Bool :=
  !soEnabled r || (decide (100 ≤ le r 6 2 ∧ le r 6 2 ≤ 400 ∧ 1 ≤ le r 0xC 2 ∧ le r 0xC 2 ≤ 24)
    && (!soEdmUsed r || decide (10 ≤ le r 2 2 ∧ le r 2 2 ≤ 500)) &&
    match taskOf m (soTask r) with
    | some k => k.halo && entryFits k (soEntry r) 0 .bool
    | none => false)

/-- The bytes of DATA a PDU takes. -/
def pduRange (bus : Bool) (r : Bytes) : Nat × Nat :=
  (if connIsOut r then pduPlace bus r else connOff r, 8 + connLen r)

/-- The placement of a PDU keeps R346. -/
def placed (m : Module) (b r : Bytes) : Bool :=
  match dropOf m (connDrop r) with
  | none => false
  | some d =>
    let bus := d.kind == .bus
    let rg := pduRange bus r
    let mapByte (k : Nat) : Bool := if bus && !connIsOut r then d.map.any (fun e => !e.out && (entRanges e).any (fun x => rangesMeet x.1 x.2 (8 * k) 8))
      else mapNames d (connIsOut r) k
    let fits := if bus then d.fd && (if connIsOut r then decide (connOff r + rg.2 ≤ perPart d ∧ connPart r < d.parts) else decide (connOff r + rg.2 ≤ d.inLen))
      else decide (rg.1 + rg.2 ≤ if connIsOut r then d.outLen else d.inLen)
    let inPdu (o : Nat) : Bool := decide (36 + rg.1 ≤ o ∧ o < 36 + rg.1 + rg.2)
    let spliced := d.kind == .ring && [m.glint.bank0, m.glint.bank1].any (fun g =>
      overSplice g.p4.bytes d.segment (if connIsOut r then d.outFid else d.inFid).toNat inPdu)
    let others := ((List.range (setConns b)).map (connRec b)).filter (fun x => x != r && connDrop x == connDrop r && connIsOut x == connIsOut r)
    d.kind != .line && fits && !(List.range rg.2).any (fun k => mapByte (rg.1 + k)) && !spliced
      && others.all (fun x => !rangesMeet rg.1 rg.2 (pduRange bus x).1 (pduRange bus x).2)

/-- T_exp keeps R350. -/
def timed (m : Module) (r : Bytes) : Bool :=
  decide (1000 ≤ connTexp r ∧ connTexp r ≤ 10000000) && match taskOf m (connTask r) with
    | some k => decide (2 * k.period + 1000 ≤ connTexp r)
    | none => true

/-- All values of a list differ. -/
def distinct : List Nat → Bool
  | [] => true
  | x :: xs => !xs.contains x && distinct xs

/-- The checks of a set at LAST: 0, or the refusal (R346, R350, R351). -/
def setCheck (m : Module) (b : Bytes) (total : Nat) : Nat :=
  let rs := (List.range (setConns b)).map (connRec b)
  if b.length ≠ total ∨ b.length < 0x20 ∨ le b 0 4 ≠ 0x504C4148 ∨ le b 4 2 ≠ 1 ∨ 1024 < setConns b
      ∨ b.length ≠ 0x20 + 32 * setConns b + 128 then 0x0907
  else if !rs.all (connValid m) || !distinct (rs.map connId) || !(List.range 8).all (fun c => soValid m (soRec b c)) then 0x0907
  else if !rs.all (placed m b) then 0x0903
  else if !rs.all (timed m) then 0x0904
  else 0

/-! ### Commands (R352, R353, R365) -/

/-- Change HALO. -/
def haloMod (m : Module) (f : Halo → Halo) : Module := { m with halo := f m.halo }

/-- The check value of a set (R352). -/
def checkValue (b : Option Bytes) : W32 := match b with | some x => crc32c x | none => 0

/-- The connections a command names; none where it names one that the active set lacks. -/
def namedConns (m : Module) (i : Nat) : Option (List (Nat × Bytes)) :=
  if i = 0xFFFF ∧ m.halo.active.isSome then some (activeConns m)
  else match (activeConns m).filter (fun x => x.1 == i) with
    | [] => none
    | l => some l

/-- A connection as after HALO.CONNECT (R348, R349, R365). -/
def freshConn (m : Module) (i : Nat) (r : Bytes) : Module :=
  let m1 := connMod m i (fun c => { st := 1, lastAt := now m, pdu := c.pdu })
  haloMod m1 (fun h => { h with tokens := tset h.tokens (connDrop r) 0 })

/-- HALO.CONNECT. -/
def hHaloConnect (m _p : Module) (c : Cmd) : QRes :=
  match namedConns m (prm c 0 2) with
  | none => .refused 8 0
  | some l => ok (l.foldl (fun a x => freshConn a x.1 x.2) m)

/-- HALO.RELEASE: the connection runs no more until HALO.CONNECT (R347, R366). -/
def hHaloRelease (m _p : Module) (c : Cmd) : QRes :=
  match namedConns m (prm c 0 2) with
  | none => .refused 8 0
  | some l => ok (l.foldl (fun a x =>
      let y := connOf a x.1
      if y.st = 0 then a
      else quarantineRec (connMod a x.1 (fun y => { y with st := 0, runN := 0, held := false })) x.1 x.2 3 y.seq 0) m)

/-- HALO.PARAM_LOAD (R351 to R353). -/
def hHaloParamLoad (m _p : Module) (c : Cmd) : QRes :=
  let first := bit (prmB c 0) 0
  let last := bit (prmB c 0) 1
  let off := prm c 4 4
  if 32928 < off + c.req.length then .refused 7 0
  else if m.halo.active.isSome && !holdsClass m 5 c.qp then .refused 12 0
  else
    let b := chunkInto first off c.req (m.halo.staged.getD [])
    match if last then setCheck m b (prm c 8 4) else 0 with
    | 0 =>
      let m' := haloMod m (fun h => { h with staged := some b, stagedSealed := last, stagedConfirmed := false })
      okRsp (if last then leBytes 4 (crc32c b).toNat else []) m'
    | e => .refused e 0

/-- HALO.PARAM_CONFIRM: the lead's and the shadow's HALO firmware each compute the value (R352). -/
def hHaloParamConfirm (m p : Module) (c : Cmd) : QRes :=
  let v := w32 (prm c 0 4)
  if m.halo.active.isSome && !holdsClass m 5 c.qp then .refused 12 0
  else match m.halo.staged with
    | none => .refused 8 0
    | some b =>
      if !m.halo.stagedSealed then .refused 8 0
      else
        let own := crc32c b
        let both := m.pair.mode == .inStep && linked m p
        let other := if both then checkValue p.halo.staged else own
        let lead := if isLead m then own else other
        let shadow := if !both then 0 else if isLead m then other else own
        if v ≠ own ∨ (both && v != other && p.halo.stagedSealed && !p.halo.stagedConfirmed) = true then
          .refusedRec 0x0902 0 (logBoth m 0x0909 6 0 0xFFFF (leBytes 4 v.toNat ++ leBytes 4 lead.toNat ++ leBytes 4 shadow.toNat))
        else
          let rec' (m : Module) (how : Nat) : Module :=
            logBoth m 0x0906 6 0 0xFFFF (leBytes 4 own.toNat ++ leBytes 4 (le b 8 4) ++ leBytes 1 how)
          if m.halo.active.isNone then
            ok (refresh (rec' (haloMod m (fun h => { h with
              active := some b
              activeConfirmed := true
              staged := none
              stagedSealed := false
              stagedConfirmed := false
              conns := []
              tokens := [] })) 0))
          else ok (rec' (haloMod m (fun h => { h with stagedConfirmed := true })) 1)

/-- The active and the staged set exchange; a connection whose record is unchanged keeps its state, every other starts anew, and a
channel whose record changed waits for a release under it (R353). -/
def exchangeSets (m : Module) (new : Bytes) : Module :=
  let old := activeConns m
  let oldSo := (List.range 8).map (fun c => soActive m c)
  let m1 := haloMod m (fun h => { h with active := some new, activeConfirmed := true, staged := h.active, stagedSealed := true, stagedConfirmed := false })
  let kept := (activeConns m1).filterMap (fun x => (old.find? (fun o => o.2 == x.2)).map (fun o => (x.1, connOf m o.1)))
  let m2 := haloMod m1 (fun h => { h with conns := kept })
  let m3 := ((activeConns m2).filter (fun x => !old.any (fun o => o.2 == x.2))).foldl (fun a x => freshConn a x.1 x.2) m2
  (List.range 8).foldl (fun a c => if oldSo.getD c [] == soActive a c then a
    else soMod a c (fun x => { x with enable := false, live := false })) m3

/-- HALO.CHANGE (R353). -/
def hHaloChange (m _p : Module) (c : Cmd) : QRes :=
  let n := prm c 0 2
  let ts := (List.range n).map (reqTask c)
  if 256 < n then .refused 7 0
  else if !holdsClass m 4 c.qp then .refused 12 0
  else if m.pair.mode == .warm then .refused 14 0
  else match m.halo.staged with
    | none => .refused 0x0901 0
    | some b =>
      if !m.halo.stagedConfirmed then .refused 0x0901 0
      else match firstIn (fun i => (taskOf m (reqTask c i)).isNone) n 0 with
        | some i => .refused 8 i
        | none => match firstIn (fun i => match taskOf m (reqTask c i) with | some k => !k.halo | none => false) n 0 with
          | some i => .refused 7 i
          | none => match firstIn (fun i => match taskOf m (reqTask c i) with | some k => (swapTarget k).isNone | none => false) n 0 with
            | some i => .refused 0x0303 i
            | none =>
              let oldv := checkValue m.halo.active
              let m1 := exchangeSets m b
              let m2 := ts.foldl (fun a t => taskMod a t swapTask) m1
              ok (refresh (logBoth m2 0x0907 6 0 0xFFFF (leBytes 4 oldv.toNat ++ leBytes 4 (crc32c b).toNat ++ leBytes 8 m.exec.lastStep.toNat)))

/-- Does an input connection from the drop exist, by which it can show HELD? -/
def dropShowsHeld (m : Module) (drop : Nat) : Bool := (activeConns m).any (fun x => !connIsOut x.2 && connDrop x.2 == drop)

/-- A connection waits for HALO.ACK (R349, R365). -/
def connWaits (m : Module) (x : Nat × Bytes) : Bool :=
  (connOf m x.1).st == 3 || (connIsOut x.2 && (connOf m x.1).st != 0 && !dropShowsHeld m (connDrop x.2))

/-- HALO.ACK on connections: a waiting input connection runs again; the token of each drop with a waiting output connection
advances through 1, 2, 3 (R349). -/
def ackConns (m : Module) (l : List (Nat × Bytes)) : Module :=
  let w := l.filter (connWaits m)
  let m1 := (w.filter (fun x => !connIsOut x.2)).foldl (fun a x => rejoinRec (connMod a x.1 (fun y => { y with st := 1 })) x.1 x.2 true) m
  let drops := ((w.filter (fun x => connIsOut x.2)).map (fun x => connDrop x.2)).eraseDups
  drops.foldl (fun a d => haloMod a (fun h => { h with tokens := tset h.tokens d (tokenOf a d % 3 + 1) })) m1

/-- A locked channel whose tests and EDM have passed again (R359). -/
def soRecovered (m : Module) (c : Nat) (x : So) : Bool := x.highOk && x.lowOk && (!soEdmUsed (soActive m c) || x.edm)

/-- HALO.ACK (R349, R359, R365). -/
def hHaloAck (m _p : Module) (c : Cmd) : QRes :=
  let i := prm c 2 2
  if prmB c 0 = 0 then
    match namedConns m i with
    | none => .refused 8 0
    | some l => if l.any (connWaits m) then ok (ackConns m l) else .refused 11 0
  else if prmB c 0 = 1 ∧ (i < 8 ∨ i = 0xFFFF) then
    let l := (m.halo.so.mapIdx (fun k x => (k, x))).filter (fun x => (i == 0xFFFF || x.1 == i) && (x.2.locked || x.2.interlock))
    if l.isEmpty then .refused 11 0
    else if l.any (fun x => x.2.locked && !soRecovered m x.1 x.2) then .refused 0x0906 0
    else ok (refresh (l.foldl (fun a x => soMod a x.1 (fun y => { y with locked := false, edmFault := false, interlock := false })) m))
  else .refused 7 0

/-- One bit per SO channel. -/
def soBits (m : Module) (f : So → Bool) : Nat := natOfBits (m.halo.so.map f)

/-- A connection entry of HALO.STATUS. -/
def connEntry (m : Module) (i : Nat) : Bytes :=
  match (activeConns m).find? (fun x => x.1 == i) with
  | none => zeros 16
  | some x =>
    let y := connOf m i
    leBytes 1 y.st ++ leBytes 1 (tokenOf m (connDrop x.2)) ++ leBytes 2 y.seq.toNat ++ leBytes 4 y.crcErr ++ leBytes 2 y.seqErr
      ++ leBytes 2 y.timeouts ++ leBytes 4 (sat32 ((now m - y.lastAt).toNat / 1000))

/-- HALO.STATUS (R365). -/
def hHaloStatus (m _p : Module) (c : Cmd) : QRes :=
  let n := prm c 2 2
  if 1024 < n then .refused 7 0
  else
    let head := leBytes 4 (checkValue m.halo.active).toNat ++ leBytes 4 (checkValue m.halo.staged).toNat
      ++ leBytes 1 (b2n m.halo.activeConfirmed + 2 * b2n m.halo.stagedConfirmed) ++ leBytes 1 (soBits m (fun x => x.energised))
      ++ leBytes 1 (soBits m (fun x => x.fallback)) ++ leBytes 1 (soBits m (fun x => x.locked)) ++ leBytes 1 (soBits m (fun x => x.edmFault))
      ++ zeros 3 ++ leBytes 8 m.halo.tests.toNat ++ zeros 8
    okRsp (head ++ ((List.range n).map (fun k => connEntry m (prm c 0 2 + k))).flatten) m

def execHaloConnect (sl : Slot) (c : Cmd) (s : State) : Res := quondi hHaloConnect .work .sys 0x0901 s sl c
def execHaloRelease (sl : Slot) (c : Cmd) (s : State) : Res := quondi hHaloRelease .work .sys 0x0902 s sl c
def execHaloParamLoad (sl : Slot) (c : Cmd) (s : State) : Res := quondi hHaloParamLoad .work .sys 0x0903 s sl c
def execHaloParamConfirm (sl : Slot) (c : Cmd) (s : State) : Res := quondi hHaloParamConfirm .work .sys 0x0904 s sl c
def execHaloChange (sl : Slot) (c : Cmd) (s : State) : Res := quondi hHaloChange .work .sys 0x0905 s sl c
def execHaloAck (sl : Slot) (c : Cmd) (s : State) : Res := quondi hHaloAck .work .sys 0x0906 s sl c
def execHaloStatus (sl : Slot) (c : Cmd) (s : State) : Res := quondi hHaloStatus .query .any 0x0907 s sl c

/-! ### Tests and faults of the safety outputs (R355 to R360) -/

/-- De-energise a channel. -/
def soOff (m : Module) (c : Nat) (x : So) : So :=
  if x.energised then { x with energised := false, edmDue := soEdmUsed (soActive m c), interlock := x.interlock || soInterlock (soActive m c), test := none }
  else { x with test := none }

/-- Lock a channel de-energised: cause 0 switch, 1 EDM, 2 fallback limit, 3 second fault (R358, R366). -/
def lockSo (m : Module) (c cause : Nat) : Module :=
  logEv (soMod m c (fun x => { soOff m c x with locked := true, fallback := false, highOk := false, lowOk := false }))
    0x0904 6 c 0xFFFF ([BitVec.ofNat 8 c, BitVec.ofNat 8 cause])

/-- A 62.5 ms slot starts the test of its switch: a dark pulse where the channel is energised, else a closing test; a switch known
stuck on in fallback is not tested (R355, R358). -/
def execSoTestSlot (sl : Slot) (slotNo : Nat) (s : State) : Res :=
  onMod s sl (fun m =>
    if !fw m || decide (16 ≤ slotNo) then m
    else
      let c := slotNo / 2
      let high := slotNo % 2 == 0
      let m1 := haloMod m (fun h => { h with testSlot := some slotNo, so := h.so.map (fun x => { x with test := none }) })
      soMod m1 c (fun x => if x.fallback && x.stuckHigh == high then x else { x with test := some (high, x.energised) }))

/-- A classified fault and its reaction: 0 stuck on, 1 stuck off, 2 fed terminal (R358). -/
def soFault (m : Module) (c : Nat) (high : Bool) (fault : Nat) : Module :=
  match m.halo.so[c]? with
  | none => m
  | some x =>
    if x.locked then m
    else
      let fall := fault == 0 && soEdmUsed (soActive m c) && !x.fallback
      let m1 := logEv m 0x0903 6 c 0xFFFF ([BitVec.ofNat 8 c, BitVec.ofNat 8 (b2n (!high)), BitVec.ofNat 8 fault, BitVec.ofNat 8 (b2n (!fall))])
      if fall then soMod m1 c (fun x => { x with fallback := true, stuckHigh := high })
      else lockSo m1 c (if x.fallback then 3 else 0)

/-- A test ends with its readback verdict; one that a demand ended has none (R355, R358, R360). -/
def execSoTestEnd (sl : Slot) (pass : Bool) (fed : Bool) (s : State) : Res :=
  onMod s sl (fun m => match m.halo.testSlot with
    | none => m
    | some n => match m.halo.so[n / 2]? with
      | none => m
      | some x => match x.test with
        | none => haloMod m (fun h => { h with testSlot := none })
        | some (high, dark) =>
          let c := n / 2
          let m1 := haloMod m (fun h => { h with testSlot := none, tests := h.tests + 1 })
          let good := pass && !fed
          let m2 := soMod m1 c (fun x => { x with test := none, highOk := if high then good else x.highOk, lowOk := if high then x.lowOk else good })
          let m3 := if fed && !dark then soFault m2 c high 2 else if !pass then soFault m2 c high (if dark then 0 else 1) else m2
          refresh m3)

/-- The HALO task has released no cycle within 2 × P + 1 ms (R354, condition 3). -/
def execSoReleaseTimeout (sl : Slot) (channel : Nat) (s : State) : Res :=
  onMod s sl (fun m => refresh (soMod m channel (fun x => { x with live := false })))

/-- An EDM input changes: the change that was awaited has come when it reads what the contactor must show (R354, R359). -/
def execEdmInputChange (sl : Slot) (channel : Nat) (level : Bool) (s : State) : Res :=
  onMod s sl (fun m =>
    if !powered m then soMod m channel (fun x => { x with edm := level })
    else refresh (soMod m channel (fun x =>
      if x.edm = level then x else { x with edm := level, edmAt := now m, edmDue := x.edmDue && level == x.energised })))

/-- EDM has not followed within the EDM time: EDM_FAULT, and the channel locks (R359). -/
def execEdmTimeExpiry (sl : Slot) (channel : Nat) (s : State) : Res :=
  onMod s sl (fun m => match m.halo.so[channel]? with
    | none => m
    | some x =>
      if !fw m || !x.edmDue then m
      else if x.edm != x.energised then soMod m channel (fun x => { x with edmDue := false })
      else
        let m1 := logEv m 0x0905 6 channel 0xFFFF
          ([BitVec.ofNat 8 channel, BitVec.ofNat 8 (b2n (!x.energised))] ++ leBytes 2 (le (soActive m channel) 2 2))
        let m2 := soMod m1 channel (fun x => { x with edmFault := true })
        let m3 := if x.locked then m2 else lockSo m2 channel 1
        refresh (soMod m3 channel (fun x => { x with edmDue := false })))

/-- The fallback limit expires (R358). -/
def execFallbackLimitExpiry (sl : Slot) (channel : Nat) (s : State) : Res :=
  onMod s sl (fun m => match m.halo.so[channel]? with
    | none => m
    | some x => if x.fallback then refresh (lockSo m channel 2) else m)

/-! ### The self-check (R362, R375) -/

/-- Every 10 min: the component CRC-32C of the current safety image and the test vectors; a failure is cause 5 of UMBRA. -/
def haloCheckSelf (m : Module) (vectorsPass : Bool) : Module :=
  if vectorsPass && compsGood (regionOf m m.boot.cur 2) then bootMod m (fun b => { b with selfChecked := true })
  else enterUmbra m 5 0

def execHaloSelfCheck (sl : Slot) (vectorsPass : Bool) (s : State) : Res :=
  onMod s sl (fun m => if fw m then haloCheckSelf m vectorsPass else m)

end Sys2Proof.Machine
end

