-- ==== Sys2Proof/Machine/Attach.lean ====
section
/-! DEFINITION. Machine/Attach.lean: the attach rendezvous, the anchor page, detaching and the doorbells (R38, R59 to R63). -/

namespace Sys2Proof.Machine
open Sys2Proof Sys2Proof.Bits

/-! ### Attaching (R59, R60) -/

/-- The anchor address that the rendezvous fields hold; bits [11:0] are ignored (R59). -/
def rendezvous (q : Mailbox) : W64 :=
  (q.r0Tail ++ q.r0Head ++ q.r1Tail ++ q.r1Head : BitVec 64) &&& 0xFFFFFFFFFFFFF000

/-- Ring sizes of R63. -/
def sqSizeOk (n : Nat) : Bool := pow2In n 4 12
def cqSizeOk (n : Nat) : Bool := pow2In n 4 14
/-- 4 KiB alignment. -/
def aligned4k (a : W64) : Bool := a.toNat % 4096 == 0

/-- ANCHOR_STATUS of the page read: 1 open, 2 ring size, 3 ring base, 4 DMA fault (R60). -/
def anchorCode (page : Option AnchorPage) : Nat :=
  match page with
  | none => 4
  | some a =>
    if !(sqSizeOk a.sqSize && cqSizeOk a.cqSize) then 2
    else if !(aligned4k a.sqBase && aligned4k a.cqBase) then 3
    else 1

/-- The key is written while QP 0 is closed: the anchor page is read and answered (R59). -/
def attachHost (m : Module) (page : Option AnchorPage) : Module :=
  if !fw m || attached m then m
  else
    let addr := rendezvous m.mail
    let st := anchorCode page
    let m1 := mailMod m (fun q => { q with anchorAddr := addr, anchorStatus := st, r2Tail := 0x5143 })
    match st, page with
    | 1, some a =>
      let q0 : Qp := { st := .opened, vector := a.vec, sqBase := a.sqBase, cqBase := a.cqBase, sqSize := a.sqSize, cqSize := a.cqSize }
      let m2 := mailMod m1 (fun q => { q with
        qps := tset q.qps 0 q0
        hostTag := a.hostTag
        heartbeat := now m
        r0Tail := 0
        r0Head := 0
        r1Tail := 0
        r1Head := 0
        r2Tail := 0 })
      msi (writeAnchor (logEv m2 0x0101 1 0 0xFFFF (leBytes 8 a.hostTag.toNat ++ leBytes 8 addr.toNat))) 0
    | _, _ => msi (writeAnchor m1) 0

def execAttach (sl : Slot) (page : Option AnchorPage) (s : State) : Res := onMod s sl (fun m => attachHost m page)

/-- Every 1 ms HEARTBEAT is rewritten in the anchor page of an attachment that is served (R60). -/
def execAnchorHeartbeat (sl : Slot) (s : State) : Res :=
  onMod s sl (fun m => if fw m && attached m then writeAnchor (mailMod m (fun q => { q with heartbeat := now m })) else m)

/-! ### Closing QPs (R62, R89) -/

/-- A SESSION.CLOSE that waits on a QP ends DONE once nothing is in flight there; the QP is then closed (R89). -/
def closeIfDrained (m : Module) (qp : Nat) : Module :=
  match tget m.mail.qps qp with
  | none => m
  | some q => match q.closer with
    | none => m
    | some (by_, c) =>
      if q.st == .closing && q.inFlight == 0 && q.held.isEmpty then
        let m1 := mailMod m (fun x => { x with qps := tdel x.qps qp })
        pushCpl m1 by_ { ticket := c.ticket, code := 0x0102, stage := 3, time := now m, noIrq := noIrq c.flags }
      else m

/-- QPs that end without draining: their commands that are not accepted work go with them; a SESSION.CLOSE that waited on one
ends (R62). -/
def dropQps (m : Module) (qs : List Nat) : Module :=
  let gone (n : Nat) : Bool := qs.contains n
  let closers := (m.mail.qps.filter (fun x => gone x.1)).filterMap (fun x => x.2.closer)
  let flying := ((m.mail.qps.filter (fun x => gone x.1)).map (fun x => x.2.inFlight)).sum
  let m1 := mailMod m (fun q => { q with
    qps := q.qps.filter (fun x => !gone x.1)
    waiting := q.waiting.filter (fun w => !gone w.1)
    journal := q.journal.filter (fun e => e.accepted || !gone e.qp)
    inFlight := q.inFlight - flying })
  closers.foldl (fun a x => pushCpl a x.1 { ticket := x.2.ticket, code := 0x0102, stage := 3, time := now m, noIrq := noIrq x.2.flags }) m1

/-- The PCIe attachment ends: all DMA over the link ends and every QP bound to PCIe closes (R62). -/
def detachHost (m : Module) : Module :=
  let m1 := dropQps m ((m.mail.qps.filter (fun x => !x.2.udp)).map (·.1))
  let m2 := if m1.boot.pulling then pullFail m1 else m1
  let m3 := mailMod m2 (fun q => { q with r0Tail := 0, r0Head := 0, r1Tail := 0, r1Head := 0, r2Tail := 0 })
  if attached m then logEv m3 0x0102 1 0 0xFFFF [0] else m3

/-- 0xDE7A is written to CQ_HEAD of QP 0 while it is open (R62). -/
def execDetach (sl : Slot) (s : State) : Res := onMod s sl (fun m => if fw m && attached m then detachHost m else m)

/-! ### Doorbells (R38, R59) -/

/-- A doorbell write that the firmware serves: the field of an open PCIe QP. -/
def qpDoorbell (m : Module) (qp : Nat) (f : Qp → Qp) : Module := qpMod m qp (fun q => if q.udp then q else f q)

/-- SQ_TAIL of a QP; while QP 0 is closed, a rendezvous field (R59). -/
def ringSqTail (m : Module) (qp : Nat) (v : W16) : Module :=
  if !fw m || !bar0Writes m then m
  else if !attached m && decide (qp ≤ 2) then
    mailMod m (fun q => match qp with
      | 0 => { q with r0Tail := v }
      | 1 => { q with r1Tail := v }
      | _ => { q with r2Tail := v })
  else qpDoorbell m qp (fun q => { q with sqTail := v.toNat })

/-- CQ_HEAD of a QP; while QP 0 is closed, a rendezvous field; 0xDE7A on QP 0 detaches (R59, R62). -/
def ringCqHead (m : Module) (qp : Nat) (v : W16) : Module :=
  if !fw m || !bar0Writes m then m
  else if !attached m && decide (qp ≤ 1) then
    mailMod m (fun q => match qp with
      | 0 => { q with r0Head := v }
      | _ => { q with r1Head := v })
  else if qp = 0 ∧ v = 0xDE7A then detachHost m
  else qpDoorbell m qp (fun q => { q with cqHead := v.toNat })

def execDoorbellSqTail (sl : Slot) (qp : Nat) (value : W16) (s : State) : Res := onMod s sl (fun m => ringSqTail m qp value)
def execDoorbellCqHead (sl : Slot) (qp : Nat) (value : W16) (s : State) : Res := onMod s sl (fun m => ringCqHead m qp value)

end Sys2Proof.Machine
end

