-- ==== Sys2Proof/Machine/Power.lean ====
section
/-! DEFINITION. Machine/Power.lean: feeds, hold-up, power-up and power-down, the ejector lever, the reset pins, PCIe and the
temperature sensors (R31, R395 to R401, R410, R411). -/

namespace Sys2Proof.Machine
open Sys2Proof Sys2Proof.Bits

/-- Change the power state. -/
def powerMod (m : Module) (f : Power → Power) : Module := { m with power := f m.power }

/-! ### Power-up (R399) -/

/-- A power-up may start: OFF, a logic feed in range, lever closed, junctions cool after a thermal power-down (R399, R410). -/
def mayPowerUp (m : Module) : Bool :=
  m.power.phase == .off && m.power.leverClosed && (m.power.logic1 || m.power.logic2) && !m.power.tooHot

/-- Inrush limiter, bank precharge and rails start (R399). -/
def startPowerUp (m : Module) : Module := if mayPowerUp m then powerMod m (fun p => { p with phase := .ramping }) else m

def execPowerUpStart (sl : Slot) (s : State) : Res := onMod s sl startPowerUp

/-- RETAINED_LOG_REPLAY: each commit whose completion mark is in the log is applied, every other entry is discarded; what is
retained then waits as orphans for its points (R20, R104). -/
def replayLog (m : Module) : Module :=
  let ret := (m.store.log.filter (fun l => l.complete)).foldl (fun r l => l.entries.foldl (fun r e => tset r e.1 e.2) r) m.store.retained
  { m with store := { m.store with
    log := []
    retained := []
    orphans := (m.store.orphans ++ ret).foldl (fun t x => tset t x.1 x.2) [] } }

/-- Power-good: the slot and wiring pins are sampled, the Almanac starts at 0, the retained log is replayed, the PCIe endpoint
comes up (R31, R294, R395). -/
def goPowerGood (m : Module) : Module :=
  if m.power.phase != .ramping then m
  else
    let m1 := replayLog (powerMod m (fun p => { p with phase := .bringUp }))
    { m1 with
      hw := { m1.hw with slotB := m1.hw.slotBPin, wiring := m1.hw.wcPins }
      alm := {}
      boot := { m1.boot with fail := 0, loaderUp := false, pcie := if m1.boot.perstHeld then .down else .retry } }

def execPowerGood (sl : Slot) (s : State) : Res := onMod s sl goPowerGood

/-- Loader bring-up completes: STATE reads LOADER and BAR0 takes writes; not while MRESET_N holds the module in reset (R31, R396). -/
def goLoader (m : Module) : Module :=
  if m.boot.mresetHeld then m
  else if m.power.phase = .bringUp then
    let m1 := bootMod (powerMod m (fun p => { p with phase := .good })) (fun b => { b with state := .loader, loaderUp := true })
    refresh (holdLanes m1 true)
  else if m.boot.state = .loader then bootMod m (fun b => { b with loaderUp := true })
  else m

def execLoaderReady (sl : Slot) (s : State) : Res := onMod s sl goLoader

/-! ### Resets (R29, R396) -/

/-- MRESET_N low for 10 µs: a module reset that lasts while the pin stays low. -/
def execMreset (sl : Slot) (s : State) : Res :=
  onMod s sl (fun m => bootMod (moduleReset m) (fun b => { b with mresetHeld := true, loaderUp := false }))

/-- MRESET_N rises: the loader comes up (LOADER_READY). -/
def execMresetRelease (sl : Slot) (s : State) : Res := onMod s sl (fun m => bootMod m (fun b => { b with mresetHeld := false }))

/-- The Lantern watchdog expires (R29). -/
def execLanternWatchdogExpiry (sl : Slot) (s : State) : Res := onMod s sl moduleReset

/-- BOOT_RESET: the key resets the module in every state but OFF, any other value is ignored (R37). -/
def writeBootReset (m : Module) (key : W32) : Module := if bar0Writes m && key == 0x0000A5C3 then moduleReset m else m

def execBootReset (sl : Slot) (key : W32) (s : State) : Res := onMod s sl (fun m => writeBootReset m key)

/-- A fault in the Glint engine, the safety monitor or the Lantern lockstep: HALT (R29). -/
def execLockstepFault (sl : Slot) (_unit : Nat) (s : State) : Res :=
  onMod s sl (fun m => if hasPower m && powered m then enterHalt m else m)

/-- PERST_N low: only the PCIe endpoint resets, and the attachment ends (R396). -/
def execPerst (sl : Slot) (s : State) : Res :=
  onMod s sl (fun m => bootMod (detachHost m) (fun b => { b with perstHeld := true, pcie := .down }))

/-- PERST_N rises: the link retrains (R396). -/
def execPerstRelease (sl : Slot) (s : State) : Res :=
  onMod s sl (fun m => if !m.boot.perstHeld then m
    else bootMod m (fun b => { b with perstHeld := false, pcie := if m.power.phase == .good || m.power.phase == .bringUp then .retry else .down }))

/-- The endpoint has trained: configuration requests complete normally (R31). -/
def execPcieLinkTrained (sl : Slot) (s : State) : Res :=
  onMod s sl (fun m => if m.boot.pcie == .retry && !m.boot.perstHeld then bootMod m (fun b => { b with pcie := .trained }) else m)

/-! ### Feeds and hold-up (R397, R398) -/

/-- Logic power is lost: during the ramp the power-up ends, after it R400 runs. -/
def losePower (m : Module) : Module :=
  if m.power.phase = .ramping then powerMod m (fun p => { p with phase := .off }) else declarePowerLoss m

/-- FEED_LOST (R315). -/
def feedRecord (m : Module) (feed mv : Nat) : Module := logEv m 0x0004 0 0 0xFFFF (leBytes 1 feed ++ zeros 1 ++ leBytes 2 mv)

/-- A logic feed, 0 or 1, below 17.0 V for 100 µs; with both lost the bank carries the load (R397, R398). -/
def execLogicFeedLost (sl : Slot) (feed : Nat) (millivolt : Nat) (s : State) : Res :=
  onMod s sl (fun m =>
    let m1 := powerMod m (fun p => if feed = 0 then { p with logic1 := false, logic1mV := millivolt } else { p with logic2 := false, logic2mV := millivolt })
    feedRecord (powerMod m1 (fun p => { p with inDip := p.inDip || (p.phase == .good && !p.logic1 && !p.logic2) })) (if feed = 0 then 0 else 1) millivolt)

/-- A logic feed above 17.5 V for 10 ms; a dip that ends so was ridden through (R397, R411). -/
def execLogicFeedRestored (sl : Slot) (feed : Nat) (millivolt : Nat) (s : State) : Res :=
  onMod s sl (fun m => powerMod m (fun p =>
    let p1 := if feed = 0 then { p with logic1 := true, logic1mV := millivolt } else { p with logic2 := true, logic2mV := millivolt }
    if p.inDip && p.phase == .good then { p1 with inDip := false, rideThroughs := inc32 p.rideThroughs } else { p1 with inDip := false }))

/-- The field feed out of range for 1 ms: SO channels open, DO and FDO have no supply (R354, R397). -/
def execFieldFeedLost (sl : Slot) (millivolt : Nat) (s : State) : Res :=
  onMod s sl (fun m => refresh (feedRecord (powerMod m (fun p => { p with field := false, fieldmV := millivolt })) 2 millivolt))

/-- The field feed within range for 10 ms. -/
def execFieldFeedRestored (sl : Slot) (millivolt : Nat) (s : State) : Res :=
  onMod s sl (fun m => refresh (powerMod m (fun p => { p with field := true, fieldmV := millivolt })))

/-- The reserve is computed every 1 ms; below 3 ms logic power is lost (R398). -/
def execHoldupReserveUpdate (sl : Slot) (present at46 : Nat) (bank : Nat) (s : State) : Res :=
  onMod s sl (fun m =>
    let m1 := powerMod m (fun p => { p with reserve := present, reserve46 := at46, bankmV := bank })
    if present < 30 then declarePowerLoss m1 else m1)

/-- The ORed logic input below 16.0 V for 7 ms (R398). -/
def execLogicInputLowTimeout (sl : Slot) (s : State) : Res := onMod s sl losePower

/-- The flush completes, the rails switch off: OFF (R400). -/
def execPowerDownComplete (sl : Slot) (s : State) : Res :=
  onMod s sl (fun m => if m.power.phase == .goingDown then unpowered m else m)

/-! ### The ejector lever (R401) -/

def execEjectorLeverOpen (sl : Slot) (s : State) : Res :=
  onMod s sl (fun m => losePower (powerMod m (fun p => { p with leverClosed := false })))

/-- The lever has been closed for 100 ms: a power-up starts. -/
def execEjectorLeverClosed (sl : Slot) (s : State) : Res :=
  onMod s sl (fun m => startPowerUp (powerMod m (fun p => { p with leverClosed := true })))

/-! ### Temperatures (R410, R411) -/

/-- The highest junction sensor. -/
def maxJ (p : Power) : Int := max (max p.j0 p.j1) (max p.j2 p.j3)

/-- THERMAL (R315). -/
def thermalRecord (m : Module) : Module :=
  logEv m 0x0005 0 0 0xFFFF (leBytes 2 (unsigned 16 m.power.coldPlate) ++ leBytes 2 (unsigned 16 (maxJ m.power)) ++ leBytes 1 (b2n m.power.throttled))

/-- A junction reading: 160 °C loses power, 150 °C twice is cause 1 of UMBRA, a crossing of 140 °C is recorded (R410). -/
def readJunctions (m : Module) (t0 t1 t2 t3 : Int) : Module :=
  let m1 := powerMod m (fun p => { p with j0 := t0, j1 := t1, j2 := t2, j3 := t3 })
  let top := maxJ m1.power
  if m.power.phase == .off then powerMod m1 (fun p => { p with tooHot := p.tooHot && decide (1300 < top) })
  else
    let m2 := powerMod m1 (fun p => { p with maxJunction := max p.maxJunction top, hotOnce := decide (1500 ≤ top), warm140 := decide (1400 ≤ top) })
    if 1600 ≤ top then losePower (powerMod m2 (fun p => { p with tooHot := true }))
    else
      let m3 := if 1400 ≤ top ∧ m.power.warm140 = false then thermalRecord m2 else m2
      if 1500 ≤ top ∧ m.power.hotOnce = true then enterUmbra m3 1 (unsigned 32 top) else m3

def execJunctionRead (sl : Slot) (t0 t1 t2 t3 : Int) (s : State) : Res := onMod s sl (fun m => readJunctions m t0 t1 t2 t3)

/-- A cold-plate reading: throttling of split cores and the limits of the ratings (R410). -/
def readColdPlate (m : Module) (t : Int) (coolFor10s : Bool) : Module :=
  let outside := decide (t < -400 ∨ 1250 < t)
  let thr := if m.power.throttled then !(decide (t ≤ 1170) && coolFor10s) else decide (1200 ≤ t)
  if m.power.phase != .good then powerMod m (fun p => { p with coldPlate := t })
  else
    let m1 := powerMod m (fun p => { p with
      coldPlate := t
      maxCold := max p.maxCold t
      outOfRange := outside
      throttled := thr
      throttledTenths := p.throttledTenths + b2n thr })
    if outside ≠ m.power.outOfRange ∨ thr ≠ m.power.throttled then thermalRecord m1 else m1

def execColdPlateRead (sl : Slot) (t : Int) (coolFor10s : Bool) (s : State) : Res := onMod s sl (fun m => readColdPlate m t coolFor10s)

/-- DIAG.THERMAL (R411). -/
def hDiagThermal (m _p : Module) (_c : Cmd) : QRes :=
  let p := m.power
  let t (v : Int) : Bytes := leBytes 2 (unsigned 16 v)
  let flags := 8 * b2n (decide (80 ≤ p.reserve)) + 4 * b2n p.field + 2 * b2n p.logic2 + b2n p.logic1
  okRsp (t p.coldPlate ++ t (maxJ p) ++ t p.j0 ++ t p.j1 ++ t p.j2 ++ t p.j3 ++ leBytes 1 (b2n p.throttled) ++ leBytes 1 flags ++ zeros 2
    ++ leBytes 2 p.logic1mV ++ leBytes 2 p.logic2mV ++ leBytes 2 p.fieldmV ++ leBytes 2 p.bankmV
    ++ leBytes 2 p.logicPower ++ leBytes 2 p.fieldPower ++ leBytes 2 p.reserve ++ leBytes 2 p.reserve46
    ++ leBytes 4 (sat32 (p.throttledTenths / 10)) ++ leBytes 4 (sat32 p.rideThroughs) ++ t p.maxCold ++ t p.maxJunction ++ zeros 4
    ++ leBytes 8 (now m).toNat ++ zeros 8) m

def execDiagThermal (sl : Slot) (c : Cmd) (s : State) : Res := quondi hDiagThermal .query .any 0x0C02 s sl c

end Sys2Proof.Machine
end

