-- ==== Sys2Proof/Machine/Boot.lean ====
section
/-! DEFINITION. Machine/Boot.lean: GO, the relay from the partner, full verification, the self-tests and every BAR0 register
(R34 to R53, R299, R369 to R378). -/

namespace Sys2Proof.Machine
open Sys2Proof Sys2Proof.Bits

/-! ### BOOT_CTL (R37, R45) -/

/-- VERIFY from LOADER. -/
def verifyFromLoader (m : Module) : Module := setState (bootMod m (fun b => { b with verifyFrom := .loader })) .verify

/-- BOOT_STATE.FAIL. -/
def setFail (m : Module) (c : Nat) : Module := bootMod m (fun b => { b with fail := BitVec.ofNat 8 c })

/-- GO starts the load slot in LOADER once both of its regions are closed; otherwise it fails with MISSING (R34, R53). -/
def bootGo (m : Module) : Module :=
  if m.boot.state != .loader then m
  else
    let i := loadSlot m.boot
    if (regionOf m i 1).closed && (regionOf m i 2).closed then verifyFromLoader m else setFail m 0x0A

/-- RELAY_EN: written 0 it ends a relay of the loader at the next block; written 0 and then 1 it lets a withdrawn relay be offered
again (R45). -/
def writeRelayEn (m : Module) (en : Bool) : Module :=
  bootMod m (fun b => { b with
    relayEn := en
    relayStop := b.relayStop || (b.relaying && b.state == .loader && !en)
    relayWithdrawn := b.relayWithdrawn && !(en && !b.relayEn) })

/-- A write to BOOT_CTL. -/
def writeBootCtl (m : Module) (hdrFirst relayEn go : Bool) : Module :=
  if !bar0Writes m then m
  else
    let m1 := bootMod (writeRelayEn m relayEn) (fun b => { b with hdrFirst := hdrFirst })
    if go then bootGo m1 else m1

def execBootGo (sl : Slot) (hdrFirst relayEn : Bool) (s : State) : Res := onMod s sl (fun m => writeBootCtl m hdrFirst relayEn true)

/-- A write of RELAY_EN that keeps HDRFIRST and carries no GO. -/
def execRelayEnWrite (sl : Slot) (relayEn : Bool) (s : State) : Res :=
  onMod s sl (fun m => writeBootCtl m m.boot.hdrFirst relayEn false)

/-! ### The relay from the partner (R44, R368) -/

/-- Bytes of a relay block. -/
def relayBlockLen : Nat := 1048576
/-- Blocks of a region. -/
def blocksOf (r : Region) : Nat := (r.len + relayBlockLen - 1) / relayBlockLen
/-- A block of a region. -/
def blockBytes (r : Region) (b : Nat) : Bytes := regionBytes r (b * relayBlockLen) (min relayBlockLen (r.len - b * relayBlockLen))

/-- The slot a relay from the partner fills. -/
def relaySlot (m : Module) : Nat := if m.boot.state = .loader then loadSlot m.boot else m.boot.cand

/-- The partner sends a block with its CRC. -/
def sendBlock (p : Module) (cls b : Nat) : Module :=
  emit p (.sync (.relayBlock cls b (crc32c (blockBytes (regionOf p p.boot.sendSlot cls) b))))

/-- The partner begins to send the classes of a slot; the receiver opens nothing for its host meanwhile (OWNER 2). -/
def startRelay (m p : Module) (slot : Nat) (classes : List Nat) : Module × Module :=
  match classes with
  | [] => (m, p)
  | c :: _ =>
    let m1 := classes.foldl (fun a k => regionMod a (relaySlot a) k (fun _ => { owner := 2 })) m
    let m2 := bootMod m1 (fun b => { b with relaying := true, relayCls := c, relayBlock := 0, relayFails := 0, relayMib := 0, relayStop := false })
    (m2, sendBlock (bootMod p (fun b => { b with sending := some (c, 0, 0), sendSlot := slot, sendClasses := classes })) c 0)

/-- BOOT_STAT.PARTNER. -/
def partnerOffers (m p : Module) : Bool := linked m p && serving p

/-- A module in LOADER takes its images from the partner; a start that meets a region open for the host is withdrawn (R44, R45). -/
def relayFromPartner (m p : Module) : Module × Module :=
  let i := loadSlot m.boot
  if !hasPower m || m.boot.state != .loader || !m.boot.relayEn || m.boot.relaying || m.boot.relayWithdrawn || !partnerOffers m p then (m, p)
  else if (regionOf m i 1).isOpen || (regionOf m i 2).isOpen then (bootMod m (fun b => { b with relayWithdrawn := true }), p)
  else startRelay m p p.boot.cur [1, 2]

def execPartnerRelayStart (sl : Slot) (s : State) : Res := onBoth s sl relayFromPartner

/-- A relay ends without its images: the regions are neither open nor closed. In the loader the code is FAIL 0x0C (R44). -/
def relayFail (m : Module) : Module :=
  let m1 := [1, 2].foldl (fun a k => if (regionOf a (relaySlot a) k).owner = 2 then regionMod a (relaySlot a) k (fun _ => {}) else a) m
  let m2 := bootMod m1 (fun b => { b with relaying := false, relayStop := false })
  if m.boot.state = .loader then setFail m2 0x0C else m2

/-- The relay ends at a block boundary by RELAY_EN = 0: the load slot is discarded (R45). -/
def relayStopNow (m : Module) : Module :=
  let m1 := [1, 2].foldl (fun a k => regionMod a (loadSlot a.boot) k (fun _ => {})) m
  bootMod m1 (fun b => { b with relaying := false, relayStop := false })

/-- The block after the one under way: in its class, in the next class, or none. -/
def nextBlock (p : Module) (cls b : Nat) : Option (Nat × Nat) :=
  if b + 1 < blocksOf (regionOf p p.boot.sendSlot cls) then some (cls, b + 1)
  else match (p.boot.sendClasses.dropWhile (fun c => c != cls)).drop 1 with
    | c :: _ => some (c, 0)
    | [] => none

/-- Every block has arrived: the regions are closed; in the loader VERIFY follows without a GO (R29, R44). -/
def relayComplete (m p : Module) : Module :=
  let m1 := p.boot.sendClasses.foldl (fun a k => regionMod a (relaySlot a) k closeRegion) m
  let m2 := bootMod m1 (fun b => { b with relaying := false })
  if m.boot.state = .loader then verifyFromLoader m2 else m2

/-- A block of the relay arrives (R44). -/
def takeBlock (cls block : Nat) (data : Bytes) (crc : W32) (m p : Module) : Module :=
  if !hasPower m || !m.boot.relaying || !linked m p || m.boot.relayCls != cls || m.boot.relayBlock != block then m
  else if crc32c data ≠ crc then
    let m1 := emit m (.sync (.relayBlockAck false))
    if m.boot.relayFails = 2 then relayFail m1 else bootMod m1 (fun b => { b with relayFails := b.relayFails + 1 })
  else
    let m1 := regionMod m (relaySlot m) cls (fun r =>
      { r with bytes := memWrite r.bytes (block * relayBlockLen) data, len := max r.len (block * relayBlockLen + data.length) })
    let m2 := emit (bootMod m1 (fun b => { b with relayFails := 0, relayMib := b.relayMib + 1 })) (.sync (.relayBlockAck true))
    if m.boot.relayStop then relayStopNow m2
    else match nextBlock p cls block with
      | some (c, b) => bootMod m2 (fun x => { x with relayCls := c, relayBlock := b })
      | none => relayComplete m2 p

def execSyncRelayBlockReceive (sl : Slot) (cls block : Nat) (data : Bytes) (crc : W32) (s : State) : Res :=
  onPair s sl (takeBlock cls block data crc)

/-! ### Verification (R48, R49, R370, R371) -/

/-- The slot under verification. -/
def verifySlot (b : Boot) : Nat :=
  match b.verifyFrom with
  | .loader => loadSlot b
  | .activate => b.cand
  | .revert => b.prev

/-- The verdict's code: 0, or a code of R53. -/
def verifyCode (m : Module) (slot : Nat) (ecc : Bool) : Nat := if ecc then 0x0D else slotCode m slot

/-- IMAGE_ACTIVATED for both classes of the slot now current (R315, R370). -/
def activatedRecords (m : Module) : Module :=
  [1, 2].foldl (fun a cls => pushPending a
    { code := 0x0A01, time := now a, source := srcOf a 0 0, partition := 0xFFFF, severity := 0
      data := fit 24 (leBytes 1 a.boot.cur ++ leBytes 1 cls ++ zeros 2 ++ leBytes 4 (imgVer (regionOf a a.boot.cur cls)).toNat) }) m

/-- The slot of a number is marked verified, with its last check code. -/
def slotChecked (m : Module) (i c : Nat) : Module := slotMod m i (fun s => { s with verified := c == 0, lastCode := c })

/-- An activation passes: candidate becomes current, current previous, the old previous slot the empty candidate (R15), the split mask
becomes the module's split set and the recorded one (R374), and the confirm window is due (R375). -/
def rotateRoles (m : Module) : Module :=
  let m1 := bootMod m (fun b => { b with
    cur := b.cand
    prev := b.cur
    cand := b.prev
    confirm := 1
    windowRunning := false
    windowDue := true
    selfChecked := false
    split := b.newSplit })
  let m2 := { m1 with pair := { m1.pair with recordedSplit := m.boot.newSplit } }
  activatedRecords (slotMod m2 m2.boot.cand (fun _ => {}))

/-- A return to the previous slot passes: previous and current exchange (R377). -/
def exchangeRoles (m : Module) : Module :=
  bootMod m (fun b => { b with cur := b.prev, prev := b.cur, confirm := 2, windowRunning := false, windowDue := false, selfChecked := false })

/-- IMAGE_REVERTED (R376, R377, R390): cause 0 window lapsed, 1 command, 2 no previous slot. -/
def revertedRecord (m : Module) (cause src dst : Nat) : Module :=
  pushPending m
    { code := 0x0A03, time := now m, source := srcOf m 0 0, partition := 0xFFFF, severity := 1
      data := fit 24 (leBytes 1 cause ++ leBytes 1 src ++ leBytes 1 dst ++ zeros 1 ++ leBytes 4 (imgVer (regionOf m m.boot.cur 1)).toNat) }

/-- A verdict of a module goes to the lead over the sync link (R371). -/
def sendVerdict (m : Module) (code : Nat) : Module := emit m (.sync (.verdict (code == 0) code))

/-- The code of a completion of IMAGE.ACTIVATE and IMAGE.REVERT by its verdict (R371). A restart-mode activation that ends DONE gives
back the image-update class of its QP. -/
def endActivation (m : Module) (status detail : Nat) : Module :=
  match m.maint.verdict with
  | none => m
  | some (qp, code, c) =>
    let m1 := finish (maintMod m (fun x => { x with verdict := none })) .work code c 3 status detail []
    if (code = 0x0A03 ∨ prmB c 1 = 0) ∧ holdsClass m1 1 qp = true then leaveClass m1 3 1 else m1

/-- The completion that a verdict gives. -/
def endByVerdict (m : Module) (code : Nat) : Module := if code = 0 then endActivation m 0 0 else endActivation m 0x8A01 code

/-- Ports that switch firmware in a handover: rings 0 to 7, buses 8 to 11, lines 12 to 15. -/
def allPorts : List Nat := List.range 16

/-- R373 at t0: the Lantern stops fetching and posting, the ports switch later. -/
def startHandover (m : Module) : Module :=
  mailMod (bootMod m (fun b => { b with handover := true, portsDue := allPorts })) (fun q => { q with paused := true })

/-- The background verification of a handover-mode activation ends (R370, R373). -/
def verifyHandover (m : Module) (ecc : Bool) : Module :=
  let code := verifyCode m m.boot.cand ecc
  let m1 := slotChecked (bootMod m (fun b => { b with verifyingHandover := false })) m.boot.cand code
  let m2 := if code = 0 then startHandover (bootMod (rotateRoles m1) (fun b => { b with windowHandover := true })) else m1
  if isLead m then endByVerdict m2 code else sendVerdict m2 code

/-- Full verification in VERIFY ends (R29, R48, R53). -/
def verifyEnd (m : Module) (ecc : Bool) : Module :=
  let i := verifySlot m.boot
  let code := verifyCode m i ecc
  let m1 := slotChecked m i code
  let m2 := if code = 0 then m1 else setFail m1 code
  match m.boot.verifyFrom with
  | .loader =>
    if code = 0 then
      setState (bootMod m2 (fun b => if b.rolesGood then b else { b with cur := 0, cand := 1, prev := 2, rolesGood := true })) .starting
    else setState m2 .loader
  | .activate => sendVerdict (setState (if code = 0 then bootMod (rotateRoles m2) (fun b => { b with windowHandover := false }) else m2) .starting) code
  | .revert =>
    sendVerdict (setState (if code = 0 then revertedRecord (exchangeRoles m2) 1 m.boot.cur m.boot.prev else m2) .starting) code

def execVerifyDone (sl : Slot) (eccError : Bool) (s : State) : Res :=
  onMod s sl (fun m =>
    if !hasPower m then m
    else if m.boot.state = .verify then verifyEnd m eccError
    else if m.boot.verifyingHandover && inRun m then verifyHandover m eccError
    else m)

/-- The lead takes the verdict of the named shadow (R371). -/
def execImageVerdictReceive (sl : Slot) (pass : Bool) (code : Nat) (s : State) : Res :=
  onPair s sl (fun m p =>
    if fw m && linked m p && isLead m
    then endByVerdict { m with pair := { m.pair with recordedSplit := p.pair.recordedSplit } } (if pass then 0 else code) else m)

/-! ### STARTING (R29, R369, R378) -/

/-- The safety image of the current slot asks for a higher floor: its SEC_LEVEL. -/
def floorWanted (m : Module) : Option Nat :=
  let r := regionOf m m.boot.cur 2
  if r.closed && bit (imgFlags r) 0 && decide (m.hw.floor < imgSec r) then some (imgSec r) else none

/-- FLOOR_RAISED (R390). -/
def floorRecord (m : Module) (old : Nat) : Module :=
  pushPending m
    { code := 0x0A04, time := now m, source := srcOf m 0 0, partition := 0xFFFF, severity := 0, data := fit 24 (leBytes 1 old ++ leBytes 1 m.hw.floor) }

/-- A raise of the floor that a start of a confirmed image completes; with a low reserve it waits for fuse steps (R378). -/
def raiseAtStart (m : Module) : Module :=
  if m.boot.confirm ≠ 0 then m
  else match floorWanted m with
    | none => bootMod m (fun b => { b with floorTarget := 0 })
    | some f =>
      let old := if m.boot.floorTarget = 0 then m.hw.floor else m.boot.oldFloor
      if m.power.reserve < 80 then bootMod m (fun b => { b with floorTarget := f, oldFloor := old })
      else floorRecord { m with hw := { m.hw with floor := f }, boot := { m.boot with floorTarget := 0 } } old

/-- A slot holds nothing. -/
def slotEmpty (m : Module) (i : Nat) : Bool := !(regionOf m i 1).closed && !(regionOf m i 2).closed

/-- The self-tests pass: READY, FAIL is cleared, the lanes have link again; an image without a previous one counts as confirmed
(R28, R29, R37, R369). -/
def goReady (m : Module) : Module :=
  let m1 := bootMod m (fun b => { b with fail := 0 })
  let m2 := if slotEmpty m1 m1.boot.prev then bootMod m1 (fun b => { b with confirm := 0, windowDue := false }) else m1
  let m3 := setState (holdLanes (raiseAtStart m2) false) .ready
  let m4 := (List.range 16).foldl (fun a ch => match a.lio.ai[ch]? with
    | some x => if !x.copy0.good && !x.copy1.good then
        logEv a 0x0801 5 ch 0xFFFF (leBytes 1 ch ++ zeros 3 ++ leBytes 4 (unsigned 32 x.cal) ++ leBytes 2 x.supply) else a
    | none => a) m3
  refresh m4

/-! ### BAR0 registers (R8, R35, R37 to R42, R299) -/

/-- IMG_CTL: the combinations of its control bits (R40). -/
def writeImgCtl (m : Module) (v : W32) : Module :=
  let cls : BitVec 2 := BitVec.ofNat 2 (field v.toNat 5 4)
  let opn := v.getLsbD 0
  let clo := v.getLsbD 1
  let pul := v.getLsbD 3
  if v.getLsbD 2 then abortRegion (setCls m cls) cls
  else if clo && (opn || pul) then m
  else
    let m1 := setCls m cls
    if opn then
      let x := openRegion m1 cls
      if pul && x.2 then startPull x.1 (clsOf cls) else x.1
    else if pul then startPull m1 (clsOf cls)
    else if clo then closeCtl m1 cls
    else m1

/-- A full 32-bit write to a register of the boot and aperture blocks; a read-only or reserved offset ignores it. -/
def writeBootReg (m : Module) (o : Nat) (v : W32) : Module :=
  if !bar0Writes m then m
  else match o with
    | 0x0104 => writeBootCtl m (v.getLsbD 2) (v.getLsbD 1) (v.getLsbD 0)
    | 0x010C => writeBootReset m v
    | 0x5000 => writeImgCtl m v
    | 0x5004 => bootMod m (fun b => { b with win := BitVec.ofNat 11 v.toNat })
    | 0x5010 => bootMod m (fun b => { b with srcLo := v &&& 0xFFFFF000 })
    | 0x5014 => bootMod m (fun b => { b with srcHi := v })
    | 0x5018 => bootMod m (fun b => { b with pullLen := BitVec.ofNat 14 (field v.toNat 25 12) })
    | _ => m

/-- A write to a doorbell register: even words SQ_TAIL, odd words CQ_HEAD (R38). -/
def writeDoorbell (m : Module) (o : Nat) (v : W16) : Module :=
  let q := (o - 0x1000) / 8
  if (o - 0x1000) % 8 = 0 then ringSqTail m q v else if (o - 0x1000) % 8 = 4 then ringCqHead m q v else m

/-- A write in the Almanac window (R299). -/
def writeAlm (m : Module) (o : Nat) (v : W32) : Module :=
  if !bar0Up m then m
  else match o with
    | 0x4000 => almCaptureWrite m (v.getLsbD 0)
    | 0x4004 => if v.getLsbD 2 then almMod m (fun a => { a with stepIgn := false }) else m
    | 0x4020 => almMod m (fun a => { a with stage := w64 (a.stage.toNat / 4294967296 * 4294967296 + v.toNat) })
    | 0x4024 => almMod m (fun a => { a with stage := w64 (v.toNat * 4294967296 + a.stage.toNat % 4294967296) })
    | 0x4028 => almStepWrite m v
    | _ => m

/-- A full 32-bit write anywhere in BAR0. -/
def writeReg (m : Module) (o : Nat) (v : W32) : Module :=
  if 0x8000 ≤ o then apertureStore m (o - 0x8000) (leBytes 4 v.toNat)
  else if 0x4000 ≤ o ∧ o ≤ 0x40FF then writeAlm m o v
  else if 0x1000 ≤ o ∧ o ≤ 0x301F then writeDoorbell m o (v.setWidth 16)
  else writeBootReg m o v

/-- A narrower write: the register takes a free value, within the limits of R92: a doorbell neither attaches nor detaches, BOOT_RESET
and ALM_STEP do nothing (R35, R92, R93). -/
def writeNarrow (m : Module) (o : Nat) (f : W64) : Module :=
  let v : W32 := f.setWidth 32
  if o = 0x010C ∨ o = 0x4028 then m
  else if o = 0x1004 ∧ v.setWidth 16 = (0xDE7A : W16) then m
  else writeReg m o v

def execRegisterWrite (sl : Slot) (offset : Nat) (value : W32) (narrow : Bool) (s : State) : Res :=
  if narrow then onModFree s sl (fun m f => writeNarrow m (offset / 4 * 4) f) else onMod s sl (fun m => writeReg m offset value)

end Sys2Proof.Machine
end

