-- ==== Sys2Proof/Machine/Mailbox.lean ====
section
/-! DEFINITION. Machine/Mailbox.lean: fetching descriptors, tickets, acceptance, posting completions, Quondi over UDP and the
SESSION commands (R56 to R93). -/

namespace Sys2Proof.Machine
open Sys2Proof Sys2Proof.Bits

/-! ### The command catalogue (R88) -/

/-- Kind and scope of a command code; none is an unknown code. Every image implements every code (log entry 41). -/
def catalog (code : Nat) : Option (Kind × Scope) :=
  if code ∈ [0x0101, 0x0102, 0x0C05] then some (.loc, .sys)
  else if code = 0x0107 then some (.loc, .any)
  else if code ∈ [0x0103, 0x0106, 0x030B, 0x0404, 0x0408, 0x0501, 0x0601, 0x0701, 0x0702, 0x0802, 0x0907, 0x0A01, 0x0A08, 0x0B06,
      0x0C01, 0x0C02, 0x0C03, 0x0C04] then some (.query, .any)
  else if code ∈ [0x0104, 0x0201, 0x0205, 0x0307] then some (.query, .part)
  else if code ∈ [0x0202, 0x0203, 0x0204, 0x0206, 0x0207, 0x0208, 0x0209, 0x020A, 0x020B, 0x020C, 0x0301, 0x0302, 0x0303, 0x0304,
      0x0305, 0x0306, 0x0308, 0x0402, 0x0407, 0x0704, 0x0B04] then some (.work, .part)
  else if code ∈ [0x0105, 0x0309, 0x030A, 0x0401, 0x0403, 0x0405, 0x0406, 0x0502, 0x0503, 0x0504, 0x0505, 0x0506, 0x0602, 0x0603,
      0x0604, 0x0605, 0x0703, 0x0801, 0x0803, 0x0804, 0x0805, 0x0901, 0x0902, 0x0903, 0x0904, 0x0905, 0x0906, 0x0A02, 0x0A03,
      0x0A04, 0x0A05, 0x0A06, 0x0A07, 0x0B01, 0x0B02, 0x0B03, 0x0B05, 0x0B07] then some (.work, .sys)
  else none

/-- A chunk of a LOAD command. -/
def chunkLen (n : Nat) : Bool := decide (4 ≤ n ∧ n ≤ 65536) && n % 4 == 0

/-- REQ_LEN fits what PARAM fixes (R423). -/
def reqLenOk (code : Nat) (p : Bytes) (n : Nat) : Bool :=
  let count (o : Nat) : Nat := le p o 4
  if code ∈ [0x0201, 0x0204, 0x0205, 0x0209, 0x020A] then n == 4 * count 0
  else if code ∈ [0x0202, 0x0208] then n == 16 * count 0
  else if code = 0x0203 then n == (if bit (byteAt p 5) 2 then 4 * count 0 else 0)
  else if code = 0x0206 then n == 4 * count 4
  else if code = 0x020B then n == 4 * count 4 + 20 * byteAt p 10
  else if code = 0x020C then n == 16 + 4 * count 4
  else if code ∈ [0x0302, 0x0309, 0x0903] then chunkLen n
  else if code ∈ [0x0303, 0x0307, 0x0408] then n == 2 * count 0
  else if code = 0x0402 then n == 8 * count 4
  else if code = 0x0403 then n == 256 * byteAt p 1
  else if code = 0x0407 then n == count 4
  else if code = 0x0704 then n == 24
  else if code = 0x0801 then n == 32 * count 0
  else if code = 0x0805 then n == 4 * count 0
  else if code = 0x0905 then n == 2 * le p 0 2
  else if code = 0x0101 then n == 40
  else if code = 0x0B01 then n == 16
  else if code = 0x0B03 then n == 0 || n == 16
  else if code = 0x0B05 then n == (if le p 0 2 = 0xFFFF then 36 else 448)
  else if code ∈ [0x0405, 0x0A05] then true
  else n == 0

/-- Bytes of the response that the request sets (R68). -/
def rspNeed (code : Nat) (p : Bytes) (rspLen : Nat) : Nat :=
  let count (o : Nat) : Nat := le p o 4
  if code ∈ [0x0103, 0x030B, 0x0404, 0x0501, 0x0601, 0x0A08, 0x0C01, 0x0C02, 0x0C03] then 64
  else if code = 0x0104 then 32 + 24 * count 8
  else if code = 0x0106 then if rspLen = 0 then 0 else 24
  else if code = 0x0201 then 16 + 32 * count 0
  else if code = 0x0203 then 4 * count 0
  else if code = 0x0205 then 16 * count 0
  else if code ∈ [0x0307, 0x0408] then 64 * count 0
  else if code ∈ [0x0407, 0x0704, 0x0803] then 8
  else if code = 0x0603 then 16
  else if code = 0x0701 then 24
  else if code = 0x0702 then 24 + 64 * count 8
  else if code = 0x0802 then 912
  else if code = 0x0903 then if bit (byteAt p 0) 1 then 4 else 0
  else if code = 0x0907 then 32 + 16 * le p 2 2
  else if code = 0x0A01 then 112
  else if code = 0x0B06 then 512
  else if code = 0x0C04 then 576
  else if code = 0x0C05 then 16
  else 0

/-- The refusals found in the descriptor, the QP and the role, in the order of R74 (R56, R57, R68, R88, R91, R423). -/
def fetchCheck (m : Module) (qp : Nat) (udp : Bool) (d : Desc) : Option Nat :=
  let code := d.code.toNat
  match catalog code with
  | none => some 1
  | some (kind, scope) =>
    let need := rspNeed code d.param d.rspLen
    if d.dver ≠ 1 ∨ 65536 < d.reqLen ∨ 16777216 < d.rspLen ∨ d.rspLen < need ∨ reqLenOk code d.param d.reqLen = false
        ∨ (udp = true ∧ 1396 < need) then some 2
    else if qp < 4 ∧ d.target ≠ 0xFFFF ∧ (1023 < d.target.toNat ∨ scope = .sys) then some 3
    else if qp < 4 ∧ d.target = 0xFFFF ∧ scope = .part ∧ code ≠ 0x0104 then some 3
    else if 4 ≤ qp ∧ (scope = .sys ∨ d.target ≠ 0xFFFF) then some 3
    else if kind = .work ∧ isLead m = false then some 4
    else none

/-! ### Acceptance (R71, R76, R77, R129) -/

/-- A partner in the acceptance set must hold the entry first. -/
def needAck (m p : Module) : Bool := linked m p && m.pair.partnerInSet

/-- A journal message to the partner; the posted finals it has not been told of go with it (R76, R78). -/
def sendJournal (m : Module) (qp : Nat) (d : Desc) (req : Bytes) (due : Option W64) : Module :=
  let m1 := if m.mail.reports.isEmpty then m else emit (mailMod m (fun q => { q with reports := [] })) (.sync (.finals m.mail.reports))
  emit m1 (.sync (.journal qp d req due))

/-- The entry counts as accepted: the window record, the assignment to the first step at least 10 µs later, mirrored with the
entry, and the ACCEPTED completion (R70, R76, R129). -/
def acceptEntry (m p : Module) (e : JEntry) : Module :=
  let due := now m + 10000
  let m1 := journalMod m e.qp e.d.ticket (fun x => { x with accepted := true, order := m.mail.nextOrder, step := some due })
  let m2 := mailMod m1 (fun q => { q with nextOrder := q.nextOrder + 1 })
  let m3 := ticketPut m2 e.qp { ticket := e.d.ticket, stage := 2, time := now m }
  let m4 := if needAck m p then sendJournal m3 e.qp e.d e.req (some due) else m3
  if wantAcc e.d.flags then
    pushCpl m4 e.qp { ticket := e.d.ticket, code := e.d.code.toNat, stage := 2, time := now m, noIrq := noIrq e.d.flags, work := true, final := false }
  else m4

/-- The entry is next in ticket order on its QP and complete in every journal of the set. -/
def acceptable (m p : Module) (e : JEntry) : Bool :=
  !e.accepted && (e.acked || !needAck m p) &&
    match m.mail.journal.find? (fun x => x.qp == e.qp && !x.accepted) with
    | some x => x.d.ticket == e.d.ticket
    | none => false

/-- Accept what may be accepted, in order (R71, R76, R77). -/
def acceptReady (m p : Module) : Module :=
  if !fw m || !isLead m || m.pair.acceptHeld then m
  else m.mail.journal.foldl (fun a e => if acceptable a p e then acceptEntry a p e else a) m

/-! ### The ticket rules (R73, R75, R80) -/

/-- The completion of a refusal at fetch; it records nothing (R74). -/
def refuseFetch (m : Module) (qp : Nat) (d : Desc) (st : Nat) : Module :=
  pushCpl m qp { ticket := d.ticket, code := d.code.toNat, stage := 4, status := st, time := now m, noIrq := noIrq d.flags }

/-- The one completion of a duplicate whose final stage is known. -/
def dupReport (m : Module) (qp : Nat) (d : Desc) (stage status detail : Nat) (time : W64) : Module :=
  pushCpl m qp { ticket := d.ticket, code := d.code.toNat, stage := stage, status := status, detail := detail, dup := true, time := time,
                 noIrq := noIrq d.flags, work := true }

/-- RECEIVED, if asked for (R70). -/
def received (m : Module) (qp : Nat) (d : Desc) : Module :=
  if wantRcv d.flags then
    pushCpl m qp { ticket := d.ticket, code := d.code.toNat, stage := 1, time := now m, noIrq := noIrq d.flags, final := false }
  else m

/-- A new command is journaled (R76). -/
def journalNew (m p : Module) (qp : Nat) (d : Desc) (req : Bytes) : Module :=
  let m1 := mailMod (received m qp d) (fun q => { q with journal := q.journal ++ [{ qp := qp, d := d, req := req }] })
  let m2 := if needAck m p then sendJournal m1 qp d req none else m1
  checkStall (acceptReady m2 p)

/-- A duplicate of a command that is accepted and not final waits for its final stage. -/
def dupWait (m : Module) (qp : Nat) (t : W64) : Module :=
  match ticketFind m qp t with
  | some _ => mailMod m (fun q => { q with tickets := tmod q.tickets qp (fun w => w.map (fun r => if r.ticket == t then { r with dupWaits := r.dupWaits + 1 } else r)) })
  | none => ticketPut m qp { ticket := t, stage := 2, time := now m, dupWaits := 1 }

/-- A work ticket in the gap L ≤ T < H that is not in the window: executed as new, refused, or reported as another ticket's outcome;
which of them, and with what, is free (R93, log entry 5). -/
def gapWork (m p : Module) (qp : Nat) (d : Desc) (req : Bytes) (gap : Nat) (f : W64) : Module :=
  match gap % 3 with
  | 0 => journalNew m p qp d req
  | 1 => pushCpl m qp { ticket := d.ticket, code := d.code.toNat, stage := 4, status := f.toNat % 0x8000, time := now m, noIrq := noIrq d.flags }
  | _ => match (windowOf m qp)[f.toNat % (windowOf m qp).length]? with
    | some r => dupReport m qp d r.stage r.status r.detail r.time
    | none => journalNew m p qp d req

/-- A fetched work command by its ticket (R73, R80). -/
def takeWork (m p : Module) (qp : Nat) (d : Desc) (req : Bytes) (gap : Nat) (f : W64) : Module :=
  match ticketFind m qp d.ticket, journalFind m qp d.ticket with
  | some r, _ =>
    if r.stage = 2 then dupWait m qp d.ticket
    else if r.status = 5 then refuseFetch (received m qp d) qp d 5 else dupReport m qp d r.stage r.status r.detail r.time
  | none, some e => if e.final then dupReport m qp d e.stage e.status e.detail (now m) else dupWait m qp d.ticket
  | none, none => match tget m.mail.highest qp with
    | none => journalNew m p qp d req
    | some h =>
      if h.toNat < d.ticket.toNat then journalNew m p qp d req
      else if (match tget m.mail.floorH qp with | some x => decide (d.ticket.toNat ≤ x.toNat) | none => false) then refuseFetch (received m qp d) qp d 5
      else match ticketLow m qp with
        | none => refuseFetch (received m qp d) qp d 5
        | some l => if d.ticket.toNat < l then refuseFetch (received m qp d) qp d 5 else gapWork m p qp d req gap f

/-- Work on the QP that is not final. -/
def workBefore (m : Module) (qp : Nat) : List W64 := (m.mail.journal.filter (fun e => e.qp == qp && !e.final)).map (fun e => e.d.ticket)

/-- A fetched descriptor: in flight from now on; refused, or handled by its kind. No request data: DMA_FAULT (R64, R68, R91). -/
def takeDesc (m p : Module) (qp : Nat) (udp : Bool) (d : Desc) (req : Option Bytes) (gap : Nat) (f : W64) : Module :=
  let m0 := qpMod (mailMod m (fun q => { q with inFlight := q.inFlight + 1 })) qp (fun q => { q with inFlight := q.inFlight + 1 })
  match fetchCheck m qp udp d with
  | some st => refuseFetch (received m0 qp d) qp d st
  | none => match req, catalog d.code.toNat with
    | none, _ => refuseFetch (received m0 qp d) qp d 6
    | some data, some (.work, _) => takeWork m0 p qp d data gap f
    | some data, _ =>
      mailMod (received m0 qp d) (fun q => { q with waiting := q.waiting ++ [(qp, d.code.toNat, cmdOf qp d data, workBefore m qp)] })

/-! ### Fetching (R64, R65, R78) -/

/-- The CQ has no room, or 64 TYPE 2 datagrams are unacknowledged (R65, R87). -/
def cqFull (q : Qp) : Bool := if q.udp then decide (64 ≤ q.unacked.length) else decide ((q.cqTail + 1) % max q.cqSize 1 = q.cqHead)

/-- The QP has room for a further command in flight. -/
def mayTake (m : Module) (q : Qp) : Bool := q.st == .opened && decide (q.inFlight < 256 ∧ m.mail.inFlight < 4096) && !cqFull q

/-- An entry is pending in the SQ of a PCIe QP and could be fetched. -/
def fetchable (m : Module) (q : Qp) : Bool := !q.udp && q.sqHead != q.sqTail && mayTake m q

/-- The partition QP whose turn it is: up to 8 descriptors each, round robin. -/
def partTurn (m : Module) : Option Nat :=
  let c := (m.mail.qps.filter (fun x => decide (4 ≤ x.1) && fetchable m x.2)).map (·.1)
  if 0 < m.mail.turnLeft ∧ c.contains m.mail.turnQp = true then some m.mail.turnQp
  else match c.find? (fun n => decide (m.mail.turnQp < n)) with
    | some n => some n
    | none => c.head?

/-- QPs 0 to 3 come first, then the partition QPs in turn. While work is held back the queues behind it do not wait. -/
def turnOk (m : Module) (qp : Nat) : Bool :=
  m.mail.paused || m.mail.stalled || decide (qp < 4) ||
    (!m.mail.qps.any (fun x => decide (x.1 < 4) && fetchable m x.2) && partTurn m == some qp)

/-- A descriptor that the module would journal as work. -/
def isWork (d : Desc) : Bool := match catalog d.code.toNat with | some (.work, _) => true | _ => false

/-- Its ticket waits for acceptance. -/
def awaitsAccept (m : Module) (qp : Nat) (t : W64) : Bool := match journalFind m qp t with | some e => !e.accepted | none => false

/-- The fetch of this descriptor may happen now. -/
def mayFetch (m : Module) (qp : Nat) (d : Desc) : Bool :=
  fw m && !m.boot.handover &&
    (match tget m.mail.qps qp with
      | some q => fetchable m q
      | none => false)
    && turnOk m qp && !(isWork d && isLead m && (m.mail.paused || m.mail.stalled)) && !awaitsAccept m qp d.ticket

/-- The SQ consumer and the turn move on. -/
def fetched (m : Module) (qp : Nat) : Module :=
  let m1 := qpMod m qp (fun q => { q with sqHead := (q.sqHead + 1) % max q.sqSize 1 })
  if qp < 4 then m1
  else mailMod m1 (fun q => if q.turnQp = qp ∧ 0 < q.turnLeft then { q with turnLeft := q.turnLeft - 1 } else { q with turnQp := qp, turnLeft := 7 })

/-- One free draw of a fetch, used only in the gap of R73. -/
def fetchDesc (s : State) (sl : Slot) (qp : Nat) (d : Desc) (req : Option Bytes) : Res :=
  let m := modOf s sl
  let m' := if mayFetch m qp d then takeDesc (fetched m qp) (modOf s (otherSlot sl)) qp false d req (Config.ticketGap s.fresh) (Config.freeValue s.fresh) else m
  .next { withMod s sl m' with fresh := s.fresh + 1 }

def execDescriptorFetch (sl : Slot) (qp : Nat) (d : Desc) (req : Option Bytes) (s : State) : Res := fetchDesc s sl qp d req
/-- The request data are not read within 50 ms (R91). -/
def execRequestDmaTimeout (sl : Slot) (qp : Nat) (d : Desc) (s : State) : Res := fetchDesc s sl qp d none

/-! ### Posting (R65 to R67, R69, R72, R78) -/

/-- The interrupt of a posted entry, by the coalescing of its QP (R67). -/
def signal (m : Module) (qp : Nat) (q : Qp) : Module :=
  if q.coalCount = 0 then msi m q.vector
  else if q.coalCount ≤ q.unsignalled + 1 then msi (qpMod m qp (fun x => { x with unsignalled := 0 })) q.vector
  else qpMod m qp (fun x => { x with unsignalled := x.unsignalled + 1 })

/-- A completion goes to the CQ, or to the peer. -/
def postCpl (m : Module) (qp : Nat) (q : Qp) (c : Cpl) : Module :=
  let e := Emit.completion qp c.ticket c.code c.stage c.status c.dup (!q.udp && q.phase) (if q.udp then 0 else q.sqHead) c.rsp c.detail c.time
  if q.udp then emit (qpMod m qp (fun x => { x with dseqOut := x.dseqOut + 1, unacked := x.unacked ++ [x.dseqOut] })) e
  else
    let wrap := decide (max q.cqSize 1 ≤ q.cqTail + 1)
    let m1 := emit (qpMod m qp (fun x => { x with cqTail := if wrap then 0 else x.cqTail + 1, phase := if wrap then !x.phase else x.phase })) e
    if c.noIrq then m1 else signal m1 qp q

/-- The command leaves the module's and its QP's count of commands in flight. -/
def endFlight (m : Module) (qp : Nat) : Module :=
  qpMod (mailMod m (fun q => { q with inFlight := q.inFlight - 1 })) qp (fun q => { q with inFlight := q.inFlight - 1 })

/-- The oldest held completion of a QP is posted once there is room; work is posted by the lead only. A record that waits for the
exempt reserve holds its completion back (R311). -/
def postNext (m : Module) (qp : Nat) : Module :=
  match tget m.mail.qps qp with
  | none => m
  | some q => match q.held with
    | [] => m
    | c :: rest =>
      if !fw m || m.boot.handover || q.st == .closed then m
      else
        let m1 := qpMod m qp (fun x => { x with held := rest })
        let m2 := if c.final then endFlight m1 qp else m1
        if c.work && !isLead m then closeIfDrained m2 qp
        else if cqFull q || (c.waitsRecord && decide (512 < pendingExempt m)) then m
        else
          let m3 := postCpl m2 qp q c
          let m4 := closeIfDrained (if c.work && decide (3 ≤ c.stage) then retireFinal m3 qp c.ticket else m3) qp
          if c.final && m4.halo.selfFail == some (qp, c.ticket) then
            enterUmbra { m4 with halo := { m4.halo with selfFail := none } } 5 0
          else m4

def execCompletionPost (sl : Slot) (qp : Nat) (s : State) : Res := onMod s sl (fun m => postNext m qp)

/-- The oldest unsignalled entry reaches its age (R67). -/
def execCoalesceAgeExpiry (sl : Slot) (qp : Nat) (s : State) : Res :=
  onMod s sl (fun m => match tget m.mail.qps qp with
    | some q => if fw m && decide (0 < q.unsignalled) then msi (qpMod m qp (fun x => { x with unsignalled := 0 })) q.vector else m
    | none => m)

/-- After the dual-lead window the new lead reports the finals of the entries that it held unretired, once their QP is open (R80,
R81). -/
def reportInherited (m : Module) : Module :=
  if !fw m || !isLead m || m.pair.window then m
  else m.mail.journal.foldl (fun a e =>
    if e.inherited && e.final && !e.posted && qpLive a e.qp then
      pushCpl (journalMod a e.qp e.d.ticket (fun x => { x with posted := true })) e.qp
        { ticket := e.d.ticket, code := e.d.code.toNat, stage := e.stage, status := e.status, detail := e.detail, dup := true, time := now m,
          noIrq := noIrq e.d.flags, work := true, final := false }
    else a) m

def execDupFinalReport (sl : Slot) (s : State) : Res := onMod s sl reportInherited

/-! ### Quondi over UDP (R85 to R87) -/

/-- A datagram is discarded and counted (R85, R87, R420). -/
def udpDiscard (m : Module) : Module := mailMod m (fun q => { q with udpDiscards := inc32 q.udpDiscards })

/-- TYPE 3: the next DSEQ expected. -/
def udpStatus (m : Module) (qp : Nat) (q : Qp) : Module := emit m (.udpStatus qp q.dseqIn)

/-- The descriptors of a datagram, in order. -/
def takeAll (m p : Module) (qp : Nat) (gap : Nat) (f : W64) : List (Desc × Bytes) → Module
  | [] => m
  | (d, req) :: rest => takeAll (takeDesc m p qp true d (some req) gap f) p qp gap f rest

/-- A TYPE 1 datagram (R87). One that meets a stop of fetching is taken when the host sends it again. -/
def takeDgram (m p : Module) (dg : UdpDgram) (gap : Nat) (f : W64) : Module :=
  match tget m.mail.qps dg.qp with
  | none => udpDiscard m
  | some q =>
    if q.st == .closed || !q.udp || q.peer != dg.peer || q.peerPort != dg.port then udpDiscard m
    else if !dg.crcGood then udpDiscard m
    else if newer32 m.pair.leadEpoch dg.leadEpoch || newer32 dg.dseq q.dseqIn then udpStatus (udpDiscard m) dg.qp q
    else if m.boot.handover || !mayTake m q || decide (256 < q.inFlight + dg.entries.length)
        || (isLead m && (m.mail.paused || m.mail.stalled) && dg.entries.any (fun e => isWork e.1))
        || dg.entries.any (fun e => awaitsAccept m dg.qp e.1.ticket) then m
    else
      let m1 := if dg.dseq = q.dseqIn then qpMod m dg.qp (fun x => { x with dseqIn := x.dseqIn + 1 }) else m
      takeAll m1 p dg.qp gap f dg.entries

def execUdpDatagramReceive (sl : Slot) (dg : UdpDgram) (s : State) : Res :=
  let m := modOf s sl
  let m' := if fw m then takeDgram m (modOf s (otherSlot sl)) dg (Config.ticketGap s.fresh) (Config.freeValue s.fresh) else m
  .next { withMod s sl m' with fresh := s.fresh + 1 }

/-- TYPE 3 of the host acknowledges every TYPE 2 datagram before the DSEQ it expects. -/
def execUdpSequenceStatusReceive (sl : Slot) (qp : Nat) (peer : Bytes) (port : Nat) (next : W32) (s : State) : Res :=
  onMod s sl (fun m =>
    if !fw m then m
    else match tget m.mail.qps qp with
      | none => udpDiscard m
      | some q =>
        if q.st == .closed || !q.udp || q.peer != peer || q.peerPort != port then udpDiscard m
        else qpMod m qp (fun x => { x with unacked := x.unacked.filter (fun d => !newer32 next d) }))

/-- Every 2 ms the unacknowledged TYPE 2 datagrams are sent again. -/
def execUdpResendTimer (sl : Slot) (qp : Nat) (s : State) : Res :=
  onMod s sl (fun m => match tget m.mail.qps qp with
    | some q => if fw m && q.udp && !q.unacked.isEmpty then emit m (.udpResend qp q.unacked) else m
    | none => m)

/-! ### SESSION commands (R89, R90, R108) -/

/-- CREDENTIAL_REFUSED (R108, R315). -/
def credentialRecord (m : Module) (n : Nat) : Module := logEv m 0x0103 1 0 (n - 4) (leBytes 2 n)

/-- SESSION.OPEN (R63, R85, R89, R108). -/
def hSessionOpen (m _p : Module) (c : Cmd) : QRes :=
  let n := prm c 0 2
  let udp := prmB c 2 == 1
  let base := w64 (le c.req 0 8)
  let cbase := w64 (le c.req 8 8)
  let peer := (c.req.drop 16).take 16
  let port := le c.req 34 2
  let cred := (c.param.drop 8).take 16
  if n < 1 ∨ 1027 < n ∨ 1 < prmB c 2 then .refused 7 0
  else if 4 ≤ n ∧ (partOf m (n - 4)).isNone = true then .refused 8 0
  else if qpLive m n then .refused 11 0
  else if !udp && !(decide (1 ≤ prmB c 3 ∧ prmB c 3 ≤ 31) && sqSizeOk (prm c 4 2) && cqSizeOk (prm c 6 2) && aligned4k base && aligned4k cbase) then .refused 7 0
  else if udp && peer.all (fun b => b == 0) then .refused 7 0
  else if port ≠ 0 ∧ c.qp ≠ 0 then .refused 3 0
  else if (match partOf m (n - 4) with | some q => decide (4 ≤ n) && q.cred.any (fun b => b != 0) && q.cred != cred | none => false) then
    .refusedRec 10 0 (credentialRecord m n)
  else
    let q : Qp := if udp then { st := .opened, udp := true, peer := peer, peerPort := le c.req 32 2 }
      else { st := .opened, vector := prmB c 3, sqBase := base, cqBase := cbase, sqSize := prm c 4 2, cqSize := prm c 6 2 }
    ok (mailMod m (fun x => { x with qps := tset x.qps n q, udpPort := if port = 0 then x.udpPort else port }))

/-- SESSION.CLOSE: DONE once nothing is in flight on the QP (R89). -/
def hSessionClose (m _p : Module) (c : Cmd) : QRes :=
  let n := prm c 0 2
  if n < 1 ∨ 1027 < n then .refused 7 0
  else if n = c.qp then .refused 3 0
  else match tget m.mail.qps n with
    | none => .refused 11 0
    | some q => if q.st ≠ .opened then .refused 11 0
      else .later (closeIfDrained (qpMod m n (fun x => { x with st := .closing, closer := some (c.qp, c) })) n)

/-- The QP that a PARAM names, or the issuing QP. -/
def namedQp (c : Cmd) : Nat := if prm c 0 2 = 0xFFFF then c.qp else prm c 0 2

def qpCode : QpState → Nat
  | .closed => 0
  | .opened => 1
  | .closing => 2

/-- SESSION.STATUS (R90). -/
def hSessionStatus (m _p : Module) (c : Cmd) : QRes :=
  let n := namedQp c
  if 1027 < n then .refused 7 0
  else
    let q := (tget m.mail.qps n).getD {}
    okRsp (leBytes 1 (stateCode m.boot.state) ++ leBytes 1 (roleCode m.pair.role) ++ leBytes 1 (modeCode m.pair.mode) ++ leBytes 1 (slotN m.slot)
      ++ leBytes 4 m.pair.leadEpoch.toNat ++ leBytes 1 (qpCode q.st) ++ leBytes 1 (b2n q.udp) ++ leBytes 1 q.vector ++ zeros 1
      ++ leBytes 2 q.sqSize ++ leBytes 2 q.cqSize ++ leBytes 2 q.sqHead ++ leBytes 2 q.cqTail ++ leBytes 2 q.inFlight ++ leBytes 2 q.coalCount
      ++ leBytes 4 q.coalAge ++ leBytes 4 m.mail.inFlight ++ leBytes 4 (journalFree m / 1024) ++ leBytes 4 q.dseqIn.toNat
      ++ leBytes 4 q.dseqOut.toNat ++ leBytes 2 q.unacked.length ++ zeros 2
      ++ leBytes 8 (if (windowOf m n).isEmpty then 0 else ((tget m.mail.highest n).getD 0).toNat) ++ leBytes 8 (now m).toNat) m

/-- A record of SESSION.TICKETS. -/
def ticketBytes (r : TicketRec) : Bytes :=
  leBytes 8 r.ticket.toNat ++ leBytes 1 r.stage ++ zeros 1 ++ leBytes 2 r.status ++ leBytes 4 r.detail ++ leBytes 8 r.time.toNat

/-- SESSION.TICKETS: the QP of the acting partition, or a system QP (R89). -/
def hSessionTickets (m _p : Module) (c : Cmd) : QRes :=
  let n := prm c 0 2
  let own := match actPart c with | some p => p + 4 | none => c.qp
  let bad := match actPart c with | some p => n != 0xFFFF && n != p + 4 | none => n != 0xFFFF && decide (3 < n)
  if bad then .refused 3 0
  else if 4096 < prm c 8 4 then .refused 7 0
  else
    let q := if n = 0xFFFF then own else n
    let w := windowOf m q
    okRsp (leBytes 2 q ++ zeros 2 ++ leBytes 4 w.length ++ leBytes 8 (if w.isEmpty then 0 else ((tget m.mail.highest q).getD 0).toNat)
      ++ leBytes 8 ((ticketLow m q).getD 0) ++ zeros 8 ++ (((w.drop (prm c 4 4)).take (prm c 8 4)).map ticketBytes).flatten) m

/-- SESSION.RETICKET empties the window of a QP without work in flight (R75, R89). -/
def hSessionReticket (m p : Module) (c : Cmd) : QRes :=
  let n := prm c 0 2
  if 1027 < n then .refused 7 0
  else if n = c.qp then .refused 3 0
  else if (leadOf m p).mail.journal.any (fun e => e.qp == n) then .refused 11 0
  else ok (mailMod m (fun q => { q with tickets := tdel q.tickets n, highest := tdel q.highest n, floorH := tdel q.floorH n }))

/-- SESSION.NOP echoes PARAM (R89). -/
def hSessionNop (m _p : Module) (c : Cmd) : QRes := okRsp (fit 24 c.param) m

/-- SESSION.COALESCE (R67, R89). -/
def hSessionCoalesce (m _p : Module) (c : Cmd) : QRes :=
  let n := namedQp c
  let count := prm c 2 2
  let age := prm c 4 4
  if 1027 < n ∨ 256 < count ∨ (count ≠ 0 ∧ (age < 1 ∨ 1000 < age)) then .refused 7 0
  else match tget m.mail.qps n with
    | some q => if q.st ≠ .opened then .refused 11 0
      else ok (qpMod m n (fun x => { x with coalCount := count, coalAge := if count = 0 then 0 else age, unsignalled := 0 }))
    | none => .refused 11 0

def execSessionOpen (sl : Slot) (c : Cmd) (s : State) : Res := quondi hSessionOpen .loc .sys 0x0101 s sl c
def execSessionClose (sl : Slot) (c : Cmd) (s : State) : Res := quondi hSessionClose .loc .sys 0x0102 s sl c
def execSessionStatus (sl : Slot) (c : Cmd) (s : State) : Res := quondi hSessionStatus .query .any 0x0103 s sl c
def execSessionTickets (sl : Slot) (c : Cmd) (s : State) : Res := quondi hSessionTickets .query .part 0x0104 s sl c
def execSessionReticket (sl : Slot) (c : Cmd) (s : State) : Res := quondi hSessionReticket .work .sys 0x0105 s sl c
def execSessionNop (sl : Slot) (c : Cmd) (s : State) : Res := quondi hSessionNop .query .any 0x0106 s sl c
def execSessionCoalesce (sl : Slot) (c : Cmd) (s : State) : Res := quondi hSessionCoalesce .loc .any 0x0107 s sl c

end Sys2Proof.Machine
end

