-- ==== Sys2Proof/Machine/Pair.lean ====
section
/-! DEFINITION. Machine/Pair.lean: the acceptance set, the lease as a module holds it, taking and handing over the lead, the resync
and the PAIR commands (R270 to R292). -/

namespace Sys2Proof.Machine
open Sys2Proof Sys2Proof.Bits

/-! ### Commands that reach the partner and the witness -/

/-- What such a command gives: its result on its own module, the partner and the witness. -/
structure PRes where
  res : QRes
  p : Module
  w : Witness

/-- Does the handler of a command run now (R56, R72, R98, R109)? -/
def runs (kind : Kind) (scope : Scope) (code : Nat) (c : Cmd) (m : Module) : Bool :=
  fw m && !(kind != .work && behindWork m code c) && serves m kind code && !(kind == .work && !isLead m && !journalHas m c.qp c.ticket)
    && !(kind == .work && heldBack m c) && !noPart m scope c && !(kind == .work && runLocked m code c)

/-- The row of a command with effects on both modules. A module without the lead role leaves them to the lead and takes the final
stage from the lead's report (R72, R78). -/
def quondiPair (h : Module → Module → Witness → Cmd → PRes) (kind : Kind) (scope : Scope) (code : Nat) (s : State) (sl : Slot) (c : Cmd) : Res :=
  let m := modOf s sl
  let p := modOf s (otherSlot sl)
  if !runs kind scope code c m then .next (withMod s sl (runCmd (fun m _ _ => .later m) kind scope code c m p))
  else if !isLead m then .next (withMod s sl (settle m kind code c (.later m)))
  else
    let r := h m p s.witness c
    .next { withMod (withMod s sl (settle m kind code c r.res)) (otherSlot sl) r.p with witness := r.w }

/-- A result that leaves partner and witness as they are. -/
def alone' (p : Module) (w : Witness) (r : QRes) : PRes := { res := r, p := p, w := w }

/-! ### AGEN and the acceptance set (R272) -/

/-- AGEN + 1; at its end it stays. -/
def incAgen (a : W32) : W32 := if a = 0xFFFFFFFF then a else a + 1

/-- The greater of two generations. -/
def maxAgen (a b : W32) : W32 := if a.toNat < b.toNat then b else a

/-- AGEN can no longer count a change of the set. -/
def agenSpent (m : Module) : Bool := m.pair.agen == 0xFFFFFFFF

/-- The lead goes on without its partner: AGEN + 1, and nothing is accepted until the witness has recorded it (R77, R272). -/
def shrinkLead (m : Module) : Module :=
  { pairMod m (fun x => { x with agen := incAgen x.agen, partnerInSet := false, acceptHeld := true, mode := .alone }) with
    chron := { m.chron with unacked := [] } }

/-- A shrink of the set on both modules. -/
def shrinkSet (m p : Module) : Module × Module :=
  (anchorIfChanged m (shrinkLead m), pairMod p (fun x => { x with inSet := false, mode := .alone }))

/-! ### The lease as a module holds it (R275, R277) -/

/-- The lease runs by the module's own clock. -/
def leaseHeld (m : Module) : Bool := match m.pair.leaseEnd with | some e => decide (m.phys < e) | none => false

/-- A message on W0: 1 RENEW, 2 CLAIM, 3 RELEASE, 4 PRESENT (R275). -/
def toWitness (m : Module) (type : Nat) (force : Bool) : Module :=
  if !serving m then m
  else
    let flags := 128 * slotN m.slot + 64 * b2n m.pair.linkUp + 32 * b2n (m.pair.mode == .inStep) + 16 * b2n force + stateCode m.boot.state
    emit (pairMod m (fun x => { x with counter := x.counter + 1 }))
      (.witness type { flags := BitVec.ofNat 8 flags, counter := m.pair.counter + 1, domain := m.pair.domain, leadEpoch := m.pair.leadEpoch, agen := m.pair.agen })

/-- A first CLAIM of a run; further ones follow every 50 µs. -/
def startClaim (m : Module) (force : Bool) : Module :=
  toWitness (pairMod m (fun x => { x with claiming := true, claimForce := force, w1Seen := false })) 2 force

/-- A reply that a module takes: good, and of its own domain (R275). -/
def validReply (m : Module) (msg : WMsg) : Bool := serving m && msg.good && msg.domain == m.pair.domain

/-- A reply tells a module whether its AGEN lies below the witness's record (R272). -/
def replySeen (m : Module) (msg : WMsg) : Module :=
  pairMod m (fun x => { x with w1Seen := true, stale := decide (x.agen.toNat < msg.agen.toNat) })

/-- The lease runs for 249 µs from the end of the reply. -/
def renewLease (m : Module) : Module := pairMod m (fun x => { x with leaseEnd := some (m.phys + 249000), witnessLost := false })

/-- A joining module before phase 4 never claims (R278, R288). -/
def mayClaim (m : Module) : Bool := match m.pair.joining with | some k => decide (4 ≤ k) | none => true

/-- Who claims in READY (R278). A partner that is not in READY or RUN cannot claim and counts as not higher. -/
def readyClaim (m p : Module) : Module :=
  if !serving m || m.boot.state != .ready || isLead m || m.pair.claiming || !mayClaim m then m
  else if !linked m p then startClaim m false
  else if isLead p || (serving p && decide (m.pair.agen.toNat < p.pair.agen.toNat)) then m
  else if m.slot = .a ∨ (serving p = true ∧ p.pair.agen.toNat < m.pair.agen.toNat) then startClaim m false
  else m

/-- Slot B claims when A has not become lead within 1 ms. -/
def readyClaimLate (m p : Module) : Module :=
  if !serving m || m.boot.state != .ready || isLead m || m.pair.claiming || !mayClaim m || (linked m p && isLead p)
      || (linked m p && serving p && decide (m.pair.agen.toNat < p.pair.agen.toNat)) then m
  else startClaim m false

/-! ### Entering and leaving RUN -/

/-- RUN: a due confirm window opens (R375), and running tasks cycle from their first boundary after this (R126). -/
def enterRun (m : Module) : Module :=
  let m1 := setState m .run
  let m2 := bootMod m1 (fun b => if b.windowDue then { b with windowRunning := true, windowDue := false, windowEnd := m.phys + b.windowLen * 1000000000 } else b)
  let m3 := allTasks m2 (fun k => if (k.st = .running ∨ k.st = .stopped ∨ k.st = .faulted) ∧ almGe (now m) k.next = true then { k with next := gridAfter k (now m), offset := 0 } else k)
  anchorIfChanged m (refresh m3)

/-- From RUN to READY: no task cycles and nothing is sent cyclically. -/
def leaveRun (m : Module) : Module := if m.boot.state = .run then refresh (setState (stopLegacy (stopCycles m)) .ready) else m

/-- A module that leaves the pair for READY and follows the lead that it sees (R285, R288). -/
def toReady (p : Module) (lead : Bool) : Module :=
  anchorIfChanged p (pairMod (leaveRun (leavePair p)) (fun x => { x with role := if lead then .shadow else .none }))

/-- What IMAGE.ACTIVATE leaves on its module before verification: split mask, confirm window, and an empty class region of the candidate
filled from the current slot (R49, R374, R375). -/
def prepareActivation (m : Module) (c : Cmd) : Module :=
  let m1 := bootMod m (fun b => { b with newSplit := prm c 2 2, windowLen := if prm c 4 4 = 0 then 60 else prm c 4 4 })
  [1, 2].foldl (fun a cls =>
    if regionEmpty (regionOf a a.boot.cand cls) then regionMod a a.boot.cand cls (fun _ => regionOf a a.boot.cur cls) else a) m1

/-- RUN to VERIFY (R29, R370, R377): the pair, the launches and the attachment end. -/
def enterVerify (p : Module) (from_ : VerifyFrom) : Module :=
  let m1 := leavePair (stopConns (stopLegacy (holdLanes (stopCycles p) true)))
  let m2 := bootMod m1 (fun b => { b with verifyFrom := from_, windowRunning := false })
  mailMod (refresh (anchorIfChanged p (setState m2 .verify))) resetMail

/-- The component CRC-32Cs of a slot are right and something is there (R376). -/
def slotSound (m : Module) (i : Nat) : Bool :=
  [1, 2].all (fun cls => let r := regionOf m i cls
    !r.closed || compsGood r) && !slotEmpty m i

/-- A window that closes without confirmation (R376): without a previous image only the lapse is recorded. -/
def windowLapsed (m : Module) : Module :=
  revertedRecord (bootMod m (fun b => { b with confirm := 3, windowRunning := false })) 2 m.boot.cur m.boot.cur

/-- Restart mode: the previous image takes over in place. Previous becomes current, current the REVERTED candidate, the empty
candidate previous; the module is in READY (R29, R376). -/
def revertInPlace (m : Module) (lead : Bool) : Module :=
  let m1 := bootMod m (fun b => { b with cur := b.prev, cand := b.cur, prev := b.cand, confirm := 2, windowRunning := false, selfChecked := false })
  let m2 := slotMod (slotMod m1 m1.boot.cand (fun s => { s with reverted := true })) m1.boot.prev (fun _ => {})
  toReady (revertedRecord m2 0 m.boot.cur m.boot.prev) lead

/-! ### Taking the lead (R81, R85, R87, R280, R302) -/

/-- The final stage of a command comes with a later event that this module also sees. -/
def laterPending (m : Module) (qp : Nat) (t : W64) : Bool :=
  m.field.drops.any (fun x => x.2.acyPending.any (fun a => match a.cmd with | some (q, c) => q == qp && c.ticket == t | none => false))

/-- An entry of the journal on a module that takes the lead: accepted, and reported later (R77, R80, R81). -/
def inheritEntry (due : W64) (m : Module) (e : JEntry) : Module :=
  let m1 := journalMod m e.qp e.d.ticket (fun x =>
    { x with
      accepted := true
      order := if x.accepted then x.order else m.mail.nextOrder
      step := if x.final then x.step else some due
      started := x.started && (x.final || laterPending m e.qp e.d.ticket)
      inherited := true })
  let m2 := if e.accepted then m1 else mailMod m1 (fun q => { q with nextOrder := q.nextOrder + 1 })
  if (ticketFind m2 e.qp e.d.ticket).isSome then m2 else ticketPut m2 e.qp { ticket := e.d.ticket, stage := 2, time := now m }

/-- Each direction of a UDP session starts again at DSEQ 0 (R87). -/
def epochSessions (m : Module) : Module :=
  mailMod m (fun q => { q with qps := q.qps.map (fun x => (x.1, { x.2 with dseqIn := 0, dseqOut := 0, unacked := [] })) })

/-- LEAD_CHANGE (R315): cause 0 fault, 1 equinox, 2 withdraw, 3 forced. -/
def leadRecord (m : Module) (cause : Nat) : Module :=
  logEv m 0x0501 0 0 0xFFFF (leBytes 1 (slotN m.slot) ++ leBytes 1 (modeCode m.pair.mode) ++ leBytes 1 cause ++ zeros 1
    ++ leBytes 4 m.pair.leadEpoch.toNat ++ leBytes 4 m.pair.agen.toNat)

/-- The journal entry of the command that asked for a handover; a lapsed confirm window has none. -/
def ownEntry (h : Handover) (e : JEntry) : Bool := h.code != 0 && e.qp == h.qp && e.d.ticket == h.cmd.ticket

/-- LEAD_TAKEOVER, planned by a handover or not. The new lead completes the command of a handover itself. -/
def takeLead (m : Module) (cause : Nat) (h : Option Handover) (agen : W32) : Module :=
  let planned := h.isSome
  let m1 := renewLease (pairMod m (fun x => { x with
    role := .lead
    leadEpoch := x.leadEpoch + 1
    agen := maxAgen x.agen agen
    stale := false
    claiming := false
    claimForce := false
    noticed := false
    inSet := true
    partnerInSet := planned
    acceptHeld := false
    mode := if planned then x.mode else .alone
    joining := none
    cutover := none
    window := !planned
    catchup := x.catchup || (x.mode == .warm && m.boot.state == .run)
    lastChange := now m
    changes := inc32 x.changes }))
  let m2 := epochSessions { m1 with chron := if planned then m1.chron else { m1.chron with unacked := [] } }
  let m3 := (m2.mail.journal.filter (fun e => match h with | some x => !ownEntry x e | none => true)).foldl (inheritEntry (now m + 10000)) m2
  let m4 := if planned then almMod m3 (fun a => { a with source := cfgCode m3, locked := false })
    else almMod (setAdj m3 (adjMean m3)) (fun a => { a with source := 4, locked := false })
  emit (leadRecord (mailMod m4 (fun q => { q with paused := false, reports := [] })) cause) .domainAddress

/-- The partner follows a new lead that it sees. -/
def followLead (m p : Module) : Module :=
  if !linked m p || !serving p then p
  else anchorIfChanged p (epochSessions (pairMod p (fun x => { x with
    role := .shadow
    leadEpoch := m.pair.leadEpoch
    agen := if x.inSet then m.pair.agen else x.agen
    claiming := false
    leaseEnd := none
    lastChange := m.pair.lastChange
    changes := inc32 x.changes
    lastSwap := m.pair.lastSwap })))

/-- The old lead of a planned handover: its command is final on the new lead, its fetching resumes. -/
def handOver (p : Module) (h : Handover) : Module :=
  let p1 := mailMod (pairMod p (fun x => { x with handover := none })) (fun q => { q with paused := false })
  if h.code = 0 then p1
  else
    let p2 := ticketPut p1 h.qp { ticket := h.cmd.ticket, stage := 3, time := now p }
    let p3 := journalMod p2 h.qp h.cmd.ticket (fun e => { e with final := true, stage := 3 })
    if qpLive p3 h.qp then endFlight p3 h.qp else p3

/-- The new lead posts the DONE of the handover's command, with DUP = 0 (R81, R283). -/
def plannedDone (m : Module) (h : Handover) : Module :=
  finish (if qpLive m h.qp then qpMod (mailMod m (fun q => { q with inFlight := q.inFlight + 1 })) h.qp (fun q => { q with inFlight := q.inFlight + 1 }) else m)
    .work h.code h.cmd 3 0 0 []

/-- What a planned handover was for, on the new lead `m` and the old lead `p` (R283, R285, R370, R376). -/
def handoverEffect (m p : Module) (h : Handover) : Module × Module :=
  match h.code with
  | 0x0504 =>
    let swap (x : Module) : Module := pairMod x (fun y => { y with lastSwap := now m })
    let m1 := leaveClass (plannedDone (swap m) h) 3 2
    (m1, mirrorToken m1 (swap p))
  | 0x0503 =>
    let r := shrinkSet (plannedDone m h) p
    (r.1, toReady r.2 true)
  | 0x0A02 =>
    let r := shrinkSet (maintMod m (fun x => { x with verdict := some (h.qp, h.code, h.cmd) })) p
    (r.1, enterVerify (prepareActivation r.2 h.cmd) .activate)
  | 0x0A03 =>
    let r := shrinkSet (maintMod m (fun x => { x with verdict := some (h.qp, h.code, h.cmd) })) p
    (r.1, enterVerify r.2 .revert)
  | _ =>
    let r := shrinkSet m p
    (r.1, revertInPlace r.2 true)

/-- Cause of LEAD_CHANGE by the command of a handover. -/
def handoverCause (h : Handover) : Nat := if h.code = 0x0503 then 2 else if h.code = 0 then 0 else 1

/-- A planned handover is complete: `m` has the GRANT, `p` released. -/
def takePlanned (m p : Module) (h : Handover) (agen : W32) : Module × Module :=
  let m1 := takeLead m (handoverCause h) (some h) agen
  let p1 := handOver (followLead m1 p) h
  let r := handoverEffect m1 p1 h
  (anchorIfChanged m (acceptReady r.1 r.2), r.2)

/-- An unplanned one. -/
def takeAlone (m p : Module) (cause : Nat) (agen : W32) : Module × Module :=
  let m1 := takeLead m cause none agen
  (anchorIfChanged m (acceptReady m1 p), followLead m1 p)

/-! ### Starting and ending a handover (R283, R285) -/

/-- Fetching of work stops; the drain begins. -/
def startHandoverOf (m : Module) (qp : Nat) (c : Cmd) (code limit : Nat) : Module :=
  mailMod (pairMod m (fun x => { x with handover := some { qp := qp, cmd := c, code := code, limitMs := limit } })) (fun q => { q with paused := true })

/-- It ends without a new lead: its command ends REFUSED with TIMEOUT and fetching resumes. -/
def failHandover (m : Module) (h : Handover) : Module :=
  let m1 := mailMod (pairMod m (fun x => { x with handover := none })) (fun q => { q with paused := false })
  let m2 := if h.code = 0x0504 then leaveClass m1 3 2 else m1
  if h.code = 0 then m2 else finish m2 .work h.code h.cmd 4 0x0011 0 []

/-- Every accepted command but the handover's own is final. -/
def drained (m : Module) (h : Handover) : Bool :=
  m.mail.journal.all (fun e => !e.accepted || e.final || ownEntry h e)

/-! ### Resync (R286 to R288) -/

/-- The items of phase 1. -/
def resyncItems : List ResyncItem :=
  [.glintBanks, .tasks, .partitions, .segments, .points, .tickets, .journal, .retained, .pairState]

/-- The partner carries another non-zero domain ID. -/
def foreignDomain (m p : Module) : Bool := linked m p && p.pair.domain != 0 && p.pair.domain != m.pair.domain

/-- A partner that a resync could join: in READY, in SPLIT-OFF, or a warm shadow (R281, R286). -/
def joinable (m p : Module) : Bool :=
  linked m p && hasPower p && (p.boot.state == .ready || p.boot.state == .splitOff || (p.boot.state == .run && m.pair.mode == .warm && m.pair.partnerInSet))

/-- Phase 1 begins: class resync is entered, the partner adopts the domain, and leaves SPLIT-OFF (R29, R286, R287). -/
def startResync (m p : Module) (cmd : Option (Nat × Cmd)) : Module × Module :=
  let warm := p.boot.state == .run
  let m1 := enterClass (pairMod m (fun x => { x with resync := some { phase := 1, cmd := cmd, warmShadow := warm } })) 3 .pair 0
  let p1 := if p.boot.state = .splitOff then refresh (setState (discardPoints (holdLanes p false)) .ready) else p
  let p2 := pairMod p1 (fun x => { x with joining := some 1, cutover := none, domain := m.pair.domain, role := .shadow, claiming := false })
  let p3 := anchorIfChanged p p2
  (emits m1 (resyncItems.map (fun i => .sync (.resync i))), mirrorToken m1 p3)

/-- The resync ends on the lead: class 3 is left, and a PAIR.RESYNC ends DONE. -/
def endResync (m : Module) (status : Nat) : Module :=
  match m.pair.resync with
  | none => m
  | some r =>
    let m1 := leaveClass (pairMod m (fun x => { x with resync := none })) 3 3
    match r.cmd with
    | some (_, c) => finish m1 .work 0x0505 c 3 status 0 []
    | none => m1

/-- The lead abandons a resync: the joining module leaves the set, discards what it received and is in READY (R288). -/
def abandonResync (m p : Module) : Module × Module :=
  let r := if m.pair.partnerInSet then shrinkSet m p else (m, p)
  let m1 := endResync r.1 0x8503
  (m1, mirrorToken m1 (toReady (discardPoints r.2) true))

/-! ### Loss of the sync link (R77, R274, R277, R288, R302, R371) -/

/-- What a module does when it declares the link down; agreements that are open complete by themselves elsewhere. -/
def linkLost (m p : Module) : Module :=
  let was := m.pair
  let m0 := pairMod m (fun x => { x with linkUp := false, mode := .alone })
  let m1 := bootMod (if m0.boot.relaying then relayFail m0 else m0) (fun b => { b with sending := none })
  if !serving m1 then m1
  else
    let m2 := if isLead m1 && was.partnerInSet then shrinkLead m1 else m1
    let m3 := endActivation (endResync m2 0x8503) 0x8A02 0
    let m4 := match was.handover with
      | some h => if isLead m3 then failHandover m3 h else m3
      | none => m3
    let m5 := if m4.alm.source = 1 then holdover m4 else m4
    let m6 :=
      if isLead m5 then m5
      else if was.joining.isSome && !mayClaim m then toReady (discardPoints m5) false
      else if m5.boot.state = .run then startClaim (pairMod m5 (fun x => { x with catchup := was.mode == .warm })) false
      else readyClaim (pairMod m5 (fun x => { x with role := .none, claiming := false })) p
    anchorIfChanged m m6

/-! ### Commands -/

/-- EPOCH and EPOCH_MIN of both current images. -/
def epochBytes (m : Module) : Bytes :=
  [1, 2].flatMap (fun cls => let r := regionOf m m.boot.cur cls
    leBytes 2 (imgEpoch r) ++ leBytes 2 (imgEpochMin r))

/-- PAIR.STATUS (R291). -/
def hPairStatus (m p : Module) (_c : Cmd) : QRes :=
  let x := m.pair
  let st (sl : Slot) : Nat := if m.slot = sl then stateCode m.boot.state else if linked m p then stateCode p.boot.state else 0xFF
  let lead := if isLead m then slotN m.slot else if linked m p && isLead p then slotN p.slot else 0xFF
  let sending := serving m && (isLead m || x.claiming || x.linkUp)
  let phase := match x.resync, x.joining with | some r, _ => r.phase | none, some k => k | none, none => 0
  let left := match x.leaseEnd with | some e => (e - m.phys) / 1000 | none => 0
  okRsp (leBytes 1 (modeCode x.mode) ++ leBytes 1 lead ++ leBytes 1 (st .a) ++ leBytes 1 (st .b) ++ leBytes 4 x.leadEpoch.toNat
    ++ epochBytes m ++ (if linked m p then epochBytes p else zeros 8) ++ leBytes 4 x.agen.toNat
    ++ leBytes 1 (4 * b2n x.linkUp + 2 * b2n x.lane1 + b2n x.lane0)
    ++ leBytes 1 (8 * b2n x.witnessLost + 4 * b2n (leaseHeld m) + 2 * b2n x.w1Seen + b2n sending) ++ leBytes 1 phase
    ++ leBytes 1 (8 * b2n x.autoResync + 4 * b2n (foreignDomain m p) + 2 * b2n (linked m p && p.pair.stale) + b2n x.stale)
    ++ leBytes 4 left ++ leBytes 4 x.domain.toNat ++ leBytes 8 x.lastChange.toNat ++ leBytes 8 x.lastSwap.toNat ++ leBytes 4 x.changes
    ++ leBytes 4 (match x.resync with | some r => sat32 r.progress | none => 0)) m

/-- PAIR.RUN (R285). -/
def hPairRun (m p : Module) (w : Witness) (c : Cmd) : PRes :=
  let slot := prmB c 0
  alone' p w (
    if 1 < slot then .refused 7 0
    else if slot ≠ slotN m.slot then (if linked m p then .refused 11 0 else .refused 0x0502 0)
    else if m.boot.state ≠ .ready then .refused 11 0
    else if m.pair.stale then
      (if bit (prmB c 1) 0 then .later (startClaim (pairMod m (fun x => { x with forcedRun := some (c.qp, c) })) true) else .refused 0x0504 0)
    else ok (enterRun m))

/-- PAIR.WITHDRAW (R285). -/
def hPairWithdraw (m p : Module) (w : Witness) (c : Cmd) : PRes :=
  let slot := prmB c 0
  let force := bit (prmB c 1) 0
  if 1 < slot then alone' p w (.refused 7 0)
  else if slot ≠ slotN m.slot then
    (if !linked m p then alone' p w (.refused 0x0502 0)
     else if !leaseHeld m then alone' p w (.refused 0x0501 0)
     else if !m.pair.partnerInSet then alone' p w (.refused 11 0)
     else if agenSpent m then alone' p w (.refused 9 0)
     else
       let r := shrinkSet m p
       { res := ok (endResync r.1 0x8503), p := toReady r.2 true, w := w })
  else alone' p w (
    if m.boot.state ≠ .run then .refused 11 0
    else match m.pair.mode with
      | .inStep => if leaseHeld m then .later (startHandoverOf m c.qp c 0x0503 100) else .refused 0x0501 0
      | .warm =>
        if !force then .refused 14 0
        else if leaseHeld m then .later (startHandoverOf m c.qp c 0x0503 100) else .refused 0x0501 0
      | .alone => if force then .done 0x8502 0 [] (anchorIfChanged m (leaveRun m)) else .refused 14 0)

/-- PAIR.EQUINOX (R283, R379, R386). -/
def hPairEquinox (m p : Module) (w : Witness) (c : Cmd) : PRes :=
  let limit := if prm c 0 2 = 0 then 100 else prm c 0 2
  if 1000 < limit then alone' p w (.refused 7 0)
  else if m.pair.mode ≠ .inStep then alone' p w (.refused 14 0)
  else if !leaseHeld m then alone' p w (.refused 0x0501 0)
  else match judge m p 2 .pair with
    | 0 =>
      let m1 := startHandoverOf (enterClass m 2 .pair 0) c.qp c 0x0504 limit
      { res := .later m1, p := mirrorToken m1 p, w := w }
    | 1 => alone' p w .waits
    | _ => alone' p w (.refused 12 0)

/-- PAIR.RESYNC (R286). -/
def hPairResync (m p : Module) (w : Witness) (c : Cmd) : PRes :=
  if !leaseHeld m then alone' p w (.refused 0x0501 0)
  else if !linked m p then alone' p w (.refused 0x0502 0)
  else if m.boot.state ≠ .run ∨ joinable m p = false ∨ m.pair.resync.isSome = true then alone' p w (.refused 11 0)
  else if foreignDomain m p && !bit (prmB c 0) 0 then alone' p w (.refused 0x0503 0)
  else if agenSpent m then alone' p w (.refused 9 0)
  else match judge m p 3 .pair with
    | 0 => let r := startResync m p (some (c.qp, c))
      { res := .later r.1, p := r.2, w := w }
    | 1 => alone' p w .waits
    | _ => alone' p w (.refused 12 0)

/-- PAIR.WITNESS (R272, R290 and file 16): a new domain ID sets AGEN to 0 in both modules and the witness, which takes up the domain
(log entry 42). -/
def hPairWitness (m p : Module) (w : Witness) (c : Cmd) : PRes :=
  let d := w32 (prm c 0 4)
  let days := prmB c 5
  let auto := bit (prmB c 4) 0
  let put (x : Module) : Module := pairMod x (fun y => { y with domain := d, autoResync := auto, reminderDays := days, agen := if d = m.pair.domain then y.agen else 0 })
  if d = 0 ∨ 90 < days then alone' p w (.refused 7 0)
  else if d ≠ m.pair.domain ∧ (m.boot.state = .run ∨ (linked m p = true ∧ p.boot.state = .run)) then alone' p w (.refused 11 0)
  else { res := ok (put m), p := if linked m p then put p else p,
         w := if d = m.pair.domain then w else { w with domain := d, agen := 0 } }

def execPairStatus (sl : Slot) (c : Cmd) (s : State) : Res := quondi hPairStatus .query .any 0x0501 s sl c
def execPairRun (sl : Slot) (c : Cmd) (s : State) : Res := quondiPair hPairRun .work .sys 0x0502 s sl c
def execPairWithdraw (sl : Slot) (c : Cmd) (s : State) : Res := quondiPair hPairWithdraw .work .sys 0x0503 s sl c
def execPairEquinox (sl : Slot) (c : Cmd) (s : State) : Res := quondiPair hPairEquinox .work .sys 0x0504 s sl c
def execPairResync (sl : Slot) (c : Cmd) (s : State) : Res := quondiPair hPairResync .work .sys 0x0505 s sl c
def execPairWitness (sl : Slot) (c : Cmd) (s : State) : Res := quondiPair hPairWitness .work .sys 0x0506 s sl c

end Sys2Proof.Machine
end

