-- ==== Sys2Proof/Machine/Lease.lean ====
section
/-! DEFINITION. Machine/Lease.lean: the lease at the witness (R276) and at the modules (R275, R277, R278), the equinox swap (R283,
R284) and the progress of a resync (R286 to R288). -/

namespace Sys2Proof.Machine
open Sys2Proof Sys2Proof.Bits

/-! ### The witness (R275, R276) -/

/-- What the witness keeps of a slot: its pending CLAIM, whether a run of CLAIMs has begun, and whether the holder has renewed with
SYNC_UP = 0 since. -/
def pendOf (w : Witness) : Slot → Option PendClaim
  | .a => w.pendA
  | .b => w.pendB
def runOf (w : Witness) : Slot → Bool
  | .a => w.runA
  | .b => w.runB
def sync0Of (w : Witness) : Slot → Bool
  | .a => w.sync0A
  | .b => w.sync0B
def setPend (w : Witness) (sl : Slot) (x : Option PendClaim) : Witness :=
  match sl with
  | .a => { w with pendA := x }
  | .b => { w with pendB := x }
def setRun (w : Witness) (sl : Slot) (r : Bool) : Witness :=
  match sl with
  | .a => { w with runA := r, sync0A := w.sync0A && r }
  | .b => { w with runB := r, sync0B := w.sync0B && r }

/-- SLOT, SYNC_UP and FORCE of a module message. -/
def msgSyncUp (msg : WMsg) : Bool := msg.flags.getLsbD 6
def msgForce (msg : WMsg) : Bool := msg.flags.getLsbD 4

/-- A message the witness takes. -/
def heard (w : Witness) (msg : WMsg) : Bool := msg.good && msg.domain == w.domain

/-- A reply on the line of a slot: 8 GRANT, 9 RENEWED, 10 WAIT, 11 DENIED, 12 STALE, 13 ACK (R275). -/
def reply (w : Witness) (sl : Slot) (type : Nat) (counter : W16) : Witness :=
  let h := match w.holder with | some x => slotN x | none => 0
  { w with out := w.out ++ [.reply sl type
      { flags := BitVec.ofNat 8 (128 * h + 64 * b2n (w.holder.isSome && w.running)), counter := counter, domain := w.domain,
        leadEpoch := w.leadEpoch, agen := w.agen }] }

/-- The run of CLAIMs of a slot ends. -/
def endClaims (w : Witness) (sl : Slot) : Witness := setRun (setPend w sl none) sl false

/-- GRANT: the claimant becomes holder. AGEN moves on where the holder changes without a release to it (R276). -/
def grantTo (w : Witness) (sl : Slot) (agen : W32) (counter : W16) : Witness :=
  let same := w.holder == some sl || w.reserved == some sl
  let w1 := { w with holder := some sl, running := true, holdoff := false, reserved := none, agen := if same then w.agen else incAgen (maxAgen w.agen agen) }
  reply (endClaims w1 sl) sl 8 counter

/-- Nothing forbids a GRANT to this slot now: no running lease, no hold-off, no reservation for the other; at the end of AGEN only
the last holder gets the lease (file 16). -/
def grantable (w : Witness) (sl : Slot) : Bool :=
  !w.running && !w.holdoff && w.reserved != some (otherSlot sl)
    && (w.holder == some sl || w.reserved == some sl || w.agen != 0xFFFFFFFF)

/-- A CLAIM waits. -/
def pendClaim (w : Witness) (sl : Slot) (force : Bool) (msg : WMsg) : Witness :=
  let w1 := setPend { w with order := w.order + 1 } sl (some { agen := msg.agen, force := force, counter := msg.counter, order := w.order })
  reply (if runOf w sl then w1 else setRun w1 sl true) sl 10 msg.counter

/-- A CLAIM of a slot, or what counts as one (R276). -/
def claimAt (w : Witness) (sl : Slot) (force : Bool) (msg : WMsg) : Witness :=
  if w.running && w.holder == some sl then
    reply { endClaims w sl with running := true } sl 8 msg.counter
  else if decide (msg.agen.toNat < w.agen.toNat) && !force then reply (endClaims w sl) sl 12 msg.counter
  else if w.running || w.holdoff then
    (if sync0Of w sl then reply (endClaims w sl) sl 11 msg.counter else pendClaim w sl force msg)
  else if grantable w sl then grantTo w sl msg.agen msg.counter
  else pendClaim w sl force msg

/-- The pending CLAIM that is granted once nothing forbids it: of two the one whose message ended first (R276). -/
def grantPending (w : Witness) : Witness :=
  let ready (sl : Slot) : Option PendClaim := if grantable w sl then pendOf w sl else none
  match ready .a, ready .b with
  | some a, some b => if a.order ≤ b.order then grantTo w .a a.agen a.counter else grantTo w .b b.agen b.counter
  | some a, none => grantTo w .a a.agen a.counter
  | none, some b => grantTo w .b b.agen b.counter
  | none, none => w

/-- RENEW: from the holder of the running lease it is answered RENEWED; any other counts as a CLAIM (R276). -/
def renewAt (w : Witness) (sl : Slot) (msg : WMsg) : Witness :=
  if !heard w msg then w
  else if w.running && w.holder == some sl then
    let w1 := { w with leadEpoch := msg.leadEpoch, agen := msg.agen }
    let w2 := if msgSyncUp msg then w1
      else match otherSlot sl with
        | .a => { w1 with sync0A := w1.sync0A || w1.runA }
        | .b => { w1 with sync0B := w1.sync0B || w1.runB }
    reply w2 sl 9 msg.counter
  else claimAt w sl false msg

/-- RELEASE: for 250 µs only the partner's CLAIM can be granted; from any other it is DENIED (R276). -/
def releaseAt (w : Witness) (sl : Slot) (msg : WMsg) : Witness :=
  if !heard w msg then w
  else if w.running && w.holder == some sl then
    grantPending (reply { w with running := false, holdoff := false, reserved := some (otherSlot sl) } sl 13 msg.counter)
  else reply w sl 11 msg.counter

/-- PRESENT: recorded for diagnostics. -/
def presentAt (w : Witness) (sl : Slot) (msg : WMsg) : Witness :=
  if !heard w msg then w
  else reply (match sl with | .a => { w with presentA := some msg } | .b => { w with presentB := some msg }) sl 13 msg.counter

def execRenew (sl : Slot) (msg : WMsg) (s : State) : Res := onWitness s (fun w => renewAt w sl msg)
def execClaim (sl : Slot) (msg : WMsg) (s : State) : Res :=
  onWitness s (fun w => if heard w msg then claimAt w sl (msgForce msg) msg else w)
def execRelease (sl : Slot) (msg : WMsg) (s : State) : Res := onWitness s (fun w => releaseAt w sl msg)
def execPresent (sl : Slot) (msg : WMsg) (s : State) : Res := onWitness s (fun w => presentAt w sl msg)

/-- 250 µs after the last renewal the lease ends; for 10 µs nobody gets it (R276). -/
def execWitnessLeaseEnd (s : State) : Res :=
  onWitness s (fun w => if w.running then { w with running := false, holdoff := true } else w)
/-- The 10 µs have passed. -/
def execWitnessHoldoffEnd (s : State) : Res :=
  onWitness s (fun w => if w.holdoff then grantPending { w with holdoff := false } else w)
/-- A CLAIM that waits stays pending for 60 µs. -/
def execClaimPendingExpiry (sl : Slot) (s : State) : Res :=
  onWitness s (fun w => if (pendOf w sl).isSome then endClaims w sl else w)
/-- The reservation of a released lease ends after 250 µs. -/
def execReleaseReservationEnd (s : State) : Res :=
  onWitness s (fun w => if w.reserved.isSome then grantPending { w with reserved := none } else w)

/-! ### Timers of a module (R277, R278) -/

def execRenewTimer (sl : Slot) (s : State) : Res :=
  onMod s sl (fun m => if serving m && isLead m && leaseHeld m && !m.pair.claiming then toWitness m 1 false else m)
def execPresentTimer (sl : Slot) (s : State) : Res :=
  onMod s sl (fun m => if serving m && m.pair.role == .shadow && m.pair.linkUp then toWitness m 4 false else m)
def execClaimTimer (sl : Slot) (s : State) : Res :=
  onMod s sl (fun m => if serving m && m.pair.claiming then toWitness m 2 m.pair.claimForce else m)

/-- WITNESS_LOST with the Almanac time at which the lease ended (R277, R315). -/
def witnessLost (m : Module) (endNs : Nat) : Module :=
  let m1 := pairMod m (fun x => { x with witnessLost := true, leaseEnd := none, w1Seen := false })
  startClaim (logEv m1 0x0503 0 0 0xFFFF (leBytes 8 (now m - w64 (m.phys - endNs)).toNat)) false

/-- The check of every 10 µs (R277). -/
def checkLease (m : Module) : Module :=
  if !serving m || !isLead m || leaseHeld m then m
  else if m.pair.linkUp then
    (if m.pair.witnessLost then m else witnessLost m (m.pair.leaseEnd.getD m.phys))
  else if m.boot.state = .run then enterSplitOff m
  else anchorIfChanged m (startClaim (leavePair m) false)

def execLeaseCheck (sl : Slot) (s : State) : Res := onMod s sl checkLease

/-- A shadow in RUN without its partner, which claims (R277). -/
def lonelyShadow (m : Module) : Bool := inRun m && !isLead m && m.pair.claiming && !m.pair.linkUp

/-- No reply within 250 µs of the first CLAIM. -/
def execClaimReplyTimeout (sl : Slot) (s : State) : Res :=
  onMod s sl (fun m => if lonelyShadow m && !m.pair.w1Seen then enterSplitOff m else m)

def execReadyClaimTimer (sl : Slot) (s : State) : Res := onPair s sl readyClaimLate

/-! ### Replies of the witness -/

/-- The forced PAIR.RUN completes: the module runs, and a record says that accepted work may be missing (R285, R315). -/
def forcedEnd (m : Module) (own : W32) : Module :=
  match m.pair.forcedRun with
  | none => m
  | some (_, c) =>
    let m1 := enterRun (pairMod m (fun x => { x with forcedRun := none }))
    finish (logEv m1 0x0505 0 0 0xFFFF (leBytes 4 own.toNat ++ leBytes 4 m.pair.agen.toNat)) .work 0x0502 c 3 0x8501 0 []

/-- The partner in the set takes the lead's generation (R272). -/
def shareAgen (m p : Module) : Module :=
  if linked m p && m.pair.partnerInSet && p.pair.inSet then pairMod p (fun x => { x with agen := m.pair.agen }) else p

/-- GRANT (R277, R283, R285). -/
def takeGrant (msg : WMsg) (m p : Module) : Module × Module :=
  if !validReply m msg then (m, p)
  else
    let own := m.pair.agen
    let m0 := replySeen m msg
    if isLead m then
      let m1 := renewLease (pairMod m0 (fun x => { x with agen := maxAgen x.agen msg.agen, stale := false, claiming := false, claimForce := false, acceptHeld := x.acceptHeld && decide (msg.agen.toNat < x.agen.toNat) }))
      (acceptReady (forcedEnd m1 own) p, shareAgen m1 p)
    else if !m.pair.claiming then (m0, p)
    else match m.pair.handover, p.pair.handover with
      | some h, _ =>
        let m1 := renewLease (pairMod m0 (fun x => { x with role := .lead, claiming := false, stale := false }))
        (anchorIfChanged m (failHandover m1 h), pairMod p (fun x => { x with noticed := false }))
      | none, some h =>
        if m.pair.noticed && linked m p && h.released then takePlanned m0 p h msg.agen else takeAlone m0 p 0 msg.agen
      | none, none =>
        let r := takeAlone m0 p (if m.pair.claimForce then 3 else 0) msg.agen
        (forcedEnd r.1 own, r.2)

def execGrant (sl : Slot) (msg : WMsg) (s : State) : Res := onBoth s sl (takeGrant msg)

/-- RENEWED: the lease runs on; acceptance resumes once the new AGEN is recorded, and a resync goes on to phase 3 (R77, R272, R287). -/
def takeRenewed (msg : WMsg) (m p : Module) : Module × Module :=
  if !validReply m msg then (m, p)
  else if !isLead m then (replySeen m msg, p)
  else
    let recorded : Bool := decide (m.pair.agen.toNat ≤ msg.agen.toNat)
    let m1 := renewLease (pairMod (replySeen m msg) (fun x => { x with acceptHeld := x.acceptHeld && !recorded }))
    let follow : Bool := recorded && (match m.pair.resync with | some r => r.phase == 2 | none => false)
    let m2 := if follow then pairMod m1 (fun x => { x with resync := x.resync.map (fun r => { r with phase := 3 }) }) else m1
    (acceptReady m2 p, if follow then pairMod p (fun x => { x with joining := some 3 }) else p)

def execRenewed (sl : Slot) (msg : WMsg) (s : State) : Res := onBoth s sl (takeRenewed msg)
def execWait (sl : Slot) (msg : WMsg) (s : State) : Res := onMod s sl (fun m => if validReply m msg then replySeen m msg else m)
def execWitnessAck (sl : Slot) (msg : WMsg) (s : State) : Res := onMod s sl (fun m => if validReply m msg then replySeen m msg else m)

/-- DENIED sends a claiming shadow in RUN into SPLIT-OFF; others claim again (R276, R277). -/
def execDenied (sl : Slot) (msg : WMsg) (s : State) : Res :=
  onMod s sl (fun m =>
    if !validReply m msg then m
    else if lonelyShadow m then enterSplitOff (replySeen m msg) else replySeen m msg)

/-- STALE: a shadow in RUN enters SPLIT-OFF; a module in READY claims no more (R272, R277). -/
def execStale (sl : Slot) (msg : WMsg) (s : State) : Res :=
  onMod s sl (fun m =>
    if !validReply m msg then m
    else
      let m1 := pairMod (replySeen m msg) (fun x => { x with stale := true })
      if lonelyShadow m then enterSplitOff m1
      else if isLead m then m1 else pairMod m1 (fun x => { x with claiming := false }))

/-! ### The equinox swap (R283, R284) -/

/-- Every accepted command is final: A stops all lead actions, tells B and sends RELEASE. -/
def execEquinoxDrainDone (sl : Slot) (s : State) : Res :=
  onPair s sl (fun m p => match m.pair.handover with
    | none => m
    | some h =>
      if h.released || !isLead m || !serving m || !linked m p || !drained m h then m
      else
        let m1 := emit m (.sync .equinoxNotice)
        let m2 := toWitness m1 3 false
        anchorIfChanged m (pairMod m2 (fun x => { x with handover := some { h with released := true }, role := .shadow, leaseEnd := none, claiming := false })))

/-- The drain exceeds its limit. A handover that a confirm window asks for goes on draining (R376). -/
def execEquinoxDrainTimeout (sl : Slot) (s : State) : Res :=
  onBoth s sl (withToken (fun m _ => match m.pair.handover with
    | none => m
    | some h => if h.released || !isLead m || h.code = 0 then m else failHandover m h))

/-- B receives the notice and claims. -/
def execEquinoxNoticeReceive (sl : Slot) (s : State) : Res :=
  onPair s sl (fun m p => match p.pair.handover with
    | some h =>
      if inRun m && linked m p && h.released && !isLead m && mayClaim m then startClaim (pairMod m (fun x => { x with noticed := true })) false else m
    | none => m)

/-- No GRANT has reached B within 1 ms of RELEASE: A claims again; its GRANT ends the command (R283). -/
def execEquinoxGrantTimeout (sl : Slot) (s : State) : Res :=
  onBoth s sl (fun m p => match m.pair.handover with
    | some h =>
      if h.released && !isLead m && inRun m && !(linked m p && isLead p)
      then (startClaim m false, if linked m p then pairMod p (fun x => { x with noticed := false, claiming := false }) else p) else (m, p)
    | none => (m, p))

/-- Once a day without a swap for the reminder interval (R284). -/
def execEquinoxDueTimer (sl : Slot) (s : State) : Res :=
  onMod s sl (fun m =>
    if serving m && isLead m && m.pair.reminderDays != 0
        && decide ((m.pair.reminderDays * 86400000000000 : Int) ≤ almDiff (now m) m.pair.lastSwap)
    then logEv m 0x0504 0 0 0xFFFF (leBytes 8 m.pair.lastSwap.toNat) else m)

/-! ### The course of a resync (R286 to R288) -/

/-- An automatic resync: AUTO_RESYNC with the partner in READY or SPLIT-OFF, or a compatible warm shadow after a digest mismatch; it
waits while the token does not allow it. -/
def execAutoResyncStart (sl : Slot) (s : State) : Res :=
  onBoth s sl (fun m p =>
    let warm := p.boot.state == .run
    if inRun m && isLead m && joinable m p && m.pair.resync.isNone && !foreignDomain m p && leaseHeld m && !agenSpent m
        && (if warm then compatible m p else m.pair.autoResync) && judge m p 3 .pair == 0
    then startResync m p none else (m, p))

/-- Phase 1 is over: the joining module enters the set, the pair is warm; a warm shadow goes on to phase 3. -/
def execResyncCopyDone (sl : Slot) (s : State) : Res :=
  onBoth s sl (fun m p => match m.pair.resync with
    | none => (m, p)
    | some r =>
      if r.phase != 1 || !isLead m || !linked m p || !serving p then (m, p)
      else if r.warmShadow then
        (pairMod m (fun x => { x with resync := some { r with phase := 3 } }), pairMod p (fun x => { x with joining := some 3 }))
      else
        let m1 := mailMod (pairMod m (fun x => { x with agen := incAgen x.agen, partnerInSet := true, mode := .warm, resync := some { r with phase := 2 } }))
          (fun q => { q with reports := [] })
        let p1 := pairMod p (fun x => { x with agen := m1.pair.agen, inSet := true, mode := .warm, role := .shadow, joining := some 2 })
        (anchorIfChanged m m1, anchorIfChanged p (mirrorToken m1 p1)))

/-- The follower lies within 20 ns of the lead (R301). -/
def steady (p : Module) : Bool := !p.alm.alignDue && p.alm.source == 1 && decide (p.alm.partnerOffset.natAbs ≤ 20)

/-- Phase 3 is over: the lead names step c; an incompatible pair stays warm with both in RUN (R271, R287). -/
def followDone (cutover : W64) (m p : Module) : Module × Module :=
  match m.pair.resync with
  | none => (m, p)
  | some r =>
    if r.phase != 3 || !isLead m || !linked m p || !serving p then (m, p)
    else if !compatible m p then
      let m1 := endResync m 0
      (m1, mirrorToken m1 (pairMod (if p.boot.state = .ready then enterRun p else p) (fun x => { x with joining := none })))
    else if !almGe cutover (now m + 100000) || !steady p then (m, p)
    else
      (emit (pairMod m (fun x => { x with resync := some { r with phase := 4, cutover := some cutover }, cutover := some cutover })) (.sync (.cutover cutover)),
       pairMod p (fun x => { x with joining := some 4, cutover := some cutover }))

def execResyncFollowDone (sl : Slot) (cutover : W64) (s : State) : Res := onBoth s sl (followDone cutover)

/-- Not complete within 60 s (R288). -/
def execResyncTimeout (sl : Slot) (s : State) : Res :=
  onBoth s sl (fun m p => if isLead m && m.pair.resync.isSome && linked m p then abandonResync m p else (m, p))

end Sys2Proof.Machine
end

