-- ==== Sys2Proof/Machine/Update.lean ====
section
/-! DEFINITION. Machine/Update.lean: activation, confirmation and fallback of images, the security floor, and their commands (R368 to
R380, R388). -/

namespace Sys2Proof.Machine
open Sys2Proof Sys2Proof.Bits

/-! ### IMAGE.STATUS (R388) -/

/-- Role of a slot: 0 current, 1 candidate, 2 previous. -/
def slotRole (b : Boot) (i : Nat) : Nat := if b.cur = i then 0 else if b.cand = i then 1 else 2

/-- Seconds left of a running confirm window. -/
def windowRemains (m : Module) : Nat := if m.boot.windowRunning then (m.boot.windowEnd - m.phys + 999999999) / 1000000000 else 0

/-- VERSION, EPOCH and EPOCH_MIN of a region, or 0. -/
def versionBytes (r : Region) : Bytes :=
  if r.closed then leBytes 4 (imgVer r).toNat ++ leBytes 2 (imgEpoch r) ++ leBytes 2 (imgEpochMin r) else zeros 8

/-- A slot entry. -/
def slotBytes (m : Module) (i : Nat) : Bytes :=
  let s := slotAt m.boot i
  leBytes 1 (slotRole m.boot i)
    ++ leBytes 1 (b2n s.control.closed + 2 * b2n s.safety.closed + 4 * b2n s.verified + 8 * b2n s.reverted)
    ++ leBytes 1 (max s.control.owner s.safety.owner) ++ leBytes 1 s.lastCode ++ versionBytes s.control ++ versionBytes s.safety
    ++ leBytes 1 (if s.safety.closed then imgSec s.safety else 0) ++ zeros 3 ++ leBytes 4 s.control.crc.toNat ++ leBytes 4 s.safety.crc.toNat

def hImageStatus (m _p : Module) (_c : Cmd) : QRes :=
  let b := m.boot
  okRsp (leBytes 1 b.cur ++ leBytes 1 b.cand ++ leBytes 1 b.prev ++ leBytes 1 b.confirm ++ leBytes 4 (windowRemains m) ++ leBytes 1 m.hw.floor
    ++ leBytes 1 b.floorTarget ++ leBytes 2 b.split ++ leBytes 4 b.windowLen ++ slotBytes m 0 ++ slotBytes m 1 ++ slotBytes m 2) m

/-! ### The checks of R372 -/

/-- The named module and the other one: `m` itself or its partner. -/
def named (m p : Module) (slot : Nat) : Module := if slot = slotN m.slot then m else p
def unnamed (m p : Module) (slot : Nat) : Module := if slot = slotN m.slot then p else m

/-- A region of a slot is open, pulling or being relayed. -/
def slotOpen (t : Module) (i : Nat) : Bool :=
  [1, 2].any (fun cls => let r := regionOf t i cls
    r.isOpen || decide (2 ≤ r.owner)) || (t.boot.pulling && t.boot.pullSlot == i)

/-- A slot with nothing in either region. -/
def slotBare (t : Module) (i : Nat) : Bool := regionEmpty (regionOf t i 1) && regionEmpty (regionOf t i 2)

/-- The module runs an image that has not confirmed itself (R379). -/
def unconfirmed (m : Module) : Bool := m.boot.confirm == 1 || m.boot.confirm == 3

/-- A switch-over in progress (R372, order 9). -/
def switching (m p : Module) : Bool :=
  decide (almDiff (now m) m.pair.lastChange < 1000000000) || m.pair.claiming || p.pair.claiming

/-- The type 2 component of an image: length and CRC-32C. -/
def runtimeOf (r : Region) : Option (Nat × Nat) := ((imgComps (hdrOf r)).find? (fun c => c.1 == 2)).map (fun c => (c.2.2.1, c.2.2.2))

/-- Handover mode is allowed (R370): the cluster runtime and the safety image stay, and the candidate is compatible with the partner. -/
def handoverOk (t o : Module) : Bool :=
  let cand := regionOf t t.boot.cand 1
  let next := if cand.closed then cand else regionOf t t.boot.cur 1
  let safe := regionOf t t.boot.cand 2
  let part := regionOf o o.boot.cur 1
  runtimeOf next == runtimeOf (regionOf t t.boot.cur 1)
    && (!safe.closed || (safe.crc == (regionOf t t.boot.cur 2).crc && safe.len == (regionOf t t.boot.cur 2).len))
    && decide (imgEpochMin part ≤ imgEpoch next ∧ imgEpoch next ≤ imgEpoch part ∧ imgEpochMin next ≤ imgEpoch part ∧ imgEpoch part ≤ imgEpoch next)

/-- A mask other than the recorded set would change the mode of a cluster on which a task is defined (R147, R374). -/
def splitClash (m t : Module) (mask : Nat) : Bool :=
  mask != m.pair.recordedSplit && m.exec.tasks.any (fun x => bit mask x.2.cluster != isSplit t x.2.cluster)

/-- The checks that IMAGE.ACTIVATE and IMAGE.REVERT share, from order 2 to order 10, on a target slot: the status of the first that
fails. -/
def activationCheck (m p : Module) (c : Cmd) (slot target : Nat) : Option Nat :=
  let t := named m p slot
  let o := unnamed m p slot
  if slot ≠ slotN m.slot ∧ linked m p = false then some 0x0502
  else if slotBare t target then some 8
  else if slotOpen t target then some 0x0A01
  else if m.store.parts.any (fun x => x.2.runLock) then some 13
  else if !holdsClass m 1 c.qp || thas m.maint.entries 2 || thas m.maint.entries 3 then some 12
  else if linked m p && unconfirmed o then some 0x0A02
  else if m.pair.mode ≠ .inStep then some 14
  else if t.boot.state ≠ .run ∨ switching m p = true then some 11
  else if t.power.reserve < 80 then some 15
  else none

/-! ### IMAGE.ACTIVATE, IMAGE.REVERT, IMAGE.DISCARD -/

/-- The verdict of the named module is awaited. -/
def awaitVerdict (m : Module) (code : Nat) (c : Cmd) : Module := maintMod m (fun x => { x with verdict := some (c.qp, code, c) })

/-- IMAGE.ACTIVATE (R370 to R374). -/
def hImageActivate (m p : Module) (w : Witness) (c : Cmd) : PRes :=
  let slot := prmB c 0
  let win := prm c 4 4
  if 1 < slot ∨ 1 < prmB c 1 ∨ (win ≠ 0 ∧ (win < 10 ∨ 3600 < win)) then alone' p w (.refused 7 0)
  else
    let t := named m p slot
    match activationCheck m p c slot t.boot.cand with
    | some e => alone' p w (.refused e 0)
    | none =>
      if prmB c 1 = 1 ∧ handoverOk t (unnamed m p slot) = false then alone' p w (.refused 0x0A03 0)
      else if splitClash m t (prm c 2 2) then alone' p w (.refused 0x0302 0)
      else if prmB c 1 = 1 then
        let start (x : Module) : Module := bootMod (prepareActivation x c) (fun b => { b with verifyingHandover := true })
        (if slot = slotN m.slot then alone' p w (.later (start (awaitVerdict m 0x0A02 c)))
         else { res := .later (awaitVerdict m 0x0A02 c), p := start p, w := w })
      else if slot = slotN m.slot then alone' p w (if leaseHeld m then .later (startHandoverOf m c.qp c 0x0A02 100) else .refused 0x0501 0)
      else if agenSpent m then alone' p w (.refused 9 0)
      else
        let r := shrinkSet m p
        { res := .later (awaitVerdict r.1 0x0A02 c), p := enterVerify (prepareActivation r.2 c) .activate, w := w }

/-- IMAGE.REVERT (R377). -/
def hImageRevert (m p : Module) (w : Witness) (c : Cmd) : PRes :=
  let slot := prmB c 0
  if 1 < slot then alone' p w (.refused 7 0)
  else
    let t := named m p slot
    match activationCheck m p c slot t.boot.prev with
    | some e => alone' p w (.refused e 0)
    | none =>
      if (regionOf t t.boot.prev 2).closed ∧ imgSec (regionOf t t.boot.prev 2) < t.hw.floor then alone' p w (.refused 0x0A04 0)
      else if slot = slotN m.slot then alone' p w (if leaseHeld m then .later (startHandoverOf m c.qp c 0x0A03 100) else .refused 0x0501 0)
      else if agenSpent m then alone' p w (.refused 9 0)
      else
        let r := shrinkSet m p
        { res := .later (awaitVerdict r.1 0x0A03 c), p := enterVerify r.2 .revert, w := w }

/-- Everything into the candidate ends, and both its regions are empty (R368). -/
def discardCandidate (t : Module) : Module :=
  let t1 := slotMod t t.boot.cand (fun _ => {})
  let t2 := bootMod t1 (fun b => { b with
    relayWithdrawn := b.relayWithdrawn || b.relaying
    relaying := false
    pulling := b.pulling && b.pullSlot != b.cand
    closePending := b.closePending && b.pullSlot != b.cand })
  match t.maint.rx with
  | none => t2
  | some _ => leaveClass (maintMod t2 (fun x => { x with rx := none })) 3 1

/-- IMAGE.DISCARD (R368, R388). -/
def hImageDiscard (m p : Module) (w : Witness) (c : Cmd) : PRes :=
  let slot := prmB c 0
  let quiet (relayed : Bool) (x : Module) : Module := if relayed then bootMod x (fun b => { b with sending := none }) else x
  if 1 < slot then alone' p w (.refused 7 0)
  else if slot = slotN m.slot then
    { res := ok (discardCandidate m), p := if linked m p then quiet m.boot.relaying p else p, w := w }
  else if !linked m p then alone' p w (.refused 0x0502 0)
  else { res := ok (quiet p.boot.relaying m), p := discardCandidate p, w := w }

def execImageStatus (sl : Slot) (c : Cmd) (s : State) : Res := quondi hImageStatus .query .any 0x0A01 s sl c
def execImageActivate (sl : Slot) (c : Cmd) (s : State) : Res := quondiPair hImageActivate .work .sys 0x0A02 s sl c
def execImageRevert (sl : Slot) (c : Cmd) (s : State) : Res := quondiPair hImageRevert .work .sys 0x0A03 s sl c
def execImageDiscard (sl : Slot) (c : Cmd) (s : State) : Res := quondiPair hImageDiscard .work .sys 0x0A04 s sl c

/-! ### Handover (R373) -/

/-- The handover is over: the confirm window of handover mode opens (R375). -/
def handoverEnd (m : Module) : Module :=
  if !m.boot.handover && m.boot.portsDue.isEmpty && m.boot.windowDue && m.boot.windowHandover then
    bootMod m (fun b => { b with windowRunning := true, windowDue := false, windowEnd := m.phys + b.windowLen * 1000000000 })
  else m

/-- The new Lantern firmware fetches and posts again. -/
def execHandoverLanternResume (sl : Slot) (s : State) : Res :=
  onPair s sl (fun m p =>
    if !fw m || !m.boot.handover then m
    else acceptReady (handoverEnd (mailMod (bootMod m (fun b => { b with handover := false })) (fun q => { q with paused := false }))) p)

/-- A port switches its firmware between two launches; nothing that it holds changes. -/
def execHandoverPortSwitch (sl : Slot) (port : Nat) (s : State) : Res :=
  onMod s sl (fun m =>
    if !fw m || m.boot.handover || !m.boot.portsDue.contains port then m
    else handoverEnd (bootMod m (fun b => { b with portsDue := b.portsDue.filter (fun x => x != port) })))

/-! ### Confirmation, fallback and the floor (R375, R376, R378) -/

/-- The next fuse step: blown while the reserve is at least 8 ms; the raise ends with its record. -/
def raiseStep (m : Module) : Module :=
  if m.boot.floorTarget = 0 ∨ m.power.reserve < 80 then m
  else
    let m1 := { m with hw := { m.hw with floor := m.hw.floor + 1 } }
    if m1.hw.floor < m.boot.floorTarget then m1
    else floorRecord (bootMod m1 (fun b => { b with floorTarget := 0 })) m.boot.oldFloor

/-- A step completes and the next one is blown. -/
def execFuseStepDone (sl : Slot) (s : State) : Res := onMod s sl (fun m => if fw m then raiseStep m else m)

/-- The conditions of R375 that the state shows: 1, 2, 3 and 4. That they have held for 5 s, and condition 5, is the event's. -/
def confirmable (m p : Module) : Bool :=
  inRun m && m.boot.windowRunning
    && (m.pair.mode == .inStep || (m.pair.mode == .warm && linked m p && !compatible m p))
    && slotSound m m.boot.cur && m.boot.selfChecked

/-- IMAGE_CONFIRMED (R375, R390), and the raise of the floor begins (R378). -/
def confirmImage (m : Module) : Module :=
  let m1 := bootMod m (fun b => { b with confirm := 0, windowRunning := false })
  let m2 := pushPending m1
    { code := 0x0A02, time := now m, source := srcOf m 0 0, partition := 0xFFFF, severity := 0
      data := fit 24 (leBytes 1 (slotN m.slot) ++ leBytes 1 (b2n m.boot.windowHandover) ++ zeros 2
        ++ leBytes 4 (imgVer (regionOf m m.boot.cur 1)).toNat ++ leBytes 4 (imgVer (regionOf m m.boot.cur 2)).toNat) }
  match floorWanted m2 with
  | none => m2
  | some f => bootMod m2 (fun b => { b with floorTarget := f, oldFloor := m.hw.floor })

def execImageConfirm (sl : Slot) (s : State) : Res := onPair s sl (fun m p => if confirmable m p then confirmImage m else m)

/-- Handover mode: back to the previous components under R373, in RUN. -/
def revertHandover (m : Module) : Module :=
  let m1 := bootMod m (fun b => { b with cur := b.prev, cand := b.cur, prev := b.cand, confirm := 2, windowRunning := false, windowDue := false })
  let m2 := slotMod (slotMod m1 m1.boot.cand (fun s => { s with reverted := true })) m1.boot.prev (fun _ => {})
  startHandover (revertedRecord m2 0 m.boot.cur m.boot.prev)

/-- CONFIRM_WINDOW_CLOSE (R376): the module and its partner. A lead in step hands over first, a lead of a warm pair hands over at
once, a shadow leaves the set, a module alone stops. -/
def closeWindow (m p : Module) : Module × Module :=
  if !inRun m || !m.boot.windowRunning then (m, p)
  else if !slotSound m m.boot.prev then (windowLapsed m, p)
  else if m.boot.windowHandover then (revertHandover m, p)
  else if isLead m then
    (if (m.pair.mode == .inStep || m.pair.mode == .warm) && leaseHeld m && m.pair.handover.isNone then
      (startHandoverOf m 0 { qp := 0, param := [] } 0 100, p)
     else if m.pair.mode != .alone then (m, p)
     else
      let lead := m.pair
      (pairMod (revertInPlace m false) (fun x => { x with
        role := .lead, leaseEnd := lead.leaseEnd, witnessLost := lead.witnessLost, claiming := lead.claiming, inSet := true }), p))
  else if linked m p && isLead p then
    let r := if p.pair.partnerInSet then shrinkSet (if p.pair.resync.isSome then endResync p 0x8503 else p) m else (p, m)
    (revertInPlace r.2 true, r.1)
  else (revertInPlace m false, p)

def execConfirmWindowClose (sl : Slot) (s : State) : Res := onBoth s sl closeWindow

end Sys2Proof.Machine
end

