-- ==== Sys2Proof/Machine/Relay.lean ====
section
/-! DEFINITION. Machine/Relay.lean: relay chains between domains (R46, R382 to R384) and the sending side of the relay to a partner
(R44). -/

namespace Sys2Proof.Machine
open Sys2Proof Sys2Proof.Bits

/-! ### Datagrams (R383) -/

/-- A relay datagram: header, payload, and the CRC-32C over both with its own field as 0. -/
def relayDatagram (type : Nat) (tid : W32) (index cls block frag : Nat) (domain : W32) (payload : Bytes) : Bytes :=
  let head := beBytes 2 0x4952 ++ beBytes 1 1 ++ beBytes 1 type ++ beBytes 4 tid.toNat ++ beBytes 1 index ++ beBytes 1 cls ++ beBytes 2 block
    ++ beBytes 2 frag ++ beBytes 2 payload.length ++ beBytes 4 domain.toNat
  head ++ beBytes 4 (crc32c (head ++ zeros 4 ++ payload)).toNat ++ payload

/-- Send one. -/
def sendRelay (m : Module) (type : Nat) (tid : W32) (index cls block frag : Nat) (payload : Bytes) : Module :=
  emit m (.relay type tid index (relayDatagram type tid index cls block frag m.pair.domain payload))

/-- A list entry of 18 bytes (R382). -/
def hopBytes (h : RelayHop) : Bytes := fit 16 h.addr ++ beBytes 2 h.port

/-- The region that a transfer sends. -/
def txRegion (m : Module) (t : RelayTx) : Region := regionOf m t.source t.cls

/-- Block CRCs of a region. -/
def blockCrcs (r : Region) : List W32 := (List.range (blocksOf r)).map (fun b => crc32c (blockBytes r b))

/-- The length and block CRCs that an OFFER carries: a hop that still receives passes on those of the OFFER it got. -/
def offered (m : Module) (t : RelayTx) : Nat × List W32 :=
  match m.maint.rx with
  | some x => if x.offer.tid = t.tid ∧ x.offer.cls = t.cls then (x.offer.regionLen, x.offer.crcs) else ((txRegion m t).len, blockCrcs (txRegion m t))
  | none => ((txRegion m t).len, blockCrcs (txRegion m t))

/-- OFFER to the entry being served. -/
def sendOffer (m : Module) (t : RelayTx) : Module :=
  let o := offered m t
  sendRelay m 1 t.tid t.index t.cls 0 0
    (beBytes 4 o.1 ++ beBytes 1 (b2n t.headerFirst) ++ beBytes 1 t.hops.length ++ zeros 2
      ++ ((List.range 64).map (fun i => beBytes 4 ((o.2.getD i 0).toNat))).flatten ++ (t.hops.map hopBytes).flatten)

/-- REPORT to entry 0: result 0 stored, 1 busy, 2 unreachable, 3 block failed, 4 header-first failed. BLOCK carries the blocks stored. -/
def sendReport (m : Module) (tid : W32) (index cls result code stored : Nat) (crc : W32) : Module :=
  sendRelay m 5 tid index cls stored 0 (beBytes 1 result ++ beBytes 1 code ++ zeros 2 ++ beBytes 4 crc.toNat)

/-- Change the transfer a module sends, or receives. -/
def txMod (m : Module) (f : RelayTx → RelayTx) : Module := maintMod m (fun x => { x with tx := x.tx.map f })
def rxMod (m : Module) (f : RelayRx → RelayRx) : Module := maintMod m (fun x => { x with rx := x.rx.map f })

/-! ### The sender (R384, steps 1 to 4) -/

/-- Blocks of the region being sent, and whether this module holds block `b` of it, checked. -/
def txBlocks (m : Module) (t : RelayTx) : Nat := ((offered m t).1 + relayBlockLen - 1) / relayBlockLen
def txHolds (m : Module) (t : RelayTx) (b : Nat) : Bool :=
  match m.maint.rx with
  | some x => if x.offer.tid = t.tid ∧ x.offer.cls = t.cls then decide (b < x.block) else true
  | none => true

/-- The DATA fragments of the block under way, once it is here. -/
def pumpBlock (m : Module) : Module :=
  match m.maint.tx with
  | none => m
  | some t =>
    if !t.accepted || t.sent || t.served || !txHolds m t t.block then m
    else
      let bytes := regionBytes (txRegion m t) (t.block * relayBlockLen) (min relayBlockLen ((offered m t).1 - t.block * relayBlockLen))
      let frags := chunks 1024 ((bytes.length + 1023) / 1024) bytes
      txMod ((frags.zipIdx).foldl (fun a x => sendRelay a 3 t.tid t.index t.cls t.block x.2 x.1) m) (fun t => { t with sent := true })

/-- The class after the one being sent. -/
def nextClass (t : RelayTx) : Option Nat := (t.classes.dropWhile (fun c => c != t.cls)).drop 1 |>.head?

/-- Begin to serve an entry with a class; past the last entry nothing is left to do. -/
def serve (m : Module) (index cls : Nat) : Module :=
  match m.maint.tx with
  | none => m
  | some t =>
    if t.hops.length ≤ index then txMod m (fun t => { t with served := true })
    else
      let m1 := txMod m (fun t => { t with index := index, cls := cls, offers := 1, accepted := false, block := 0, fails := 0, sent := false })
      match m1.maint.tx with
      | some t1 => sendOffer m1 t1
      | none => m1

/-- Every hop has reported or been skipped in every class, with result 0 everywhere or not (R382). -/
def relayOver (t : RelayTx) : Bool :=
  !t.partnerDue && ((List.range t.hops.length).drop 1).all (fun i => t.classes.all (fun c => t.results.any (fun r => r.index == i && r.cls == c)
    || t.results.any (fun r => r.index == i && r.result != 0)))
def relayGood (t : RelayTx) : Bool := t.results.all (fun r => r.result == 0)

/-- The response of IMAGE.RELAY: result, check code and blocks stored of each hop (R382). -/
def relayRsp (t : RelayTx) : Bytes :=
  ((List.range t.hops.length).drop 1).flatMap (fun i =>
    let rs := t.results.filter (fun r => r.index == i)
    let bad := (rs.find? (fun r => r.result != 0)).orElse (fun _ => rs.head?)
    match bad with
    | some r => leBytes 1 r.result ++ leBytes 1 r.code ++ zeros 2 ++ leBytes 4 ((rs.map (fun r => r.stored)).sum)
    | none => leBytes 1 2 ++ zeros 7)

/-- IMAGE.RELAY ends on the lead; its origin sends no more (R382). `m` is the origin. -/
def relayEnd (status : Nat) (m p : Module) : Module × Module :=
  match m.maint.tx with
  | none => (m, p)
  | some t => match t.cmd with
    | none => (m, p)
    | some (_, c) =>
      let m1 := maintMod m (fun x => { x with tx := none })
      if isLead m1 then (finish m1 .work 0x0A05 c 3 status 0 (relayRsp t), p)
      else if linked m p && isLead p then (m1, finish p .work 0x0A05 c 3 status 0 (relayRsp t))
      else (m1, p)

/-- Complete it if everything has been reported. -/
def relayCheck (m p : Module) : Module × Module :=
  match m.maint.tx with
  | none => (m, p)
  | some t => if t.cmd.isSome && relayOver t then relayEnd (if relayGood t then 0 else 0x8A03) m p else (m, p)

/-- A REPORT reaches the origin: RELAY_HOP is written (R384, R390). -/
def noteHop (m : Module) (index cls result code stored : Nat) : Module :=
  match m.maint.tx with
  | none => m
  | some t =>
    logEv (txMod m (fun t => { t with results := t.results.filter (fun r => !(r.index == index && r.cls == cls)) ++
        [{ index := index, cls := cls, result := result, code := code, stored := stored }] })) 0x0A06 0 0 0xFFFF
      (leBytes 4 t.tid.toNat ++ leBytes 1 index ++ leBytes 1 result ++ leBytes 1 code)

/-- The sender gives up on an entry, reports it to entry 0, and offers the transfer to the entry after it (R384, step 4). -/
def hopFailed (m : Module) (result : Nat) : Module :=
  match m.maint.tx with
  | none => m
  | some t =>
    let m1 := if t.own = 0 then noteHop m t.index t.cls result 0 t.block else sendReport m t.tid t.index t.cls result 0 t.block 0
    serve m1 (t.index + 1) t.cls

/-- A block failed, or its ACK did not come: it is sent again, the third failure ends the hop. -/
def blockFailed (m : Module) : Module :=
  match m.maint.tx with
  | none => m
  | some t => if t.fails = 2 then hopFailed m 3 else pumpBlock (txMod m (fun t => { t with fails := t.fails + 1, sent := false }))

/-- A block is acknowledged: the next one, the next class, or the end. -/
def blockGood (m : Module) : Module :=
  match m.maint.tx with
  | none => m
  | some t =>
    if t.block + 1 < txBlocks m t then pumpBlock (txMod m (fun t => { t with block := t.block + 1, fails := 0, sent := false }))
    else match nextClass t with
      | some c => serve m t.index c
      | none => txMod m (fun t => { t with served := true })

/-! ### IMAGE.RELAY (R382) -/

/-- The list entries of a request: the origin first. -/
def reqHops (c : Cmd) (port : Nat) : List RelayHop :=
  { addr := zeros 16, port := port } ::
    (chunks 18 (le c.req 0 4) (c.req.drop 4)).map (fun b => { addr := b.take 16, port := be b 16 2 })

/-- The copy to the partner `o` of the origin `t`: into its candidate, if nothing else fills that (R46, R368). -/
def partnerCopy (o t : Module) (slot : Nat) (classes : List Nat) : Module × Module :=
  if linked o t && serving o && !o.boot.relaying && !slotOpen o o.boot.cand then startRelay o t slot classes else (o, t)

/-- IMAGE.RELAY with `t` the origin and `o` its partner: status, or both modules. -/
def startChain (t o : Module) (c : Cmd) : Except Nat (Module × Module) :=
  let source := if prmB c 1 = 0 then t.boot.cand else t.boot.cur
  let classes := ([1, 2].filter (fun k => bit (prmB c 2) (k - 1))).filter (fun k => (regionOf t source k).closed)
  let port := if prm c 8 2 = 0 then 9641 else prm c 8 2
  if classes.isEmpty then .error 8
  else if t.maint.tx.isSome then .error 11
  else
    let tx : RelayTx :=
      { tid := w32 (prm c 4 4), hops := reqHops c port, index := 1, cls := classes.head?.getD 1, classes := classes,
        headerFirst := bit (prmB c 3) 0, source := source, cmd := some (c.qp, c), partnerDue := bit (prmB c 3) 1 }
    let t1 := serve (maintMod t (fun x => { x with tx := some tx })) 1 tx.cls
    if tx.partnerDue then .ok (let r := partnerCopy o t1 source classes
      (r.2, r.1)) else .ok (t1, o)

/-- IMAGE.RELAY. -/
def hImageRelay (m p : Module) (w : Witness) (c : Cmd) : PRes :=
  let slot := prmB c 0
  if 1 < slot ∨ 1 < prmB c 1 ∨ prmB c 2 % 4 = 0 ∨ c.req.length < 4 ∨ 63 < le c.req 0 4 ∨ c.req.length ≠ 4 + 18 * le c.req 0 4 then
    alone' p w (.refused 7 0)
  else if slot ≠ slotN m.slot ∧ linked m p = false then alone' p w (.refused 0x0502 0)
  else if slot = slotN m.slot then
    (match startChain m p c with
      | .error e => alone' p w (.refused e 0)
      | .ok (m1, p1) => match m1.maint.tx with
        | some t => if relayOver t then { res := .done 0 0 (relayRsp t) (maintMod m1 (fun x => { x with tx := none })), p := p1, w := w }
          else { res := .later m1, p := p1, w := w }
        | none => { res := .later m1, p := p1, w := w })
  else
    (match startChain p m c with
      | .error e => alone' p w (.refused e 0)
      | .ok (p1, m1) => match p1.maint.tx with
        | some t => if relayOver t then { res := .done 0 0 (relayRsp t) m1, p := maintMod p1 (fun x => { x with tx := none }), w := w }
          else { res := .later m1, p := p1, w := w }
        | none => { res := .later m1, p := p1, w := w })

def execImageRelay (sl : Slot) (c : Cmd) (s : State) : Res := quondiPair hImageRelay .work .sys 0x0A05 s sl c

/-! ### The receiver (R384, steps 1, 2, 5) -/

/-- The answer to an OFFER: 0 accept, 1 busy, 2 state. -/
def offerAnswer (m : Module) (o : RelayOffer) : Nat :=
  let r := regionOf m m.boot.cand o.cls
  if !serving m || (o.cls != 1 && o.cls != 2) || decide (regionSize o.cls < o.regionLen) || o.regionLen == 0 then 2
  else match m.maint.rx with
    | some x => if x.offer.tid = o.tid ∧ x.offer.cls = o.cls then 0 else 1
    | none => if r.isOpen || r.owner != 0 || thas m.maint.entries 1 then 1 else 0

/-- The hop's own transfer to the entry after it; the last entry forwards nothing. -/
def forwardTx (m : Module) (o : RelayOffer) : Module :=
  if o.hops.length ≤ o.index + 1 then m
  else match m.maint.tx with
    | some t => if t.tid = o.tid ∧ t.served then serve (txMod m (fun t => { t with served := false, classes := [o.cls] })) t.index o.cls else m
    | none =>
      let tx : RelayTx := { tid := o.tid, hops := o.hops, index := o.index + 1, cls := o.cls, classes := [o.cls], headerFirst := o.headerFirst,
                            source := m.boot.cand, own := o.index }
      serve (maintMod m (fun x => { x with tx := some tx })) (o.index + 1) o.cls

/-- An OFFER: on acceptance the receiver enters class 1 with the relay as holder, and its region has OWNER 3. -/
def takeOffer (o : RelayOffer) (m p : Module) : Module × Module :=
  if !hasPower m || !fw m then (m, p)
  else
    let a := offerAnswer m o
    let fresh : Bool := a == 0 && m.maint.rx.isNone
    let m1 := if fresh then
        enterClass (maintMod (regionMod m m.boot.cand o.cls (fun _ => { owner := 3 })) (fun x => { x with rx := some { offer := o } })) 1 .relay 0
      else m
    let m2 := sendRelay m1 2 o.tid o.index o.cls 0 0 (beBytes 1 a ++ zeros 3)
    if fresh then shareToken m2 p else (m2, p)

def execRelayOfferReceive (sl : Slot) (o : RelayOffer) (s : State) : Res := onBoth s sl (takeOffer o)

/-- The last block is stored: the region closes, the header-first check runs if flagged, the class is left, the partner gets its copy
and entry 0 its REPORT (R46, R384). -/
def hopComplete (m p : Module) (x : RelayRx) : Module × Module :=
  let cls := x.offer.cls
  let i := m.boot.cand
  let m1 := regionMod m i cls closeRegion
  let m2 := if x.offer.headerFirst then checkHeader m1 i cls else m1
  let code := if x.offer.headerFirst then headerCode m1 cls (regionOf m1 i cls) else 0
  let m3 := sendReport (maintMod m2 (fun y => { y with rx := none })) x.offer.tid x.offer.index cls (if code = 0 then 0 else 4) code x.block (regionOf m2 i cls).crc
  let m4 := leaveClass m3 3 1
  let r := shareToken m4 p
  if r.1.pair.mode == .inStep then
    let q := partnerCopy r.2 r.1 i [cls]
    (q.2, q.1)
  else r

/-- A DATA fragment: a whole block is checked against the OFFER and answered with BLOCK_ACK; a good first block starts the hop's own
OFFER. -/
def takeFragment (tid : W32) (block fragment : Nat) (payload : Bytes) (m p : Module) : Module × Module :=
  match m.maint.rx with
  | none => (m, p)
  | some x =>
    let ack (m : Module) (bad : Nat) : Module := sendRelay m 4 tid x.offer.index x.offer.cls block 0 (beBytes 1 bad ++ zeros 3)
    let len := min relayBlockLen (x.offer.regionLen - block * relayBlockLen)
    let n := (len + 1023) / 1024
    if !fw m || x.offer.tid != tid || decide (n ≤ fragment) then (m, p)
    else if block < x.block then (if fragment + 1 = n then ack m 0 else m, p)
    else if block ≠ x.block then (m, p)
    else
      let frags := tset x.frags fragment payload
      if frags.length < n then (rxMod m (fun y => { y with frags := frags }), p)
      else
        let data := (frags.flatMap (fun f => f.2)).take len
        if data.length ≠ len ∨ crc32c data ≠ x.offer.crcs.getD block 0 then (ack (rxMod m (fun y => { y with frags := [] })) 1, p)
        else
          let m1 := regionMod m m.boot.cand x.offer.cls (fun r => { r with bytes := memWrite r.bytes (block * relayBlockLen) data, len := block * relayBlockLen + len })
          let m2 := ack (rxMod m1 (fun y => { y with block := block + 1, frags := [] })) 0
          let m3 := pumpBlock (if block = 0 then forwardTx m2 x.offer else m2)
          if block * relayBlockLen + len = x.offer.regionLen then hopComplete m3 p { x with block := block + 1 } else (m3, p)

def execRelayDataReceive (sl : Slot) (tid : W32) (block fragment : Nat) (payload : Bytes) (s : State) : Res :=
  onBoth s sl (takeFragment tid block fragment payload)

/-! ### What the sender hears (R382, R384) -/

/-- A transfer that this module sends and that is not over. -/
def sendingTid (m : Module) (tid : W32) : Bool := match m.maint.tx with | some t => fw m && t.tid == tid && !t.served | none => false

/-- ACCEPT: 0 starts the blocks, 1 and 2 end the hop. -/
def takeAccept (tid : W32) (result : Nat) (m p : Module) : Module × Module :=
  match m.maint.tx with
  | none => (m, p)
  | some t =>
    if !sendingTid m tid || t.accepted then (m, p)
    else if result = 0 then (pumpBlock (txMod m (fun t => { t with accepted := true })), p)
    else relayCheck (hopFailed m (if result = 1 then 1 else 2)) p

def execRelayAcceptReceive (sl : Slot) (tid : W32) (result : Nat) (s : State) : Res := onBoth s sl (takeAccept tid result)

/-- BLOCK_ACK. -/
def takeBlockAck (tid : W32) (block : Nat) (bad : Bool) (m p : Module) : Module × Module :=
  match m.maint.tx with
  | none => (m, p)
  | some t => if !sendingTid m tid || !t.accepted || !t.sent || t.block != block then (m, p) else relayCheck (if bad then blockFailed m else blockGood m) p

def execRelayBlockAckReceive (sl : Slot) (tid : W32) (block : Nat) (bad : Bool) (s : State) : Res := onBoth s sl (takeBlockAck tid block bad)

/-- REPORT at the origin. -/
def takeReport (tid : W32) (index cls result code stored : Nat) (m p : Module) : Module × Module :=
  match m.maint.tx with
  | none => (m, p)
  | some t => if !fw m || t.tid != tid || t.own != 0 || t.cmd.isNone then (m, p) else relayCheck (noteHop m index cls result code stored) p

def execRelayReportReceive (sl : Slot) (tid : W32) (index cls result code stored : Nat) (s : State) : Res :=
  onBoth s sl (takeReport tid index cls result code stored)

/-- No ACCEPT within 20 ms: the OFFER is repeated; after three the hop is unreachable. -/
def offerTimeout (m p : Module) : Module × Module :=
  match m.maint.tx with
  | none => (m, p)
  | some t =>
    if !fw m || t.accepted || t.served then (m, p)
    else if t.offers < 3 then (sendOffer (txMod m (fun t => { t with offers := t.offers + 1 })) t, p)
    else relayCheck (hopFailed m 2) p

def execRelayOfferTimeout (sl : Slot) (s : State) : Res := onBoth s sl offerTimeout

/-- No BLOCK_ACK within 50 ms. -/
def blockAckTimeout (m p : Module) : Module × Module :=
  match m.maint.tx with
  | none => (m, p)
  | some t => if !fw m || !t.accepted || !t.sent || t.served then (m, p) else relayCheck (blockFailed m) p

def execRelayBlockAckTimeout (sl : Slot) (s : State) : Res := onBoth s sl blockAckTimeout

/-- 10 s without progress end IMAGE.RELAY with RELAY_PARTIAL. -/
def execRelayProgressTimeout (sl : Slot) (s : State) : Res := onBoth s sl (fun m p => if fw m then relayEnd 0x8A03 m p else (m, p))

/-! ### The partner's verdict on a block (R44) -/

/-- The sender of a relay to its partner goes on with the next block, sends a bad one again, or is done: the copy of an IMAGE.RELAY is
then complete. The receiver keeps the count of failures and ends the relay with the third. -/
def takePartnerAck (good : Bool) (m p : Module) : Module × Module :=
  match m.boot.sending with
  | none => (m, p)
  | some (cls, b, fails) =>
    if !hasPower m || !linked m p then (m, p)
    else if good then
      (match nextBlock m cls b with
        | some (c, k) => if p.boot.relaying then (sendBlock (bootMod m (fun x => { x with sending := some (c, k, 0) })) c k, p)
            else (bootMod m (fun x => { x with sending := none }), p)
        | none => relayCheck (txMod (bootMod m (fun x => { x with sending := none })) (fun t => { t with partnerDue := false })) p)
    else
      let m1 := { m with diag := { m.diag with blocksResent := inc32 m.diag.blocksResent } }
      if p.boot.relaying && decide (fails < 2) then (sendBlock (bootMod m1 (fun x => { x with sending := some (cls, b, fails + 1) })) cls b, p)
      else (bootMod m1 (fun x => { x with sending := none }), p)

def execSyncRelayBlockAckReceive (sl : Slot) (good : Bool) (s : State) : Res := onBoth s sl (takePartnerAck good)

end Sys2Proof.Machine
end

