-- ==== Sys2Proof/Machine/Diag.lean ====
section
/-! DEFINITION. Machine/Diag.lean: memory errors (R17, R18, R418), cluster mismatches (R149 to R151), the retained-value region
(R414) and the diagnostic commands (R18, R420, R421). -/

namespace Sys2Proof.Machine
open Sys2Proof Sys2Proof.Bits

def diagMod (m : Module) (f : Diag → Diag) : Module := { m with diag := f m.diag }

/-! ### Restarting cycles (R149) -/

/-- An unsealed cycle that runs again from its snapshot, under what its HALO check entered (R149, R348). -/
def rewindCycle (c : Cycle) (t : W64) (inStep : Bool) : Cycle :=
  { c with
    stack := []
    frames := []
    exc := 0
    begun := false
    ended := false
    ws := c.inputWs
    waitsLog := false
    cost := 0
    outs := []
    restarting := c.restarting || inStep
    repeats := if inStep then c.repeats else some t }

/-- The tasks of a unit whose cycle is not sealed. -/
def unsealedOn (m : Module) (u : Nat) : List Nat :=
  (m.exec.tasks.filter (fun x => unitOf x.2 == u && match x.2.cycle with
    | some c => c.sealedAt.isNone
    | none => false)).map (·.1)

/-- In step with a partner over the sync link. -/
def inStepWith (m p : Module) : Bool := linked m p && m.pair.mode == .inStep

/-- The unsealed cycle of a task restarts. -/
def restartTask (m p : Module) (t : Nat) : Module :=
  let m1 := taskMod m t (fun k => { k with cycle := k.cycle.map (fun c => rewindCycle c (now m) (inStepWith m p)), restarts := inc32 k.restarts })
  dropLog m1 t

/-- While a module restarts a cycle that the partner has sealed already, the partner sends its write set (R150). -/
def sendSealed (m p : Module) (t : Nat) : Module :=
  match taskOf m t, taskOf p t with
  | some k, some q => match k.cycle, q.cycle with
    | some c, some d =>
      if inStepWith m p && c.restarting && c.start == d.start && d.sealedAt.isSome then emit p (.sync (.writeSet t d.start (wsList d))) else p
    | _, _ => p
  | _, _ => p

/-- An entry of the last-second list of mismatches. -/
def recentTimes (m : Module) (l : List W64) (span : Int) : List W64 := l.filter (fun x => decide (almDiff (now m) x ≤ span))

/-- The third mismatch of a cluster within 1 s: it is fenced, the module enters UMBRA with cause 2 and its running tasks FAULTED
(R151). -/
def fenceCluster (m : Module) (cluster : Nat) : Module :=
  let u := 2 * cluster
  let ts := (m.exec.tasks.filter (fun x => unitOf x.2 == u && x.2.st == .running)).map (·.1)
  let m1 := unitMod m u (fun x => { x with fenced := true, resetting := false, running := none })
  ts.foldl (fun a t => faultTask a t 3 (match taskOf m t with | some k => k.next | none => 0)) (enterUmbra m1 2 cluster)

/-- CLUSTER_MISMATCH of a lockstep cluster (R149 to R151). -/
def clusterMismatch (cluster : Nat) (m p : Module) : Module × Module :=
  let u := 2 * cluster
  match m.exec.units[u]? with
  | none => (m, p)
  | some x =>
    if !serving m || 15 < cluster || isSplit m cluster || x.fenced || x.resetting then (m, p)
    else
      let ts := unsealedOn m u
      let times := recentTimes m x.mismatches 1000000000 ++ [now m]
      let m1 := unitMod (diagMod m (fun d => { d with mismatches := inc32 d.mismatches })) u (fun x => { x with mismatches := times })
      let m2 := logEv m1 0x0303 0 0 0xFFFF (leBytes 1 cluster ++ leBytes 1 times.length ++ leBytes 2 ts.length)
      if 3 ≤ times.length then (fenceCluster m2 cluster, p)
      else
        let m3 := ts.foldl (fun a t => restartTask a p t) (unitMod m2 u (fun x => { x with resetting := true, running := none }))
        (m3, ts.foldl (fun b t => sendSealed m3 b t) p)

def execClusterMismatch (sl : Slot) (cluster : Nat) (s : State) : Res := onBoth s sl (clusterMismatch cluster)

/-- The cluster is reset: its abandoned cycles run again (R149). -/
def execClusterResetDone (sl : Slot) (cluster : Nat) (s : State) : Res :=
  onMod s sl (fun m => match m.exec.units[2 * cluster]? with
    | some x => if x.resetting then dispatch (unitMod m (2 * cluster) (fun x => { x with resetting := false })) (2 * cluster) else m
    | none => m)

/-! ### Memory errors -/

/-- DRAM_UNCORRECTABLE (R315): regions 0 to 3 of R17, 4 for MRAM. -/
def memRecord (m : Module) (region addr : Nat) : Module := logEv m 0x0003 0 0 0xFFFF (leBytes 1 region ++ zeros 7 ++ leBytes 8 addr)

/-- An error in the point store or a program bank: the affected task restarts in step, and stops else with bad quality in its points
(R17). -/
def taskError (m p : Module) (t : Nat) : Module × Module :=
  match taskOf m t with
  | none => (m, p)
  | some k =>
    if inStepWith m p then
      if (unsealedOn m (unitOf k)).contains t then
        let m1 := dispatch (restartTask m p t) (unitOf k)
        (m1, sendSealed m1 p t)
      else (m, p)
    else
      let bad (r : PointRec) : PointRec := if r.ty.isSome && r.writer == taskWriter t then { r with quality := r.quality &&& 0x3FFF } else r
      let m1 := if k.st = .running then markFault (taskMod (abandon m t) t (fun k => { k with st := .stopped })) t else m
      (reportChanges m1.store.points { m1 with store := { m1.store with points := m1.store.points.map (fun x => (x.1, bad x.2)) } }, p)

/-- Errors of the point store and the program banks count toward cause 4 of UMBRA, but not those found while verifying (R362). -/
def countStore (m : Module) (addr : Nat) : Module :=
  if m.boot.state = .verify then m
  else
    let l := recentTimes m m.diag.recent 3600000000000 ++ [now m]
    let m1 := diagMod m (fun d => { d with recent := l })
    if 16 < l.length then enterUmbra m1 4 addr else m1

/-- An uncorrectable DRAM error by its region (R17). A function of working memory restarts without a change that the model shows. -/
def dramError (region : DramRegion) (addr : Nat) (task : Option Nat) (m p : Module) : Module × Module :=
  if !hasPower m then (m, p)
  else
    let m1 := diagMod m (fun d => { d with dramUncorrectable := inc32 d.dramUncorrectable, dramUncorrectableAt := addr })
    match region with
    | .pointStore | .programBank =>
      let m2 := memRecord m1 0 addr
      let r := match task with
        | some t => taskError m2 p t
        | none => (m2, p)
      (countStore r.1 addr, r.2)
    | .imageSlot n =>
      if n = m.boot.cur then (enterUmbra (memRecord m1 1 addr) 3 addr, p)
      else (memRecord (slotMod m1 n (fun _ => {})) 2 addr, p)
    | .working => (memRecord m1 3 addr, p)

def execDramUncorrectable (sl : Slot) (region : DramRegion) (addr : Nat) (task : Option Nat) (s : State) : Res :=
  onBoth s sl (dramError region addr task)

/-- A bad MRAM word or entry: repaired from the partner's copy; alone, a journal entry is discarded and its ticket reads as
TICKET_EXPIRED (R418). -/
def mramError (addr : Nat) (entry : Option (Nat × W64)) (m p : Module) : Module :=
  if !hasPower m then m
  else
    let m1 := memRecord (diagMod m (fun d => { d with mramUncorrectable := inc32 d.mramUncorrectable })) 4 addr
    match entry with
    | none => m1
    | some (qp, t) =>
      if !journalHas m qp t || (linked m p && m.pair.inSet && m.pair.partnerInSet && journalHas p qp t) then m1
      else journalRetire (ticketPut m1 qp { ticket := t, stage := 4, status := 5, time := now m }) qp t

def execMramUncorrectable (sl : Slot) (addr : Nat) (entry : Option (Nat × W64)) (s : State) : Res := onPair s sl (mramError addr entry)

/-- A patrol pass over DRAM ends; the next one begins (R18). -/
def execPatrolPassEnd (sl : Slot) (seconds : Nat) (s : State) : Res :=
  onMod s sl (fun m => if powered m then diagMod m (fun d => { d with patrolAt := now m, patrolDuration := sat32 seconds, patrolMib := 0 }) else m)

/-! ### The retained-value region (R414) -/

/-- The released commits of a task enter the region and leave the log; a seal that waits for space proceeds. -/
def retainedApply (t : Nat) (m p : Module) : Module :=
  if !hasPower m then m
  else
    let done := m.store.log.filter (fun l => l.complete && l.task == t)
    let ret := done.foldl (fun r l => l.entries.foldl (fun r e => tset r e.1 e.2) r) m.store.retained
    let m1 := { m with store := { m.store with log := m.store.log.filter (fun l => !(l.complete && l.task == t)), retained := ret } }
    m1.exec.tasks.foldl (fun a x => match x.2.cycle with
      | some c => if c.waitsLog then sealCycle a p x.1 else a
      | none => a) m1

def execRetainedApply (sl : Slot) (task : Nat) (s : State) : Res := onPair s sl (retainedApply task)

/-! ### Diagnostic commands -/

/-- DIAG.MEMORY (R18). -/
def hDiagMemory (m _p : Module) (_c : Cmd) : QRes :=
  let d := m.diag
  okRsp (leBytes 4 d.dramCorrected ++ leBytes 4 d.dramUncorrectable ++ leBytes 8 d.dramCorrectedAt ++ leBytes 8 d.dramUncorrectableAt
    ++ leBytes 4 d.mramCorrected ++ leBytes 4 d.mramUncorrectable ++ leBytes 8 d.patrolAt.toNat ++ leBytes 4 d.patrolDuration
    ++ leBytes 4 d.patrolMib ++ leBytes 4 d.parity ++ leBytes 4 (recentTimes m d.recent 3600000000000).length ++ leBytes 8 (now m).toNat) m

/-- Fenced clusters, one bit each. -/
def fencedBits (m : Module) : Nat :=
  ((List.range 16).map (fun c => match m.exec.units[2 * c]? with | some x => b2n x.fenced * 2 ^ c | none => 0)).sum

/-- DIAG.COUNTERS (R420). -/
def hDiagCounters (m _p : Module) (_c : Cmd) : QRes :=
  let d := m.diag
  okRsp (leBytes 4 d.dramCorrected ++ leBytes 4 d.dramUncorrectable ++ leBytes 4 d.mramCorrected ++ leBytes 4 d.mramUncorrectable
    ++ leBytes 4 d.blocksResent ++ leBytes 4 m.mail.stalls ++ leBytes 4 d.mismatches ++ leBytes 2 (fencedBits m) ++ zeros 2
    ++ leBytes 4 d.digestMismatches ++ leBytes 4 d.agreeConflicts ++ leBytes 4 m.chron.suppressed ++ leBytes 4 m.mail.udpDiscards
    ++ leBytes 8 (now m).toNat ++ zeros 8) m

/-- What the checks of DIAG.SELFTEST find: the components of the current slot and the calibration copies as they stand; what a test
word of MRAM, the HALO vectors and an echo over the link give is free (R421, log entry 3). -/
def selftestFinds (m p : Module) (free : W64) : Nat :=
  let comps := [1, 2].any (fun cls => let r := regionOf m m.boot.cur cls
    r.closed && !compsGood r)
  let cal := m.lio.ai.any (fun a => !a.copy0.good || !a.copy1.good)
  b2n comps + 2 * b2n (free.getLsbD 0) + 4 * b2n (free.getLsbD 1) + 8 * b2n cal + 16 * b2n (linked m p && free.getLsbD 2)

/-- DIAG.SELFTEST: a failure is handled as if the module had found it on its own; a failed HALO check enters UMBRA once the completion
has been posted (R421). -/
def hDiagSelftest (free : W64) (m p : Module) (c : Cmd) : QRes :=
  let f := selftestFinds m p free
  let m1 := if bit f 1 then memRecord (diagMod m (fun d => { d with mramUncorrectable := inc32 d.mramUncorrectable })) 4 0 else m
  let halo := bit f 2 || (let r := regionOf m m.boot.cur 2
    r.closed && !compsGood r)
  let m2 := if halo then { m1 with halo := { m1.halo with selfFail := some (c.qp, c.ticket) } } else m1
  okRsp (leBytes 1 f ++ zeros 7 ++ leBytes 8 (now m).toNat) m2

def execDiagMemory (sl : Slot) (c : Cmd) (s : State) : Res := quondi hDiagMemory .query .any 0x0C03 s sl c
def execDiagCounters (sl : Slot) (c : Cmd) (s : State) : Res := quondi hDiagCounters .query .any 0x0C01 s sl c
def execDiagSelftest (sl : Slot) (c : Cmd) (s : State) : Res :=
  match quondi (hDiagSelftest (Config.freeValue s.fresh)) .loc .sys 0x0C05 s sl c with
  | .next t => .next { t with fresh := s.fresh + 1 }
  | r => r

end Sys2Proof.Machine
end

