-- ==== Sys2Proof/Machine/Commands.lean ====
section
/-! DEFINITION. Machine/Commands.lean: the command commits of a step: accepted work runs from the journal in the lead's acceptance order
(R72, R129). -/

namespace Sys2Proof.Machine
open Sys2Proof Sys2Proof.Bits

/-- The row of each work command of the catalogue (R88). -/
def workRow (code : Nat) : Option (Slot → Cmd → State → Res) :=
  match code with
  | 0x0105 => some execSessionReticket
  | 0x0202 => some execPointWrite
  | 0x0203 => some execPointAlloc
  | 0x0204 => some execPointFree
  | 0x0206 => some execPointSubscribe
  | 0x0207 => some execPointUnsubscribe
  | 0x0208 => some execPointForce
  | 0x0209 => some execPointUnforce
  | 0x020A => some execPointRetain
  | 0x020B => some execPointPublish
  | 0x020C => some execPointImport
  | 0x0301 => some execTaskDefine
  | 0x0302 => some execTaskLoad
  | 0x0303 => some execTaskSwap
  | 0x0304 => some execTaskStart
  | 0x0305 => some execTaskStop
  | 0x0306 => some execTaskDelete
  | 0x0308 => some execTaskIcal
  | 0x0309 => some execGlintLoad
  | 0x030A => some execGlintSwap
  | 0x0401 => some execSegmentConfig
  | 0x0402 => some execSegmentBind
  | 0x0403 => some execSegmentSchedule
  | 0x0405 => some execDropAdd
  | 0x0406 => some execDropRemove
  | 0x0407 => some execDropSend
  | 0x0502 => some execPairRun
  | 0x0503 => some execPairWithdraw
  | 0x0504 => some execPairEquinox
  | 0x0505 => some execPairResync
  | 0x0506 => some execPairWitness
  | 0x0602 => some execTimeConfig
  | 0x0603 => some execTimeStep
  | 0x0604 => some execTimeRate
  | 0x0605 => some execTimePps
  | 0x0703 => some execChronicleLimit
  | 0x0704 => some execChronicleNote
  | 0x0801 => some execLocalioConfig
  | 0x0803 => some execLocalioTrim
  | 0x0804 => some execLocalioTrimLock
  | 0x0805 => some execLocalioVigil
  | 0x0901 => some execHaloConnect
  | 0x0902 => some execHaloRelease
  | 0x0903 => some execHaloParamLoad
  | 0x0904 => some execHaloParamConfirm
  | 0x0905 => some execHaloChange
  | 0x0906 => some execHaloAck
  | 0x0A02 => some execImageActivate
  | 0x0A03 => some execImageRevert
  | 0x0A04 => some execImageDiscard
  | 0x0A05 => some execImageRelay
  | 0x0A06 => some execMaintTake
  | 0x0A07 => some execMaintGive
  | 0x0B01 => some execPartitionCreate
  | 0x0B02 => some execPartitionDelete
  | 0x0B03 => some execPartitionCaps
  | 0x0B04 => some execPartitionRunlock
  | 0x0B05 => some execGuardRegions
  | 0x0B07 => some execGuardClear
  | _ => none

/-- Run a work command from the journal of a module. -/
def runWork (sl : Slot) (code : Nat) (c : Cmd) (s : State) : State :=
  match workRow code with
  | some f => (match f sl c s with | .next t => t | _ => s)
  | none => s

/-- Insert an entry by acceptance order. -/
def insertEntry (e : JEntry) : List JEntry → List JEntry
  | [] => [e]
  | x :: xs => if e.order < x.order then e :: x :: xs else x :: insertEntry e xs

/-- The accepted commands assigned to a step or to an earlier one that have not run, in acceptance order. -/
def dueEntries (m : Module) (S : W64) : List JEntry :=
  (m.mail.journal.filter (fun e => e.accepted && !e.final && !e.started && match e.step with
    | some x => almGe S x
    | none => false)).foldl (fun l e => insertEntry e l) []

/-- A command that waited for a maintenance class is tried again (R386). -/
def retryWait (sl : Slot) (s : State) (w : Nat × Nat × Cmd) : State :=
  let m := modOf s sl
  let m1 := { m with maint := { m.maint with waits := m.maint.waits.filter (fun x => x != w) } }
  runWork sl w.2.1 w.2.2 (withMod s sl (journalMod m1 w.1 w.2.2.ticket (fun e => { e with started := false })))

/-- COMMAND_COMMIT: action 2 of step S. A warm shadow only journals (R72, R270). -/
def commitCommands (sl : Slot) (S : W64) (s : State) : State :=
  let m := modOf s sl
  if !(isLead m || m.pair.mode == .inStep) then s
  else
    let s1 := m.maint.waits.foldl (retryWait sl) s
    (dueEntries (modOf s1 sl) S).foldl (fun a e => runWork sl e.d.code.toNat (cmdOf e.qp e.d e.req) a) s1

end Sys2Proof.Machine
end

