-- ==== Sys2Proof/Machine/Cycle.lean ====
section
/-! DEFINITION. Machine/Cycle.lean: the control cycle, step by step (R128 to R138, R141 to R144, R148 to R150): releases, launches,
snapshots, input agreement and input commits. -/

namespace Sys2Proof.Machine
open Sys2Proof Sys2Proof.Bits

def xMod (m : Module) (f : Exec → Exec) : Module := { m with exec := f m.exec }

/-! ### Who takes part -/

/-- The module runs task cycles: in RUN, not as a warm shadow, and not before the catch-up of a warm takeover (R126, R270, R282). -/
def cycling (m : Module) : Bool := inRun m && !warmShadow m && !m.pair.catchup

/-- The module counts boundaries: in RUN, or as a replica that follows the lead's checkpoints. -/
def counting (m : Module) : Bool := inRun m || (serving m && warmShadow m)

/-- A task with boundaries: frames of its drops leave while it is RUNNING, STOPPED or FAULTED (R136). -/
def bounded (k : Task) : Bool := k.st == .running || k.st == .stopped || k.st == .faulted

/-- The tasks with a boundary at S, in ascending number. -/
def dueTasks (m : Module) (S : W64) : List Nat :=
  if counting m then (m.exec.tasks.filter (fun x => bounded x.2 && x.2.next == S)).map (·.1) else []

/-- S is a step that this module has reached and not processed, and every boundary before it has been (R129). -/
def stepDue (m : Module) (S : W64) : Bool :=
  serving m && almGe (now m) S && decide (0 < almDiff S m.exec.lastStep)
    && (S.toNat % 100000 == 0 || !(dueTasks m S).isEmpty)
    && !(counting m && m.exec.tasks.any (fun x => bounded x.2 && decide (almDiff x.2.next S < 0)))

/-! ### The release check and the release (R133 to R135) -/

/-- Sealed no later than S − 1 µs. -/
def inTime (S t : W64) : Bool := almGe (S - 1000) t

/-- This module restarts the cycle and its partner does not: the partner's verdict and write set count (R150). -/
def byPartner (m p : Module) (t : Nat) (c : Cycle) : Bool := inStepWith m p && c.restarting && (c.follows || !partnerRestarts m p t c.start)

/-- The partner's seal, in time. -/
def partnerInTime (S : W64) (c : Cycle) : Bool := match c.partnerSeal with | some x => inTime S x.1 | none => false

/-- The release check of the cycle that ends at S (R134, R150). -/
def passes (m p : Module) (t : Nat) (S : W64) (c : Cycle) : Bool :=
  if byPartner m p t c then c.partnerWs.isSome && partnerInTime S c
  else (match c.sealedAt with | some x => inTime S x | none => false)
    && (!inStepWith m p || partnerRestarts m p t c.start || partnerInTime S c)

/-- The digests of the two modules differ (R135). -/
def digestsDiffer (m p : Module) (t : Nat) (c : Cycle) : Bool :=
  inStepWith m p && !c.restarting && !partnerRestarts m p t c.start && match c.partnerSeal with
    | some x => x.2 != c.digest
    | none => false

/-- The lead's write set of a cycle as it stands there: sealed and not yet released, or released at S by points of WRITER kind 1 or 3
(log entry 8). -/
def leadSet (p : Module) (t : Nat) (start S : W64) : List WEnt :=
  let stored := p.store.points.filterMap (fun x =>
    if x.2.ty.isSome && x.2.time == S && (x.2.writer == taskWriter t || qClass x.2.writer == 3)
    then some { handle := mkHandle x.1 x.2.gen, value := x.2.value, quality := x.2.quality : WEnt } else none)
  match taskOf p t with
  | some q => (match q.cycle with | some c => if c.start = start then wsList c else stored | none => stored)
  | none => stored

/-- The write set that is released, by the table of R150 and R135. -/
def releasedSet (m p : Module) (t : Nat) (S : W64) (c : Cycle) : List WEnt :=
  if byPartner m p t c then c.partnerWs.getD []
  else if digestsDiffer m p t c && !isLead m then leadSet p t c.start S
  else wsList c

/-- Apply a write set at S: TIME is S, WRITER the task; a point that is gone takes nothing (R134, R348). -/
def applySet (m : Module) (t : Nat) (S : W64) (table : Bytes) (ws : List WEnt) : Module :=
  ws.foldl (fun a e => match live a e.handle with
    | some r => pointSet a (hIdx e.handle) (writeRec r e.value e.quality 0 S (releasedWriter m t table e.handle))
    | none => a) m

/-- The table of a write set. -/
def wsTable (ws : List WEnt) : Table WEnt := ws.foldl (fun a e => tset a (hIdx e.handle) e) []

/-- The completion mark of the commit: its own entries, or those of the lead's set appended in their place (R20). -/
def completeLog (m : Module) (t : Nat) (start S : W64) (ws : List WEnt) (own : Bool) : Module :=
  let mark (l : LogCommit) : LogCommit := { l with complete := true, entries := l.entries.map (fun e => (e.1, { e.2 with time := S })) }
  if own then
    { m with store := { m.store with log := m.store.log.map (fun l => if l.task == t && !l.complete then mark l else l) } }
  else
    let ents := retainedOf m S (wsTable ws)
    let m1 := dropLog m t
    if ents.isEmpty then m1
    else { m1 with store := { m1.store with log := m1.store.log ++ [{ task := t, start := start, entries := ents, complete := true }] } }

/-- Nanoseconds of a cycle: 1 ns a core cycle, 2 on a throttled split core (R148, R410). -/
def execNs (m : Module) (k : Task) (c : Cycle) : Nat := if m.power.throttled && isSplit m k.cluster then 2 * c.cost else c.cost

/-- What a released cycle leaves in its task. -/
def releasedTask (m : Module) (c : Cycle) (k : Task) : Task :=
  { k with
    cycle := none
    lastReleased := some c.start
    lastRestarted := if c.restarting then some c.start else none
    execLast := execNs m k c
    execMax := max k.execMax (execNs m k c)
    outs := c.outs.foldl (fun a x => tset a x.1 x.2) k.outs
    fresh := true }

/-- DIGEST_MISMATCH (R135, R315). -/
def digestRecord (m : Module) (t part : Nat) (S : W64) (c : Cycle) : Module :=
  let other := match c.partnerSeal with | some x => x.2 | none => 0
  let (l, h) := if isLead m then (c.digest, other) else (other, c.digest)
  logBoth (diagMod m (fun d => { d with digestMismatches := inc32 d.digestMismatches })) 0x0305 2 t part
    (leBytes 8 S.toNat ++ leBytes 4 l.toNat ++ leBytes 4 h.toNat)

/-- CYCLE_RELEASE (R134). The lead of a warm pair sends it as a checkpoint. -/
def releaseCycle (m p : Module) (t : Nat) (S : W64) (k : Task) (c : Cycle) : Module :=
  let ws := releasedSet m p t S c
  let table := (partIn k c.bank 1).bytes
  let own := !byPartner m p t c && !(digestsDiffer m p t c && !isLead m)
  let m1 := commit m (applySet m t S table ws)
  let m2 := taskMod (completeLog m1 t c.start S ws own) t (releasedTask m c)
  let m3 := releaseSo (releasePdus m2 t) t table
  let m4 := if digestsDiffer m p t c then digestRecord m3 t k.part S c else m3
  if isLead m && m.pair.mode == .warm && linked m p then emit m4 (.sync (.checkpoint t S ws)) else m4

/-- OVERRUN: the cycle goes on; at the 4th consecutive failure it is abandoned (R138). -/
def overrun (m : Module) (t : Nat) (S : W64) (k : Task) (c : Cycle) : Module :=
  let n := inc32 k.overruns
  let m1 := logBoth m 0x0301 2 t k.part (leBytes 8 S.toNat ++ leBytes 4 n)
  let m2 := taskMod m1 t (fun k => { k with overruns := n, fresh := false, cycle := some { c with fails := c.fails + 1 } })
  if 4 ≤ c.fails + 1 then faultTask m2 t 2 S else m2

/-! ### The next boundary (R128, R141 to R144) -/

/-- The shorter way from a boundary to the grid through T, in ns (R144). -/
def toGrid (k : Task) (e : W64) : Int :=
  let p : Int := periodNs k
  let d := almDiff k.icalT e % p
  if 2 * d ≤ p then d else d - p

/-- The boundary lies on the grid through T: the phase becomes that of T, O becomes 0 and source 3 ends (R144). -/
def arriveGrid (k : Task) (S : W64) : Task :=
  if k.icalSource = 3 ∧ toGrid k S = 0 then
    let g := k.icalT.toNat % periodNs k
    { k with phase := g / 1000, shift := g % 1000, offset := 0, icalSource := 0 }
  else k

/-- The boundary after S (R141, R144). -/
def nextBoundary (k0 : Task) (S : W64) : Task :=
  let k := arriveGrid k0 S
  let p := periodNs k
  let k1 : Task := { k with lastBoundary := S, next := S + w64 p, icalLate := none, clipRun := k.clipped, clipped := false, moved := false }
  match k.icalLate with
  | some c => { k1 with next := c + w64 p, offset := k1.offset + almDiff c S }
  | none =>
    if k1.icalSource = 3 then
      let p8 : Int := p / 8
      let d := max (-p8) (min p8 (toGrid k1 k1.next))
      { k1 with next := k1.next + w64 (unsigned 64 d), offset := k1.offset + d, moved := d != 0 }
    else k1

/-- TASK.ICAL settings that no event window holds back take effect. -/
def passBoundary (m : Module) (t : Nat) (S : W64) : Module :=
  match taskOf m t with
  | none => m
  | some k =>
    if k.st = .running then
      placeOrPlain (if k.icalSource = 1 ∨ k.icalSource = 2 then k else icalNow k)
    else taskMod m t (fun k => { k with lastBoundary := S, next := S + w64 (periodNs k), fresh := false })
where
  placeOrPlain (k : Task) : Module :=
    let n := nextBoundary k S
    if k.icalLate.isSome then placeBoundary m t n else taskMod m t (fun _ => n)

/-! ### Action 1 -/

/-- Where a task stands after its boundary: the module; does a cycle start; was one released; did digests differ. -/
structure Bound where
  m : Module
  starts : Bool := false
  released : Bool := false
  differ : Bool := false

/-- The boundary S of one task: release, overrun, and the boundary to come (R129, R134, R138). -/
def boundTask1 (m p : Module) (S : W64) (t : Nat) : Bound :=
  match taskOf m t with
  | none => { m := m }
  | some k =>
    let pass (x : Module) : Module := followIfMoved k (passBoundary x t S)
    if k.st != .running || !cycling m then { m := pass m }
    else match k.cycle with
      | none => { m := pass (taskMod m t (fun k => { k with fresh := false })), starts := true }
      | some c =>
        if passes m p t S c then
          { m := pass (releaseCycle m p t S k c), starts := true, released := true, differ := digestsDiffer m p t c && checked k }
        else { m := pass (overrun m t S k c) }
where
  followIfMoved (k : Task) (x : Module) : Module := if k.moved then followRestart x t else x

/-- An import's points lose their source (R120). -/
def loseImport (m : Module) (x : Import) : Module :=
  x.handles.foldl (fun a h => match live a h with
    | some r => pointSet a (hIdx h) { r with input := false, quality := (r.quality &&& 0x3FFF) ||| 8 }
    | none => a) m

/-- Bindings, redefined publications and deleted imports that waited for the boundary of a task (R118, R120, R137, R321). -/
def takeWaiting (m : Module) (t : Nat) : Module :=
  let m1 := m.field.drops.foldl (fun a x => match x.2.bindNext with
    | some (b, bs) => if x.2.task == some t || b == some t then applyBind a x.1 b bs else a
    | none => a) m
  let m2 := takeBinds m1 t
  let pubs := m2.store.pubs.map (fun x => match x.2.next with
    | some (task, port, hs, ds) => if x.2.task = t then (x.1, { x.2 with task := task, port := port, handles := hs, dests := ds, next := none }) else x
    | none => x)
  let gone := m2.store.imports.filter (fun x => x.2.deleting && x.2.task == t)
  let m3 := { m2 with store := { m2.store with pubs := pubs, imports := m2.store.imports.filter (fun x => !(x.2.deleting && x.2.task == t)) } }
  commit m3 (gone.foldl (fun a x => loseImport a x.2) m3)

/-- A drop is ONLINE from its step on: what is held for it is discarded (R224, R237). -/
def goOnline (m : Module) (S : W64) : Module :=
  { m with field := { m.field with drops := m.field.drops.map (fun x => match x.2.onlineAt with
    | some a => if almGe S a && x.2.st == .negotiating then
        (x.1, { x.2 with st := .online, onlineAt := none, held := none, agreed := none, missed := 0 }) else x
    | none => x) } }

/-- All of action 1 over the tasks with a boundary at S. -/
def releases (p : Module) (S : W64) : List Nat → Module → OpenStep → Bool → Module × OpenStep × Bool
  | [], m, o, d => (m, o, d)
  | t :: ts, m, o, d =>
    let b := boundTask1 m p S t
    let o1 : OpenStep :=
      { o with
        starts := if b.starts then o.starts ++ [t] else o.starts
        released := if b.released then o.released ++ [t] else o.released }
    releases p S ts (takeWaiting b.m t) o1 (d || b.differ)

/-- A digest mismatch of a checked task ends the in-step mode: the shadow abandons its cycles and follows checkpoints (R135, R270). -/
def leaveStep (m : Module) : Module :=
  let m1 := pairMod m (fun x => { x with mode := .warm })
  anchorIfChanged m (if isLead m then m1 else stopCycles m1)

/-! ### Action 3: launches (R136, R220, R221, R422) -/

/-- TIME of an OUT frame (R220). -/
def outTime (r : Ring) (launch : W64) : W64 := if r.dApply = 0 then 0 else launch + w64 (1000 * r.dApply)

/-- DATA of a drop's OUT frame: bound points as they are presented, then its HALO PDUs (R102, R223, R347). -/
def outData (m : Module) (id : Nat) (d : DropCfg) : Bytes := overlayPdus m id (d.kind == .bus) (packData d (boundOuts m d))

/-- The bytes of an OUT frame. -/
def outFrame (m : Module) (id : Nat) (d : DropCfg) (r : Ring) (launch : W64) : Bytes :=
  moduleFrame m d.segment d.version r.etherType 1 d.lastStale d.outFid.toNat id d.lastSeq (outTime r launch) d.lastData

/-- Put the OUT frame of a ring drop on its lane: frames of the lead alone also go to the partner (R148, R234). -/
def sendOut (m p : Module) (id : Nat) (launch : W64) : Module :=
  match dropOf m id with
  | none => m
  | some d => match ringOf m d.segment with
    | none => m
    | some r =>
      let b := outFrame m id d r launch
      if leadOnlyDrop m d || m.pair.mode == .warm then sendLeadOnly m p d.segment b else launchRing m d.segment b

/-- Take the next SEQ and the contents of a drop's OUT frame: as the store stands, or the last ones again with STALE (R136, R221). -/
def takeOut (m : Module) (id : Nat) (stale late : Bool) : Module :=
  dropMod m id (fun d =>
    { d with outSeq := d.outSeq + 1, lastSeq := d.outSeq, lastStale := stale || late,
             lastData := if late then fit d.outLen d.lastData else outData m id d })

/-- The OUT frame of a drop at S. Every replica counts it; a module that sends puts it on the ring; rows and polls carry the
others. -/
def launchDrop (S : W64) (stale late : Bool) (m p : Module) (id : Nat) : Module :=
  match dropOf m id with
  | none => m
  | some d =>
    if d.st != .online || (match d.task with | some t => !inStepWith m p && taskQuiet m t | none => false) then m
    else
      let m1 := takeOut m id stale late
      match d.kind, ringOf m d.segment with
      | .ring, some r =>
        if !sendsFor m d then m1
        else
          let m2 := sendOut m1 p id (S + w64 (1000 * r.delta))
          ringMod m2 d.segment (fun x => { x with launching := true, launchLate := if late then inc32 x.launchLate else x.launchLate })
      | _, _ => m1

/-- The drops bound to a task in launch order: ascending position on module A, descending on B (R220). -/
def launchOrder (m : Module) (t : Nat) : List Nat :=
  let ds := m.field.drops.filter (fun x => x.2.task == some t)
  let sorted := ds.foldl (fun l x => insertAt x l) []
  let ids := sorted.map (·.1)
  if m.slot = .a then ids else ids.reverse
where
  insertAt (x : Nat × DropCfg) : List (Nat × DropCfg) → List (Nat × DropCfg)
    | [] => [x]
    | y :: ys => if x.2.position < y.2.position then x :: y :: ys else y :: insertAt x ys

/-- The datagrams of a publication at S: header and entries in network order (R6, R119). -/
def pubDatagrams (m : Module) (id : Nat) (x : Publication) (S : W64) (stale : Bool) : List Bytes :=
  let entry (h : W32) : Bytes := match live m h with
    | some r => beBytes 8 (presented r).toNat ++ beBytes 2 r.quality.toNat ++ beBytes 1 (match r.ty with | some t => typeCode t | none => 0) ++ zeros 5
    | none => zeros 16
  let frags := ceilDiv x.handles.length 88
  (List.range frags).map (fun f =>
    let hs := (x.handles.drop (88 * f)).take 88
    let head := beBytes 2 0x5042 ++ beBytes 1 1 ++ beBytes 1 (128 * b2n stale) ++ beBytes 4 m.pair.domain.toNat ++ beBytes 2 id
      ++ beBytes 1 f ++ beBytes 1 frags ++ beBytes 4 x.seq.toNat ++ beBytes 8 S.toNat ++ beBytes 2 hs.length ++ beBytes 2 (88 * f)
    let body := (hs.map entry).flatten
    head ++ beBytes 4 (crc32c (head ++ zeros 4 ++ body)).toNat ++ body)

/-- PUBLICATION_SEND: the lead sends, outside the dual-lead window; SEQ advances on every replica (R118). -/
def publish (S : W64) (stale : Bool) (t : Nat) (m : Module) : Module :=
  let ps := m.store.pubs.filter (fun x => x.2.task == t)
  let m1 := if isLead m && cycling m && !m.pair.window then
      emits m (ps.flatMap (fun x => (pubDatagrams m x.1 x.2 S stale).map (fun b => .publication x.1 x.2.dests b)))
    else m
  { m1 with store := { m1.store with pubs := m1.store.pubs.map (fun x => if x.2.task = t then (x.1, { x.2 with seq := x.2.seq + 1 }) else x) } }

/-- Action 3 for one task. -/
def launchTask (S : W64) (released late : Bool) (m p : Module) (t : Nat) : Module :=
  let m1 := match taskOf m t with
    | some k => if k.st = .running then m else stoppedPdus m t
    | none => m
  let m2 := (launchOrder m1 t).foldl (fun a id => launchDrop S (!released) late a p id) m1
  let m3 := publish S (!released) t m2
  if cycling m3 then driveTask m3 t released else m3

/-- BUS_ROW_START and LINE_POLL_CYCLE_START of the segments that carry drops of the tasks (R252, R261). -/
def startRows (m : Module) (S : W64) (tasks : List Nat) : Module :=
  let used (kind : SegKind) (k : Nat) : Bool :=
    m.field.drops.any (fun x => x.2.kind == kind && x.2.segment == k && match x.2.task with | some t => tasks.contains t | none => false)
  let m1 := (List.range 4).foldl (fun a k => if used .bus k then startRow a k S else a) m
  (List.range 4).foldl (fun a k => if used .line k then startPoll a k else a) m1

/-- All of action 3. -/
def launches (o : OpenStep) (late : Bool) (m p : Module) : Module :=
  startRows (o.tasks.foldl (fun a t => launchTask o.instant (o.released.contains t) late a p t) m) o.instant o.tasks

/-! ### Action 4: snapshots (R130, R167, R322) -/

/-- A cycle starts at S on the store as it stands. -/
def startCycle (S : W64) (m : Module) (t : Nat) : Module :=
  match taskOf m t with
  | none => m
  | some k =>
    if k.st != .running || k.cycle.isSome then m
    else
      let dt : W64 := match k.startDue, k.lastReleased with
        | false, some r => S - r
        | _, _ => w64 (periodNs k)
      let c : Cycle := { start := S, bank := k.active.getD 0, snap := m.store.points, first := k.firstDue, dt := dt }
      taskMod m t (fun k => { k with cycle := some c, firstDue := false, startDue := false })

/-- Snapshots of the cycles that start, and samples of the local inputs of the tasks with a boundary. -/
def snapshots (o : OpenStep) (m : Module) : Module :=
  if !cycling m then m
  else (o.tasks.foldl (fun a t => sampleTask a o.instant t) (o.starts.foldl (startCycle o.instant) m))

/-! ### Action 5: what the modules offer (R131) -/

/-- An import's complete publication as content: STALE, then index, value, quality and TYPE of each entry. -/
def importData (x : Import) : Bytes :=
  leBytes 1 (b2n x.heldStale) ++ (x.heldEnts.map (fun e => leBytes 2 e.1 ++ leBytes 8 e.2.1.toNat ++ leBytes 2 e.2.2.1.toNat ++ leBytes 1 e.2.2.2)).flatten

/-- Samples as content: handle, value, quality. -/
def sampleData (l : List (W32 × W64 × W16)) : Bytes :=
  (l.map (fun e => leBytes 4 e.1.toNat ++ leBytes 8 e.2.1.toNat ++ leBytes 2 e.2.2.toNat)).flatten

/-- Samples read back. -/
def readSamples (b : Bytes) : List (W32 × W64 × W16) :=
  (chunks 14 (b.length / 14) b).map (fun x => (w32 (le x 0 4), w64 (le x 4 8), w16 (le x 12 2)))

/-- Source numbers: a drop ID, 0x1_0000 + import ID, 0x2_0000 + task for its local samples. -/
def offers (m : Module) (o : OpenStep) : List Content :=
  let due (t : Nat) : Bool := o.tasks.contains t
  let drops := m.field.drops.filterMap (fun x => match x.2.task, x.2.held with
    | some t, some h => if due t then some { source := x.1, key := h.key, time := h.time, data := h.data : Content } else none
    | _, _ => none)
  let imps := m.store.imports.filterMap (fun x => match x.2.heldKey with
    | some k => if due x.2.task then some { source := 0x10000 + x.1, key := k, time := x.2.heldTime, data := importData x.2 : Content } else none
    | none => none)
  let smp := m.exec.samples.filterMap (fun x =>
    if due x.1 && !x.2.isEmpty then some { source := 0x20000 + x.1, key := 0, time := o.instant, data := sampleData x.2 : Content } else none)
  drops ++ imps ++ smp

/-- The summary entry of a content (R131, R225). -/
def sumOf (m : Module) (c : Content) : SumEntry :=
  let b := match dropOf m c.source with
    | some d => if c.source < 0x10000 then contentOf m c.source d c.data else c.data
    | none => c.data
  { source := c.source, key := c.key, crc := crc32c b }

/-- The key agreed last for a source. -/
def agreedKeyOf (m : Module) (source : Nat) : Option W32 :=
  if source < 0x10000 then (match dropOf m source with | some d => d.agreed.map (fun h => h.key) | none => none)
  else if source < 0x20000 then (match tget m.store.imports (source - 0x10000) with | some x => x.agreedKey | none => none)
  else none

/-- Is a key newer than what was agreed last? -/
def fresher (m : Module) (source : Nat) (k : W32) : Bool :=
  match agreedKeyOf m source with
  | some a => newer32 k a
  | none => true

/-- Whose content is agreed for a source. -/
inductive Pick where
  | mine | theirs | previous
  /-- Local samples of both modules, the lead's first. -/
  | merge
  deriving DecidableEq, Repr

/-- The table of R131: whose content, and whether it is a conflict. -/
def pick (m : Module) (source : Nat) (own other : Option SumEntry) : Pick × Bool :=
  let lead : Pick := if isLead m then .mine else .theirs
  match own, other with
  | none, none => (.previous, false)
  | some _, none => (if 0x20000 ≤ source then .merge else .mine, false)
  | none, some _ => (if 0x20000 ≤ source then .merge else .theirs, false)
  | some a, some b =>
    if 0x20000 ≤ source then (if a.crc = b.crc then .mine else .merge, false)
    else if !fresher m source a.key && !fresher m source b.key then (.previous, false)
    else if a.key = b.key then (if a.crc = b.crc then (.mine, false) else (lead, true))
    else if dist32 a.key b.key = 0x80000000 then (lead, true)
    else (if newer32 a.key b.key then .mine else .theirs, false)

/-- A summary's entry of a source. -/
def entOf (l : List SumEntry) (source : Nat) : Option SumEntry := l.find? (fun e => e.source == source)

/-- The sources either module names. -/
def sourcesOf (a b : List SumEntry) : List Nat := ((a ++ b).map (fun e => e.source)).eraseDups

/-- The contents this module sends: agreed from here and not equal there. -/
def toSend (m : Module) (own : List Content) (theirs : List SumEntry) : List Content :=
  let mine := own.map (sumOf m)
  own.filter (fun c =>
    let a := entOf mine c.source
    let b := entOf theirs c.source
    let r := (pick m c.source a b).1
    (r == .mine || r == .merge) && (match a, b with
      | some x, some y => x.key != y.key || x.crc != y.crc
      | _, _ => true))

/-- The sources whose content must come from the partner. -/
def toAwait (m : Module) (own : List Content) (theirs : List SumEntry) : List Nat :=
  let mine := own.map (sumOf m)
  (theirs.filter (fun e => let r := (pick m e.source (entOf mine e.source) (some e)).1
    r == .theirs || r == .merge)).map (fun e => e.source)

/-- The content agreed for a source, once it is here. -/
def chosenOf (m : Module) (o : OpenStep) (source : Nat) : Option Content :=
  let own := o.offered.find? (fun c => c.source == source)
  let got := o.got.find? (fun c => c.source == source)
  match o.partner with
  | none => own
  | some l =>
    match (pick m source (entOf (o.offered.map (sumOf m)) source) (entOf l source)).1 with
    | .mine => own
    | .theirs => got
    | .previous => none
    | .merge =>
      let (a, b) := if isLead m then (own, got) else (got, own)
      match a, b with
      | some x, some y =>
        let xs := readSamples x.data
        some { x with data := sampleData (xs ++ (readSamples y.data).filter (fun e => !xs.any (fun f => f.1 == e.1))) }
      | some x, none => some x
      | none, y => y

/-! ### The input commit (R129, R223, R226, R322) -/

/-- QUALITY of an input without a newer frame: STALE, and CLASS at most uncertain; after W_in boundaries COMM and bad (R226). -/
def heldQuality (lost : Bool) (q : W16) : W16 :=
  if lost then (q &&& 0x3FFF) ||| 0x18
  else ((q &&& 0x3FFF) ||| 0x10) ||| (if qClass q = 0 then 0 else 0x4000)

/-- The input points of a binding without a newer frame: the commit writes QUALITY and so TIME, not VALUE (R93, R226). -/
def holdInputs (S : W64) (lost : Bool) (hs : List W32) (m : Module) : Module :=
  hs.foldl (fun a h => match live a h with
    | some r => pointSet a (hIdx h) { r with quality := heldQuality lost r.quality, time := S }
    | none => a) m

/-- Write an input value. -/
def writeInput (m : Module) (S : W64) (writer : W16) (h : W32) (v : W64) (q : W16) : Module :=
  match live m h with
  | some r => pointSet m (hIdx h) (writeRec r v q 0 S writer)
  | none => m

/-- Quality of a channel of a newer frame (R226). -/
def frameQuality (cls : Nat) (data : Bytes) : W16 :=
  w16 (16384 * (if inFault data then min cls 1 else cls) + 16 * b2n (inStale data))

/-- DROP_OFFLINE (R226). -/
def offline (m : Module) (id : Nat) (d : DropCfg) : Module :=
  logBoth (dropMod m id (fun d => { d with st := .offline })) 0x0402 4 id 0xFFFF
    (leBytes 1 d.wIn ++ zeros 3 ++ leBytes 4 (match d.agreed with | some h => h.key.toNat | none => 0))

/-- The inputs of a drop at S from what was agreed. -/
def commitDrop (S : W64) (m : Module) (id : Nat) (chosen : Option Content) : Module :=
  match dropOf m id with
  | none => m
  | some d =>
    let ins := d.binds.filter (fun b => !b.out)
    let good := match chosen with
      | some c => if fresher m id c.key then some c else none
      | none => none
    match good with
    | some c =>
      let m1 := dropMod m id (fun d => { d with agreed := some { key := c.key, time := c.time, data := c.data }, missed := 0, lastAgreedAt := S })
      ins.foldl (fun a b => match mapEnt d b.channel false with
        | some e => let u := unpackInput d c.data e
          writeInput a S (w16 (0x8000 + id)) b.handle u.1 (frameQuality u.2 c.data)
        | none => a) m1
    | none =>
      let n := min 65535 (d.missed + 1)
      let lost : Bool := decide (d.wIn ≤ n)
      let m1 := holdInputs S lost (ins.map (fun b => b.handle)) (dropMod m id (fun d =>
        { d with missed := n, expiries := if lost && d.st == .online then inc32 d.expiries else d.expiries }))
      if lost && d.st == .online then offline m1 id d else m1

/-- Entries of an import's content. -/
def readImport (b : Bytes) : Bool × List (Nat × W64 × W16 × Nat) :=
  (byteAt b 0 == 1, (chunks 13 ((b.length - 1) / 13) (b.drop 1)).map (fun x => (le x 0 2, w64 (le x 2 8), w16 (le x 10 2), le x 12 1)))

/-- One handle of an import with a newer publication (R120). -/
def importPoint (S : W64) (id : Nat) (stale : Bool) (es : List (Nat × W64 × W16 × Nat)) (m : Module) (i : Nat) (h : W32) : Module :=
  match live m h with
  | none => m
  | some r => match es.find? (fun e => e.1 == i) with
    | some e =>
      if r.ty.map typeCode = some e.2.2.2 then
        let cls := if qClass e.2.2.1 = 2 then 0 else qClass e.2.2.1
        writeInput m S (w16 (0xA000 + id)) h e.2.1 (w16 (16384 * cls + 16 * b2n stale))
      else pointSet m (hIdx h) { r with quality := (r.quality &&& 0x3FFF) ||| 8, time := S }
    | none => pointSet m (hIdx h) { r with quality := (r.quality &&& 0x3FFF) ||| 8, time := S }

/-- An import at S from what was agreed. -/
def commitImport (S : W64) (m : Module) (id : Nat) (chosen : Option Content) : Module :=
  match tget m.store.imports id with
  | none => m
  | some x =>
    let put (f : Import → Import) (a : Module) : Module := { a with store := { a.store with imports := tmod a.store.imports id f } }
    let good := match chosen with
      | some c => if fresher m (0x10000 + id) c.key then some c else none
      | none => none
    match good with
    | some c =>
      let r := readImport c.data
      let m1 := put (fun y => { y with agreedKey := some c.key, missed := 0 }) m
      (x.handles.mapIdx (fun i h => (i, h))).foldl (fun a ih => importPoint S id r.1 r.2 a ih.1 ih.2) m1
    | none =>
      let n := min 65535 (x.missed + 1)
      holdInputs S (decide (x.wIn ≤ n)) x.handles (put (fun y => { y with missed := n }) m)

/-- WRITER of a local input (R94). -/
def localWriter (m : Module) (h : W32) : W16 :=
  match m.lio.binds.find? (fun b => b.valueH == h || b.statusH == h || b.readbackH == h) with
  | some b => w16 (0x9000 + (if wiringOf m = 3 then 0x800 * b.slot else 0) + 0x100 * b.kind + b.channel)
  | none => 0x9000

/-- The local samples of a task at S (R322). -/
def commitSamples (S : W64) (m : Module) (chosen : Option Content) : Module :=
  match chosen with
  | some c => (readSamples c.data).foldl (fun a e => writeInput a S (localWriter a e.1) e.1 e.2.1 e.2.2) m
  | none => m

/-- The bound input points of a task. -/
def taskInputs (m : Module) (t : Nat) : List W32 :=
  (m.field.drops.filter (fun x => x.2.task == some t)).flatMap (fun x => (x.2.binds.filter (fun b => !b.out)).map (fun b => b.handle))
    ++ (m.store.imports.filter (fun x => x.2.task == t)).flatMap (fun x => x.2.handles)
    ++ (m.lio.binds.filter (fun b => b.task == t)).flatMap (fun b => bindInputs b (bindOut m b))

/-- All agreed inputs of a task. -/
def commitTask (o : OpenStep) (m : Module) (t : Nat) : Module :=
  let m1 := (m.field.drops.filter (fun x => x.2.task == some t)).foldl (fun a x => commitDrop o.instant a x.1 (chosenOf m o x.1)) m
  let m2 := (m1.store.imports.filter (fun x => x.2.task == t)).foldl
    (fun a x => commitImport o.instant a x.1 (chosenOf m o (0x10000 + x.1))) m1
  commitSamples o.instant m2 (chosenOf m o (0x20000 + t))

/-- A started cycle sees its agreed inputs, takes its HALO check and is ready (R130, R139, R348). -/
def readyCycle (S : W64) (m : Module) (t : Nat) : Module :=
  match taskOf m t with
  | none => m
  | some k => match k.cycle with
    | none => m
    | some c =>
      if c.start != S || c.ready || c.follows then m
      else
        let snap := (taskInputs m t).foldl (fun a h => match live m h with | some r => tset a (hIdx h) r | none => a) c.snap
        let m1 := taskMod m t (fun k => { k with cycle := some { c with snap := snap } })
        let m2 := if k.halo then haloCheck m1 t else m1
        let m3 := taskMod m2 t (fun k => { k with cycle := k.cycle.map (fun c => { c with ready := true, inputWs := c.ws }) })
        dispatch m3 (unitOf k)

/-- INPUT_COMMIT: the agreed values enter the store and the cycles are ready to execute (R129, R132). -/
def inputCommit (o : OpenStep) (m : Module) : Module :=
  if !cycling m then xMod m (fun x => { x with agreeing := none })
  else
    let m1 := o.tasks.foldl (commitTask o) m
    let m2 := retainNow (o.tasks.flatMap (taskInputs m1)) m1
    let m3 := commit m m2
    xMod (o.starts.foldl (readyCycle o.instant) m3) (fun x => { x with agreeing := none })

/-! ### Agreement (R131, R132) -/

/-- AGREE_CONFLICT: the counters and the record (R131, R315). -/
def conflict (m : Module) (source : Nat) (key : W32) : Module :=
  match dropOf m source with
  | none => m
  | some d =>
    let m1 := diagMod m (fun x => { x with agreeConflicts := inc32 x.agreeConflicts })
    let m2 := match d.task with
      | some t => taskMod m1 t (fun k => { k with agreeConflict := inc32 k.agreeConflict })
      | none => m1
    logBoth m2 0x0304 4 source 0xFFFF (leBytes 2 source ++ zeros 2 ++ leBytes 4 key.toNat)

/-- The partner's summary meets the own one: conflicts are counted, and the contents that the partner needs are sent. -/
def takeSummary (m : Module) (o : OpenStep) (l : List SumEntry) : Module × OpenStep :=
  let mine := o.offered.map (sumOf m)
  let m1 := (sourcesOf mine l).foldl (fun a s =>
    if s < 0x10000 && (pick m s (entOf mine s) (entOf l s)).2 then
      conflict a s (match if isLead m then entOf mine s else entOf l s with | some e => e.key | none => 0)
    else a) m
  let send := toSend m o.offered l
  let o1 : OpenStep := { o with partner := some l }
  (xMod (if send.isEmpty then m1 else emit m1 (.sync (.content o.instant send))) (fun x => { x with agreeing := some o1 }), o1)

/-- The agreement is complete: nothing that must come from the partner is missing. -/
def agreed (m : Module) (o : OpenStep) : Bool :=
  match o.partner with
  | none => false
  | some l => (toAwait m o.offered l).all (fun s => o.got.any (fun c => c.source == s))

/-- Action 5 begins: in step the summary goes out and the partner's is awaited, or is here already; else the own inputs count. -/
def openAgreement (o : OpenStep) (m p : Module) : Module :=
  let o1 : OpenStep := { o with offered := if cycling m then offers m o else [] }
  if !cycling m || !inStepWith m p || o.tasks.isEmpty then inputCommit o1 m
  else
    let m1 := emit (xMod m (fun x => { x with agreeing := some o1 })) (.sync (.summary o.instant (o1.offered.map (sumOf m))))
    match m1.exec.early.find? (fun x => x.1 == o.instant) with
    | none => m1
    | some x =>
      let r := takeSummary (xMod m1 (fun y => { y with early := y.early.filter (fun z => z.1 != o.instant) })) o1 x.2
      if agreed r.1 r.2 then inputCommit r.2 r.1 else r.1

/-! ### A step -/

/-- Is action 2 of the step still to do? -/
def commandsDue (m : Module) (S : W64) : Bool :=
  (isLead m || m.pair.mode == .inStep) && (!(dueEntries m S).isEmpty || !m.maint.waits.isEmpty)

/-- Do an action on a module that sees its partner. -/
def viewed (s : State) (sl : Slot) (f : Module → Module → Module) : State := withMod s sl (f (modOf s sl) (modOf s (otherSlot sl)))

/-- Was the launch instant of a held-back step missed: S + Δ − 1 µs with the shortest Δ of the rings (R221)? -/
def launchMissed (m : Module) (S : W64) (seg : Nat) : Bool :=
  match ringOf m seg with
  | some r => decide (0 < almDiff (now m) (S + w64 (1000 * r.delta) - 1000))
  | none => false

/-- Actions 2 to 5 of a step; launches that were not done before. A launch whose instant has passed repeats what was sent (R221). -/
def finishStep (sl : Slot) (late : Bool) (s : State) (o : OpenStep) : State :=
  let s1 := commitCommands sl o.instant s
  let s2 := if o.launched then s1 else viewed s1 sl (launches o late)
  viewed s2 sl (fun m p => refresh (openAgreement o (snapshots o m) p))

/-- A step that waited for an input commit: too late for its launch where the commands come after S + Δ − 1 µs. -/
def heldLate (m : Module) (o : OpenStep) : Bool :=
  (List.range 8).any (fun k => launchMissed m o.instant k && m.field.drops.any (fun x => x.2.kind == .ring && x.2.segment == k &&
    match x.2.task with | some t => o.tasks.contains t | none => false))

/-- The steps that waited go on until one opens an agreement again. -/
def drainSteps (sl : Slot) : List OpenStep → State → State
  | [], s => s
  | o :: rest, s =>
    if (modOf s sl).exec.agreeing.isSome then withMod s sl (xMod (modOf s sl) (fun x => { x with waitingSteps := o :: rest }))
    else drainSteps sl rest (finishStep sl (heldLate (modOf s sl) o) s o)

/-- Go on with the steps that wait. -/
def resumeSteps (sl : Slot) (s : State) : State :=
  let m := modOf s sl
  drainSteps sl m.exec.waitingSteps (withMod s sl (xMod m (fun x => { x with waitingSteps := [] })))

/-- An open agreement that can be completed is, and the steps that waited go on. -/
def closeAgreement (sl : Slot) (s : State) : State :=
  let m := modOf s sl
  match m.exec.agreeing with
  | some o => if agreed m o then resumeSteps sl (withMod s sl (inputCommit o m)) else s
  | none => s

/-- Loss of the link: the open agreement ends with the own inputs, and the steps that waited go on alone (R132, R270). -/
def agreeAlone (sl : Slot) (s : State) : State :=
  let m := modOf s sl
  match m.exec.agreeing with
  | some o => resumeSteps sl (withMod s sl (inputCommit { o with partner := none, got := [] } m))
  | none => s

/-! ### The cut-over of a resync at step c (R287) -/

/-- On the joining module a cycle that the lead has begun before c runs there only: its write set comes from the lead (log entry 43). -/
def followCycle (p : Module) (S : W64) (m : Module) (t : Nat) : Module :=
  match taskOf m t, taskOf p t with
  | some k, some q =>
    let place (c : Cycle) : Module := taskMod m t (fun k => { k with cycle := some c })
    if q.st != .running then m
    else match q.cycle with
      | some c =>
        if c.start ≠ S then
          place { start := c.start, bank := c.bank, snap := [], restarting := true, follows := true,
                  partnerWs := if c.sealedAt.isSome then some (wsList c) else none,
                  partnerSeal := c.sealedAt.map (fun x => (x, c.digest)) }
        else if k.next = S && q.fresh && q.lastReleased.isSome then
          place { start := q.lastReleased.getD 0, bank := c.bank, snap := [], restarting := true, follows := true,
                  partnerWs := some (leadSet p t (S - 1) S), partnerSeal := some (S - 1000, 0) }
        else m
      | none => m
  | _, _ => m

/-- Work of steps before c was executed by the lead, and its effects came with the marked records: it does not run here again. -/
def executedBefore (m p : Module) (S : W64) : Module :=
  let early (e : JEntry) : Bool := match e.step with | some x => !almGe x S | none => false
  let settled (e : JEntry) : JEntry :=
    if !e.accepted || e.final || !early e then e
    else match ticketFind p e.qp e.d.ticket with
      | some r => if r.stage = 2 then { e with started := true } else { e with final := true, stage := r.stage, status := r.status, detail := r.detail }
      | none => e
  { m with mail := { m.mail with journal := m.mail.journal.map settled } }

/-- The joining module at c: it enters RUN in step (R287). -/
def joinAt (m0 p : Module) (S : W64) : Module :=
  let m := executedBefore m0 p S
  let m1 := pairMod m (fun x => { x with mode := .inStep, joining := none, cutover := none, catchup := false })
  let m2 := if m.boot.state = .ready then { enterRun m1 with exec := m1.exec } else m1
  anchorIfChanged m ((tkeys m2.exec.tasks).foldl (followCycle p S) m2)

/-- The cut-over is due at S. -/
def cutsOver (m : Module) (S : W64) : Bool := match m.pair.cutover with | some c => almGe S c | none => false

/-- The lead at c, after its releases: the pair is in step and the resync is over. -/
def leadAt (m p : Module) : Module × Module :=
  let m1 := endResync (pairMod m (fun x => { x with mode := .inStep, cutover := none })) 0
  (anchorIfChanged m m1, mirrorToken m1 p)

/-! ### STEP -/

/-- STEP (R129): action 1 at once; the others unless an earlier step's input commit is awaited. A launch needs no command commit
that is still to come (R221). -/
def takeStep (sl : Slot) (S : W64) (s : State) : State :=
  let m := modOf s sl
  let p := modOf s (otherSlot sl)
  if !stepDue m S then s
  else
    let m1 := goOnline (if cutsOver m S && !isLead m && linked m p then joinAt m p S else m) S
    let tasks := dueTasks m1 S
    let r := releases p S tasks (xMod m1 (fun x => { x with lastStep := S })) { instant := S, tasks := tasks } false
    let m2 := if r.2.2 then leaveStep r.1 else r.1
    let q := if cutsOver m S && isLead m && linked m p then leadAt m2 p else (m2, p)
    let o : OpenStep := r.2.1
    let s1 := withMod (withMod s sl (refresh q.1)) (otherSlot sl) q.2
    if q.1.exec.agreeing.isNone then finishStep sl false s1 o
    else
      let early := !commandsDue q.1 S
      let s2 := if early then viewed s1 sl (launches o false) else s1
      let held : OpenStep := { o with launched := early }
      withMod s2 sl (xMod (modOf s2 sl) (fun x => { x with waitingSteps := x.waitingSteps ++ [held] }))

def execStep (sl : Slot) (instant : W64) (s : State) : Res := .next (takeStep sl instant s)

end Sys2Proof.Machine
end

