-- ==== Sys2Proof/Machine/Sync.lean ====
section
/-! DEFINITION. Machine/Sync.lean: what arrives over the sync link (R76 to R78, R131 to R135, R150, R270 to R274, R287), the lanes of
the link, the catch-up of a warm takeover (R282), and datagrams of imports (R119, R120). -/

namespace Sys2Proof.Machine
open Sys2Proof Sys2Proof.Bits

/-! ### Input agreement (R131) -/

/-- The partner's summary of a step: taken at once, or kept until this module has reached the step. -/
def takePartnerSummary (sl : Slot) (instant : W64) (l : List SumEntry) (s : State) : State :=
  let m := modOf s sl
  let keep : State :=
    if decide (0 < almDiff instant m.exec.lastStep) || m.exec.waitingSteps.any (fun o => o.instant == instant) then
      withMod s sl (xMod m (fun x => { x with early := x.early.filter (fun y => y.1 != instant) ++ [(instant, l)] }))
    else s
  if !serving m || !inStepWith m (modOf s (otherSlot sl)) then s
  else match m.exec.agreeing with
    | some o =>
      if o.instant = instant then (if o.partner.isSome then s else closeAgreement sl (withMod s sl (takeSummary m o l).1)) else keep
    | none => keep

def execSyncSummaryReceive (sl : Slot) (instant : W64) (entries : List SumEntry) (s : State) : Res :=
  .next (takePartnerSummary sl instant entries s)

/-- Content that the partner sends for the open agreement. -/
def takePartnerContent (sl : Slot) (instant : W64) (items : List Content) (s : State) : State :=
  let m := modOf s sl
  if !serving m || !inStepWith m (modOf s (otherSlot sl)) then s
  else match m.exec.agreeing with
    | some o =>
      if o.instant = instant then closeAgreement sl (withMod s sl (xMod m (fun x => { x with agreeing := some { o with got := o.got ++ items } })))
      else s
    | none => s

def execSyncContentReceive (sl : Slot) (instant : W64) (items : List Content) (s : State) : Res :=
  .next (takePartnerContent sl instant items s)

/-! ### Seals, write sets, checkpoints (R134, R135, R150) -/

/-- The partner's seal of a cycle. -/
def takeSeal (task : Nat) (start sealTime : W64) (digest : W32) (m p : Module) : Module :=
  if !serving m || !linked m p then m
  else taskMod m task (fun k => { k with cycle := k.cycle.map (fun c => if c.start = start then { c with partnerSeal := some (sealTime, digest) } else c) })

def execSyncSealReceive (sl : Slot) (task : Nat) (start sealTime : W64) (digest : W32) (s : State) : Res :=
  onPair s sl (takeSeal task start sealTime digest)

/-- The write set of a cycle that this module restarts: the repeated cycle is abandoned, and the partner's write set is kept for
the release (R150). -/
def takeWriteSet (task : Nat) (instant : W64) (ws : List WEnt) (m p : Module) : Module :=
  if !serving m || !inStepWith m p then m
  else match taskOf m task with
    | none => m
    | some k => match k.cycle with
      | none => m
      | some c =>
        if c.start ≠ instant ∨ c.restarting = false then m
        else if c.follows then setCycle m task { c with partnerWs := some ws }
        else
          let m1 := setCycle m task { c with partnerWs := some ws, ready := false, begun := false, ended := false, sealedAt := none, frames := [], stack := [],
                                             ws := [], waitsLog := false }
          dispatch (dropLog m1 task) (unitOf k)

def execSyncWriteSetReceive (sl : Slot) (task : Nat) (instant : W64) (ws : List WEnt) (s : State) : Res :=
  onPair s sl (takeWriteSet task instant ws)

/-! ### Following the lead (R270, R287, log entry 45) -/

/-- A module that the resync data of the lead reach: it joins, or it is a warm shadow. -/
def follower (m p : Module) : Bool := serving m && linked m p && !isLead m && isLead p && (m.pair.joining.isSome || warmShadow m)

/-- The boundaries of a task as the lead counts them; one that this module has passed and the lead has not is counted here. -/
def alignTask (last : W64) (q k : Task) : Task × Bool :=
  let k1 : Task :=
    { k with
      next := q.next
      lastBoundary := q.lastBoundary
      offset := q.offset
      shift := q.shift
      phase := q.phase
      icalSource := q.icalSource
      icalFalling := q.icalFalling
      icalDrop := q.icalDrop
      icalD := q.icalD
      icalT := q.icalT
      icalNext := q.icalNext
      icalHit := q.icalHit
      icalLate := q.icalLate
      clipped := q.clipped
      clipRun := q.clipRun
      moved := q.moved }
  if bounded k1 && decide (almDiff q.next last ≤ 0) then ({ k1 with lastBoundary := q.next, next := q.next + w64 (periodNs k1) }, true) else (k1, false)

/-- The streams of a drop as the lead counts them; `ahead` counts the boundary that this module has passed already. -/
def alignDrop (ahead : Bool) (q d : DropCfg) : DropCfg :=
  { d with
    outSeq := q.outSeq + (if ahead && d.st == .online then 1 else 0)
    lastSeq := q.lastSeq
    lastData := q.lastData
    lastStale := q.lastStale
    acyNext := q.acyNext
    acyAcked := q.acyAcked
    acyPending := q.acyPending }

/-- A replica that runs no cycles keeps every stream's sequence state equal to the lead's. -/
def alignStreams (m p : Module) : Module :=
  let ts := m.exec.tasks.map (fun x => (x.1, match taskOf p x.1 with
    | some q => alignTask m.exec.lastStep q x.2
    | none => (x.2, false)))
  let ahead (t : Option Nat) : Bool := match t with
    | some i => (match tget ts i with | some x => x.2 | none => false)
    | none => false
  let ds := m.field.drops.map (fun x => (x.1, match dropOf p x.1 with
    | some q => alignDrop (ahead x.2.task) q x.2
    | none => x.2))
  let bs := m.field.buses.mapIdx (fun i b => match p.field.buses[i]? with
    | some q => { b with nextRow := q.nextRow }
    | none => b)
  let field' : Field := { m.field with drops := ds, buses := bs }
  { m with exec := { m.exec with tasks := ts.map (fun x => (x.1, x.2.1)) }, field := field' }

/-- The run-time state of the HALO connections of a task. -/
def copyConns (m p : Module) (t : Nat) : Module :=
  let ids := (taskConns m t false ++ taskConns m t true).map (·.1)
  let conns := ids.foldl (fun a i => match tget p.halo.conns i with
    | some c => tset a i c
    | none => a) m.halo.conns
  { m with halo := { m.halo with conns := conns } }

/-- A checkpoint: the write set of the lead is applied at its step, and with it what the task holds from cycle to cycle (R134). -/
def takeCheckpoint (t : Nat) (S : W64) (ws : List WEnt) (m p : Module) : Module :=
  if !serving m || !linked m p || isLead m || !warmShadow m then m
  else match taskOf m t, taskOf p t with
    | some k, some q =>
      let table := (partIn k (k.active.getD 0) 1).bytes
      let start := q.lastReleased.getD 0
      let m1 := commit m (applySet m t S table ws)
      let m2 := taskMod (completeLog m1 t start S ws false) t (fun k =>
        { k with lastReleased := q.lastReleased, outs := q.outs, execLast := q.execLast, execMax := q.execMax, fresh := true })
      let m3 := copyConns (releaseSo m2 t table) p t
      refresh (alignStreams (driveTask m3 t (inRun m3)) p)
    | _, _ => m

def execSyncCheckpointReceive (sl : Slot) (task : Nat) (instant : W64) (ws : List WEnt) (s : State) : Res :=
  onPair s sl (takeCheckpoint task instant ws)

/-! ### Resync data (R287) -/

/-- A drop as the lead holds it; what this module itself has received stays. -/
def copyDrop (m : Module) (x : Nat × DropCfg) : Nat × DropCfg :=
  (x.1, { x.2 with held := match dropOf m x.1 with | some d => d.held | none => none })

/-- Segments and drops of the lead: settings, streams and messages; ports and counters are the module's own. -/
def copyField (m p : Module) : Module :=
  let rings := m.field.rings.mapIdx (fun i r => match p.field.rings[i]? with
    | some q => { r with rate := q.rate, etherType := q.etherType, delta := q.delta, dApply := q.dApply, length := q.length, checkSeq := q.checkSeq }
    | none => r)
  let buses := m.field.buses.mapIdx (fun i b => match p.field.buses[i]? with
    | some q => { b with nominal := q.nominal, dataRate := q.dataRate, samplePt := q.samplePt, dataSamplePt := q.dataSamplePt, delta := q.delta,
                         rows := q.rows, nextRow := q.nextRow }
    | none => b)
  let lines := m.field.lines.mapIdx (fun i l => match p.field.lines[i]? with
    | some q => { l with rate := q.rate, bits11 := q.bits11, delta := q.delta, k := q.k }
    | none => l)
  { m with field := { m.field with rings := rings, buses := buses, lines := lines, drops := p.field.drops.map (copyDrop m), acyWaiting := p.field.acyWaiting } }

/-- The local channels as the lead has them configured; in SPLIT wiring each front keeps its own (R319). -/
def copyFront (m p : Module) : Lio :=
  let own := m.lio
  if wiringOf m = 3 then { own with binds := p.lio.binds, bindsNext := p.lio.bindsNext, trimLock := p.lio.trimLock }
  else
    { own with
      binds := p.lio.binds
      bindsNext := p.lio.bindsNext
      trimLock := p.lio.trimLock
      ai := own.ai.mapIdx (fun i a => match p.lio.ai[i]? with
        | some q => { a with mode := q.mode, response := q.response, follow := q.follow, vtx := q.vtx, rw := q.rw }
        | none => a)
      dio := own.dio.mapIdx (fun i o => match p.lio.dio[i]? with
        | some q => outSet o q
        | none => o)
      fdo := own.fdo.mapIdx (fun i o => match p.lio.fdo[i]? with
        | some q => outSet o q
        | none => o) }
where
  outSet (o q : OutCh) : OutCh :=
    { o with mode := q.mode, filter := q.filter, openWireTest := q.openWireTest, badq := q.badq, timeout := q.timeout, safe := q.safe }

/-- What is left of the pair's configuration: pair state, Almanac and Chronicle settings, local front, HALO, token, UDP port. -/
def copyPair (m p : Module) : Module :=
  let a := p.alm
  { m with
    pair := { m.pair with
      domain := p.pair.domain
      autoResync := p.pair.autoResync
      reminderDays := p.pair.reminderDays
      recordedSplit := p.pair.recordedSplit
      lastSwap := p.pair.lastSwap
      lastChange := p.pair.lastChange
      leadEpoch := p.pair.leadEpoch }
    alm := { m.alm with
      cfgSource := a.cfgSource
      role := a.role
      transport := a.transport
      p2p := a.p2p
      twoStep := a.twoStep
      domainNumber := a.domainNumber
      priority1 := a.priority1
      priority2 := a.priority2
      logSync := a.logSync
      logAnnounce := a.logAnnounce
      logDelayReq := a.logDelayReq
      receiptTimeout := a.receiptTimeout
      ringDomain := a.ringDomain
      stepLimit := a.stepLimit
      slewMax := a.slewMax
      ppsOutOn := a.ppsOutOn
      ppsInOn := a.ppsInOn
      ppsFalling := a.ppsFalling
      ppsWidth := a.ppsWidth }
    chron := { m.chron with buckets := p.chron.buckets }
    lio := copyFront m p
    halo := { m.halo with
      active := p.halo.active
      activeConfirmed := p.halo.activeConfirmed
      staged := p.halo.staged
      stagedSealed := p.halo.stagedSealed
      stagedConfirmed := p.halo.stagedConfirmed
      tokens := p.halo.tokens
      conns := p.halo.conns }
    maint := { m.maint with entries := p.maint.entries }
    mail := { m.mail with udpPort := p.mail.udpPort } }

/-- Both Glint banks; a bank that becomes active here starts as after a swap (R209, R210). -/
def copyGlint (m p : Module) : Module :=
  let g := { m.glint with bank0 := p.glint.bank0, bank1 := p.glint.bank1 }
  if m.glint.active = p.glint.active then { m with glint := g }
  else { m with glint :=
    { g with
      active := p.glint.active
      swapOrdered := false
      lits := litSet (litField (litField g.lits 0x200 512 0) 0x40 8 0) 0x7D true
      pc := 0
      acc := false
      branch := []
      skip := 0
      edges := []
      lastSwap := now m } }

/-- The journal of the lead; the copies taken here are acknowledged. -/
def copyJournal (m p : Module) : Module :=
  let m1 := { m with mail := { m.mail with journal := p.mail.journal.map (fun e => { e with posted := false }), nextOrder := p.mail.nextOrder } }
  emits m1 ((p.mail.journal.filter (fun e => !e.accepted)).map (fun e => .sync (.journalAck e.qp e.d.ticket)))

/-- The classes and the quota of the arbiter. -/
def copyArb (m p : Module) : Arbiter :=
  { m.store.arb with classes := p.store.arb.classes, quota := p.store.arb.quota, newClasses := p.store.arb.newClasses }

/-- One item. -/
def copyItem (m p : Module) : ResyncItem → Module
  | .glintBanks => copyGlint m p
  | .tasks => { m with exec := { m.exec with tasks := p.exec.tasks.map (fun x => (x.1, { x.2 with cycle := none })) } }
  | .partitions => { m with store := { m.store with parts := p.store.parts, arb := copyArb m p } }
  | .segments => copyField m p
  | .points => { m with store := { m.store with points := p.store.points, subs := p.store.subs, pubs := p.store.pubs, imports := p.store.imports } }
  | .tickets => { m with mail := { m.mail with tickets := p.mail.tickets, highest := p.mail.highest, floorH := p.mail.floorH } }
  | .journal => copyJournal m p
  | .retained => { m with store := { m.store with retained := p.store.retained, orphans := p.store.orphans, log := p.store.log.filter (fun l => l.complete) } }
  | .pairState => copyPair m p
  | .marked => m

/-- The records of this module that the lead's Chronicle lacks. -/
def ownRecords (m p : Module) : List ChronRec := m.chron.recs.filter (fun r => !p.chron.recs.any (fun x => x.ev == r.ev))

/-- The lead imports them in their order, with their time and slot, under new numbers (R287, R311); the joining module then holds
the lead's Chronicle. -/
def exchangeChronicle (m p : Module) : Module × Module :=
  let l := ownRecords m p
  let p1 := l.foldl (fun a r => writeChron a r.ev true (w32 r.seq)) p
  let p2 := if l.isEmpty then p1 else logEv p1 0x0506 0 0 0xFFFF (leBytes 4 l.length ++ leBytes 1 (slotN m.slot))
  (chronMod m (fun c => { c with recs := p2.chron.recs, lastSeq := p2.chron.lastSeq }), p2)

/-- Resync data of the lead overwrite the item; what is marked is every item of records again, as the lead has it now. -/
def takeResync (item : ResyncItem) (m p : Module) : Module × Module :=
  if !follower m p then (m, p)
  else
    let items : List ResyncItem :=
      match item with
      | .marked => [.glintBanks, .tasks, .partitions, .segments, .points, .tickets, .journal, .retained, .pairState]
      | x => [x]
    let m1 := refresh (alignStreams (refreshSubscribed (items.foldl (fun a i => copyItem a p i) m)) p)
    let p1 := pairMod p (fun x => { x with resync := x.resync.map (fun r => { r with progress := r.progress + 1 }) })
    if item = .pairState then exchangeChronicle m1 p1 else (m1, p1)

def execSyncResyncDataReceive (sl : Slot) (item : ResyncItem) (s : State) : Res := onBoth s sl (takeResync item)

/-! ### The journal (R76, R78) -/

/-- An entry of the lead: complete here and acknowledged; with a step, it is accepted and assigned (R76, R129). -/
def takeEntry (qp : Nat) (d : Desc) (req : Bytes) (step : Option W64) (m p : Module) : Module :=
  if !fw m || !linked m p || isLead m || !m.pair.inSet then m
  else
    let m1 := if journalHas m qp d.ticket then m
      else mailMod m (fun q => { q with journal := q.journal ++ [{ qp := qp, d := d, req := req }] })
    match step with
    | none => emit m1 (.sync (.journalAck qp d.ticket))
    | some due =>
      let order := match journalFind p qp d.ticket with
        | some e => e.order
        | none => m1.mail.nextOrder
      let m2 := journalMod m1 qp d.ticket (fun e => { e with accepted := true, order := order, step := some due })
      let m3 := mailMod m2 (fun q => { q with nextOrder := max q.nextOrder (order + 1) })
      if (ticketFind m3 qp d.ticket).isSome then m3 else ticketPut m3 qp { ticket := d.ticket, stage := 2, time := now p }

def execSyncJournalEntryReceive (sl : Slot) (qp : Nat) (d : Desc) (req : Bytes) (assigned : Option W64) (s : State) : Res :=
  onPair s sl (takeEntry qp d req assigned)

/-- The acknowledgement at the lead: what is now complete in both journals is accepted (R76). -/
def takeJournalAck (qp : Nat) (ticket : W64) (m p : Module) : Module :=
  if !fw m || !linked m p || !isLead m then m
  else acceptReady (journalMod m qp ticket (fun e => { e with acked := true })) p

def execSyncJournalAckReceive (sl : Slot) (qp : Nat) (ticket : W64) (s : State) : Res := onPair s sl (takeJournalAck qp ticket)

/-- The partner retires its copy of an entry whose final completion the lead has posted; its window takes the record (R78). -/
def takeFinal (p : Module) (m : Module) (f : Nat × W64) : Module :=
  let m1 := match ticketFind m f.1 f.2, ticketFind p f.1 f.2 with
    | some r, some q => if r.stage = 2 then ticketPut m f.1 { q with dupWaits := 0 } else m
    | none, some q => ticketPut m f.1 { q with dupWaits := 0 }
    | _, none => m
  journalRetire m1 f.1 f.2

def takeFinals (l : List (Nat × W64)) (m p : Module) : Module :=
  if !fw m || !linked m p || isLead m then m else l.foldl (takeFinal p) m

def execSyncFinalReportReceive (sl : Slot) (finals : List (Nat × W64)) (s : State) : Res := onPair s sl (takeFinals finals)

/-! ### The lanes of the sync link (R274, R278, R301, R320) -/

/-- A state in which the module drives its sync link (R28, R363). -/
def drivesLink (m : Module) : Bool :=
  hasPower m && !(m.boot.state == .off || m.boot.state == .halt || m.boot.state == .umbra)

/-- Is the lane up? -/
def laneUp (m : Module) (lane : Nat) : Bool := if lane = 0 then m.pair.lane0 else m.pair.lane1

/-- The lane as each part of the module shows it; one LANE_STATE record for what both in-step modules see (R274, R310). -/
def setLane (m : Module) (lane : Nat) (up seen : Bool) : Module :=
  let m1 := pairMod m (fun x => if lane = 0 then { x with lane0 := up } else { x with lane1 := up })
  let m2 := laneMod m1 (16 + lane) (fun l => { l with up := up, losses := if up then l.losses else inc32 l.losses })
  routeEvent m2 seen
    { code := 0x0502, time := now m, source := srcOf m 0 0, partition := 0xFFFF, severity := severityOf 0x0502
      data := fit 24 (leBytes 1 lane ++ leBytes 1 (b2n up)) }

/-- A cycle of which only the partner's write set is here: with its seal it stands for an own one, otherwise it ends. -/
def keepPartnerSet (k : Task) : Task :=
  match k.cycle with
  | none => k
  | some c =>
    match c.partnerWs, c.partnerSeal with
    | some ws, some x => { k with cycle := some { c with ws := wsTable ws, sealedAt := some x.1, digest := x.2, restarting := false, follows := false, partnerWs := none } }
    | some _, none => { k with cycle := none }
    | none, _ => if c.follows then { k with cycle := none } else k

/-- The link is down: the module goes on alone (R77, R132, R274). -/
def linkDown (sl : Slot) (s : State) : State :=
  let m1 := viewed s sl linkLost
  let m := modOf m1 sl
  let m2 := xMod (allTasks m keepPartnerSet) (fun x => { x with early := [] })
  agreeAlone sl (withMod m1 sl m2)

/-- A lane loses block lock or its frames; with both lanes down the link is down. -/
def laneLost (sl : Slot) (lane : Nat) (s : State) : State :=
  let m := modOf s sl
  if !hasPower m || decide (1 < lane) || !laneUp m lane then s
  else
    let s1 := withMod s sl (setLane m lane false (!laneUp (modOf s (otherSlot sl)) lane))
    let m1 := modOf s1 sl
    if m1.pair.linkUp && !m1.pair.lane0 && !m1.pair.lane1 then linkDown sl s1 else s1

def execSyncLaneDown (sl : Slot) (lane : Nat) (s : State) : Res := .next (laneLost sl lane s)

/-- WIRING_MISMATCH where the codes of the two modules differ (R320). -/
def compareWiring (m p : Module) : Module :=
  if !serving m || !serving p || !linked m p then m
  else
    let bad := m.hw.wiring != p.hw.wiring
    let m1 := pairMod m (fun x => { x with wiringMismatch := bad })
    refresh (if bad then logEv m1 0x0807 5 0 0xFFFF (leBytes 1 (wiringOf m) ++ leBytes 1 (wiringOf p)) else m1)

/-- The link has trained, or a module on it begins to serve: codes are exchanged, and a module in READY claims where it may
(R278, R301, R320). -/
def trained (m p : Module) : Module := readyClaim (compareWiring m p) p

/-- A lane is up again after 1 ms of lock and good frames; the link trains when both modules have one. -/
def laneBack (lane : Nat) (m p : Module) : Module × Module :=
  if !drivesLink m || decide (1 < lane) || laneUp m lane then (m, p)
  else
    let m1 := setLane m lane true (laneUp p lane)
    if m1.pair.linkUp || !(drivesLink p && (p.pair.lane0 || p.pair.lane1)) then (m1, p)
    else
      let up (x : Module) : Module :=
        emit (pairMod (almMod x (fun a => { a with alignDue := true })) (fun y => { y with linkUp := true })) (.sync (.wiring x.hw.wiring))
      let m2 := up m1
      let p2 := up p
      let m3 := trained m2 p2
      (m3, trained p2 m3)

def execSyncLaneUp (sl : Slot) (lane : Nat) (s : State) : Res := onBoth s sl (laneBack lane)

/-- The self-tests end: READY, or HALT with 0x10 and the unit that failed (R29, R53). A module in READY meets its partner where the
link is up. -/
def selftests (failed : Option Nat) (m p : Module) : Module × Module :=
  if !hasPower m || m.boot.state != .starting then (m, p)
  else match failed with
    | some u => (enterHalt (setFail m (0x10 + u % 8)), p)
    | none =>
      let m1 := trained (goReady m) p
      (m1, if linked m1 p then compareWiring p m1 else p)

def execSelftestDone (sl : Slot) (failed : Option Nat) (s : State) : Res := onBoth s sl (selftests failed)

/-! ### The catch-up of a warm takeover (R282) -/

/-- One frame of a bound ring drop: the values of the last checkpoint, STALE, and the SEQ of the last boundary that has passed. -/
def catchupDrop (launch : W64) (p : Module) (m : Module) (id : Nat) : Module :=
  match dropOf m id with
  | none => m
  | some d =>
    if d.st != .online || d.task.isNone then m
    else
      let m1 := dropMod m id (fun d => { d with lastSeq := d.outSeq - 1, lastStale := true, lastData := outData m id d })
      match d.kind with
      | .ring => if leadOnlyDrop m d && m.pair.window then m1 else sendOut m1 p id launch
      | _ => m1

/-- WARM_CATCHUP_LAUNCH: then the tasks run from the next boundary. -/
def catchupLaunch (launch : W64) (m p : Module) : Module :=
  if !inRun m || !isLead m || !m.pair.catchup then m
  else
    let m1 := (tkeys m.field.drops).foldl (catchupDrop launch p) m
    enterCycles (pairMod m1 (fun x => { x with catchup := false }))
where
  /-- Boundaries that have passed are over. -/
  enterCycles (m : Module) : Module :=
    allTasks m (fun k => if bounded k && decide (almDiff k.next m.exec.lastStep ≤ 0) then { k with next := gridAfter k (now m), offset := 0 } else k)

def execWarmCatchupLaunch (sl : Slot) (launch : W64) (s : State) : Res := onPair s sl (catchupLaunch launch)

/-! ### Imports (R119, R120) -/

/-- The import that a datagram is for. -/
def importOf (m : Module) (dg : PubDgram) : Option (Nat × Import) :=
  m.store.imports.find? (fun x => x.2.source == dg.source && x.2.domain == dg.domain && x.2.pubId == dg.pubId)

/-- Entries of a datagram by their index in the publication. -/
def dgEntries (dg : PubDgram) : List (Nat × W64 × W16 × Nat) := dg.entries.mapIdx (fun i e => (dg.first + i, e.1, e.2.1, e.2.2))

/-- A datagram whose TIME lies more than 10 s from that of the last SEQ taken up restarts the sequence. -/
def restartsSeq (x : Import) (dg : PubDgram) : Bool :=
  let last : Option W64 := if x.asmFrags.isEmpty then (x.heldKey.map (fun _ => x.heldTime)) else some x.asmTime
  match last with
  | some t => decide (10000000000 < (almDiff dg.time t).natAbs)
  | none => false

/-- A fragment: a newer SEQ drops an incomplete one; the SEQ is held once all FRAGS are here. -/
def assemble (x : Import) (dg : PubDgram) : Import :=
  let asm : Bool := !x.asmFrags.isEmpty
  let stale : Bool := match x.heldKey with
    | some k => !newer32 dg.seq k
    | none => false
  if stale || (asm && x.asmSeq != dg.seq && !newer32 dg.seq x.asmSeq) || (asm && x.asmSeq == dg.seq && x.asmFrags.contains dg.frag) then x
  else
    let y : Import :=
      if asm && x.asmSeq == dg.seq then { x with asmFrags := x.asmFrags ++ [dg.frag], asmEnts := x.asmEnts ++ dgEntries dg, asmStale := x.asmStale || dg.stale }
      else { x with asmSeq := dg.seq, asmTime := dg.time, asmFrags := [dg.frag], asmEnts := dgEntries dg, asmStale := dg.stale }
    if (List.range dg.frags).all (fun i => y.asmFrags.contains i) then
      { y with heldKey := some y.asmSeq, heldTime := y.asmTime, heldEnts := y.asmEnts, heldStale := y.asmStale, asmFrags := [], asmEnts := [] }
    else y

/-- Change an import. -/
def importMod (m : Module) (id : Nat) (f : Import → Import) : Module := { m with store := { m.store with imports := tmod m.store.imports id f } }

/-- IMPORT_DATAGRAM_RECEIVE at the lead; a sequence that restarts does so on both modules. -/
def takeDatagram (dg : PubDgram) (m p : Module) : Module × Module :=
  if !serving m || !isLead m then (m, p)
  else match importOf m dg with
    | none => (udpDiscard m, p)
    | some (id, x) =>
      if !dg.crcGood then (udpDiscard m, p)
      else if restartsSeq x dg then
        let clear (y : Import) : Import := { y with heldKey := none, agreedKey := none, asmFrags := [], asmEnts := [] }
        (importMod m id (fun y => assemble (clear y) dg), if linked m p then importMod p id clear else p)
      else (importMod m id (fun y => assemble y dg), p)

def execImportDatagramReceive (sl : Slot) (dg : PubDgram) (s : State) : Res := onBoth s sl (takeDatagram dg)

end Sys2Proof.Machine
end

