-- ==== Sys2Proof/Machine/Dispatch.lean ====
section
/-! DEFINITION. Machine/Dispatch.lean: which meaning each command has, one arm per row of spec/opcode_table.json. -/

namespace Sys2Proof.Machine
open Sys2Proof

/-- The effect of a command on everything but the queue. -/
def exec (i : Instr) (s : State) : Host.Outcome State Fault Refusal :=
  match i with
  | .powerUpStart sl => Sys2Proof.Machine.execPowerUpStart sl s
  | .powerGood sl => Sys2Proof.Machine.execPowerGood sl s
  | .loaderReady sl => Sys2Proof.Machine.execLoaderReady sl s
  | .mreset sl => Sys2Proof.Machine.execMreset sl s
  | .perst sl => Sys2Proof.Machine.execPerst sl s
  | .lanternWatchdogExpiry sl => Sys2Proof.Machine.execLanternWatchdogExpiry sl s
  | .lockstepFault sl unit => Sys2Proof.Machine.execLockstepFault sl unit s
  | .registerWrite sl offset value narrow => Sys2Proof.Machine.execRegisterWrite sl offset value narrow s
  | .bootGo sl hdrFirst relayEn => Sys2Proof.Machine.execBootGo sl hdrFirst relayEn s
  | .relayEnWrite sl relayEn => Sys2Proof.Machine.execRelayEnWrite sl relayEn s
  | .bootReset sl key => Sys2Proof.Machine.execBootReset sl key s
  | .imgOpen sl cls pull => Sys2Proof.Machine.execImgOpen sl cls pull s
  | .imgPull sl cls => Sys2Proof.Machine.execImgPull sl cls s
  | .imgAbort sl cls => Sys2Proof.Machine.execImgAbort sl cls s
  | .imgClose sl cls => Sys2Proof.Machine.execImgClose sl cls s
  | .apertureWrite sl offset data => Sys2Proof.Machine.execApertureWrite sl offset data s
  | .pullReadCompletion sl offset data => Sys2Proof.Machine.execPullReadCompletion sl offset data s
  | .pullReadTimeout sl offset => Sys2Proof.Machine.execPullReadTimeout sl offset s
  | .headerFirstCheck sl => Sys2Proof.Machine.execHeaderFirstCheck sl s
  | .partnerRelayStart sl => Sys2Proof.Machine.execPartnerRelayStart sl s
  | .syncRelayBlockReceive sl cls block data crc => Sys2Proof.Machine.execSyncRelayBlockReceive sl cls block data crc s
  | .verifyDone sl eccError => Sys2Proof.Machine.execVerifyDone sl eccError s
  | .selftestDone sl failed => Sys2Proof.Machine.execSelftestDone sl failed s
  | .patrolPassEnd sl seconds => Sys2Proof.Machine.execPatrolPassEnd sl seconds s
  | .dramUncorrectable sl region addr task => Sys2Proof.Machine.execDramUncorrectable sl region addr task s
  | .mramUncorrectable sl addr entry => Sys2Proof.Machine.execMramUncorrectable sl addr entry s
  | .attach sl page => Sys2Proof.Machine.execAttach sl page s
  | .detach sl => Sys2Proof.Machine.execDetach sl s
  | .doorbellSqTail sl qp value => Sys2Proof.Machine.execDoorbellSqTail sl qp value s
  | .doorbellCqHead sl qp value => Sys2Proof.Machine.execDoorbellCqHead sl qp value s
  | .anchorHeartbeat sl => Sys2Proof.Machine.execAnchorHeartbeat sl s
  | .descriptorFetch sl qp d req => Sys2Proof.Machine.execDescriptorFetch sl qp d req s
  | .requestDmaTimeout sl qp d => Sys2Proof.Machine.execRequestDmaTimeout sl qp d s
  | .completionPost sl qp => Sys2Proof.Machine.execCompletionPost sl qp s
  | .coalesceAgeExpiry sl qp => Sys2Proof.Machine.execCoalesceAgeExpiry sl qp s
  | .dupFinalReport sl => Sys2Proof.Machine.execDupFinalReport sl s
  | .udpDatagramReceive sl dg => Sys2Proof.Machine.execUdpDatagramReceive sl dg s
  | .udpSequenceStatusReceive sl qp peer port next => Sys2Proof.Machine.execUdpSequenceStatusReceive sl qp peer port next s
  | .udpResendTimer sl qp => Sys2Proof.Machine.execUdpResendTimer sl qp s
  | .sessionOpen sl c => Sys2Proof.Machine.execSessionOpen sl c s
  | .sessionClose sl c => Sys2Proof.Machine.execSessionClose sl c s
  | .sessionStatus sl c => Sys2Proof.Machine.execSessionStatus sl c s
  | .sessionTickets sl c => Sys2Proof.Machine.execSessionTickets sl c s
  | .sessionReticket sl c => Sys2Proof.Machine.execSessionReticket sl c s
  | .sessionNop sl c => Sys2Proof.Machine.execSessionNop sl c s
  | .sessionCoalesce sl c => Sys2Proof.Machine.execSessionCoalesce sl c s
  | .pointRead sl c => Sys2Proof.Machine.execPointRead sl c s
  | .pointWrite sl c => Sys2Proof.Machine.execPointWrite sl c s
  | .pointAlloc sl c => Sys2Proof.Machine.execPointAlloc sl c s
  | .pointFree sl c => Sys2Proof.Machine.execPointFree sl c s
  | .pointDescribe sl c => Sys2Proof.Machine.execPointDescribe sl c s
  | .pointSubscribe sl c => Sys2Proof.Machine.execPointSubscribe sl c s
  | .pointUnsubscribe sl c => Sys2Proof.Machine.execPointUnsubscribe sl c s
  | .pointForce sl c => Sys2Proof.Machine.execPointForce sl c s
  | .pointUnforce sl c => Sys2Proof.Machine.execPointUnforce sl c s
  | .pointRetain sl c => Sys2Proof.Machine.execPointRetain sl c s
  | .pointPublish sl c => Sys2Proof.Machine.execPointPublish sl c s
  | .pointImport sl c => Sys2Proof.Machine.execPointImport sl c s
  | .taskDefine sl c => Sys2Proof.Machine.execTaskDefine sl c s
  | .taskLoad sl c => Sys2Proof.Machine.execTaskLoad sl c s
  | .taskSwap sl c => Sys2Proof.Machine.execTaskSwap sl c s
  | .taskStart sl c => Sys2Proof.Machine.execTaskStart sl c s
  | .taskStop sl c => Sys2Proof.Machine.execTaskStop sl c s
  | .taskDelete sl c => Sys2Proof.Machine.execTaskDelete sl c s
  | .taskStatus sl c => Sys2Proof.Machine.execTaskStatus sl c s
  | .taskIcal sl c => Sys2Proof.Machine.execTaskIcal sl c s
  | .glintLoad sl c => Sys2Proof.Machine.execGlintLoad sl c s
  | .glintSwap sl c => Sys2Proof.Machine.execGlintSwap sl c s
  | .glintStatus sl c => Sys2Proof.Machine.execGlintStatus sl c s
  | .segmentConfig sl c => Sys2Proof.Machine.execSegmentConfig sl c s
  | .segmentBind sl c => Sys2Proof.Machine.execSegmentBind sl c s
  | .segmentSchedule sl c => Sys2Proof.Machine.execSegmentSchedule sl c s
  | .segmentStatus sl c => Sys2Proof.Machine.execSegmentStatus sl c s
  | .dropAdd sl c => Sys2Proof.Machine.execDropAdd sl c s
  | .dropRemove sl c => Sys2Proof.Machine.execDropRemove sl c s
  | .dropSend sl c => Sys2Proof.Machine.execDropSend sl c s
  | .dropStatus sl c => Sys2Proof.Machine.execDropStatus sl c s
  | .pairStatus sl c => Sys2Proof.Machine.execPairStatus sl c s
  | .pairRun sl c => Sys2Proof.Machine.execPairRun sl c s
  | .pairWithdraw sl c => Sys2Proof.Machine.execPairWithdraw sl c s
  | .pairEquinox sl c => Sys2Proof.Machine.execPairEquinox sl c s
  | .pairResync sl c => Sys2Proof.Machine.execPairResync sl c s
  | .pairWitness sl c => Sys2Proof.Machine.execPairWitness sl c s
  | .timeStatus sl c => Sys2Proof.Machine.execTimeStatus sl c s
  | .timeConfig sl c => Sys2Proof.Machine.execTimeConfig sl c s
  | .timeStep sl c => Sys2Proof.Machine.execTimeStep sl c s
  | .timeRate sl c => Sys2Proof.Machine.execTimeRate sl c s
  | .timePps sl c => Sys2Proof.Machine.execTimePps sl c s
  | .chronicleBounds sl c => Sys2Proof.Machine.execChronicleBounds sl c s
  | .chronicleRead sl c => Sys2Proof.Machine.execChronicleRead sl c s
  | .chronicleLimit sl c => Sys2Proof.Machine.execChronicleLimit sl c s
  | .chronicleNote sl c => Sys2Proof.Machine.execChronicleNote sl c s
  | .localioConfig sl c => Sys2Proof.Machine.execLocalioConfig sl c s
  | .localioStatus sl c => Sys2Proof.Machine.execLocalioStatus sl c s
  | .localioTrim sl c => Sys2Proof.Machine.execLocalioTrim sl c s
  | .localioTrimLock sl c => Sys2Proof.Machine.execLocalioTrimLock sl c s
  | .localioVigil sl c => Sys2Proof.Machine.execLocalioVigil sl c s
  | .haloConnect sl c => Sys2Proof.Machine.execHaloConnect sl c s
  | .haloRelease sl c => Sys2Proof.Machine.execHaloRelease sl c s
  | .haloParamLoad sl c => Sys2Proof.Machine.execHaloParamLoad sl c s
  | .haloParamConfirm sl c => Sys2Proof.Machine.execHaloParamConfirm sl c s
  | .haloChange sl c => Sys2Proof.Machine.execHaloChange sl c s
  | .haloAck sl c => Sys2Proof.Machine.execHaloAck sl c s
  | .haloStatus sl c => Sys2Proof.Machine.execHaloStatus sl c s
  | .imageStatus sl c => Sys2Proof.Machine.execImageStatus sl c s
  | .imageActivate sl c => Sys2Proof.Machine.execImageActivate sl c s
  | .imageRevert sl c => Sys2Proof.Machine.execImageRevert sl c s
  | .imageDiscard sl c => Sys2Proof.Machine.execImageDiscard sl c s
  | .imageRelay sl c => Sys2Proof.Machine.execImageRelay sl c s
  | .maintTake sl c => Sys2Proof.Machine.execMaintTake sl c s
  | .maintGive sl c => Sys2Proof.Machine.execMaintGive sl c s
  | .maintStatus sl c => Sys2Proof.Machine.execMaintStatus sl c s
  | .partitionCreate sl c => Sys2Proof.Machine.execPartitionCreate sl c s
  | .partitionDelete sl c => Sys2Proof.Machine.execPartitionDelete sl c s
  | .partitionCaps sl c => Sys2Proof.Machine.execPartitionCaps sl c s
  | .partitionRunlock sl c => Sys2Proof.Machine.execPartitionRunlock sl c s
  | .guardRegions sl c => Sys2Proof.Machine.execGuardRegions sl c s
  | .guardViolation sl c => Sys2Proof.Machine.execGuardViolation sl c s
  | .guardClear sl c => Sys2Proof.Machine.execGuardClear sl c s
  | .diagCounters sl c => Sys2Proof.Machine.execDiagCounters sl c s
  | .diagThermal sl c => Sys2Proof.Machine.execDiagThermal sl c s
  | .diagMemory sl c => Sys2Proof.Machine.execDiagMemory sl c s
  | .diagLanes sl c => Sys2Proof.Machine.execDiagLanes sl c s
  | .diagSelftest sl c => Sys2Proof.Machine.execDiagSelftest sl c s
  | .arbiterWindowEnd sl requests => Sys2Proof.Machine.execArbiterWindowEnd sl requests s
  | .step sl instant => Sys2Proof.Machine.execStep sl instant s
  | .syncSummaryReceive sl instant entries => Sys2Proof.Machine.execSyncSummaryReceive sl instant entries s
  | .syncContentReceive sl instant items => Sys2Proof.Machine.execSyncContentReceive sl instant items s
  | .syncSealReceive sl task start sealTime digest => Sys2Proof.Machine.execSyncSealReceive sl task start sealTime digest s
  | .syncCheckpointReceive sl task instant ws => Sys2Proof.Machine.execSyncCheckpointReceive sl task instant ws s
  | .syncWriteSetReceive sl task instant ws => Sys2Proof.Machine.execSyncWriteSetReceive sl task instant ws s
  | .syncJournalEntryReceive sl qp d req assigned => Sys2Proof.Machine.execSyncJournalEntryReceive sl qp d req assigned s
  | .syncJournalAckReceive sl qp ticket => Sys2Proof.Machine.execSyncJournalAckReceive sl qp ticket s
  | .syncFinalReportReceive sl finals => Sys2Proof.Machine.execSyncFinalReportReceive sl finals s
  | .syncChronicleMirrorReceive sl rec => Sys2Proof.Machine.execSyncChronicleMirrorReceive sl rec s
  | .syncShadowEventReceive sl ev => Sys2Proof.Machine.execSyncShadowEventReceive sl ev s
  | .syncIcalAnnounceReceive sl task candidate => Sys2Proof.Machine.execSyncIcalAnnounceReceive sl task candidate s
  | .syncOnlineAnnounceReceive sl drop version online s0 mac => Sys2Proof.Machine.execSyncOnlineAnnounceReceive sl drop version online s0 mac s
  | .syncRelayFrameReceive sl segment f => Sys2Proof.Machine.execSyncRelayFrameReceive sl segment f s
  | .syncAcyAckRelayReceive sl drop seq => Sys2Proof.Machine.execSyncAcyAckRelayReceive sl drop seq s
  | .syncTrimReportReceive sl channel average spread => Sys2Proof.Machine.execSyncTrimReportReceive sl channel average spread s
  | .syncResyncDataReceive sl item => Sys2Proof.Machine.execSyncResyncDataReceive sl item s
  | .syncStepAnnounceReceive sl instant delta => Sys2Proof.Machine.execSyncStepAnnounceReceive sl instant delta s
  | .syncTimeReceive sl time adj => Sys2Proof.Machine.execSyncTimeReceive sl time adj s
  | .partnerTimeSend sl => Sys2Proof.Machine.execPartnerTimeSend sl s
  | .retainedApply sl task => Sys2Proof.Machine.execRetainedApply sl task s
  | .subscriptionReportDeferred sl sub handle consumer => Sys2Proof.Machine.execSubscriptionReportDeferred sl sub handle consumer s
  | .importDatagramReceive sl dg => Sys2Proof.Machine.execImportDatagramReceive sl dg s
  | .clusterMismatch sl cluster => Sys2Proof.Machine.execClusterMismatch sl cluster s
  | .clusterResetDone sl cluster => Sys2Proof.Machine.execClusterResetDone sl cluster s
  | .icalWindowClose sl task => Sys2Proof.Machine.execIcalWindowClose sl task s
  | .icalEdge sl falling time => Sys2Proof.Machine.execIcalEdge sl falling time s
  | .lNop sl u => Sys2Proof.Machine.execLNop sl u s
  | .pushi sl u imm => Sys2Proof.Machine.execPushi sl u imm s
  | .pushb sl u imm => Sys2Proof.Machine.execPushb sl u imm s
  | .pushc sl u t k => Sys2Proof.Machine.execPushc sl u t k s
  | .ldp sl u t idx => Sys2Proof.Machine.execLdp sl u t idx s
  | .stp sl u t idx => Sys2Proof.Machine.execStp sl u t idx s
  | .ldq sl u t idx => Sys2Proof.Machine.execLdq sl u t idx s
  | .ldtm sl u t idx => Sys2Proof.Machine.execLdtm sl u t idx s
  | .ldx sl u t base count => Sys2Proof.Machine.execLdx sl u t base count s
  | .stx sl u t base count => Sys2Proof.Machine.execStx sl u t base count s
  | .ldl sl u l => Sys2Proof.Machine.execLdl sl u l s
  | .stl sl u l => Sys2Proof.Machine.execStl sl u l s
  | .dup sl u => Sys2Proof.Machine.execDup sl u s
  | .lDrop sl u => Sys2Proof.Machine.execLDrop sl u s
  | .lSwap sl u => Sys2Proof.Machine.execLSwap sl u s
  | .over sl u => Sys2Proof.Machine.execOver sl u s
  | .rot sl u => Sys2Proof.Machine.execRot sl u s
  | .add sl u t => Sys2Proof.Machine.execAdd sl u t s
  | .sub sl u t => Sys2Proof.Machine.execSub sl u t s
  | .mul sl u t => Sys2Proof.Machine.execMul sl u t s
  | .div sl u t => Sys2Proof.Machine.execDiv sl u t s
  | .mod sl u t => Sys2Proof.Machine.execMod sl u t s
  | .neg sl u t => Sys2Proof.Machine.execNeg sl u t s
  | .abs sl u t => Sys2Proof.Machine.execAbs sl u t s
  | .min sl u t => Sys2Proof.Machine.execMin sl u t s
  | .max sl u t => Sys2Proof.Machine.execMax sl u t s
  | .eq sl u t => Sys2Proof.Machine.execEq sl u t s
  | .ne sl u t => Sys2Proof.Machine.execNe sl u t s
  | .lt sl u t => Sys2Proof.Machine.execLt sl u t s
  | .le sl u t => Sys2Proof.Machine.execLe sl u t s
  | .gt sl u t => Sys2Proof.Machine.execGt sl u t s
  | .ge sl u t => Sys2Proof.Machine.execGe sl u t s
  | .and sl u => Sys2Proof.Machine.execAnd sl u s
  | .or sl u => Sys2Proof.Machine.execOr sl u s
  | .xor sl u => Sys2Proof.Machine.execXor sl u s
  | .not sl u => Sys2Proof.Machine.execNot sl u s
  | .band sl u t => Sys2Proof.Machine.execBand sl u t s
  | .bor sl u t => Sys2Proof.Machine.execBor sl u t s
  | .bxor sl u t => Sys2Proof.Machine.execBxor sl u t s
  | .bnot sl u t => Sys2Proof.Machine.execBnot sl u t s
  | .shl sl u t => Sys2Proof.Machine.execShl sl u t s
  | .shr sl u t => Sys2Proof.Machine.execShr sl u t s
  | .shru sl u t => Sys2Proof.Machine.execShru sl u t s
  | .cvt sl u target source => Sys2Proof.Machine.execCvt sl u target source s
  | .sqrt sl u t => Sys2Proof.Machine.execSqrt sl u t s
  | .exp sl u t => Sys2Proof.Machine.execExp sl u t s
  | .ln sl u t => Sys2Proof.Machine.execLn sl u t s
  | .sin sl u t => Sys2Proof.Machine.execSin sl u t s
  | .cos sl u t => Sys2Proof.Machine.execCos sl u t s
  | .atan2 sl u t => Sys2Proof.Machine.execAtan2 sl u t s
  | .qget sl u => Sys2Proof.Machine.execQget sl u s
  | .qset sl u => Sys2Proof.Machine.execQset sl u s
  | .endCycle sl u => Sys2Proof.Machine.execEndCycle sl u s
  | .br sl u off => Sys2Proof.Machine.execBr sl u off s
  | .brt sl u off => Sys2Proof.Machine.execBrt sl u off s
  | .brf sl u off => Sys2Proof.Machine.execBrf sl u off s
  | .call sl u block => Sys2Proof.Machine.execCall sl u block s
  | .ret sl u => Sys2Proof.Machine.execRet sl u s
  | .now sl u => Sys2Proof.Machine.execNow sl u s
  | .dt sl u => Sys2Proof.Machine.execDt sl u s
  | .first sl u => Sys2Proof.Machine.execFirst sl u s
  | .exc sl u => Sys2Proof.Machine.execExc sl u s
  | .pid sl u base => Sys2Proof.Machine.execPid sl u base s
  | .ramp sl u base => Sys2Proof.Machine.execRamp sl u base s
  | .leadlag sl u base => Sys2Proof.Machine.execLeadlag sl u base s
  | .total sl u base => Sys2Proof.Machine.execTotal sl u base s
  | .timer sl u variant base => Sys2Proof.Machine.execTimer sl u variant base s
  | .select sl u n base => Sys2Proof.Machine.execSelect sl u n base s
  | .limit sl u t => Sys2Proof.Machine.execLimit sl u t s
  | .deadband sl u variant base => Sys2Proof.Machine.execDeadband sl u variant base s
  | .glintLd sl addr => Sys2Proof.Machine.execGlintLd sl addr s
  | .glintLdn sl addr => Sys2Proof.Machine.execGlintLdn sl addr s
  | .glintAnd sl addr => Sys2Proof.Machine.execGlintAnd sl addr s
  | .glintAndn sl addr => Sys2Proof.Machine.execGlintAndn sl addr s
  | .glintOr sl addr => Sys2Proof.Machine.execGlintOr sl addr s
  | .glintOrn sl addr => Sys2Proof.Machine.execGlintOrn sl addr s
  | .glintXor sl addr => Sys2Proof.Machine.execGlintXor sl addr s
  | .glintSt sl addr => Sys2Proof.Machine.execGlintSt sl addr s
  | .glintStn sl addr => Sys2Proof.Machine.execGlintStn sl addr s
  | .glintSet sl addr => Sys2Proof.Machine.execGlintSet sl addr s
  | .glintRst sl addr => Sys2Proof.Machine.execGlintRst sl addr s
  | .glintAndp sl addr => Sys2Proof.Machine.execGlintAndp sl addr s
  | .glintOrp sl addr => Sys2Proof.Machine.execGlintOrp sl addr s
  | .glintPop sl => Sys2Proof.Machine.execGlintPop sl s
  | .glintTon sl n => Sys2Proof.Machine.execGlintTon sl n s
  | .glintTof sl n => Sys2Proof.Machine.execGlintTof sl n s
  | .glintTp sl n => Sys2Proof.Machine.execGlintTp sl n s
  | .glintCtu sl n => Sys2Proof.Machine.execGlintCtu sl n s
  | .glintCtd sl n => Sys2Proof.Machine.execGlintCtd sl n s
  | .glintCrst sl n => Sys2Proof.Machine.execGlintCrst sl n s
  | .glintCld sl n => Sys2Proof.Machine.execGlintCld sl n s
  | .glintSkipf sl n => Sys2Proof.Machine.execGlintSkipf sl n s
  | .glintSkipt sl n => Sys2Proof.Machine.execGlintSkipt sl n s
  | .glintNop sl => Sys2Proof.Machine.execGlintNop sl s
  | .glintSweepEnd sl => Sys2Proof.Machine.execGlintSweepEnd sl s
  | .glintTimerExpiry sl n => Sys2Proof.Machine.execGlintTimerExpiry sl n s
  | .glintBankSwitch sl => Sys2Proof.Machine.execGlintBankSwitch sl s
  | .gleamValue sl channel value => Sys2Proof.Machine.execGleamValue sl channel value s
  | .ringFrameForward sl segment f => Sys2Proof.Machine.execRingFrameForward sl segment f s
  | .spliceFieldTimeout sl entry => Sys2Proof.Machine.execSpliceFieldTimeout sl entry s
  | .heldFrameRelease sl segment => Sys2Proof.Machine.execHeldFrameRelease sl segment s
  | .inFrameReceive sl segment f => Sys2Proof.Machine.execInFrameReceive sl segment f s
  | .acyAckReceive sl segment f => Sys2Proof.Machine.execAcyAckReceive sl segment f s
  | .syncFrameReceive sl segment f => Sys2Proof.Machine.execSyncFrameReceive sl segment f s
  | .helloReceive sl segment f => Sys2Proof.Machine.execHelloReceive sl segment f s
  | .assignRetransmit sl drop => Sys2Proof.Machine.execAssignRetransmit sl drop s
  | .acyRetransmit sl drop => Sys2Proof.Machine.execAcyRetransmit sl drop s
  | .acyDeliveryTimeout sl drop seq => Sys2Proof.Machine.execAcyDeliveryTimeout sl drop seq s
  | .checkFrameLaunch sl => Sys2Proof.Machine.execCheckFrameLaunch sl s
  | .checkFrameReturn sl segment f => Sys2Proof.Machine.execCheckFrameReturn sl segment f s
  | .ringClosedTimeout sl segment => Sys2Proof.Machine.execRingClosedTimeout sl segment s
  | .ringLaneLockLoss sl lane => Sys2Proof.Machine.execRingLaneLockLoss sl lane s
  | .ringPtpSyncSend sl => Sys2Proof.Machine.execRingPtpSyncSend sl s
  | .pdelayMeasure sl lane delay => Sys2Proof.Machine.execPdelayMeasure sl lane delay s
  | .dropFrameForward id up f ptp => Sys2Proof.Machine.execDropFrameForward id up f ptp s
  | .dropOutAccept id f now => Sys2Proof.Machine.execDropOutAccept id f now s
  | .dropApplyTime id => Sys2Proof.Machine.execDropApplyTime id s
  | .dropOutputWatchdogExpiry id => Sys2Proof.Machine.execDropOutputWatchdogExpiry id s
  | .dropOutAbsenceTimeout id => Sys2Proof.Machine.execDropOutAbsenceTimeout id s
  | .dropAcyReceive id seq cls payload => Sys2Proof.Machine.execDropAcyReceive id seq cls payload s
  | .dropAssignReceive id f => Sys2Proof.Machine.execDropAssignReceive id f s
  | .dropHelloTimer id => Sys2Proof.Machine.execDropHelloTimer id s
  | .dropSyncEvent id code time => Sys2Proof.Machine.execDropSyncEvent id code time s
  | .dropLinkLoss id up => Sys2Proof.Machine.execDropLinkLoss id up s
  | .dropLinkStable id up => Sys2Proof.Machine.execDropLinkStable id up s
  | .busSlotStart sl bus => Sys2Proof.Machine.execBusSlotStart sl bus s
  | .canTxResult sl bus r => Sys2Proof.Machine.execCanTxResult sl bus r s
  | .canInReceive sl bus f => Sys2Proof.Machine.execCanInReceive sl bus f s
  | .canPartnerOutReceive sl bus f => Sys2Proof.Machine.execCanPartnerOutReceive sl bus f s
  | .canHelloReceive sl bus f => Sys2Proof.Machine.execCanHelloReceive sl bus f s
  | .canSyncReceive sl bus f => Sys2Proof.Machine.execCanSyncReceive sl bus f s
  | .busRowEnd sl bus cut => Sys2Proof.Machine.execBusRowEnd sl bus cut s
  | .busOffRecovery sl bus => Sys2Proof.Machine.execBusOffRecovery sl bus s
  | .lineSlotStart sl line => Sys2Proof.Machine.execLineSlotStart sl line s
  | .lineTakeover sl line => Sys2Proof.Machine.execLineTakeover sl line s
  | .lineReplyReceive sl line bytes good => Sys2Proof.Machine.execLineReplyReceive sl line bytes good s
  | .lineReplyTimeout sl line => Sys2Proof.Machine.execLineReplyTimeout sl line s
  | .syncLaneDown sl lane => Sys2Proof.Machine.execSyncLaneDown sl lane s
  | .syncLaneUp sl lane => Sys2Proof.Machine.execSyncLaneUp sl lane s
  | .renewTimer sl => Sys2Proof.Machine.execRenewTimer sl s
  | .presentTimer sl => Sys2Proof.Machine.execPresentTimer sl s
  | .claimTimer sl => Sys2Proof.Machine.execClaimTimer sl s
  | .leaseCheck sl => Sys2Proof.Machine.execLeaseCheck sl s
  | .claimReplyTimeout sl => Sys2Proof.Machine.execClaimReplyTimeout sl s
  | .readyClaimTimer sl => Sys2Proof.Machine.execReadyClaimTimer sl s
  | .grant sl msg => Sys2Proof.Machine.execGrant sl msg s
  | .renewed sl msg => Sys2Proof.Machine.execRenewed sl msg s
  | .wait sl msg => Sys2Proof.Machine.execWait sl msg s
  | .denied sl msg => Sys2Proof.Machine.execDenied sl msg s
  | .stale sl msg => Sys2Proof.Machine.execStale sl msg s
  | .witnessAck sl msg => Sys2Proof.Machine.execWitnessAck sl msg s
  | .renew sl msg => Sys2Proof.Machine.execRenew sl msg s
  | .claim sl msg => Sys2Proof.Machine.execClaim sl msg s
  | .release sl msg => Sys2Proof.Machine.execRelease sl msg s
  | .present sl msg => Sys2Proof.Machine.execPresent sl msg s
  | .witnessLeaseEnd => Sys2Proof.Machine.execWitnessLeaseEnd s
  | .claimPendingExpiry sl => Sys2Proof.Machine.execClaimPendingExpiry sl s
  | .releaseReservationEnd => Sys2Proof.Machine.execReleaseReservationEnd s
  | .warmCatchupLaunch sl now => Sys2Proof.Machine.execWarmCatchupLaunch sl now s
  | .equinoxDrainDone sl => Sys2Proof.Machine.execEquinoxDrainDone sl s
  | .equinoxDrainTimeout sl => Sys2Proof.Machine.execEquinoxDrainTimeout sl s
  | .equinoxNoticeReceive sl => Sys2Proof.Machine.execEquinoxNoticeReceive sl s
  | .equinoxGrantTimeout sl => Sys2Proof.Machine.execEquinoxGrantTimeout sl s
  | .equinoxDueTimer sl => Sys2Proof.Machine.execEquinoxDueTimer sl s
  | .autoResyncStart sl => Sys2Proof.Machine.execAutoResyncStart sl s
  | .resyncCopyDone sl => Sys2Proof.Machine.execResyncCopyDone sl s
  | .resyncFollowDone sl cutover => Sys2Proof.Machine.execResyncFollowDone sl cutover s
  | .resyncTimeout sl => Sys2Proof.Machine.execResyncTimeout sl s
  | .timeStepApply sl => Sys2Proof.Machine.execTimeStepApply sl s
  | .almCapture sl cap => Sys2Proof.Machine.execAlmCapture sl cap s
  | .almStep sl value => Sys2Proof.Machine.execAlmStep sl value s
  | .bar0StepLand sl => Sys2Proof.Machine.execBar0StepLand sl s
  | .ppsInEdge sl time => Sys2Proof.Machine.execPpsInEdge sl time s
  | .ppsInMissing sl => Sys2Proof.Machine.execPpsInMissing sl s
  | .ppsOutRise sl => Sys2Proof.Machine.execPpsOutRise sl s
  | .ppsOutFall sl => Sys2Proof.Machine.execPpsOutFall sl s
  | .ptpMessageReceive sl msg => Sys2Proof.Machine.execPtpMessageReceive sl msg s
  | .ptpAnnounceTimeout sl port => Sys2Proof.Machine.execPtpAnnounceTimeout sl port s
  | .hostPtpSyncSend sl port => Sys2Proof.Machine.execHostPtpSyncSend sl port s
  | .holdoverEnd sl => Sys2Proof.Machine.execHoldoverEnd sl s
  | .chronicleRecordWrite sl => Sys2Proof.Machine.execChronicleRecordWrite sl s
  | .summaryTimeout sl code => Sys2Proof.Machine.execSummaryTimeout sl code s
  | .loopSupplyUpdate sl => Sys2Proof.Machine.execLoopSupplyUpdate sl s
  | .loopSupplyThermal sl channel => Sys2Proof.Machine.execLoopSupplyThermal sl channel s
  | .loopSupplyRestart sl channel => Sys2Proof.Machine.execLoopSupplyRestart sl channel s
  | .cicOutput sl channel raw limited => Sys2Proof.Machine.execCicOutput sl channel raw limited s
  | .trimMeasureDone sl average spread => Sys2Proof.Machine.execTrimMeasureDone sl average spread s
  | .buttonPress sl => Sys2Proof.Machine.execButtonPress sl s
  | .buttonHeld sl which => Sys2Proof.Machine.execButtonHeld sl which s
  | .trimModeTimeout sl => Sys2Proof.Machine.execTrimModeTimeout sl s
  | .dioInputChange sl channel level => Sys2Proof.Machine.execDioInputChange sl channel level s
  | .diFilterPass sl channel => Sys2Proof.Machine.execDiFilterPass sl channel s
  | .doOverload sl channel milliamp => Sys2Proof.Machine.execDoOverload sl channel milliamp s
  | .doGroupLimit sl group => Sys2Proof.Machine.execDoGroupLimit sl group s
  | .doOvertemp sl channel => Sys2Proof.Machine.execDoOvertemp sl channel s
  | .doOpenWire sl channel => Sys2Proof.Machine.execDoOpenWire sl channel s
  | .doLatchRearm sl kind channel => Sys2Proof.Machine.execDoLatchRearm sl kind channel s
  | .doDiagClear sl kind channel bits => Sys2Proof.Machine.execDoDiagClear sl kind channel bits s
  | .fdoOverload sl channel => Sys2Proof.Machine.execFdoOverload sl channel s
  | .vigilExpiry sl kind channel => Sys2Proof.Machine.execVigilExpiry sl kind channel s
  | .soTestSlot sl slotNo => Sys2Proof.Machine.execSoTestSlot sl slotNo s
  | .soTestEnd sl pass fed => Sys2Proof.Machine.execSoTestEnd sl pass fed s
  | .soReleaseTimeout sl channel => Sys2Proof.Machine.execSoReleaseTimeout sl channel s
  | .edmInputChange sl channel level => Sys2Proof.Machine.execEdmInputChange sl channel level s
  | .edmTimeExpiry sl channel => Sys2Proof.Machine.execEdmTimeExpiry sl channel s
  | .fallbackLimitExpiry sl channel => Sys2Proof.Machine.execFallbackLimitExpiry sl channel s
  | .haloSelfCheck sl vectorsPass => Sys2Proof.Machine.execHaloSelfCheck sl vectorsPass s
  | .handoverLanternResume sl => Sys2Proof.Machine.execHandoverLanternResume sl s
  | .handoverPortSwitch sl port => Sys2Proof.Machine.execHandoverPortSwitch sl port s
  | .imageConfirm sl => Sys2Proof.Machine.execImageConfirm sl s
  | .confirmWindowClose sl => Sys2Proof.Machine.execConfirmWindowClose sl s
  | .fuseStepDone sl => Sys2Proof.Machine.execFuseStepDone sl s
  | .relayOfferReceive sl o => Sys2Proof.Machine.execRelayOfferReceive sl o s
  | .relayAcceptReceive sl tid result => Sys2Proof.Machine.execRelayAcceptReceive sl tid result s
  | .relayDataReceive sl tid block fragment payload => Sys2Proof.Machine.execRelayDataReceive sl tid block fragment payload s
  | .relayBlockAckReceive sl tid block bad => Sys2Proof.Machine.execRelayBlockAckReceive sl tid block bad s
  | .relayReportReceive sl tid index cls result code stored => Sys2Proof.Machine.execRelayReportReceive sl tid index cls result code stored s
  | .relayOfferTimeout sl => Sys2Proof.Machine.execRelayOfferTimeout sl s
  | .relayBlockAckTimeout sl => Sys2Proof.Machine.execRelayBlockAckTimeout sl s
  | .relayProgressTimeout sl => Sys2Proof.Machine.execRelayProgressTimeout sl s
  | .maintLeaseExpiry sl cls => Sys2Proof.Machine.execMaintLeaseExpiry sl cls s
  | .maintWaitTimeout sl qp ticket => Sys2Proof.Machine.execMaintWaitTimeout sl qp ticket s
  | .logicFeedLost sl feed millivolt => Sys2Proof.Machine.execLogicFeedLost sl feed millivolt s
  | .logicFeedRestored sl feed millivolt => Sys2Proof.Machine.execLogicFeedRestored sl feed millivolt s
  | .fieldFeedLost sl millivolt => Sys2Proof.Machine.execFieldFeedLost sl millivolt s
  | .fieldFeedRestored sl millivolt => Sys2Proof.Machine.execFieldFeedRestored sl millivolt s
  | .holdupReserveUpdate sl present at46 bank => Sys2Proof.Machine.execHoldupReserveUpdate sl present at46 bank s
  | .logicInputLowTimeout sl => Sys2Proof.Machine.execLogicInputLowTimeout sl s
  | .powerDownComplete sl => Sys2Proof.Machine.execPowerDownComplete sl s
  | .ejectorLeverOpen sl => Sys2Proof.Machine.execEjectorLeverOpen sl s
  | .ejectorLeverClosed sl => Sys2Proof.Machine.execEjectorLeverClosed sl s
  | .junctionRead sl t0 t1 t2 t3 => Sys2Proof.Machine.execJunctionRead sl t0 t1 t2 t3 s
  | .coldPlateRead sl t coolFor10s => Sys2Proof.Machine.execColdPlateRead sl t coolFor10s s
  | .mresetRelease sl => Sys2Proof.Machine.execMresetRelease sl s
  | .perstRelease sl => Sys2Proof.Machine.execPerstRelease sl s
  | .pcieLinkTrained sl => Sys2Proof.Machine.execPcieLinkTrained sl s
  | .ringLaneLinkUp sl lane => Sys2Proof.Machine.execRingLaneLinkUp sl lane s
  | .dropPowerUp id linkUp linkDown => Sys2Proof.Machine.execDropPowerUp id linkUp linkDown s
  | .dropPowerLoss id => Sys2Proof.Machine.execDropPowerLoss id s
  | .dropRowReceive id f => Sys2Proof.Machine.execDropRowReceive id f s
  | .dropInSlotTime id => Sys2Proof.Machine.execDropInSlotTime id s
  | .lineDropRequestReceive id bytes => Sys2Proof.Machine.execLineDropRequestReceive id bytes s
  | .witnessHoldoffEnd => Sys2Proof.Machine.execWitnessHoldoffEnd s
  | .syncRelayBlockAckReceive sl good => Sys2Proof.Machine.execSyncRelayBlockAckReceive sl good s
  | .imageVerdictReceive sl pass code => Sys2Proof.Machine.execImageVerdictReceive sl pass code s
  | .ptpAnnounceSend sl => Sys2Proof.Machine.execPtpAnnounceSend sl s
  | .ptpDelayReqSend sl port => Sys2Proof.Machine.execPtpDelayReqSend sl port s

end Sys2Proof.Machine
end

