-- ==== Sys2Proof/Machine/Step.lean ====
section
/-! DEFINITION. Machine/Step.lean: one step of the domain takes the command at the front of the queue; with an empty queue one
Almanac cycle passes on both modules. -/

namespace Sys2Proof.Machine
open Sys2Proof

/-- One Almanac cycle with no command: the time of each powered module advances (R293, log entry 7). -/
def idle (s : State) : State := { s with modA := almTick s.modA, modB := almTick s.modB }

/-- Take the front command and run it on the state with the queue's rest; an empty queue idles. -/
def step (s : State) : Host.Outcome State Fault Refusal :=
  match s.pending with
  | [] => .next (idle s)
  | c :: rest => exec c { s with pending := rest }

/-- The state with the command that a word spells at the front of its queue; unchanged where it spells none. -/
def State.withFetchWord (s : State) (nbits w : Nat) : State :=
  match decodeTableWord nbits w with
  | some c => { s with pending := c :: s.pending }
  | none => s

end Sys2Proof.Machine
end

