-- ==== Sys2Proof/Safety.lean ====
section
/-! DEFINITION. Safety.lean: the terms in which claims speak of safe states and of the effect of a command. -/

namespace Sys2Proof.Safety
open Sys2Proof Sys2Proof.Machine Sys2Proof.Bits

/-! ### The witness -/

/-- The record of the witness holds together (R276): a running lease has one holder, no hold-off runs beside it and nothing is reserved,
and the holder of the running lease has no CLAIM pending. -/
def WitnessOk (w : Witness) : Prop :=
  (w.running = true → w.holder.isSome = true ∧ w.holdoff = false ∧ w.reserved = none)
    ∧ ∀ sl, w.running = true → w.holder = some sl → pendOf w sl = none

/-- What every step keeps: the record of the witness holds together, and the drops of the field stand in one list with rising IDs. -/
def DomainOk (s : State) : Prop := WitnessOk s.witness ∧ tsorted s.stations = true

/-! ### The Glint engine -/

/-- A word of the sweep is due (R191). -/
def GlintDue (m : Module) : Prop := glintRuns m = true ∧ m.glint.pc < sweepLen m.glint

/-- What the bit program works on, apart from the literal map: ACC, the branch stack, words to skip, timers, counters and edges. -/
def gState (g : Glint) : Bool × List (Bool × Bool) × Nat × Table GTimer × Table Nat × Table Bool × Table Bool :=
  (g.acc, g.branch, g.skip, g.timers, g.counters, g.counterQ, g.edges)

/-- The command executes the next word of the sweep: the word index moves on by one, the state of the bit program becomes that of `f`,
and outside the engine only the outputs it drives may change. -/
def GlintStep (i : Instr) (s : State) (sl : Slot) (f : Glint → Glint) : Prop :=
  ∃ t, exec i s = .next t ∧ (modOf t sl).glint.pc = (modOf s sl).glint.pc + 1
    ∧ gState (modOf t sl).glint = gState (f (modOf s sl).glint)
    ∧ t = withMod s sl { modOf s sl with glint := (modOf t sl).glint, lio := (modOf t sl).lio, halo := (modOf t sl).halo }

/-! ### Lumen code -/

/-- The cycle `c` runs on unit `u` in the environment `env`, and the fetch of its next instruction passes the guard (R112, R139, R168). -/
def LumenDue (s : State) (sl : Slot) (u : Nat) (env : LEnv) (c : Cycle) : Prop :=
  ∃ c0, running (modOf s sl) u = some (env, c0) ∧ c = beginCycle env c0 ∧ partBlocked env (fetchUnit env c) 2 = none

/-- The entries on top of the stack, top first, all pushed by the running block, above `rest`; the stack holds at most 64 (R159). -/
def OnTop (c : Cycle) (es rest : List SEntry) : Prop := c.stack = es ++ rest ∧ baseOf c ≤ rest.length ∧ c.stack.length ≤ 64

/-- The cycle past an instruction of `len` words that took `cost` core cycles (R157, R164). -/
def past (len cost : Nat) (c : Cycle) : Cycle := modFrame { c with cost := c.cost + cost } (fun x => { x with pc := x.pc + len })

/-- The cycle past an instruction of `len` words that left the stack `st` and raised flags of the exception word (R163). -/
def after (cost : Nat) (c : Cycle) (st : List SEntry) (flags : W32 := 0) (len : Nat := 1) : Cycle :=
  { past len cost c with stack := st, exc := c.exc ||| flags }

/-- Entry `i` of the point table names with TYPE `t` and access `acc` (0 READ, 1 WRITE) the live point `r` with handle `h`, and the guard
lets the entry be read and the point be accessed so (R112, R113, R155). -/
def EntryOk (env : LEnv) (c : Cycle) (i acc : Nat) (t : LType) (h : W32) (r : PointRec) : Prop :=
  entryOf env i acc t = some h ∧ partBlocked env (unitAt env c 1 (8 * i)) 0 = none ∧ snapOf c h = some r
    ∧ pointBlocked env acc r.owner (hIdx h) = none

/-- The entries of a primitive's instance from `i` on may be read, and those with access 1 written; `vs` are their values with INIT
(R173, R174). -/
def InstanceOk (env : LEnv) (c : Cycle) : Nat → List (LType × Nat) → List (W64 × Bool) → Prop
  | _, [], vs => vs = []
  | i, (t, acc) :: ts, vs => ∃ h r rest, EntryOk env c i acc t h r ∧ pointBlocked env 0 r.owner (hIdx h) = none
      ∧ vs = (maskVal t (viewVal c h r), (viewQ c h r).getLsbD 0) :: rest ∧ InstanceOk env c (i + 1) ts rest

/-- The write set after the state of an instance at `base` was entered with quality `q` (R173). -/
def stateWritten (env : LEnv) (base : Nat) (q : W16) (ws : Table WEnt) (l : List (Nat × LType × W64)) : Table WEnt :=
  l.foldl (fun w x =>
    let h := (tableEntry env.table (base + x.1)).1
    tset w (hIdx h) { handle := h, value := maskVal x.2.1 x.2.2, quality := q &&& 0xC07C }) ws

/-- The instruction changes nothing but the cycle of its task, which becomes `c`. -/
def LumenStep (i : Instr) (s : State) (sl : Slot) (env : LEnv) (c : Cycle) : Prop :=
  exec i s = .next (withMod s sl (setCycle (modOf s sl) env.t c))

/-- A primitive of `cost` core cycles with its instance at `base` consumes stack operands of the types `ts`, deepest first, and gives what
`run` says of them and of the values of its instance: its output with the joined quality as its exceptions lower it, its flags, and its
state in the write set (R160, R173, R174). -/
def PrimStep (i : Instr) (s : State) (sl : Slot) (env : LEnv) (c : Cycle) (cost base : Nat) (ts : List LType) (inst : List (LType × Nat))
    (run : List SEntry → List (W64 × Bool) → POut) : Prop :=
  ∀ es rest vs, OnTop c es rest → es.reverse.map (fun e => e.ty) = ts → InstanceOk env c base inst vs →
    let r := run es.reverse vs
    let q := r.qual.foldl qLower (r.q.getD (qJoinAll (es.reverse.map (fun e => e.q))))
    let out : SEntry := { ty := r.ty, val := r.out, q := q }
    LumenStep i s sl env { after cost c (out :: rest) (w32 r.flags) with
      ws := stateWritten env base q c.ws r.state
      outs := match r.pidOut with
        | some o => tset c.outs (hIdx (tableEntry env.table (base + 6)).1) o
        | none => c.outs }

/-! ### Quondi commands -/

/-- The Quondi command leaves the state in which its module has entered the answer `r`: its final stage with a status, DETAIL, response and
effect, its wait, or its start. Nothing outside the module changes. -/
def Answers (i : Instr) (s : State) (sl : Slot) (kind : Kind) (code : Nat) (c : Cmd) (r : QRes) : Prop :=
  exec i s = .next (withMod s sl (settle (modOf s sl) kind code c r))

/-- The command of a lead leaves its module with the answer `r`, its partner as `p'` and the witness as `w'` (R270 to R292). -/
def AnswersPair (i : Instr) (s : State) (sl : Slot) (code : Nat) (c : Cmd) (r : QRes) (p' : Module) (w' : Witness) : Prop :=
  exec i s = .next { withMod (withMod s sl (settle (modOf s sl) .work code c r)) (otherSlot sl) p' with witness := w' }

/-! ### Events -/

/-- The event leaves the module of its slot as `m'` and changes nothing else. -/
def Becomes (i : Instr) (s : State) (sl : Slot) (m' : Module) : Prop := exec i s = .next (withMod s sl m')

/-- The event leaves the module of its slot as `m'` and its partner as `p'`, and changes nothing else. -/
def BecomeBoth (i : Instr) (s : State) (sl : Slot) (m' p' : Module) : Prop :=
  exec i s = .next (withMod (withMod s sl m') (otherSlot sl) p')

/-- The event at a drop in the field changes nothing but that drop, which becomes what `f` makes of it. -/
def DropBecomes (i : Instr) (s : State) (id : Nat) (f : Station → Station) : Prop :=
  exec i s = .next { s with stations := tmod s.stations id f }

/-- The module takes up the frame from lane 2k of segment `k` as one of the type `ty` of the drop `d` (R219). -/
def TakenUp (m : Module) (k ty : Nat) (f : Frame) (d : DropCfg) : Prop :=
  let rf := parseFrame f.bytes
  ringRuns m k = true ∧ f.fcs = .good ∧ rf.ty = ty ∧ dropOf m rf.drop = some d ∧ d.kind = .ring ∧ d.segment = k
    ∧ (rf.ver = 1 ∨ rf.ver = 2) ∧ rf.ver = d.version ∧ macNat rf.src = d.mac ∧ lenFits rf = true

/-- The event changes nothing. -/
def Idle (i : Instr) (s : State) : Prop := exec i s = .next s

end Sys2Proof.Safety
end

