-- ==== Sys2Proof/WellFormed.lean ====
section
/-! DEFINITION. WellFormed.lean: the commands that can arrive at a domain of this part: every number an operand carries names
something the part has. The meanings are total: they also answer for a command that is not well formed. -/

namespace Sys2Proof

/-- Why a command cannot arrive. -/
inductive Ill where
  /-- An execution unit beyond the 32 cores of the 16 clusters (R125, R148). -/
  | unit
  /-- A cluster beyond 15. -/
  | cluster
  /-- A task beyond 4,095 (R125). -/
  | task
  /-- A QP beyond 1,027 (R57). -/
  | qp
  /-- PARAM is not 24 bytes (R68). -/
  | param
  /-- REQ_LEN or RSP_LEN beyond 65,536 (R68). -/
  | dataLength
  /-- A ring segment beyond 7 (R25). -/
  | ring
  /-- A bus or a line beyond 3 (R249, R259). -/
  | legacySegment
  /-- A ring lane beyond 15 (R24, R25). -/
  | ringLane
  /-- A sync-link lane or a logic feed beyond 1 (R246, R397). -/
  | half
  /-- A host Ethernet port the module does not have (R308). -/
  | port
  /-- A drop ID beyond 4,095 (R27). -/
  | drop
  /-- A frame of fewer than 14 octets before its FCS, or of more than 1,514 (R213). -/
  | frame
  /-- CAN data of more than 64 bytes or an identifier of more than 29 bits (R249). -/
  | canFrame
  /-- A channel or an island the part does not have (R29, R195, R333, R355). -/
  | channel
  /-- An image class other than 1 and 2, or a maintenance class other than 1 to 6 (R48, R385). -/
  | cls
  /-- A Lumen operand wider than its field of the instruction (R157). -/
  | lumenField
  /-- A Glint timer beyond 255, a counter beyond 127 or a skip other than 1 to 4,095 (R191, R192). -/
  | glintField
  /-- A splice-map entry beyond 255 (R198). -/
  | splice
  deriving DecidableEq, Repr

namespace WellFormed

/-- One check: the problem it reports where it does not hold. -/
def need (p : Ill) (holds : Bool) : List Ill := if holds then [] else [p]

def units (u : Nat) : List Ill := need .unit (u < 32)
def clusters (c : Nat) : List Ill := need .cluster (c < 16)
def tasks (t : Nat) : List Ill := need .task (t < 4096)
def qps (q : Nat) : List Ill := need .qp (q < 1028)
def halves (n : Nat) : List Ill := need .half (n < 2)
def drops (d : Nat) : List Ill := need .drop (d < 4096)
def rings (r : Nat) : List Ill := need .ring (r < 8)
def images (c : Nat) : List Ill := need .cls (c == 1 || c == 2)
def legacy (s : Nat) : List Ill := need .legacySegment (s < 4)

/-- The fields of a Quondi command (R57, R68). -/
def cmds (c : Cmd) : List Ill :=
  qps c.qp ++ need .param (c.param.length == 24) ++ need .dataLength (c.req.length ≤ 65536 && c.rspLen ≤ 65536)

def descs (d : Desc) : List Ill := need .param (d.param.length == 24)

def frames (f : Frame) : List Ill := need .frame (14 ≤ f.bytes.length && f.bytes.length ≤ 1514)

def canFrames (f : CanFrame) : List Ill := need .canFrame (f.data.length ≤ 64 && f.id < 2 ^ 29)

/-- A 24-bit operand of a Lumen instruction, or the parts of one (R157). -/
def lumen (u bits v : Nat) : List Ill := units u ++ need .lumenField (v < 2 ^ bits)

end WellFormed

open WellFormed in
/-- What is wrong with a command; nothing, for one that can arrive. -/
def ills : Instr → List Ill
  | .lockstepFault _ u => need .channel (u < 3)
  | .syncRelayBlockReceive _ cls _ _ _ => images cls
  | .doorbellSqTail _ q _ | .doorbellCqHead _ q _ | .completionPost _ q | .coalesceAgeExpiry _ q
  | .udpSequenceStatusReceive _ q _ _ _ | .udpResendTimer _ q | .syncJournalAckReceive _ q _ | .maintWaitTimeout _ q _ => qps q
  | .descriptorFetch _ q d _ | .requestDmaTimeout _ q d | .syncJournalEntryReceive _ q d _ _ => qps q ++ descs d
  | .udpDatagramReceive _ g => qps g.qp
  | .sessionOpen _ c | .sessionClose _ c | .sessionStatus _ c | .sessionTickets _ c | .sessionReticket _ c | .sessionNop _ c
  | .sessionCoalesce _ c | .pointRead _ c | .pointWrite _ c | .pointAlloc _ c | .pointFree _ c | .pointDescribe _ c
  | .pointSubscribe _ c | .pointUnsubscribe _ c | .pointForce _ c | .pointUnforce _ c | .pointRetain _ c | .pointPublish _ c
  | .pointImport _ c | .taskDefine _ c | .taskLoad _ c | .taskSwap _ c | .taskStart _ c | .taskStop _ c | .taskDelete _ c
  | .taskStatus _ c | .taskIcal _ c | .glintLoad _ c | .glintSwap _ c | .glintStatus _ c | .segmentConfig _ c | .segmentBind _ c
  | .segmentSchedule _ c | .segmentStatus _ c | .dropAdd _ c | .dropRemove _ c | .dropSend _ c | .dropStatus _ c
  | .pairStatus _ c | .pairRun _ c | .pairWithdraw _ c | .pairEquinox _ c | .pairResync _ c | .pairWitness _ c
  | .timeStatus _ c | .timeConfig _ c | .timeStep _ c | .timeRate _ c | .timePps _ c | .chronicleBounds _ c | .chronicleRead _ c
  | .chronicleLimit _ c | .chronicleNote _ c | .localioConfig _ c | .localioStatus _ c | .localioTrim _ c | .localioTrimLock _ c
  | .localioVigil _ c | .haloConnect _ c | .haloRelease _ c | .haloParamLoad _ c | .haloParamConfirm _ c | .haloChange _ c
  | .haloAck _ c | .haloStatus _ c | .imageStatus _ c | .imageActivate _ c | .imageRevert _ c | .imageDiscard _ c | .imageRelay _ c
  | .maintTake _ c | .maintGive _ c | .maintStatus _ c | .partitionCreate _ c | .partitionDelete _ c | .partitionCaps _ c
  | .partitionRunlock _ c | .guardRegions _ c | .guardViolation _ c | .guardClear _ c | .diagCounters _ c | .diagThermal _ c
  | .diagMemory _ c | .diagLanes _ c | .diagSelftest _ c => cmds c
  | .syncSealReceive _ t _ _ _ | .syncCheckpointReceive _ t _ _ | .syncWriteSetReceive _ t _ _ | .syncIcalAnnounceReceive _ t _
  | .retainedApply _ t | .icalWindowClose _ t => tasks t
  | .syncOnlineAnnounceReceive _ d _ _ _ _ | .syncAcyAckRelayReceive _ d _ | .assignRetransmit _ d | .acyRetransmit _ d
  | .acyDeliveryTimeout _ d _ | .dropApplyTime d | .dropOutputWatchdogExpiry d | .dropOutAbsenceTimeout d
  | .dropAcyReceive d _ _ _ | .dropHelloTimer d | .dropSyncEvent d _ _ | .dropLinkLoss d _ | .dropLinkStable d _
  | .dropPowerUp d _ _ | .dropPowerLoss d | .dropInSlotTime d | .lineDropRequestReceive d _ => drops d
  | .dropFrameForward d _ f _ | .dropOutAccept d f _ | .dropAssignReceive d f => drops d ++ frames f
  | .dropRowReceive d f => drops d ++ canFrames f
  | .syncRelayFrameReceive _ r f | .ringFrameForward _ r f | .inFrameReceive _ r f | .acyAckReceive _ r f
  | .syncFrameReceive _ r f | .helloReceive _ r f | .checkFrameReturn _ r f => rings r ++ frames f
  | .heldFrameRelease _ r | .ringClosedTimeout _ r => rings r
  | .spliceFieldTimeout _ e => need .splice (e < 256)
  | .ringLaneLockLoss _ n | .pdelayMeasure _ n _ | .ringLaneLinkUp _ n => need .ringLane (n < 16)
  | .syncLaneDown _ n | .syncLaneUp _ n | .logicFeedLost _ n _ | .logicFeedRestored _ n _ => halves n
  | .ptpAnnounceTimeout _ p | .hostPtpSyncSend _ p | .handoverPortSwitch _ p | .ptpDelayReqSend _ p => need .port (p == 1 || p == 2)
  | .ptpMessageReceive _ g => need .port (g.port == 1 || g.port == 2)
  | .clusterMismatch _ c | .clusterResetDone _ c => clusters c
  | .busSlotStart _ b | .canTxResult _ b _ | .busRowEnd _ b _ | .busOffRecovery _ b | .lineSlotStart _ b | .lineTakeover _ b
  | .lineReplyReceive _ b _ _ | .lineReplyTimeout _ b => legacy b
  | .canInReceive _ b f | .canPartnerOutReceive _ b f | .canHelloReceive _ b f | .canSyncReceive _ b f => legacy b ++ canFrames f
  | .lNop _ u | .dup _ u | .lDrop _ u | .lSwap _ u | .over _ u | .rot _ u | .and _ u | .or _ u | .xor _ u | .not _ u | .qget _ u
  | .qset _ u | .endCycle _ u | .ret _ u | .now _ u | .dt _ u | .first _ u | .exc _ u => units u
  | .pushi _ u _ | .pushb _ u _ | .br _ u _ | .brt _ u _ | .brf _ u _ => units u
  | .add _ u _ | .sub _ u _ | .mul _ u _ | .div _ u _ | .mod _ u _ | .neg _ u _ | .abs _ u _ | .min _ u _ | .max _ u _ | .eq _ u _
  | .ne _ u _ | .lt _ u _ | .le _ u _ | .gt _ u _ | .ge _ u _ | .band _ u _ | .bor _ u _ | .bxor _ u _ | .bnot _ u _ | .shl _ u _
  | .shr _ u _ | .shru _ u _ | .sqrt _ u _ | .exp _ u _ | .ln _ u _ | .sin _ u _ | .cos _ u _ | .atan2 _ u _ | .limit _ u _ => units u
  | .cvt _ u _ _ => units u
  | .pushc _ u _ k | .ldp _ u _ k | .stp _ u _ k | .ldq _ u _ k | .ldtm _ u _ k => lumen u 20 k
  | .ldx _ u _ b n | .stx _ u _ b n => lumen u 20 b ++ need .lumenField (1 ≤ n && n ≤ 2 ^ 20)
  | .ldl _ u l | .stl _ u l => lumen u 8 l
  | .call _ u b => lumen u 16 b
  | .pid _ u b | .ramp _ u b | .leadlag _ u b | .total _ u b => lumen u 20 b
  | .timer _ u v b | .deadband _ u v b => lumen u 20 b ++ need .lumenField (v < 16)
  | .select _ u n b => lumen u 20 b ++ need .lumenField (n < 16)
  | .glintTon _ n | .glintTof _ n | .glintTp _ n | .glintTimerExpiry _ n => need .glintField (n < 256)
  | .glintCtu _ n | .glintCtd _ n | .glintCrst _ n | .glintCld _ n => need .glintField (n < 128)
  | .glintSkipf _ n | .glintSkipt _ n => need .glintField (1 ≤ n && n < 4096)
  | .gleamValue _ n _ => need .channel (n < 4)
  | .cicOutput _ n _ _ | .loopSupplyThermal _ n | .loopSupplyRestart _ n => need .channel (n < 16)
  | .dioInputChange _ n _ | .diFilterPass _ n | .doOverload _ n _ | .doOvertemp _ n | .doOpenWire _ n => need .channel (n < 32)
  | .doGroupLimit _ g => need .channel (g < 4)
  | .fdoOverload _ n | .soReleaseTimeout _ n | .edmInputChange _ n _ | .edmTimeExpiry _ n => need .channel (n < 8)
  | .fallbackLimitExpiry _ n => need .channel (n < 8)
  | .maintLeaseExpiry _ c => need .cls (1 ≤ c && c ≤ 6)
  | .relayReportReceive _ _ _ c _ _ _ => images c
  | .powerUpStart _ | .powerGood _ | .loaderReady _ | .mreset _ | .perst _ | .lanternWatchdogExpiry _ | .registerWrite _ _ _ _
  | .imgOpen _ _ _ | .imgPull _ _ | .imgAbort _ _ | .imgClose _ _ | .bootGo _ _ _ | .relayEnWrite _ _ | .bootReset _ _ | .apertureWrite _ _ _ | .pullReadCompletion _ _ _ | .pullReadTimeout _ _
  | .headerFirstCheck _ | .partnerRelayStart _ | .verifyDone _ _ | .selftestDone _ _ | .patrolPassEnd _ _
  | .dramUncorrectable _ _ _ _ | .mramUncorrectable _ _ _ | .attach _ _ | .detach _ | .anchorHeartbeat _ | .dupFinalReport _
  | .arbiterWindowEnd _ _ | .step _ _ | .syncSummaryReceive _ _ _ | .syncContentReceive _ _ _ | .syncFinalReportReceive _ _
  | .syncChronicleMirrorReceive _ _ | .syncShadowEventReceive _ _ | .syncTrimReportReceive _ _ _ _ | .syncResyncDataReceive _ _
  | .syncStepAnnounceReceive _ _ _ | .syncTimeReceive _ _ _ | .partnerTimeSend _ | .subscriptionReportDeferred _ _ _ _
  | .importDatagramReceive _ _ | .icalEdge _ _ _ | .glintLd _ _ | .glintLdn _ _ | .glintAnd _ _ | .glintAndn _ _ | .glintOr _ _
  | .glintOrn _ _ | .glintXor _ _ | .glintSt _ _ | .glintStn _ _ | .glintSet _ _ | .glintRst _ _ | .glintAndp _ _ | .glintOrp _ _
  | .glintPop _ | .glintNop _ | .glintSweepEnd _ | .glintBankSwitch _ | .checkFrameLaunch _ | .ringPtpSyncSend _ | .renewTimer _
  | .presentTimer _ | .claimTimer _ | .leaseCheck _ | .claimReplyTimeout _ | .readyClaimTimer _ | .grant _ _ | .renewed _ _
  | .wait _ _ | .denied _ _ | .stale _ _ | .witnessAck _ _ | .renew _ _ | .claim _ _ | .release _ _ | .present _ _
  | .witnessLeaseEnd | .claimPendingExpiry _ | .releaseReservationEnd | .warmCatchupLaunch _ _ | .equinoxDrainDone _
  | .equinoxDrainTimeout _ | .equinoxNoticeReceive _ | .equinoxGrantTimeout _ | .equinoxDueTimer _ | .autoResyncStart _
  | .resyncCopyDone _ | .resyncFollowDone _ _ | .resyncTimeout _ | .timeStepApply _ | .almCapture _ _ | .almStep _ _
  | .bar0StepLand _ | .ppsInEdge _ _ | .ppsInMissing _ | .ppsOutRise _ | .ppsOutFall _ | .holdoverEnd _ | .chronicleRecordWrite _
  | .summaryTimeout _ _ | .loopSupplyUpdate _ | .trimMeasureDone _ _ _ | .buttonPress _ | .buttonHeld _ _ | .trimModeTimeout _
  | .doLatchRearm _ _ _ | .doDiagClear _ _ _ _ | .vigilExpiry _ _ _ | .soTestSlot _ _ | .soTestEnd _ _ _ | .haloSelfCheck _ _
  | .handoverLanternResume _ | .imageConfirm _ | .confirmWindowClose _ | .fuseStepDone _ | .relayOfferReceive _ _
  | .relayAcceptReceive _ _ _ | .relayDataReceive _ _ _ _ _ | .relayBlockAckReceive _ _ _ _ | .relayOfferTimeout _
  | .relayBlockAckTimeout _ | .relayProgressTimeout _ | .fieldFeedLost _ _ | .fieldFeedRestored _ _ | .holdupReserveUpdate _ _ _ _
  | .logicInputLowTimeout _ | .powerDownComplete _ | .ejectorLeverOpen _ | .ejectorLeverClosed _ | .junctionRead _ _ _ _ _
  | .coldPlateRead _ _ _ | .mresetRelease _ | .perstRelease _ | .pcieLinkTrained _ | .witnessHoldoffEnd
  | .syncRelayBlockAckReceive _ _ | .imageVerdictReceive _ _ _ | .ptpAnnounceSend _ => []

/-- The command can arrive. -/
def wellFormed (i : Instr) : Bool := (ills i).isEmpty

end Sys2Proof
end

