-- ==== Sys2Proof/Certificates/Slice0/Obligations.lean ====
section
/-! DEFINITION. Certificates/Slice0/Obligations.lean: what is claimed of the model, for the provers. -/

open Sys2Proof Sys2Proof.Machine Sys2Proof.Bits Sys2Proof.Safety

/-! ### The Glint engine -/

/-- R191, R192: LD to XOR load ACC or combine it with the bit at the operand address, ANDP and ORP push ACC and load, POP combines the value
pushed; a word that is skipped acts as NOP and SKIPF and SKIPT begin a skip. ST, STN, SET and RST write a bit that the program may write,
and it is visible from the next Glint cycle on; a flag that a select drives takes its select's source instead, and the write has no effect.
(model choices: log entry 99) -/
def Obligations.GlintBitProgram : Prop :=
  (∀ (s : State) (sl : Slot) (a : BitVec 12) (n : Nat), GlintDue (modOf s sl) →
      ((modOf s sl).glint.skip = 0 →
        let b (g : Glint) : Bool := gBit (modOf s sl) g a.toNat
        GlintStep (.glintLd sl a) s sl (fun g => { g with acc := b g })
        ∧ GlintStep (.glintLdn sl a) s sl (fun g => { g with acc := !b g })
        ∧ GlintStep (.glintAnd sl a) s sl (fun g => { g with acc := g.acc && b g })
        ∧ GlintStep (.glintAndn sl a) s sl (fun g => { g with acc := g.acc && !b g })
        ∧ GlintStep (.glintOr sl a) s sl (fun g => { g with acc := g.acc || b g })
        ∧ GlintStep (.glintOrn sl a) s sl (fun g => { g with acc := g.acc || !b g })
        ∧ GlintStep (.glintXor sl a) s sl (fun g => { g with acc := g.acc != b g })
        ∧ GlintStep (.glintAndp sl a) s sl (fun g => { g with branch := (g.acc, false) :: g.branch, acc := b g })
        ∧ GlintStep (.glintOrp sl a) s sl (fun g => { g with branch := (g.acc, true) :: g.branch, acc := b g })
        ∧ (∀ v op rest, (modOf s sl).glint.branch = (v, op) :: rest →
            GlintStep (.glintPop sl) s sl (fun g => { g with branch := rest, acc := if op then v || g.acc else v && g.acc }))
        ∧ GlintStep (.glintSkipf sl n) s sl (fun g => { g with skip := if g.acc then 0 else n })
        ∧ GlintStep (.glintSkipt sl n) s sl (fun g => { g with skip := if g.acc then n else 0 })
        ∧ GlintStep (.glintNop sl) s sl id)
      ∧ (0 < (modOf s sl).glint.skip →
        let skipped (g : Glint) : Glint := { g with skip := g.skip - 1 }
        GlintStep (.glintLd sl a) s sl skipped ∧ GlintStep (.glintSt sl a) s sl skipped ∧ GlintStep (.glintTon sl n) s sl skipped
        ∧ GlintStep (.glintCtu sl n) s sl skipped ∧ GlintStep (.glintSkipf sl n) s sl skipped ∧ GlintStep (.glintNop sl) s sl skipped))
  ∧ ∀ (s : State) (sl : Slot) (a : BitVec 12), GlintDue (modOf s sl) → (modOf s sl).glint.skip = 0 →
      let g := (modOf s sl).glint
      let gives (i : Instr) (v : Bool) : Prop := GlintStep i s sl id ∧ ∃ t, exec i s = .next t ∧ (modOf t sl).glint.lits.getLsbD a.toNat = v
      (gWritable g a.toNat = true →
        gives (.glintSt sl a) g.acc
        ∧ gives (.glintStn sl a) (!g.acc)
        ∧ gives (.glintSet sl a) (g.acc || g.lits.getLsbD a.toNat)
        ∧ gives (.glintRst sl a) (!g.acc && g.lits.getLsbD a.toNat))
      ∧ (gWritable g a.toNat = false →
        exec (.glintSt sl a) s = exec (.glintNop sl) s ∧ exec (.glintStn sl a) s = exec (.glintNop sl) s
        ∧ exec (.glintSet sl a) s = exec (.glintNop sl) s ∧ exec (.glintRst sl a) s = exec (.glintNop sl) s)

/-- R192, R193: the timers TON, TOF and TP on the input ACC, and the counters CTU, CTD, CRST and CLD. (model choices: log entries 14, 99) -/
def Obligations.GlintTimersCounters : Prop :=
  ∀ (s : State) (sl : Slot) (n : Nat), GlintDue (modOf s sl) → (modOf s sl).glint.skip = 0 →
    let g := (modOf s sl).glint
    let timer (g : Glint) (x : GTimer) : Glint := { g with timers := tset g.timers n x, acc := x.q }
    let counter (g : Glint) (cv : Nat) (q : Bool) : Glint :=
      { g with edges := tset g.edges g.pc g.acc, counters := tset g.counters n cv, counterQ := tset g.counterQ n q, acc := q }
    let rising := g.acc = true ∧ (tget g.edges g.pc).getD false = false
    let up := if rising then min (counterCv g n + 1) 65535 else counterCv g n
    let down := if rising then counterCv g n - 1 else counterCv g n
    let x := (tget g.timers n).getD {}
    GlintStep (.glintTon sl n) s sl (fun g => timer g
        (if g.acc = false then { x with input := false, counting := false, expired := false, q := false }
         else if x.input = false then { x with input := true, counting := true, expired := false, q := false }
         else { x with q := x.counting && x.expired }))
    ∧ GlintStep (.glintTof sl n) s sl (fun g => timer g
        (if g.acc = true then { x with input := true, counting := false, expired := false, q := true }
         else if x.input = true then { x with input := false, counting := true, expired := false, q := true }
         else { x with q := x.counting && !x.expired }))
    ∧ GlintStep (.glintTp sl n) s sl (fun g => timer g
        (if x.counting = true ∧ x.expired = false then { x with input := g.acc, q := true }
         else if g.acc = true ∧ x.input = false then { x with input := true, counting := true, expired := false, q := true }
         else { x with input := g.acc, counting := false, q := false }))
    ∧ GlintStep (.glintCtu sl n) s sl (fun g => counter g up (decide (counterPv g n ≤ up)))
    ∧ GlintStep (.glintCtd sl n) s sl (fun g => counter g down (down == 0))
    ∧ GlintStep (.glintCrst sl n) s sl (fun g => if g.acc then { g with counters := tset g.counters n 0 } else g)
    ∧ GlintStep (.glintCld sl n) s sl (fun g => if g.acc then { g with counters := tset g.counters n (counterPv g n) } else g)

/-- R191, R193, R195, R209: the end of a sweep, the expiry of a timer's preset, the bank switch and a Gleam value. (model choices: log
entries 25, 99) -/
def Obligations.GlintEvents : Prop :=
  ∀ (s : State) (sl : Slot), glintRuns (modOf s sl) = true →
    let g := (modOf s sl).glint
    (sweepLen g ≠ 0 → sweepLen g ≤ g.pc → ∃ t, exec (.glintSweepEnd sl) s = .next t ∧
      (modOf t sl).glint = { g with pc := 0, acc := false, branch := [], skip := 0, sweeps := g.sweeps + 1, lits := litSet g.lits 0x7D false })
    ∧ (∀ n x, tget g.timers n = some x → x.counting = true → ∃ t, exec (.glintTimerExpiry sl n) s = .next t ∧
      tget (modOf t sl).glint.timers n = some { x with expired := true })
    ∧ (∀ b, g.swapOrdered = true → g.pc = 0 → gTarget g = some b → ∃ t, exec (.glintBankSwitch sl) s = .next t ∧
      (modOf t sl).glint.active = some b ∧ (modOf t sl).glint.swapOrdered = false ∧ (modOf t sl).glint.lits.getLsbD 0x7D = true
      ∧ (∀ i, i < 512 → (modOf t sl).glint.lits.getLsbD (0x200 + i) = false)
      ∧ (modOf t sl).glint.timers = g.timers ∧ (modOf t sl).glint.counters = g.counters ∧ (modOf t sl).glint.dioOut = g.dioOut)
    ∧ (∀ (ch : Nat) (v : BitVec 10) (k : Nat), ch < 4 → k < 2 → ∃ t, exec (.gleamValue sl ch v) s = .next t ∧
      (modOf t sl).glint.lits.getLsbD (0x40 + (2 * ch + k)) =
        comparator (le (activePart g 3) (1280 + 4 * (2 * ch + k)) 4) (g.lits.getLsbD (0x40 + (2 * ch + k))) v.toNat)


/-! ### Lumen code -/

/-- R156, R164, R167: NOP, the constants, the locals, the stack and the values of the system. (model choices: log entry 100) -/
def Obligations.LumenStack : Prop :=
  ∀ (s : State) (sl : Slot) (u : Nat) (env : LEnv) (c : Cycle), LumenDue s sl u env c →
    let leaves (i : Instr) (cost : Nat) (st : List SEntry) : Prop := LumenStep i s sl env (after cost c st)
    let int32 (v : W64) : SEntry := { ty := .int32, val := v, q := 0xC000 }
    LumenStep (.lNop sl u) s sl env (past 1 1 c)
    ∧ (c.stack.length < 64 →
      (∀ imm : BitVec 24, ∃ v, leaves (.pushi sl u imm) 1 (int32 v :: c.stack) ∧ iVal .int32 v = imm.toInt)
      ∧ (∀ b, leaves (.pushb sl u b) 1 ({ ty := .bool, val := if b then 1 else 0, q := 0xC000 } :: c.stack))
      ∧ (∀ t k, 8 * k < le env.code 12 4 → partBlocked env (unitAt env c 0 (le env.code 8 4 + 8 * k)) 0 = none →
          leaves (.pushc sl u t k) 3 ({ ty := t, val := maskVal t (w64 (le env.code (le env.code 8 4 + 8 * k) 8)), q := 0xC000 } :: c.stack))
      ∧ (∀ l f e, topFrame c = some f → f.locals[l]? = some e → leaves (.ldl sl u l) 1 (e :: c.stack))
      ∧ leaves (.now sl u) 1 ({ ty := .time64, val := c.start, q := 0xC000 } :: c.stack)
      ∧ leaves (.dt sl u) 1 ({ ty := .int64, val := c.dt, q := 0xC000 } :: c.stack)
      ∧ leaves (.first sl u) 1 ({ ty := .bool, val := if c.first then 1 else 0, q := 0xC000 } :: c.stack)
      ∧ LumenStep (.exc sl u) s sl env { past 1 1 c with stack := int32 (c.exc.setWidth 64) :: c.stack, exc := 0 })
    ∧ (∀ a rest, OnTop c [a] rest →
      leaves (.lDrop sl u) 1 rest
      ∧ (c.stack.length < 64 → leaves (.dup sl u) 1 (a :: a :: rest))
      ∧ (c.stack.length < 64 → leaves (.qget sl u) 1 (int32 (a.q.setWidth 64) :: a :: rest))
      ∧ (∀ l f o, topFrame c = some f → f.locals[l]? = some o → o.ty = a.ty →
          LumenStep (.stl sl u l) s sl env (modFrame (after 1 c rest) (fun f => { f with locals := f.locals.set l a }))))
    ∧ (∀ a b rest, OnTop c [b, a] rest →
      leaves (.lSwap sl u) 1 (a :: b :: rest)
      ∧ (c.stack.length < 64 → leaves (.over sl u) 1 (a :: b :: a :: rest))
      ∧ (b.ty = .int32 → ∃ q, leaves (.qset sl u) 1 ({ a with q := q } :: rest) ∧ q &&& 0x3FFF = b.val.setWidth 16 &&& 0x7C
          ∧ qClass q = if qClass (b.val.setWidth 16) = 2 then 0 else qClass (b.val.setWidth 16)))
    ∧ (∀ x y z rest, OnTop c [z, y, x] rest → leaves (.rot sl u) 1 (x :: z :: y :: rest))

/-- R163, R165: arithmetic of INT32 and INT64. A result beyond the type is saturated with OVF; a division by 0 gives the tabled value with
DIVZ; either lowers the quality to CLASS at most 0b01 with RANGE. (model choices: log entry 100) -/
def Obligations.LumenIntegerArithmetic : Prop :=
  ∀ (s : State) (sl : Slot) (u : Nat) (env : LEnv) (c : Cycle) (t : LType) (a b : SEntry) (rest : List SEntry),
    LumenDue s sl u env c → t = .int32 ∨ t = .int64 → OnTop c [b, a] rest → b.ty = t →
    let x := iVal t a.val
    let y := iVal t b.val
    let gives (i : Instr) (cost : Nat) (under : List SEntry) (z : Int) (flag : W32) (q : W16) : Prop :=
      ∃ v, iVal t v = z ∧ LumenStep i s sl env
        (after cost c ({ ty := t, val := v, q := if flag = 0 then q else qUncertain q ||| qRange } :: under) flag)
    let saturates (i : Instr) (cost : Nat) (under : List SEntry) (z : Int) (q : W16) : Prop :=
      gives i cost under (max (iMin t) (min z (iMax t))) (if iMin t ≤ z ∧ z ≤ iMax t then 0 else 1) q
    saturates (.neg sl u t) 1 (a :: rest) (-y) (qJoinAll [b.q])
    ∧ saturates (.abs sl u t) 1 (a :: rest) y.natAbs (qJoinAll [b.q])
    ∧ (a.ty = t →
      saturates (.add sl u t) 1 rest (x + y) (qJoin a.q b.q)
      ∧ saturates (.sub sl u t) 1 rest (x - y) (qJoin a.q b.q)
      ∧ saturates (.mul sl u t) 3 rest (x * y) (qJoin a.q b.q)
      ∧ gives (.min sl u t) 1 rest (min x y) 0 (qJoin a.q b.q)
      ∧ gives (.max sl u t) 1 rest (max x y) 0 (qJoin a.q b.q)
      ∧ (y ≠ 0 → saturates (.div sl u t) 20 rest (x.tdiv y) (qJoin a.q b.q) ∧ gives (.mod sl u t) 20 rest (x - y * x.tdiv y) 0 (qJoin a.q b.q))
      ∧ (y = 0 → gives (.div sl u t) 20 rest (if 0 < x then iMax t else if x < 0 then iMin t else 0) 2 (qJoin a.q b.q)
          ∧ gives (.mod sl u t) 20 rest 0 2 (qJoin a.q b.q)))

/-- R162, R163, R165: arithmetic of REAL32 and REAL64 pushes the value of the operation; a NaN operand gives the canonical NaN, INVALID and
CLASS 0b00 with RANGE. ADD and SUB of TIME64 wrap and are never flagged. (model choices: log entry 100) -/
def Obligations.LumenRealArithmetic : Prop :=
  ∀ (s : State) (sl : Slot) (u : Nat) (env : LEnv) (c : Cycle) (a b : SEntry) (rest : List SEntry),
    LumenDue s sl u env c → OnTop c [b, a] rest →
    (∀ (t : LType) (d : Dbl), (t = .real32 ∧ d = false) ∨ (t = .real64 ∧ d = true) → b.ty = t →
      let pushes (i : Instr) (cost : Nat) (under : List SEntry) (q : W16) (r : Ar) : Prop :=
        LumenStep i s sl env (after cost c ({ ty := t, val := maskVal t r.val, q := qLower q r.qual } :: under) (w32 r.flags))
      let nan (i : Instr) (cost : Nat) (under : List SEntry) (q : W16) : Prop :=
        LumenStep i s sl env
          (after cost c ({ ty := t, val := if d then 0x7FF8000000000000 else 0x7FC00000, q := withClass q 0 ||| qRange } :: under) 4)
      pushes (.neg sl u t) 1 (a :: rest) (qJoinAll [b.q]) (fNeg d b.val)
      ∧ pushes (.abs sl u t) 1 (a :: rest) (qJoinAll [b.q]) (fAbs d b.val)
      ∧ (fIsNaN d b.val = true → nan (.neg sl u t) 1 (a :: rest) (qJoinAll [b.q]) ∧ nan (.abs sl u t) 1 (a :: rest) (qJoinAll [b.q]))
      ∧ (a.ty = t →
        let q := qJoin a.q b.q
        pushes (.add sl u t) 3 rest q (fAdd d a.val b.val)
        ∧ pushes (.sub sl u t) 3 rest q (fSub d a.val b.val)
        ∧ pushes (.mul sl u t) 4 rest q (fMul d a.val b.val)
        ∧ pushes (.div sl u t) (if d then 18 else 12) rest q (fDiv d a.val b.val)
        ∧ pushes (.min sl u t) 2 rest q (fMin d a.val b.val)
        ∧ pushes (.max sl u t) 2 rest q (fMax d a.val b.val)
        ∧ (fIsNaN d a.val = true ∨ fIsNaN d b.val = true →
          nan (.add sl u t) 3 rest q ∧ nan (.sub sl u t) 3 rest q ∧ nan (.mul sl u t) 4 rest q
          ∧ nan (.div sl u t) (if d then 18 else 12) rest q ∧ nan (.min sl u t) 2 rest q ∧ nan (.max sl u t) 2 rest q)))
    ∧ (a.ty = .time64 →
      (b.ty = .int64 → LumenStep (.add sl u .time64) s sl env
        (after 1 c ({ ty := .time64, val := a.val + b.val, q := qJoin a.q b.q } :: rest)))
      ∧ (b.ty = .time64 → LumenStep (.sub sl u .time64) s sl env
        (after 1 c ({ ty := .int64, val := a.val - b.val, q := qJoin a.q b.q } :: rest))))

/-- R165: the compares of every type, an ordered compare with a NaN being false with INVALID and CLASS 0b00, and the logic of BOOL. (model
choices: log entry 100) -/
def Obligations.LumenCompare : Prop :=
  ∀ (s : State) (sl : Slot) (u : Nat) (env : LEnv) (c : Cycle) (a b : SEntry) (rest : List SEntry),
    LumenDue s sl u env c → OnTop c [b, a] rest →
    let q := qJoin a.q b.q
    let holds (i : Instr) (cost : Nat) (r : Prop) : Prop :=
      ∃ v : W64, LumenStep i s sl env (after cost c ({ ty := .bool, val := v, q := q } :: rest)) ∧ (v = 1 ∨ v = 0) ∧ (v = 1 ↔ r)
    let all (t : LType) (cost : Nat) (lt eq : Prop) : Prop :=
      holds (.eq sl u t) cost eq ∧ holds (.ne sl u t) cost (¬ eq) ∧ holds (.lt sl u t) cost lt ∧ holds (.le sl u t) cost (lt ∨ eq)
      ∧ holds (.gt sl u t) cost (¬ lt ∧ ¬ eq) ∧ holds (.ge sl u t) cost (¬ lt)
    (a.ty = b.ty →
      (b.ty = .bool → holds (.eq sl u .bool) 1 (a.val.getLsbD 0 = b.val.getLsbD 0) ∧ holds (.ne sl u .bool) 1 (a.val.getLsbD 0 ≠ b.val.getLsbD 0)
        ∧ holds (.and sl u) 1 (a.val.getLsbD 0 = true ∧ b.val.getLsbD 0 = true) ∧ holds (.or sl u) 1 (a.val.getLsbD 0 = true ∨ b.val.getLsbD 0 = true)
        ∧ holds (.xor sl u) 1 (a.val.getLsbD 0 ≠ b.val.getLsbD 0))
      ∧ (∀ t, t = .int32 ∨ t = .int64 → b.ty = t → all t 1 (iVal t a.val < iVal t b.val) (iVal t a.val = iVal t b.val))
      ∧ (b.ty = .time64 → all .time64 1 ((a.val - b.val).toInt < 0) (a.val = b.val))
      ∧ (∀ t d, (t = .real32 ∧ d = false) ∨ (t = .real64 ∧ d = true) → b.ty = t →
        (∀ o, fCmp d a.val b.val = some o → all t 2 (o = .lt) (o = .eq))
        ∧ (fCmp d a.val b.val = none → holds (.eq sl u t) 2 False ∧ holds (.ne sl u t) 2 True
          ∧ ∀ i ∈ [Instr.lt sl u t, .le sl u t, .gt sl u t, .ge sl u t],
            LumenStep i s sl env (after 2 c ({ ty := .bool, val := 0, q := withClass q 0 } :: rest) 4))))
    ∧ (b.ty = .bool → LumenStep (.not sl u) s sl env
        (after 1 c ({ ty := .bool, val := if b.val.getLsbD 0 then 0 else 1, q := qJoinAll [b.q] } :: a :: rest)))

/-- R165, R166: the bitwise operations and shifts of INT32 and INT64, and the conversions. (model choices: log entry 100) -/
def Obligations.LumenBitsConvert : Prop :=
  ∀ (s : State) (sl : Slot) (u : Nat) (env : LEnv) (c : Cycle) (a b : SEntry) (rest : List SEntry),
    LumenDue s sl u env c → OnTop c [b, a] rest →
    (∀ t, t = .int32 ∨ t = .int64 → a.ty = t →
      let leaves (i : Instr) (v : W64) : Prop := LumenStep i s sl env (after 1 c ({ ty := t, val := v, q := qJoin a.q b.q } :: rest))
      (b.ty = t →
        leaves (.band sl u t) (maskVal t (a.val &&& b.val)) ∧ leaves (.bor sl u t) (maskVal t (a.val ||| b.val))
        ∧ leaves (.bxor sl u t) (maskVal t (a.val ^^^ b.val))
        ∧ LumenStep (.bnot sl u t) s sl env (after 1 c ({ ty := t, val := maskVal t (~~~b.val), q := qJoinAll [b.q] } :: a :: rest)))
      ∧ (b.ty = .int32 →
        let n := iVal .int32 b.val
        (0 ≤ n ∧ n < iBits t → leaves (.shl sl u t) (maskVal t (a.val <<< n.toNat)) ∧ leaves (.shru sl u t) (maskVal t a.val >>> n.toNat)
          ∧ ∃ v, leaves (.shr sl u t) v ∧ iVal t v = iVal t a.val / 2 ^ n.toNat)
        ∧ (n < 0 ∨ iBits t ≤ n → leaves (.shl sl u t) 0 ∧ leaves (.shru sl u t) 0
          ∧ ∃ v, leaves (.shr sl u t) v ∧ iVal t v = if iVal t a.val < 0 then -1 else 0)))
    ∧ (∀ target : LType, target ≠ b.ty →
      let gives (r : Ar) : Prop := LumenStep (.cvt sl u target b.ty) s sl env
        (after 2 c ({ ty := target, val := maskVal target r.val, q := qLower (qJoinAll [b.q]) r.qual } :: a :: rest) (w32 r.flags))
      (b.ty = .int64 → target = .int32 → gives (iSat .int32 (iVal .int64 b.val)))
      ∧ (b.ty = .int32 → target = .int64 → gives { val := iWord .int64 (iVal .int32 b.val) })
      ∧ ((b.ty = .int64 ∧ target = .time64) ∨ (b.ty = .time64 ∧ target = .int64) → gives { val := b.val })
      ∧ (target = .bool → b.ty ≠ .time64 → gives { val := if nonZero b.ty b.val then 1 else 0 })
      ∧ (b.ty = .bool → target = .int32 ∨ target = .int64 → gives { val := if b.val.getLsbD 0 then 1 else 0 })
      ∧ (∀ d, (target = .real32 ∧ d = false) ∨ (target = .real64 ∧ d = true) →
        (b.ty = .int32 ∨ b.ty = .int64 → gives { val := fOfInt d (iVal b.ty b.val) })
        ∧ (b.ty = .bool → gives { val := fOfInt d (if b.val.getLsbD 0 then 1 else 0) })
        ∧ (b.ty = .real32 ∨ b.ty = .real64 → gives (realToReal d (!d) b.val)))
      ∧ (∀ d, (b.ty = .real32 ∧ d = false) ∨ (b.ty = .real64 ∧ d = true) → target = .int32 ∨ target = .int64 → gives (realToInt target d b.val)))

/-- R162, R163, R166: the mathematical functions of a real push their value. (model choices: log entries 4, 100) -/
def Obligations.LumenMath : Prop :=
  ∀ (s : State) (sl : Slot) (u : Nat) (env : LEnv) (c : Cycle) (t : LType) (d : Dbl) (b : SEntry) (rest : List SEntry),
    LumenDue s sl u env c → (t = .real32 ∧ d = false) ∨ (t = .real64 ∧ d = true) → OnTop c [b] rest → b.ty = t →
    let version := imageVersion (modOf s sl)
    let pushes (i : Instr) (cost : Nat) (under : List SEntry) (q : W16) (r : Ar) : Prop :=
      LumenStep i s sl env (after cost c ({ ty := t, val := maskVal t r.val, q := qLower q r.qual } :: under) (w32 r.flags))
    let nan (i : Instr) (cost : Nat) : Prop := LumenStep i s sl env
      (after cost c ({ ty := t, val := if d then 0x7FF8000000000000 else 0x7FC00000, q := withClass (qJoinAll [b.q]) 0 ||| qRange } :: rest) 4)
    pushes (.sqrt sl u t) 24 rest (qJoinAll [b.q]) (fSqrt d b.val version)
    ∧ pushes (.exp sl u t) 40 rest (qJoinAll [b.q]) (fExp d b.val version)
    ∧ pushes (.ln sl u t) 40 rest (qJoinAll [b.q]) (fLn d b.val version)
    ∧ pushes (.sin sl u t) 44 rest (qJoinAll [b.q]) (fSin d b.val version)
    ∧ pushes (.cos sl u t) 44 rest (qJoinAll [b.q]) (fCos d b.val version)
    ∧ (∀ y under, rest = y :: under → baseOf c ≤ under.length → y.ty = t →
        pushes (.atan2 sl u t) 52 under (qJoin y.q b.q) (fAtan2 d y.val b.val version))
    ∧ (fIsNaN d b.val = true → nan (.sqrt sl u t) 24 ∧ nan (.exp sl u t) 40 ∧ nan (.ln sl u t) 40 ∧ nan (.sin sl u t) 44 ∧ nan (.cos sl u t) 44)
    ∧ (fCmp d b.val 0 = some .lt → nan (.sqrt sl u t) 24 ∧ nan (.ln sl u t) 40)

/-- R130, R160, R161, R163, R164: LDP, LDQ, LDTM and LDX push the cycle's view of a point; STP and STX enter a value into the write set; an
index outside the range sets INDEX. (model choices: log entry 100) -/
def Obligations.LumenPoints : Prop :=
  ∀ (s : State) (sl : Slot) (u : Nat) (env : LEnv) (c : Cycle) (t : LType), LumenDue s sl u env c →
    let seen (h : W32) (r : PointRec) : W64 :=
      if r.forced then r.force else match tget c.ws (hIdx h) with | some w => w.value | none => r.value
    let quality (h : W32) (r : PointRec) : W16 := match tget c.ws (hIdx h) with | some w => w.quality | none => r.quality
    let written (h : W32) (v : SEntry) : Table WEnt :=
      tset c.ws (hIdx h) { handle := h, value := maskVal t v.val, quality := v.q &&& 0xC07C }
    (∀ i h r, EntryOk env c i 0 t h r → c.stack.length < 64 →
      LumenStep (.ldp sl u t i) s sl env (after 6 c ({ ty := t, val := maskVal t (seen h r), q := quality h r &&& 0xFF7C } :: c.stack))
      ∧ LumenStep (.ldq sl u t i) s sl env (after 6 c ({ ty := .int32, val := (quality h r).setWidth 64, q := 0xC000 } :: c.stack))
      ∧ LumenStep (.ldtm sl u t i) s sl env (after 6 c
          ({ ty := .time64, val := if (tget c.ws (hIdx h)).isSome then c.start else r.time, q := 0xC000 } :: c.stack)))
    ∧ (∀ i h r v rest, EntryOk env c i 1 t h r → OnTop c [v] rest → v.ty = t →
      LumenStep (.stp sl u t i) s sl env { after 4 c rest with ws := written h v })
    ∧ (∀ (base count : Nat) (j : SEntry) (rest : List SEntry), OnTop c [j] rest → j.ty = .int32 →
      let k := iVal .int32 j.val
      (k < 0 ∨ (count : Int) ≤ k → LumenStep (.ldx sl u t base count) s sl env (after 8 c ({ ty := t, val := 0, q := 0x0004 } :: rest) 8 2))
      ∧ (∀ n h r, k = (n : Nat) → n < count → EntryOk env c (base + n) 0 t h r →
        LumenStep (.ldx sl u t base count) s sl env
          (after 8 c ({ ty := t, val := maskVal t (seen h r), q := quality h r &&& 0xFF7C } :: rest) 0 2))
      ∧ (∀ v under, rest = v :: under → baseOf c ≤ under.length → v.ty = t →
        (k < 0 ∨ (count : Int) ≤ k → LumenStep (.stx sl u t base count) s sl env (after 6 c under 8 2))
        ∧ (∀ n h r, k = (n : Nat) → n < count → EntryOk env c (base + n) 1 t h r →
          LumenStep (.stx sl u t base count) s sl env { after 6 c under 0 2 with ws := written h v })))

/-- R167 to R170: branches, CALL and RET. (model choices: log entry 100) -/
def Obligations.LumenControl : Prop :=
  ∀ (s : State) (sl : Slot) (u : Nat) (env : LEnv) (c : Cycle) (f : LFrame) (fs : List LFrame), LumenDue s sl u env c → c.frames = f :: fs →
    let branched (cost : Nat) (st : List SEntry) (off : Int) : Cycle :=
      { c with cost := c.cost + cost, stack := st, frames := { f with pc := ((f.pc : Int) + 1 + off).toNat } :: fs }
    (∀ off, LumenStep (.br sl u off) s sl env (branched 2 c.stack off.toInt))
    ∧ (∀ off x rest, OnTop c [x] rest → x.ty = .bool →
      LumenStep (.brt sl u off) s sl env (branched 2 rest (if x.val.getLsbD 0 then off.toInt else 0))
      ∧ LumenStep (.brf sl u off) s sl env (branched 2 rest (if x.val.getLsbD 0 then 0 else off.toInt)))
    ∧ (∀ block b es rest, blockOf env.code block = some b → block < le env.code 6 2 → fs.length < 31 → OnTop c es rest →
      es.length = b.params → es.reverse.map (fun e => e.ty) = b.ltypes.take b.params →
      LumenStep (.call sl u block) s sl env { c with
        cost := c.cost + 8 + b.nlocals
        stack := rest
        frames := { block := block, pc := b.start, base := rest.length
                    locals := es.reverse ++ (b.ltypes.drop b.params).map (fun t => { ty := t, val := 0, q := 0xC000 }) }
          :: { f with pc := f.pc + 1 } :: fs })
    ∧ (∀ b es rest, blockOf env.code f.block = some b → fs ≠ [] → c.stack = es ++ rest → rest.length = f.base →
      es.reverse.map (fun e => e.ty) = b.rtypes →
      LumenStep (.ret sl u) s sl env { c with cost := c.cost + 4, frames := fs })

/-- R133, R170, R414: END in any block, and RET from block 0, ends the cycle: its frames are discarded, the digest of the write set is
sealed at this time, and its retained values join the log, for whose space the seal waits. (model choices: log entries 44, 100) -/
def Obligations.LumenEnd : Prop :=
  ∀ (s : State) (sl : Slot) (u : Nat) (env : LEnv) (c : Cycle) (i : Instr) (cost : Nat), LumenDue s sl u env c →
    (i = .endCycle sl u ∧ cost = 2 ∨ (i = .ret sl u ∧ cost = 4 ∧ ∃ f b, c.frames = [f] ∧ blockOf env.code f.block = some b ∧ f.base = 0
      ∧ c.stack.reverse.map (fun e => e.ty) = b.rtypes)) →
    let m := modOf s sl
    let kept := retainedOf m (now m) c.ws
    (kept.length ≤ logFree m → ∃ t k d, exec i s = .next t ∧ taskOf (modOf t sl) env.t = some k ∧ k.cycle = some d
      ∧ d.ended = true ∧ d.frames = [] ∧ d.stack = [] ∧ d.ws = c.ws ∧ d.exc = c.exc ∧ d.cost = c.cost + cost
      ∧ d.sealedAt = some (now m) ∧ d.digest = crc32c (c.ws.map (fun x => digestEntry x.2)).flatten
      ∧ (modOf t sl).store.log = m.store.log ++ (if kept = [] then [] else [{ task := env.t, start := c.start, entries := kept }]))
    ∧ (logFree m < kept.length → kept.length ≤ 262144 → ∃ t k d, exec i s = .next t ∧ taskOf (modOf t sl) env.t = some k ∧ k.cycle = some d
      ∧ d.ended = true ∧ d.waitsLog = true ∧ d.sealedAt = c.sealedAt ∧ (modOf t sl).store.log = m.store.log)

/-- R173 to R183: the primitives. (model choices: log entries 13, 95, 100) -/
def Obligations.LumenPrimitives : Prop :=
  ∀ (s : State) (sl : Slot) (u base : Nat) (env : LEnv) (c : Cycle), LumenDue s sl u env c →
    let vals (es : List SEntry) : List W64 := es.map (fun e => e.val)
    let real : LType × Nat := (.real64, 0)
    let kept : LType × Nat := (.real64, 1)
    PrimStep (.pid sl u base) s sl env c 110 base [.real64, .real64, .bool, .real64] [real, real, real, real, real, real, kept, kept, kept]
      (fun es vs => pidRun env c base (vals es) vs)
    ∧ PrimStep (.ramp sl u base) s sl env c 80 base [.real64] [real, real, kept, kept] (fun es vs => rampRun env c (vals es) vs)
    ∧ PrimStep (.leadlag sl u base) s sl env c 50 base [.real64] [real, real, kept, kept] (fun es vs => leadlagRun env c (vals es) vs)
    ∧ PrimStep (.total sl u base) s sl env c 40 base [.real64, .bool] [real, kept, kept, kept] (fun es vs => totalRun env c (vals es) vs)
    ∧ (∀ variant, PrimStep (.timer sl u variant base) s sl env c 30 base [.bool] [(.int64, 0), (.int64, 1), (.bool, 1), (.bool, 1)]
        (fun es vs => timerRun variant env c (vals es) vs))
    ∧ (∀ n, 2 ≤ n → n ≤ 8 → PrimStep (.select sl u n base) s sl env c (30 + 8 * n) base (List.replicate n .real64)
        [(.int32, 0), (.int32, 0), kept] selectRun)
    ∧ (∀ variant, PrimStep (.deadband sl u variant base) s sl env c 20 base [.real64] [real, kept]
        (fun es vs => deadbandRun variant env c (vals es) vs))
    ∧ (∀ t x lo hi rest, OnTop c [hi, lo, x] rest → x.ty = t → lo.ty = t → hi.ty = t →
      let q := qJoinAll [x.q, lo.q, hi.q]
      (t = .int32 ∨ t = .int64 →
        (iVal t lo.val ≤ iVal t hi.val → ∃ v, LumenStep (.limit sl u t) s sl env (after 3 c ({ ty := t, val := v, q := q } :: rest))
          ∧ iVal t v = min (max (iVal t x.val) (iVal t lo.val)) (iVal t hi.val))
        ∧ (iVal t hi.val < iVal t lo.val → ∃ v, LumenStep (.limit sl u t) s sl env
            (after 3 c ({ ty := t, val := v, q := qUncertain q ||| qRange } :: rest) 16) ∧ iVal t v = iVal t lo.val))
      ∧ (∀ d, (t = .real32 ∧ d = false) ∨ (t = .real64 ∧ d = true) →
        let r := limitReal d x.val lo.val hi.val
        LumenStep (.limit sl u t) s sl env (after 3 c ({ ty := t, val := maskVal t r.val, q := qLower q r.qual } :: rest) (w32 r.flags))))

/-! ### Quondi commands -/

/-- R65, R70 to R73, R78, R311: what an answer enters. A query or local command gets one completion of stage 3 or 4 with its response cut to
RSP_LEN. Work gets its record in the ticket window, its journal entry turns final, and on the lead its completion goes to its QP. A command
that waits or goes on later gets neither. (model choices: log entry 80) -/
def Obligations.QuondiFinalStage : Prop :=
  ∀ (m m' : Module) (c : Cmd) (code status detail : Nat) (rsp : Bytes) (q : Qp),
    (∀ kind, kind = .query ∨ kind = .loc → tget m'.mail.qps c.qp = some q → q.st ≠ .closed →
      let fin (stage : Nat) (rsp : Bytes) (w : Bool) : Cpl :=
        { ticket := c.ticket, code := code, stage := stage, status := status, detail := detail, rsp := rsp.take c.rspLen, time := now m',
          noIrq := c.flags.getLsbD 2, waitsRecord := w }
      (∃ w, tget (settle m kind code c (.done status detail rsp m')).mail.qps c.qp = some { q with held := q.held ++ [fin 3 rsp w] })
      ∧ (settle m kind code c (.done status detail rsp m')).mail.journal = m'.mail.journal
      ∧ (settle m kind code c (.done status detail rsp m')).mail.tickets = m'.mail.tickets
      ∧ tget (settle m kind code c (.refusedRec status detail m')).mail.qps c.qp = some { q with held := q.held ++ [fin 4 [] false] })
    ∧ (∃ r, ticketFind (settle m .work code c (.done status detail rsp m')) c.qp c.ticket = some r
        ∧ r.stage = 3 ∧ r.status = status ∧ r.detail = detail ∧ r.time = now m')
    ∧ (∃ r, ticketFind (settle m .work code c (.refusedRec status detail m')) c.qp c.ticket = some r
        ∧ r.stage = 4 ∧ r.status = status ∧ r.detail = detail ∧ r.time = now m')
    ∧ (∀ kind, (settle m kind code c .waits).maint.waits = m.maint.waits ++ [(c.qp, code, c)]
        ∧ (settle m kind code c .waits).mail.qps = m.mail.qps ∧ (settle m kind code c .waits).mail.tickets = m.mail.tickets)

/-- R56, R98, R109: a module that does not serve a command answers BAD_STATE (0x000B), an acting partition that is not there NO_TARGET
(0x0008), a run-locked partition RUN_LOCKED (0x000D), before the command looks at anything else. (model choices: log entry 26) -/
def Obligations.QuondiRefusals : Prop :=
  ∀ (s : State) (sl : Slot) (c : Cmd),
    let m := modOf s sl
    let refused (i : Instr) (kind : Kind) (code status : Nat) : Prop := Answers i s sl kind code c (.refused status 0)
    fw m = true →
    (m.boot.state = .umbra ∨ m.boot.state = .splitOff → heldBack m c = false → behindWork m 0x0201 c = false →
      refused (.pointWrite sl c) .work 0x0202 0x000B ∧ refused (.taskStart sl c) .work 0x0304 0x000B
      ∧ refused (.partitionCreate sl c) .work 0x0B01 0x000B ∧ refused (.pointRead sl c) .query 0x0201 0x000B)
    ∧ (m.boot.state = .ready ∨ m.boot.state = .run → (∃ p, actPart c = some p ∧ partOf m p = none) →
      (behindWork m 0x0201 c = false → refused (.pointRead sl c) .query 0x0201 0x0008)
      ∧ (isLead m = true → heldBack m c = false →
        refused (.pointWrite sl c) .work 0x0202 0x0008 ∧ refused (.taskDefine sl c) .work 0x0301 0x0008
        ∧ refused (.dropSend sl c) .work 0x0407 0x0008))
    ∧ (m.boot.state = .ready ∨ m.boot.state = .run → isLead m = true → heldBack m c = false → c.qp < 4 → c.target ≠ 0xFFFF →
      (∃ q, partOf m c.target.toNat = some q ∧ q.runLock = true) →
      refused (.pointWrite sl c) .work 0x0202 0x000D ∧ refused (.pointForce sl c) .work 0x0208 0x000D
      ∧ refused (.taskStop sl c) .work 0x0305 0x000D ∧ refused (.chronicleNote sl c) .work 0x0704 0x000D)

/-- R75, R89, R90: the SESSION commands. (model choices: log entry 27) -/
def Obligations.QuondiSession : Prop :=
  ∀ (s : State) (sl : Slot) (c : Cmd),
    let m := modOf s sl
    let n := le c.param 0 2
    let named := if n = 0xFFFF then c.qp else n
    let local' (i : Instr) (scope : Scope) (code : Nat) (r : QRes) : Prop := runs .loc scope code c m = true → Answers i s sl .loc code c r
    let mail (f : Mailbox → Mailbox) : Module := { m with mail := f m.mail }
    (1 ≤ n → n ≤ 1027 → (4 ≤ n → ∃ p, partOf m (n - 4) = some p ∧ (p.cred.any (fun b => b != 0) = false ∨ p.cred = (c.param.drop 8).take 16)) →
      qpLive m n = false → le c.req 34 2 = 0 ∨ c.qp = 0 →
      let port (x : Mailbox) : Mailbox := { x with udpPort := if le c.req 34 2 = 0 then x.udpPort else le c.req 34 2 }
      (byteAt c.param 2 = 0 → 1 ≤ byteAt c.param 3 → byteAt c.param 3 ≤ 31 → sqSizeOk (le c.param 4 2) = true → cqSizeOk (le c.param 6 2) = true →
        aligned4k (w64 (le c.req 0 8)) = true → aligned4k (w64 (le c.req 8 8)) = true →
        let q : Qp := { st := .opened, vector := byteAt c.param 3, sqBase := w64 (le c.req 0 8), cqBase := w64 (le c.req 8 8),
                        sqSize := le c.param 4 2, cqSize := le c.param 6 2 }
        local' (.sessionOpen sl c) .sys 0x0101 (.done 0 0 [] (mail (fun x => port { x with qps := tset x.qps n q }))))
      ∧ (byteAt c.param 2 = 1 → ((c.req.drop 16).take 16).all (fun b => b == 0) = false →
        let q : Qp := { st := .opened, udp := true, peer := (c.req.drop 16).take 16, peerPort := le c.req 32 2 }
        local' (.sessionOpen sl c) .sys 0x0101 (.done 0 0 [] (mail (fun x => port { x with qps := tset x.qps n q })))))
    ∧ (∀ q, 1 ≤ n → n ≤ 1027 → n ≠ c.qp → tget m.mail.qps n = some q → q.st = .opened →
      local' (.sessionClose sl c) .sys 0x0102
        (.later (closeIfDrained (qpMod m n (fun x => { x with st := .closing, closer := some (c.qp, c) })) n)))
    ∧ (named ≤ 1027 → runs .query .any 0x0103 c m = true → ∃ rsp, Answers (.sessionStatus sl c) s sl .query 0x0103 c (.done 0 0 rsp m)
        ∧ byteAt rsp 0 = stateCode m.boot.state ∧ byteAt rsp 1 = roleCode m.pair.role ∧ byteAt rsp 2 = modeCode m.pair.mode
        ∧ byteAt rsp 3 = slotN m.slot ∧ le rsp 4 4 = m.pair.leadEpoch.toNat ∧ rsp.length = 64)
    ∧ ((match actPart c with | some p => n = 0xFFFF ∨ n = p + 4 | none => n = 0xFFFF ∨ n ≤ 3) → le c.param 8 4 ≤ 4096 →
      runs .query .part 0x0104 c m = true →
      let q := if n = 0xFFFF then (match actPart c with | some p => p + 4 | none => c.qp) else n
      ∃ hdr, hdr.length = 32 ∧ Answers (.sessionTickets sl c) s sl .query 0x0104 c
        (.done 0 0 (hdr ++ (((windowOf m q).drop (le c.param 4 4)).take (le c.param 8 4) |>.map ticketBytes).flatten) m))
    ∧ (n ≤ 1027 → n ≠ c.qp → (leadOf m (modOf s (otherSlot sl))).mail.journal.all (fun e => e.qp != n) = true →
      runs .work .sys 0x0105 c m = true → Answers (.sessionReticket sl c) s sl .work 0x0105 c
        (.done 0 0 [] (mail (fun x => { x with tickets := tdel x.tickets n, highest := tdel x.highest n, floorH := tdel x.floorH n }))))
    ∧ (runs .query .any 0x0106 c m = true → Answers (.sessionNop sl c) s sl .query 0x0106 c (.done 0 0 (fit 24 c.param) m))
    ∧ (∀ q, named ≤ 1027 → tget m.mail.qps named = some q → q.st = .opened → le c.param 2 2 ≤ 256 →
      (le c.param 2 2 = 0 ∨ (1 ≤ le c.param 4 4 ∧ le c.param 4 4 ≤ 1000)) →
      local' (.sessionCoalesce sl c) .any 0x0107 (.done 0 0 [] (qpMod m named (fun x =>
        { x with coalCount := le c.param 2 2, coalAge := if le c.param 2 2 = 0 then 0 else le c.param 4 4, unsignalled := 0 }))))

/-- R98, R99, R101 to R105: POINT.WRITE, FORCE, UNFORCE, RETAIN, FREE and ALLOC run their 1 to 4,096 elements (ALLOC 65,536) one after
another, each on what the earlier ones left; with the first that fails the whole command is refused with its index in DETAIL (ALLOC: 0) and
changes nothing; else all take effect in one commit. (model choices: log entries 44, 82) -/
def Obligations.PointElementCommands : Prop :=
  ∀ (s : State) (sl : Slot) (c : Cmd) (a : Module) (st i : Nat),
    let m := modOf s sl
    let n := le c.param 0 4
    let p := pid c
    let runs' (code : Nat) : Prop := runs .work .part code c m = true
    1 ≤ n → n ≤ 4096 →
    (runs' 0x0202 →
      (elems (writeElem c ((byteAt c.param 4).testBit 0)) n 0 m = .ok a → ∃ status, (status = 0 ∨ status = 0x8201) ∧
        Answers (.pointWrite sl c) s sl .work 0x0202 c
          (.done status 0 [] (commit m (retainNow ((List.range n).map (elemHandle c 16)) a))))
      ∧ (elems (writeElem c ((byteAt c.param 4).testBit 0)) n 0 m = .error (st, i) →
        Answers (.pointWrite sl c) s sl .work 0x0202 c (.refused st i)))
    ∧ (runs' 0x0208 → hasCap m p 0 = true →
      (elems (forceElem c) n 0 m = .ok a → Answers (.pointForce sl c) s sl .work 0x0208 c (.done 0 0 [] (commit m a)))
      ∧ (elems (forceElem c) n 0 m = .error (st, i) → Answers (.pointForce sl c) s sl .work 0x0208 c (.refused st i)))
    ∧ (runs' 0x0209 → hasCap m p 0 = true →
      (elems (unforceElem c) n 0 m = .ok a → Answers (.pointUnforce sl c) s sl .work 0x0209 c (.done 0 0 [] (commit m a)))
      ∧ (elems (unforceElem c) n 0 m = .error (st, i) → Answers (.pointUnforce sl c) s sl .work 0x0209 c (.refused st i)))
    ∧ (runs' 0x020A → hasCap m p 1 = true → byteAt c.param 4 ≤ 1 →
      (elems (retainElem c (byteAt c.param 4 == 1)) n 0 m = .ok a → Answers (.pointRetain sl c) s sl .work 0x020A c (.done 0 0 [] a))
      ∧ (elems (retainElem c (byteAt c.param 4 == 1)) n 0 m = .error (st, i) → Answers (.pointRetain sl c) s sl .work 0x020A c (.refused st i)))
    ∧ (runs' 0x0204 →
      (elems (freeElem c) n 0 m = .ok a → Answers (.pointFree sl c) s sl .work 0x0204 c (.done 0 0 [] (commit m a)))
      ∧ (elems (freeElem c) n 0 m = .error (st, i) → Answers (.pointFree sl c) s sl .work 0x0204 c (.refused st i)))
    ∧ (∀ t retained shared, runs' 0x0203 → typeOfCode (byteAt c.param 4) = some t →
      retained = (byteAt c.param 5).testBit 0 → shared = (byteAt c.param 5).testBit 1 →
      (retained = true → hasCap m p 1 = true) → (shared = true → hasCap m p 2 = true) →
      ((byteAt c.param 5).testBit 2 = false →
        (elems (allocElem p t shared retained) n 0 m = .ok a →
          Answers (.pointAlloc sl c) s sl .work 0x0203 c (.done 0 0 (allocHandles p t shared retained n 0 m) (commit m a)))
        ∧ (elems (allocElem p t shared retained) n 0 m = .error (st, i) →
          Answers (.pointAlloc sl c) s sl .work 0x0203 c (.refused st 0)))
      ∧ ((byteAt c.param 5).testBit 2 = true → elems (restoreElem c p t shared retained) n 0 m = .ok a →
          Answers (.pointAlloc sl c) s sl .work 0x0203 c (.done 0 0 (c.req.take (4 * n)) (commit m a))))

/-- R95, R98, R99, R101 to R104: what one element does to its point, and that it touches no other slot of the store. (model choices: log
entries 9, 82, 87) -/
def Obligations.PointElements : Prop :=
  ∀ (m : Module) (c : Cmd) (i : Nat) (r : PointRec) (t : LType),
    let h16 := w32 (le c.req (16 * i) 4)
    let h4 := w32 (le c.req (4 * i) 4)
    let val := maskVal t (w64 (le c.req (16 * i + 8) 8))
    let gives (res : Except Nat Module) (h : W32) (r' : PointRec) : Prop := ∃ m', res = .ok m' ∧ tget m'.store.points (hIdx h) = some r'
      ∧ ∀ j, j ≠ hIdx h → tget m'.store.points j = tget m.store.points j
    r.ty = some t →
    (live m h16 = some r → r.owner = pid c → (r.writer >>> 14).toNat ≠ 3 →
      (∀ setQ, ∃ q, gives (writeElem c setQ m i) h16 { r with value := val, quality := q, time := now m }
        ∧ q.getLsbD 0 = false ∧ q.getLsbD 7 = false ∧ q.getLsbD 1 = r.quality.getLsbD 1 ∧ qClass q ≠ 2 ∧ (setQ = false → qClass q = 3))
      ∧ (r.forced = true ∨ forcedCount m < 65536 → gives (forceElem c m i) h16 { r with forced := true, force := val }))
    ∧ (live m h16 = some r → r.owner = pid c → (r.writer >>> 14).toNat = 3 →
      (∀ setQ, writeElem c setQ m i = .error 0x0202) ∧ forceElem c m i = .error 0x0202)
    ∧ (live m h4 = some r → r.owner = pid c →
      gives (unforceElem c m i) h4 { r with forced := false }
      ∧ (∀ set, set = false ∨ r.retained = true ∨ retainedCount m < 1048576 → gives (retainElem c set m i) h4 { r with retained := set })
      ∧ (tget m.store.orphans (hIdx h4) = none → tableRefs m h4 = 0 → gives (freeElem c m i) h4 { gen := r.gen + 1 })
      ∧ (tget m.store.orphans (hIdx h4) = none → tableRefs m h4 ≠ 0 → freeElem c m i = .error 0x0201))
    ∧ (live m h4 = none → tget m.store.orphans (hIdx h4) = none →
      unforceElem c m i = .error 8 ∧ (∀ set, retainElem c set m i = .error 8) ∧ freeElem c m i = .error 8)
    ∧ (live m h4 = some r → r.owner ≠ pid c →
      unforceElem c m i = .error 10 ∧ (∀ set, retainElem c set m i = .error 10))
    ∧ (∀ p q k shared retained, partOf m p = some q → freeFirst (fun x => thas m.store.orphans x) q.free = some k →
      retained = false ∨ retainedCount m < 1048576 →
      ∃ m' g, allocElem p t shared retained m i = .ok m' ∧ tget m'.store.points k = some { owner := p, gen := g, ty := some t, shared, retained }
        ∧ (∀ x, tget m.store.points k = some x → g = x.gen) ∧ (∀ j, j ≠ k → tget m'.store.points j = tget m.store.points j)
        ∧ ∃ q', partOf m' p = some q' ∧ q'.free = freeRemove k q.free)

/-- R98, R100, R105, R118 to R123: POINT.READ and DESCRIBE answer from one state and change nothing; SUBSCRIBE, UNSUBSCRIBE, PUBLISH and
IMPORT enter or remove their object. (model choices: log entry 10) -/
def Obligations.PointReadersPublishers : Prop :=
  ∀ (s : State) (sl : Slot) (c : Cmd),
    let m := modOf s sl
    let n0 := le c.param 0 4
    let n4 := le c.param 4 4
    let p := pid c
    let h (o i : Nat) : W32 := w32 (le c.req (o + 4 * i) 4)
    let readable (n : Nat) : Prop := ∀ i, i < n → checkRead m p (h 0 i) = none
    let storeWith (f : Store → Store) : Module := { m with store := f m.store }
    (1 ≤ n0 → n0 ≤ 4096 → readable n0 →
      (runs .query .part 0x0201 c m = true → Answers (.pointRead sl c) s sl .query 0x0201 c (.done 0 0
        (leBytes 8 (now m).toNat ++ leBytes 4 n0 ++ zeros 4
          ++ ((List.range n0).map (fun i => match live m (h 0 i) with | some r => recordBytes r | none => zeros 32)).flatten) m))
      ∧ (runs .query .part 0x0205 c m = true → ∃ rsp, Answers (.pointDescribe sl c) s sl .query 0x0205 c (.done 0 0 rsp m)
          ∧ rsp.length = 16 * n0))
    ∧ (1 ≤ n4 → n4 ≤ 16384 → pow2In (le c.param 16 4) 6 16 = true → le c.param 20 4 ≤ 1000000 → hasCap m p 6 = true → readable n4 →
      (thas m.store.subs (p * 2 ^ 32 + n0) = true ∨ m.store.subs.length < 65536) → runs .work .part 0x0206 c m = true →
      let sub : Subscription := { qp := c.qp, ring := w64 (le c.param 8 8), entries := le c.param 16 4, interval := le c.param 20 4,
                                  handles := (List.range n4).map (h 0) }
      Answers (.pointSubscribe sl c) s sl .work 0x0206 c
        (.done 0 0 [] (refreshSubscribed (storeWith (fun x => { x with subs := tset x.subs (p * 2 ^ 32 + n0) sub })))))
    ∧ (thas m.store.subs (p * 2 ^ 32 + n0) = true → runs .work .part 0x0207 c m = true →
      Answers (.pointUnsubscribe sl c) s sl .work 0x0207 c
        (.done 0 0 [] (refreshSubscribed (storeWith (fun x => { x with subs := tdel x.subs (p * 2 ^ 32 + n0) })))))
    ∧ (∀ k, le c.param 0 2 ≤ 255 → hasCap m p 2 = true → le c.param 2 2 ≠ 0xFFFF → 1 ≤ n4 → n4 ≤ 1024 → 1 ≤ byteAt c.param 10 →
      byteAt c.param 10 ≤ 8 → tget m.exec.tasks (le c.param 2 2) = some k → k.part = p → 1000 ≤ k.period →
      (∀ i, i < n4 → ∃ r, live m (h 0 i) = some r ∧ r.owner = p ∧ r.shared = true) → runs .work .part 0x020B c m = true →
      let hs := (List.range n4).map (h 0)
      let port := if le c.param 8 2 = 0 then 9642 else le c.param 8 2
      let ds := chunks 20 (byteAt c.param 10) (c.req.drop (4 * n4))
      (tget m.store.pubs (le c.param 0 2) = none → m.store.pubs.length < 256 →
        let pub : Publication := { part := p, task := le c.param 2 2, port := port, handles := hs, dests := ds }
        Answers (.pointPublish sl c) s sl .work 0x020B c (.done 0 0 [] (storeWith (fun x => { x with pubs := tset x.pubs (le c.param 0 2) pub }))))
      ∧ (∀ x, tget m.store.pubs (le c.param 0 2) = some x → x.part = p →
        Answers (.pointPublish sl c) s sl .work 0x020B c (.done 0 0 [] (storeWith (fun y =>
          { y with pubs := tset y.pubs (le c.param 0 2) { x with next := some (le c.param 2 2, port, hs, ds) } })))))
    ∧ (∀ x, le c.param 0 2 ≤ 255 → le c.param 2 2 = 0xFFFF → n4 = 0 →
      (hasCap m p 2 = true → byteAt c.param 10 = 0 → ∀ x, tget m.store.pubs (le c.param 0 2) = some x → x.part = p →
        runs .work .part 0x020B c m = true →
        Answers (.pointPublish sl c) s sl .work 0x020B c (.done 0 0 [] (storeWith (fun y => { y with pubs := tdel y.pubs (le c.param 0 2) }))))
      ∧ (hasCap m p 5 = true → tget m.store.imports (le c.param 0 2) = some x → x.part = p → runs .work .part 0x020C c m = true →
        Answers (.pointImport sl c) s sl .work 0x020C c
          (.done 0 0 [] (storeWith (fun y => { y with imports := tset y.imports (le c.param 0 2) { x with deleting := true } })))))
    ∧ (∀ k, le c.param 0 2 ≤ 255 → hasCap m p 5 = true → le c.param 2 2 ≠ 0xFFFF → 1 ≤ n4 → n4 ≤ 1024 → le c.param 12 2 ≤ 255 →
      byteAt c.param 14 ≠ 0 → tget m.exec.tasks (le c.param 2 2) = some k → k.part = p →
      let hs := (List.range n4).map (h 16)
      (∀ i, i < n4 → importCheck m (le c.param 0 2) p hs i (h 16 i) = none) → tget m.store.imports (le c.param 0 2) = none →
      m.store.imports.length < 256 → runs .work .part 0x020C c m = true →
      let new : Import := { part := p, task := le c.param 2 2, source := c.req.take 16, domain := w32 (le c.param 8 4), pubId := le c.param 12 2,
                            wIn := byteAt c.param 14, handles := hs }
      Answers (.pointImport sl c) s sl .work 0x020C c (.done 0 0 [] (hs.foldl (setInput true)
        (storeWith (fun y => { y with imports := tset y.imports (le c.param 0 2) new })))))

/-- R105 to R117: the PARTITION and GUARD commands. (model choices: log entries 11, 26) -/
def Obligations.PartitionGuard : Prop :=
  ∀ (s : State) (sl : Slot) (c : Cmd),
    let m := modOf s sl
    let p := le c.param 0 2
    let work (i : Instr) (scope : Scope) (code : Nat) (m' : Module) : Prop :=
      runs .work scope code c m = true → Answers i s sl .work code c (.done 0 0 [] m')
    let named : Prop := p ≤ 1023 ∧ ∃ q, partOf m p = some q ∧ q.runLock = false
    (p ≤ 1023 → 1 ≤ le c.param 2 2 → le c.param 2 2 ≤ 256 → thas m.store.parts p = false → le c.param 4 4 % 32 = 0 → le c.param 8 4 % 32 = 0 →
      le c.param 4 4 + le c.param 8 4 ≤ 33554432 → overlaps m (le c.param 4 4) (le c.param 8 4) = false →
      let q : Partition := { quota := le c.param 2 2, base := le c.param 4 4, count := le c.param 8 4, caps := w32 (le c.param 12 4) &&& 0x1FF,
                             cred := c.req.take 16, free := if le c.param 8 4 = 0 then [] else [(le c.param 4 4, le c.param 8 4)] }
      work (.partitionCreate sl c) .sys 0x0B01 { m with store := { m.store with parts := tset m.store.parts p q } })
    ∧ (named → m.exec.tasks.all (fun x => x.2.part != p) = true → qpLive m (p + 4) = false → ∃ m',
      work (.partitionDelete sl c) .sys 0x0B02 m' ∧ tget m'.store.parts p = none
      ∧ (∀ k, k ≠ p → (tget m'.store.parts k).isSome = (tget m.store.parts k).isSome) ∧ m'.store.orphans.all (fun x => x.2.owner != p) = true
      ∧ m'.exec = m.exec ∧ m'.mail = m.mail)
    ∧ (named → work (.partitionCaps sl c) .sys 0x0B03 (partMod m p (fun q =>
        { q with caps := w32 (le c.param 4 4) &&& 0x1FF, cred := if c.req.length = 0 then q.cred else c.req.take 16 })))
    ∧ (4 ≤ c.qp → byteAt c.param 0 ≤ 1 → hasCap m (pid c) 8 = true →
      work (.partitionRunlock sl c) .part 0x0B04 (partMod m (pid c) (fun q => { q with runLock := byteAt c.param 0 == 1 })))
    ∧ (c.qp < 4 → runs .work .part 0x0B04 c m = true → Answers (.partitionRunlock sl c) s sl .work 0x0B04 c (.refused 10 0))
    ∧ (named → p ≠ 0xFFFF → ((chunks 16 28 c.req).map guardDesc).all (fun d => !regionBad d) = true →
      work (.guardRegions sl c) .sys 0x0B05 (partMod m p (fun q => { q with regions := (chunks 16 28 c.req).map guardDesc })))
    ∧ (p = 0xFFFF → (c.req.take 31).all (fun x => decide (x.toNat ≤ 3)) = true → 1 ≤ le c.req 32 4 → le c.req 32 4 ≤ 64 →
      work (.guardRegions sl c) .sys 0x0B05 { m with store := { m.store with arb := { m.store.arb with
        newClasses := some ((c.req.take 31).map (·.toNat), le c.req 32 4) } } })
    ∧ (runs .query .any 0x0B06 c m = true → ∃ rsp, Answers (.guardViolation sl c) s sl .query 0x0B06 c (.done 0 0 rsp m) ∧ rsp.length = 512)
    ∧ ∃ m', work (.guardClear sl c) .sys 0x0B07 m'
      ∧ (∀ k, k < 32 → m'.exec.units[k]? = (m.exec.units[k]?).map (fun u => if p.testBit (k / 2) then { u with latch := none, violations := 0 } else u))
      ∧ m' = { m with exec := { m.exec with units := m'.exec.units } }

/-- R125, R126, R127, R140, R145, R146, R152, R153: the TASK commands. (model choices: log entries 26, 83) -/
def Obligations.TaskCommands : Prop :=
  ∀ (s : State) (sl : Slot) (c : Cmd),
    let m := modOf s sl
    let t := le c.param 0 2
    let p := pid c
    let work (i : Instr) (code : Nat) (r : QRes) : Prop := runs .work .part code c m = true → Answers i s sl .work code c r
    let exec' (f : Table Task → Table Task) : Module := { m with exec := { m.exec with tasks := f m.exec.tasks } }
    (∀ q, t ≤ 4095 → byteAt c.param 2 ≤ 15 → 50 ≤ le c.param 4 4 → le c.param 4 4 ≤ 60000000 → le c.param 8 4 < le c.param 4 4 →
      4 ≤ le c.param 12 4 → le c.param 12 4 ≤ 16384 → thas m.exec.tasks t = false → m.exec.tasks.length < 4096 → partOf m p = some q →
      (m.exec.tasks.filter (fun x => x.2.part == p)).length < q.quota →
      let cluster := byteAt c.param 3 % 16
      let bit' (o k : Nat) : Bool := (byteAt c.param o).testBit k
      bit' 16 1 = isSplit m cluster → (isSplit m cluster = true → bit' 16 0 = false) → (isSplit m cluster = false → bit' 3 4 = false) →
      (linked m (modOf s (otherSlot sl)) = true → isSplit (modOf s (otherSlot sl)) cluster = isSplit m cluster) →
      let k : Task := { part := p, period := le c.param 4 4, phase := le c.param 8 4, prio := byteAt c.param 2, cluster := cluster,
                        core := bit' 3 4, frameKiB := le c.param 12 4, halo := bit' 16 0, unchecked := bit' 16 1 }
      work (.taskDefine sl c) 0x0301 (.done 0 0 [] (exec' (fun x => tset x t k))))
    ∧ (∀ k, tget m.exec.tasks t = some k → k.part = p →
      (byteAt c.param 2 ≤ 1 → byteAt c.param 3 ≤ 1 → k.active ≠ some (byteAt c.param 2) → k.cycle = none →
        le c.param 8 4 + c.req.length ≤ 16777216 → bankUsed m (byteAt c.param 2) + 16777216 ≤ 536870912 →
        (byteAt c.param 4).testBit 1 = false →
        work (.taskLoad sl c) 0x0302 (.done 0 0 [] (taskMod m t (fun k => setPart k (byteAt c.param 2) (byteAt c.param 3)
          { bytes := overwrite (if (byteAt c.param 4).testBit 0 then [] else (partIn k (byteAt c.param 2) (byteAt c.param 3)).bytes)
              (le c.param 8 4) c.req
            sealed := false }))))
      ∧ (byteAt c.param 2 ≤ 1 → byteAt c.param 3 ≤ 1 → k.active = some (byteAt c.param 2) → work (.taskLoad sl c) 0x0302 (.refused 16 0))
      ∧ ((k.st = .loaded ∨ k.st = .stopped ∨ k.st = .faulted) →
        work (.taskStart sl c) 0x0304 (.done 0 0 [] (resetRows (taskMod m t (fun k => { k with
          st := .running, cause := 0, next := gridAfter k (now m), offset := 0, firstDue := true, startDue := true, icalHit := false,
          lastReleased := none, clipRun := false })) t)))
      ∧ (k.st = .defined ∨ k.st = .running → work (.taskStart sl c) 0x0304 (.refused 11 0))
      ∧ (k.st = .running →
        work (.taskStop sl c) 0x0305 (.done 0 0 [] (markFault (taskMod (abandon m t) t (fun k => { k with st := .stopped })) t)))
      ∧ (k.st ≠ .running → work (.taskStop sl c) 0x0305 (.refused 11 0))
      ∧ (k.st ≠ .running → taskBound m t = false → work (.taskDelete sl c) 0x0306 (.done 0 0 [] (exec' (fun x => tdel x t))))
      ∧ (k.st = .running → work (.taskDelete sl c) 0x0306 (.refused 11 0))
      ∧ (byteAt c.param 2 = 0 ∨ byteAt c.param 2 = 3 ∨ (3 ≤ le c.param 8 4 ∧ le c.param 8 4 ≤ 1000 ∧ (byteAt c.param 2 = 1
          ∨ byteAt c.param 2 = 2 ∧ thas m.field.drops (le c.param 4 2) = true)) →
        ∃ k', work (.taskIcal sl c) 0x0308 (.done 0 0 [] (taskMod m t (fun _ => k')))
          ∧ (windowOpen k (now m) = false → k' = { k with
              icalSource := byteAt c.param 2, icalFalling := (byteAt c.param 3).testBit 0, icalDrop := le c.param 4 2, icalD := le c.param 8 4,
              icalT := w64 (le c.param 12 8), icalNext := none })
          ∧ (windowOpen k (now m) = true → k' = { k with
              icalNext := some (byteAt c.param 2, (byteAt c.param 3).testBit 0, le c.param 4 2, le c.param 8 4, w64 (le c.param 12 8)) })))
    ∧ (∀ n, le c.param 0 4 = n → 1 ≤ n →
      (n ≤ 256 → (∀ i, i < n → ∃ k, tget m.exec.tasks (le c.req (2 * i) 2) = some k ∧ k.part = p ∧ k.halo = false ∧ (swapTarget k).isSome = true) →
        ∃ m', work (.taskSwap sl c) 0x0303 (.done 0 0 [] m')
          ∧ (∀ i, i < n → taskOf m' (le c.req (2 * i) 2) = (taskOf m (le c.req (2 * i) 2)).map swapTask)
          ∧ (∀ j, (∀ i, i < n → le c.req (2 * i) 2 ≠ j) → taskOf m' j = taskOf m j))
      ∧ (n ≤ 4096 → (∀ i, i < n → ∃ k, tget m.exec.tasks (le c.req (2 * i) 2) = some k ∧ k.part = p) → runs .query .part 0x0307 c m = true →
        ∃ rsp, Answers (.taskStatus sl c) s sl .query 0x0307 c (.done 0 0 rsp m) ∧ rsp.length = 64 * n))
    ∧ (tget m.exec.tasks t = none →
      work (.taskStart sl c) 0x0304 (.refused 8 0) ∧ work (.taskStop sl c) 0x0305 (.refused 8 0) ∧ work (.taskDelete sl c) 0x0306 (.refused 8 0)
      ∧ work (.taskIcal sl c) 0x0308 (.refused 8 0))

/-- R18, R29, R208 to R211, R245, R246, R411, R420, R421: the GLINT and DIAG commands. A query answers from one state and changes nothing.
(model choices: log entries 15, 66) -/
def Obligations.GlintDiagCommands : Prop :=
  ∀ (s : State) (sl : Slot) (c : Cmd),
    let m := modOf s sl
    let g := m.glint
    let work (i : Instr) (code : Nat) (r : QRes) : Prop := runs .work .sys code c m = true → Answers i s sl .work code c r
    let reads (i : Instr) (code len : Nat) : Prop :=
      runs .query .any code c m = true → ∃ rsp, Answers i s sl .query code c (.done 0 0 rsp m) ∧ rsp.length = len
    let bank := byteAt c.param 0
    let part := byteAt c.param 1
    (bank ≤ 1 → part ≤ 4 → g.active ≠ some bank → le c.param 4 4 + c.req.length ≤ gCap part →
      let bytes := overwrite (if (byteAt c.param 2).testBit 0 then [] else (gPart (gBank g bank) part).bytes) (le c.param 4 4) c.req
      let last := (byteAt c.param 2).testBit 1
      (last = false ∨ gLastCheck part bytes (le c.param 8 4) (le c.param 12 4) = none →
        let b := gSetPart (gBank g bank) part { bytes := bytes, sealed := last }
        work (.glintLoad sl c) 0x0309 (.done 0 0 [] { m with glint := if bank = 0 then { g with bank0 := b } else { g with bank1 := b } }))
      ∧ (last = true → bytes.length ≠ le c.param 8 4 → work (.glintLoad sl c) 0x0309 (.refused 0x0310 0)))
    ∧ (bank ≤ 1 → part ≤ 4 → g.active = some bank → work (.glintLoad sl c) 0x0309 (.refused 16 0))
    ∧ (∀ b, gTarget g = some b → flagWriteBad (gBank g b) = none → m.field.drops.all (fun x => !spliceOverDrop (gBank g b).p4.bytes x.2) = true →
      work (.glintSwap sl c) 0x030A (.done 0 0 [] { m with glint := { g with swapOrdered := true } }))
    ∧ (gTarget g = none → work (.glintSwap sl c) 0x030A (.refused 0x0310 0))
    ∧ reads (.glintStatus sl c) 0x030B 64
    ∧ reads (.diagCounters sl c) 0x0C01 64 ∧ reads (.diagThermal sl c) 0x0C02 64 ∧ reads (.diagMemory sl c) 0x0C03 64
    ∧ reads (.diagLanes sl c) 0x0C04 (32 * m.field.lanes.length)
    ∧ (runs .loc .sys 0x0C05 c m = true → ∃ r, exec (.diagSelftest sl c) s =
        .next { withMod s sl (settle m .loc 0x0C05 c r) with fresh := s.fresh + 1 }
        ∧ ∃ rsp m', r = .done 0 0 rsp m' ∧ rsp.length = 16 ∧ m'.boot = m.boot ∧ m'.store = m.store ∧ m'.exec = m.exec ∧ m'.field = m.field)

/-- R243, R252, R254, R268: SEGMENT.CONFIG and SEGMENT.SCHEDULE, the ranges of their operands, and what turns them away; the status queries
change nothing. (model choices: log entry 26) -/
def Obligations.SegmentCommands : Prop :=
  ∀ (s : State) (sl : Slot) (c : Cmd),
    let m := modOf s sl
    let b (o : Nat) : Nat := byteAt c.param o
    let n (o w : Nat) : Nat := le c.param o w
    let work (i : Instr) (code : Nat) (r : QRes) : Prop := runs .work .sys code c m = true → Answers i s sl .work code c r
    let setting (i : Instr) (code : Nat) (kind : SegKind) (seg : Nat) (m' : Module) : Prop :=
      (segBusy m kind seg = true → work i code (.refused 0x0401 0))
      ∧ (segBusy m kind seg = false → tooFast m' kind seg = true → work i code (.refused 0x0482 0))
      ∧ (segBusy m kind seg = false → tooFast m' kind seg = false → work i code (.done 0 0 [] m'))
    let fieldWith (f : Field → Field) : Module := { m with field := f m.field }
    (b 0 = 0 → b 1 ≤ 7 → b 2 ≤ 2 → 0x0600 ≤ n 4 2 → n 4 2 ∉ [0x0800, 0x0806, 0x8100, 0x86DD, 0x88F7] → 2 ≤ n 6 2 → n 6 2 ≤ 50 →
      n 8 4 ≤ 100000 → n 12 4 ≤ 100000 →
      setting (.segmentConfig sl c) 0x0401 .ring (b 1) (fieldWith (fun x => { x with rings := modNth x.rings (b 1) (fun r =>
        { r with rate := b 2, etherType := n 4 2, delta := n 6 2, dApply := n 8 4, length := n 12 4 }) })))
    ∧ (b 0 = 1 → b 1 ≤ 3 → b 2 ≤ 3 → b 3 ≤ 4 → 50 ≤ b 4 → b 4 ≤ 90 → 50 ≤ b 5 → b 5 ≤ 90 → 2 ≤ n 6 2 → n 6 2 ≤ 1000 →
      setting (.segmentConfig sl c) 0x0401 .bus (b 1) (fieldWith (fun x => { x with buses := modNth x.buses (b 1) (fun r =>
        { r with nominal := b 2, dataRate := b 3, samplePt := b 4, dataSamplePt := b 5, delta := n 6 2 }) })))
    ∧ (b 0 = 2 → b 1 ≤ 3 → b 2 ≤ 6 → b 3 ≤ 1 → 2 ≤ n 4 2 → n 4 2 ≤ 1000 → b 6 ≤ 4 →
      setting (.segmentConfig sl c) 0x0401 .line (b 1) (fieldWith (fun x => { x with lines := modNth x.lines (b 1) (fun r =>
        { r with rate := b 2, bits11 := b 3 == 1, delta := n 4 2, k := b 6 }) })))
    ∧ ((3 ≤ b 0 ∨ b 0 = 0 ∧ 7 < b 1 ∨ 0 < b 0 ∧ 3 < b 1) → work (.segmentConfig sl c) 0x0401 (.refused 7 0))
    ∧ (b 0 ≤ 3 → (b 1 = 1 ∨ b 1 = 2 ∨ b 1 = 4 ∨ b 1 = 8 ∨ b 1 = 16) →
      let rows := (chunks 256 (b 1) c.req).map (fun r => (chunks 4 64 r).map (fun x => busSlot (leVal x)))
      let m' := fieldWith (fun x => { x with buses := modNth x.buses (b 0) (fun r => { r with rows := rows, nextRow := 0 }) })
      (rows.all rowForm = true → scheduleOk m' (b 0) = true → setting (.segmentSchedule sl c) 0x0403 .bus (b 0) m')
      ∧ ((rows.all rowForm = false ∨ scheduleOk m' (b 0) = false) → segBusy m .bus (b 0) = false →
        work (.segmentSchedule sl c) 0x0403 (.refused 0x0409 0)))
    ∧ ((b 0 = 0 ∧ b 1 < m.field.rings.length ∨ b 0 = 1 ∧ b 1 < m.field.buses.length ∨ b 0 = 2 ∧ b 1 < m.field.lines.length) →
      runs .query .any 0x0404 c m = true → ∃ rsp, Answers (.segmentStatus sl c) s sl .query 0x0404 c (.done 0 0 rsp m) ∧ rsp.length = 64)
    ∧ (1 ≤ n 0 4 → n 0 4 ≤ 4096 → runs .query .any 0x0408 c m = true → ∃ rsp,
        Answers (.dropStatus sl c) s sl .query 0x0408 c (.done 0 0 rsp m) ∧ rsp.length = 64 * n 0 4)

/-- R136, R137, R223, R230, R232, R243, R268: a drop is entered with its map and removed again, its points are bound to a task at once or at
the next boundary, and DROP.SEND numbers its message. (model choices: log entries 62, 86, 98) -/
def Obligations.DropCommands : Prop :=
  ∀ (s : State) (sl : Slot) (c : Cmd),
    let m := modOf s sl
    let id := le c.param 0 2
    let b (o : Nat) : Nat := byteAt c.param o
    let n (o w : Nat) : Nat := le c.param o w
    let p := pid c
    let work (i : Instr) (scope : Scope) (code : Nat) (r : QRes) : Prop := runs .work scope code c m = true → Answers i s sl .work code c r
    let added (d : DropCfg) : Prop :=
      let mine := (m.field.acyWaiting.filter (fun x => x.1 == id)).map (·.2)
      let next := mine.foldl (fun a x => if newer32 (x.seq + 1) a then x.seq + 1 else a) (1 : W32)
        let m' : Module := { m with field := { m.field with
          drops := tset m.field.drops id { d with acyPending := mine, acyNext := next }
          acyWaiting := m.field.acyWaiting.filter (fun x => x.1 != id) } }
        thas m.field.drops id = false → mapFirstBad d [] d.map 0 = none → spliceClear m d = true →
        (d.kind = .bus → scheduleOk m' d.segment = true) →
        (tooFast m' d.kind d.segment = false → work (.dropAdd sl c) .sys 0x0405 (.done 0 0 [] m'))
        ∧ (tooFast m' d.kind d.segment = true → work (.dropAdd sl c) .sys 0x0405 (.refused 0x0482 0))
    (∀ es, reqMap c.req = some es →
      (0x180 ≤ id → id ≤ 0xFFF → b 2 ≤ 7 → 1 ≤ b 3 → b 3 ≤ 2 → 1 ≤ n 4 2 → n 4 2 ≤ 464 → n 6 2 ≤ 1478 → 2 ≤ n 8 2 → n 8 2 ≤ 1478 →
        b 14 ≠ 0 → 100 ≤ n 16 4 → n 16 4 ≤ 60000000 → (dropsOn m .ring (b 2)).length < 464 →
        (dropsOn m .ring (b 2)).all (fun x => x.2.position != n 4 2) = true →
        added { kind := .ring, segment := b 2, position := n 4 2, ceiling := b 3, outLen := n 6 2, inLen := n 8 2, outFid := w16 (n 10 2),
                inFid := w16 (n 12 2), wIn := b 14, watchdog := n 16 4, map := es })
      ∧ (0x80 ≤ id → id < 0x180 → 1 ≤ b 3 → b 3 ≤ 4 → b 8 ≠ 0 → 1000 ≤ n 12 4 → n 12 4 ≤ 60000000 →
        let fd := (b 2).testBit 0
        n 4 2 ≤ (if fd then 58 else 2) → n 6 2 ≤ (if fd then 58 else 2) →
        added { kind := .bus, segment := (id - 0x80) / 64, position := (id - 0x80) % 64, outLen := (if fd then 58 else 2) * (b 3 - 1) + n 4 2,
                inLen := n 6 2, wIn := b 8, watchdog := n 12 4, fd := fd, parts := b 3, map := es })
      ∧ (id < 0x80 → b 3 = 1 → b 8 ≠ 0 → 1000 ≤ n 12 4 → n 12 4 ≤ 60000000 → n 4 2 ≤ 237 → n 6 2 ≤ 236 →
        added { kind := .line, segment := id / 32, position := id % 32, outLen := n 4 2, inLen := n 6 2, wIn := b 8, watchdog := n 12 4,
                fd := false, parts := 1, map := es }))
    ∧ (0xFFF < id → work (.dropAdd sl c) .sys 0x0405 (.refused 0x0402 0))
    ∧ (dropOf m id = none → work (.dropRemove sl c) .sys 0x0406 (.refused 8 0))
    ∧ (∀ d, dropOf m id = some d →
      (dropBound d = true → work (.dropRemove sl c) .sys 0x0406 (.refused 0x0408 0))
      ∧ (dropBound d = false → d.acyPending = [] →
        work (.dropRemove sl c) .sys 0x0406 (.done 0 0 [] { m with field := { m.field with drops := tdel m.field.drops id } }))
      ∧ (dropBound d = false → ∃ m', work (.dropRemove sl c) .sys 0x0406 (.done 0 0 [] m')
        ∧ m'.field = { m.field with drops := tdel m.field.drops id } ∧ m'.store = m.store ∧ m'.exec = m.exec)
      ∧ (1 ≤ n 4 4 → n 4 4 ≤ 1400 → n 2 2 < 0xFF00 → hasCap m p 4 = true → n 4 4 ≤ acyLimit d → d.st = .online → d.acyPending.length < 256 →
        (journalFind m c.qp c.ticket).bind (·.acySeq) = none → ∃ m',
          work (.dropSend sl c) .part 0x0407 (.later m') ∧ ∃ d', dropOf m' id = some d' ∧ d'.acyNext = d.acyNext + 1
            ∧ d'.acyPending.map (fun a => (a.seq, a.cls, a.payload))
              = d.acyPending.map (fun a => (a.seq, a.cls, a.payload)) ++ [(d.acyNext, w16 (n 2 2), c.req)]))
    ∧ (∀ d, n 4 4 ≤ 1024 → hasCap m p 5 = true → dropOf m (n 2 2) = some d →
      let tasksIdle (t : Option Nat) : Prop := ∀ k x, (d.task = some k ∨ t = some k) → taskOf m k = some x → x.st ≠ .running
      (id ≠ 0xFFFF → taskCheck m p id = none → (boundTask d = none ∨ boundTask d = some id) →
        let bs := (List.range (n 4 4)).map (bindElem c)
        (∀ e i, bindElems m p d [] bs 0 = some (e, i) → work (.segmentBind sl c) .part 0x0402 (.refused e i))
        ∧ (bindElems m p d [] bs 0 = none → bindSegCheck m id (n 2 2) d = none → ∃ m' d',
          work (.segmentBind sl c) .part 0x0402 (.done 0 0 [] m') ∧ dropOf m' (n 2 2) = some d'
          ∧ (tasksIdle (some id) → d'.task = some id ∧ d'.binds = bs ∧ d'.bindNext = none)
          ∧ (∀ x, taskOf m id = some x → x.st = .running → d'.task = d.task ∧ d'.binds = d.binds ∧ d'.bindNext = some (some id, bs))
          ∧ (∀ j, j ≠ n 2 2 → dropOf m' j = dropOf m j)))
      ∧ (id = 0xFFFF → n 4 4 = 0 → ∀ k x, boundTask d = some k → taskOf m k = some x → x.part = p → ∃ m' d',
          work (.segmentBind sl c) .part 0x0402 (.done 0 0 [] m') ∧ dropOf m' (n 2 2) = some d'
          ∧ (tasksIdle none → d'.task = none ∧ d'.binds = [] ∧ d'.bindNext = none)
          ∧ (∀ j, j ≠ n 2 2 → dropOf m' j = dropOf m j)))

/-- R298, R307, R313, R314, R316, R317: the TIME and CHRONICLE commands. (model choices: log entries 20, 84) -/
def Obligations.TimeChronicleCommands : Prop :=
  ∀ (s : State) (sl : Slot) (c : Cmd),
    let m := modOf s sl
    let p := modOf s (otherSlot sl)
    let b (o : Nat) : Nat := byteAt c.param o
    let n (o w : Nat) : Nat := le c.param o w
    let work (i : Instr) (scope : Scope) (code : Nat) (r : QRes) : Prop := runs .work scope code c m = true → Answers i s sl .work code c r
    (runs .query .any 0x0601 c m = true → ∃ rsp, Answers (.timeStatus sl c) s sl .query 0x0601 c (.done 0 0 rsp m) ∧ rsp.length = 64)
    ∧ (b 0 ≤ 2 → b 1 ≤ 3 → b 2 ≤ 2 → b 4 ≤ 127 → -4 ≤ signed 8 (b 7) → signed 8 (b 7) ≤ 1 → b 8 ≤ 3 → -4 ≤ signed 8 (b 9) →
      signed 8 (b 9) ≤ 5 → 2 ≤ b 10 → b 10 ≤ 10 → b 11 ≤ 127 → (n 12 4 = 0 ∨ 1000 ≤ n 12 4 ∧ n 12 4 ≤ 1000000000) → 1 ≤ n 16 2 →
      n 16 2 ≤ 1000 → ∃ a : Alm, work (.timeConfig sl c) .sys 0x0602 (.done 0 0 [] { m with alm := a })
        ∧ a.cfgSource = b 0 ∧ a.role = b 1 ∧ a.transport = b 2 ∧ a.p2p = (b 3).testBit 0 ∧ a.twoStep = (b 3).testBit 1 ∧ a.domainNumber = b 4
        ∧ a.priority1 = b 5 ∧ a.priority2 = b 6 ∧ a.logSync = signed 8 (b 7) ∧ a.logAnnounce = b 8 ∧ a.logDelayReq = signed 8 (b 9)
        ∧ a.receiptTimeout = b 10 ∧ a.ringDomain = b 11 ∧ a.stepLimit = n 12 4 ∧ a.slewMax = n 16 2
        ∧ a.t = m.alm.t ∧ a.adj = m.alm.adj ∧ a.sched = m.alm.sched)
    ∧ ((2 < b 0 ∨ 3 < b 1 ∨ 2 < b 2 ∨ n 16 2 = 0 ∨ 1000 < n 16 2) → work (.timeConfig sl c) .sys 0x0602 (.refused 7 0))
    ∧ (isLead m = true →
      let a := stepInstant m
      let delta := if (b 0).testBit 0 then w64 (n 8 8) - a else w64 (n 8 8)
      let rsp := leBytes 8 a.toNat ++ leBytes 8 delta.toNat
      (servoOwns m = true → (b 0).testBit 1 = false → work (.timeStep sl c) .sys 0x0603 (.refused 0x0601 0))
      ∧ ((servoOwns m = false ∨ (b 0).testBit 1 = true) →
        (m.alm.sched.isSome = true → work (.timeStep sl c) .sys 0x0603 (.refused 0x0602 0))
        ∧ (m.alm.sched = none → delta = 0 → work (.timeStep sl c) .sys 0x0603 (.done 0 0 rsp m))
        ∧ (m.alm.sched = none → delta ≠ 0 → work (.timeStep sl c) .sys 0x0603 (.done 0 0 rsp (scheduleStep m p delta 1))
          ∧ (scheduleStep m p delta 1).alm.sched = some (a, delta, 1)))
      ∧ (-adjMax ≤ signed 32 (n 0 4) → signed 32 (n 0 4) ≤ adjMax →
        (servoOwns m = true → work (.timeRate sl c) .sys 0x0604 (.refused 0x0601 0))
        ∧ (servoOwns m = false → m.alm.source = 0 → work (.timeRate sl c) .sys 0x0604 (.done 0 0 [] (setAdj m (signed 32 (n 0 4))))
          ∧ (setAdj m (signed 32 (n 0 4))).alm.adj = signed 32 (n 0 4)))
      ∧ ((signed 32 (n 0 4) < -adjMax ∨ adjMax < signed 32 (n 0 4)) → work (.timeRate sl c) .sys 0x0604 (.refused 7 0)))
    ∧ (1 ≤ n 2 2 → n 2 2 ≤ 500 → ∃ m', work (.timePps sl c) .sys 0x0605 (.done 0 0 [] m')
        ∧ m'.alm.ppsOutOn = (b 0).testBit 0 ∧ m'.alm.ppsInOn = (b 0).testBit 1 ∧ m'.alm.ppsFalling = (b 0).testBit 2
        ∧ m'.alm.ppsWidth = n 2 2 ∧ m' = { m with alm := m'.alm, out := m'.out } ∧ m'.alm.t = m.alm.t)
    ∧ ((n 2 2 = 0 ∨ 500 < n 2 2) → work (.timePps sl c) .sys 0x0605 (.refused 7 0))
    ∧ (runs .query .any 0x0701 c m = true → Answers (.chronicleBounds sl c) s sl .query 0x0701 c
        (.done 0 0 (leBytes 8 (max 1 (chronLast m - 524287)) ++ leBytes 8 (chronLast m) ++ leBytes 8 (now m).toNat) m))
    ∧ (1 ≤ n 8 4 → n 8 4 ≤ 1024 → runs .query .any 0x0702 c m = true →
      let start := max 1 (n 0 8)
      let first := chronFirst (chronLast m)
      ∃ (rsp : Bytes) (recs : List ChronRec), (first ≤ start → Answers (.chronicleRead sl c) s sl .query 0x0702 c (.done 0 0 rsp m))
        ∧ (start < first → Answers (.chronicleRead sl c) s sl .query 0x0702 c (.done 0x8701 (sat32 (first - start)) rsp m))
        ∧ rsp = leBytes 8 first ++ leBytes 8 (chronLast m) ++ leBytes 4 recs.length ++ zeros 4 ++ (recs.map recBytes).flatten
        ∧ ∀ r ∈ recs, r ∈ m.chron.recs ∧ max start first ≤ r.seq ∧ r.seq ≤ chronLast m ∧ r.seq < max start first + n 8 4)
    ∧ (n 0 2 ≤ 0xFFF → exemptCode (n 0 2) = false →
      ((b 6).testBit 0 = true → work (.chronicleLimit sl c) .sys 0x0703
        (.done 0 0 [] { m with chron := { m.chron with buckets := tdel m.chron.buckets (n 0 2) } }))
      ∧ ((b 6).testBit 0 = false → n 4 2 ≠ 0 → work (.chronicleLimit sl c) .sys 0x0703 (.done 0 0 [] { m with chron := { m.chron with
          buckets := tset m.chron.buckets (n 0 2) { rate := n 2 2, burst := n 4 2, tokens := n 4 2 * 1000000000, atNs := m.phys } } })))
    ∧ (exemptCode (n 0 2) = true → work (.chronicleLimit sl c) .sys 0x0703 (.refused 7 0))
    ∧ (0x0D00 ≤ n 0 2 → n 0 2 ≤ 0x0DFF → b 2 ≤ 3 → hasCap m (pid c) 7 = true → isLead m = true →
      let e := noteEvent m c
      (permitted m e = true → work (.chronicleNote sl c) .part 0x0704
        (.done 0 0 (leBytes 8 ((queueEvent m e).chron.lastSeq + (queueEvent m e).chron.pendingRecs.length)) (queueEvent m e)))
      ∧ (permitted m e = false → work (.chronicleNote sl c) .part 0x0704 (.done 0x8702 0 (zeros 8) (queueEvent m e))))

/-! ### The local front -/

/-- R320, R321, R325, R329, R331, R335, R337 to R340: the LOCALIO commands. (model choices: log entry 26) -/
def Obligations.LocalIoCommands : Prop :=
  ∀ (s : State) (sl : Slot) (c : Cmd),
    let m := modOf s sl
    let p := modOf s (otherSlot sl)
    let b (o : Nat) : Nat := byteAt c.param o
    let n (o w : Nat) : Nat := le c.param o w
    let work (i : Instr) (code : Nat) (r : QRes) : Prop := runs .work .sys code c m = true → Answers i s sl .work code c r
    let lio' (f : Lio → Lio) : Module := { m with lio := f m.lio }
    (1 ≤ n 0 4 → n 0 4 ≤ 248 →
      (∀ a, elems (configElem c) (n 0 4) 0 m = .ok a → work (.localioConfig sl c) 0x0801 (.done 0 0 [] (refreshOuts a)))
      ∧ (∀ e i, elems (configElem c) (n 0 4) 0 m = .error (e, i) → work (.localioConfig sl c) 0x0801 (.refused e i)))
    ∧ (∀ e, ownElem m e = true →
      (∀ a, e.kind = 0 → m.lio.ai[e.ch]? = some a → ∃ a', (applyMode m e).lio.ai[e.ch]? = some a' ∧ a'.mode = e.mode ∧ a'.response = e.sel
        ∧ a'.follow = e.flags.testBit 0 ∧ a'.vtx = e.vtx ∧ a'.rw = e.rw ∧ a'.cal = a.cal
        ∧ ((e.mode ≠ a.mode ∨ e.sel ≠ a.response) → a'.unsettled = cicOrder e.sel) ∧ (e.mode ≠ 1 → a'.supply = 0))
      ∧ (∀ o, e.kind = 1 → m.lio.dio[e.ch]? = some o → (applyMode m e).lio.dio[e.ch]? = some { o with
          mode := e.mode, filter := e.sel, badq := e.flags.testBit 0, openWireTest := e.flags.testBit 1
          demand := o.demand && e.mode == 3, filtered := if e.sel = 0 then o.terminal else o.filtered })
      ∧ (∀ o, e.kind = 2 → m.lio.fdo[e.ch]? = some o → (applyMode m e).lio.fdo[e.ch]? = some { o with
          mode := e.mode, badq := e.flags.testBit 0, demand := o.demand && e.mode == 1 }))
    ∧ (runs .query .any 0x0802 c m = true → ∃ rsp, Answers (.localioStatus sl c) s sl .query 0x0802 c (.done 0 0 rsp m)
        ∧ rsp.length = 16 + 16 * (m.lio.ai.length + m.lio.dio.length + m.lio.fdo.length))
    ∧ (∀ a, b 0 = slotN m.slot → b 1 ≤ 15 → (b 2 = 0 ∧ 3000000 ≤ n 4 4 ∧ n 4 4 ≤ 6000000 ∨ b 2 = 1 ∧ 16000000 ≤ n 4 4 ∧ n 4 4 ≤ 22000000) →
      m.lio.ai[b 1]? = some a →
      let t (own : Bool) : Trim := { channel := b 1, span := b 2 == 1, reference := n 4 4, oldRaw := oldPoint a (b 2 == 1),
                                     cmd := some (c.qp, c), remote := false, ownClass := own }
      (a.mode = 0 → work (.localioTrim sl c) 0x0803 (.refused 11 0))
      ∧ (a.mode ≠ 0 → m.lio.trim.isSome = true → work (.localioTrim sl c) 0x0803 (.refused 12 0))
      ∧ (a.mode ≠ 0 → m.lio.trim = none →
        (holdsClass m 6 c.qp = true → work (.localioTrim sl c) 0x0803 (.later (lio' (fun l => { l with trim := some (t false) }))))
        ∧ (holdsClass m 6 c.qp = false → judge m p 6 (.qp c.qp) = 0 → work (.localioTrim sl c) 0x0803
            (.later (lioMod (enterClass m 6 (.qp c.qp) 60) (fun l => { l with trim := some (t true) }))))
        ∧ (holdsClass m 6 c.qp = false → judge m p 6 (.qp c.qp) = 2 → work (.localioTrim sl c) 0x0803 (.refused 12 0))))
    ∧ (b 0 ≤ 1 → b 0 ≠ slotN m.slot → linked m p = false → b 1 ≤ 15 → b 2 = 0 → 3000000 ≤ n 4 4 → n 4 4 ≤ 6000000 →
      work (.localioTrim sl c) 0x0803 (.refused 0x0502 0))
    ∧ (b 0 ≤ 1 → ∃ m', work (.localioTrimLock sl c) 0x0804 (.done 0 0 [] m') ∧ m'.lio.trimLock = (b 0 == 1)
        ∧ (b 0 = 0 → m'.lio = { m.lio with trimLock := false }) ∧ (b 0 = 1 → m'.lio.trimMode = none))
    ∧ (1 < b 0 → work (.localioTrimLock sl c) 0x0804 (.refused 7 0))
    ∧ (1 ≤ n 0 4 → n 0 4 ≤ 40 →
      let kind (i : Nat) : Nat := byteAt ((c.req.drop (4 * i)).take 4) 0
      let ch (i : Nat) : Nat := byteAt ((c.req.drop (4 * i)).take 4) 1
      let w (i : Nat) : Nat := le ((c.req.drop (4 * i)).take 4) 2 2
      let out (x : Module) (i : Nat) : Prop := ∃ o, outChOf x (kind i) (ch i) = some o ∧ isOutput (kind i) o = true
      let valid (i : Nat) : Prop := (kind i = 1 ∨ kind i = 2) ∧ w i / 16384 ≤ 2 ∧ 1 ≤ w i % 1024 ∧ w i % 1024 ≤ 1000
        ∧ (out m i ∨ linked m p = true ∧ out p i)
      ((∀ i, i < n 0 4 → valid i) → work (.localioVigil sl c) 0x0805 (.done 0 0 [] ((List.range (n 0 4)).foldl (fun a i =>
          outChMod a (kind i) (ch i) (fun o => { o with timeout := w i % 1024, safe := w i / 16384 })) m)))
      ∧ (∀ k, k < n 0 4 → (∀ i, i < k → valid i) → ¬ valid k → w k < 65536 → work (.localioVigil sl c) 0x0805 (.refused 7 k)))

/-- R323 to R326, R328 to R330, R341: the loop supplies, the outputs of the analog inputs, and trims by command and by button. (model
choices: log entries 22, 23, 25) -/
def Obligations.AnalogEvents : Prop :=
  ∀ (s : State) (sl : Slot) (ch : Nat),
    let m := modOf s sl
    let p := modOf s (otherSlot sl)
    let ai' (f : Ai → Ai) : Module := { m with lio := { m.lio with ai := modNth m.lio.ai ch f } }
    let lio' (f : Lio → Lio) : Module := { m with lio := f m.lio }
    (∀ a raw limited, m.lio.ai[ch]? = some a → fw m = true → a.mode ≠ 0 →
      let r := max 0 (min 24000000 raw)
      let cal := calibrated (calCopy a) r
      let bits := aiStatus m a cal (a.unsettled != 0) limited
      let new : Ai := { a with raw := r, cal := cal, limited := limited, unsettled := a.unsettled - 1, outAt := now m, bits := bits,
                               prevCal := a.cal, prevBits := a.bits }
      Becomes (.cicOutput sl ch raw limited) s sl (aiFault (ai' (fun _ => new)) ch bits)
      ∧ (aiFault (ai' (fun _ => new)) ch bits).lio.ai[ch]? = some { new with faulted := bits &&& 0x7E != 0 })
    ∧ (∀ a raw limited, m.lio.ai[ch]? = some a → a.mode = 0 → Idle (.cicOutput sl ch raw limited) s)
    ∧ (fw m = true → ∃ m', Becomes (.loopSupplyUpdate sl) s sl m' ∧ ∀ i, i < 16 → ∀ a, m.lio.ai[i]? = some a → ∃ a', m'.lio.ai[i]? = some a'
        ∧ (a.mode ≠ 1 → a'.supply = 0)
        ∧ (a.mode = 1 → a.thermal = true → a'.supply = 0)
        ∧ (a.mode = 1 → a.thermal = false →
          let want := 100 * a.vtx + (a.cal.toNat * (50 + a.rw)) / 1000000 + 1000
          (a.supply < max 8000 (min 28000 want) → a'.supply = min (max 8000 (min 28000 want)) (a.supply + 2000))
          ∧ (max 8000 (min 28000 want) ≤ a.supply → a'.supply = max (max 8000 (min 28000 want)) (a.supply - 500))
          ∧ a'.supplySat = decide (28000 < want)))
    ∧ (∀ a, m.lio.ai[ch]? = some a → fw m = true → a.mode = 1 → ∃ m' a', Becomes (.loopSupplyThermal sl ch) s sl m'
        ∧ m'.lio.ai[ch]? = some a' ∧ a'.thermal = true ∧ a'.supply = 0 ∧ a'.faulted = true)
    ∧ (fw m = true → Becomes (.loopSupplyRestart sl ch) s sl (ai' (fun a => { a with thermal := false })))
    ∧ (∀ t average spread, m.lio.trim = some t → serving m = true → t.remote = false → ∃ m' p',
        BecomeBoth (.trimMeasureDone sl average spread) s sl m' p' ∧ m'.lio.trim = none
        ∧ ((average - t.reference).natAbs ≤ 480000 → spread ≤ 20000 → ∀ a, m.lio.ai[t.channel]? = some a →
            m'.lio.ai[t.channel]? = some (trimCopy a t.span t.reference average))
        ∧ ((480000 < (average - t.reference).natAbs ∨ 20000 < spread) → m'.lio.ai = m.lio.ai))
    ∧ (serving m = true →
      Becomes (.buttonPress sl) s sl (lio' (fun l => { l with trimMode := l.trimMode.map (fun c => (c + 1) % 16), trimShow := 0 }))
      ∧ (m.lio.trimMode = none →
        (m.lio.trimLock = true → BecomeBoth (.buttonHeld sl 0) s sl (shareToken (lio' (fun l => { l with trimShow := 4 })) p).1
          (shareToken (lio' (fun l => { l with trimShow := 4 })) p).2)
        ∧ (m.lio.trimLock = false → judge m p 6 (frontHolder m) = 0 → ∃ m' p', BecomeBoth (.buttonHeld sl 0) s sl m' p' ∧ m'.lio.trimMode = some 0
            ∧ (tget m'.maint.entries 6).map (·.holder) = some (frontHolder m)))
      ∧ (∀ k span, m.lio.trimMode = some k → m.lio.trim = none → (∀ a, m.lio.ai[k]? = some a → a.mode ≠ 0) → k < m.lio.ai.length →
          ∃ m' p' t, BecomeBoth (.buttonHeld sl (if span then 2 else 1)) s sl m' p' ∧ m'.lio.trim = some t ∧ t.channel = k ∧ t.span = span
          ∧ t.reference = if span then 20000000 else 4000000))
    ∧ (∀ k, m.lio.trimMode = some k → ∃ m' p', BecomeBoth (.trimModeTimeout sl) s sl m' p' ∧ m'.lio.trimMode = none ∧ m'.lio.trim = none
        ∧ tget m'.maint.entries 6 = none)

/-- R332 to R336, R341: the digital inputs and their filter, the diagnostics and latches of the outputs, and the vigil timers. (model
choices: log entry 25) -/
def Obligations.DigitalEvents : Prop :=
  ∀ (s : State) (sl : Slot) (kind ch : Nat) (o : OutCh),
    let m := modOf s sl
    let ch' (k : Nat) (f : OutCh → OutCh) : Module := outChMod m k ch f
    (powered m = true →
      (∀ level, Becomes (.dioInputChange sl ch level) s sl (ch' 1 (fun o =>
        { o with terminal := level, filtered := if o.filter = 0 then level else o.filtered })))
      ∧ Becomes (.diFilterPass sl ch) s sl (ch' 1 (fun o => { o with filtered := o.terminal })))
    ∧ (powered m = true → outChOf m 1 ch = some o → o.mode = 3 → ∀ mA,
      let diagnosed (i : Instr) (bit : Nat) (latch : Bool) (load : Nat) : Prop := ∃ m' o', Becomes i s sl m' ∧ outChOf m' 1 ch = some o'
        ∧ o'.status = o.status ||| w16 bit ∧ o'.load = load ∧ o'.latched = (o.latched || latch)
        ∧ (o'.latched = true → fw m = true → o'.driven = false)
      diagnosed (.doOverload sl ch mA) 2 true mA
      ∧ diagnosed (.doOvertemp sl ch) 8 true o.load
      ∧ (o.openWireTest = true → (sharedWiring m = false ∨ isLead m = true) → diagnosed (.doOpenWire sl ch) 4 false o.load)
      ∧ (o.openWireTest = false → Idle (.doOpenWire sl ch) s)
      ∧ (∀ g i, ch = 8 * g + i → i < 8 → o.driven = true → ∃ m' o', Becomes (.doGroupLimit sl g) s sl m' ∧ outChOf m' 1 ch = some o'
          ∧ o'.latched = true ∧ o'.status = o.status ||| 16))
    ∧ (powered m = true → outChOf m 2 ch = some o → o.mode = 1 → ∃ m' o', Becomes (.fdoOverload sl ch) s sl m' ∧ outChOf m' 2 ch = some o'
        ∧ o'.latched = true ∧ o'.status = o.status ||| 2)
    ∧ (powered m = true → outChOf m kind ch = some o → o.latched = true →
      (demandOf m kind ch o = false → Becomes (.doLatchRearm sl kind ch) s sl (refreshOut (ch' kind (fun o => { o with latched := false })) kind ch))
      ∧ (demandOf m kind ch o = true → Idle (.doLatchRearm sl kind ch) s))
    ∧ (∀ bits, outChOf m kind ch = some o →
      (o.latched = false → Becomes (.doDiagClear sl kind ch bits) s sl (ch' kind (fun o => { o with status := o.status &&& ~~~(bits &&& 0x1E) })))
      ∧ (o.latched = true → Idle (.doDiagClear sl kind ch bits) s))
    ∧ (outChOf m kind ch = some o →
      (powered m = true → o.vigilRunning = true → o.expired = false → ∃ m' o', Becomes (.vigilExpiry sl kind ch) s sl m'
        ∧ outChOf m' kind ch = some o' ∧ o'.expired = true ∧ o'.vigilRunning = false ∧ o'.expiredAt = now m ∧ o'.status = o.status ||| 0x20
        ∧ (fw m = true → isOutput kind o = true → o.latched = false → mayDrive m kind = true → o'.driven = safeValue o))
      ∧ (o.vigilRunning = false → Idle (.vigilExpiry sl kind ch) s))

/-! ### HALO and the safety outputs -/

/-- R347 to R353, R359, R365: the HALO commands. (model choices: log entries 36, 68) -/
def Obligations.HaloCommands : Prop :=
  ∀ (s : State) (sl : Slot) (c : Cmd),
    let m := modOf s sl
    let p := modOf s (otherSlot sl)
    let n (o w : Nat) : Nat := le c.param o w
    let work (i : Instr) (code : Nat) (r : QRes) : Prop := runs .work .sys code c m = true → Answers i s sl .work code c r
    let done (i : Instr) (code : Nat) (m' : Module) : Prop := work i code (.done 0 0 [] m')
    let halo' (f : Halo → Halo) : Module := { m with halo := f m.halo }
    (∀ k r, n 0 2 = k → namedConns m k = some [(k, r)] →
      (∃ m', done (.haloConnect sl c) 0x0901 m' ∧ (∃ y, tget m'.halo.conns k = some y ∧ y.st = 1 ∧ y.lastAt = now m ∧ y.seq = 0xFFFF
          ∧ y.crcErr = 0 ∧ y.runN = 0 ∧ y.lastKey = none ∧ y.pdu = (connOf m k).pdu)
        ∧ tget m'.halo.tokens (connDrop r) = some 0 ∧ (∀ j, j ≠ k → tget m'.halo.conns j = tget m.halo.conns j))
      ∧ (∃ m', done (.haloRelease sl c) 0x0902 m' ∧ (connOf m' k).st = 0 ∧ (∀ j, j ≠ k → tget m'.halo.conns j = tget m.halo.conns j)
          ∧ m'.halo.tokens = m.halo.tokens))
    ∧ (∀ l, namedConns m (n 0 2) = some l →
      (∃ m', done (.haloConnect sl c) 0x0901 m' ∧ ∀ x ∈ l, (connOf m' x.1).st = 1 ∧ tokenOf m' (connDrop x.2) = 0)
      ∧ ∃ m', done (.haloRelease sl c) 0x0902 m' ∧ ∀ x ∈ l, (connOf m' x.1).st = 0)
    ∧ (namedConns m (n 0 2) = none → work (.haloConnect sl c) 0x0901 (.refused 8 0) ∧ work (.haloRelease sl c) 0x0902 (.refused 8 0))
    ∧ (n 4 4 + c.req.length ≤ 32928 → (m.halo.active = none ∨ holdsClass m 5 c.qp = true) →
      let first := (byteAt c.param 0).testBit 0
      let last := (byteAt c.param 0).testBit 1
      let set := overwrite (if first then [] else m.halo.staged.getD []) (n 4 4) c.req
      let m' := halo' (fun h => { h with staged := some set, stagedSealed := last, stagedConfirmed := false })
      (last = false → work (.haloParamLoad sl c) 0x0903 (.done 0 0 [] m'))
      ∧ (last = true → setCheck m set (n 8 4) = 0 → work (.haloParamLoad sl c) 0x0903 (.done 0 0 (leBytes 4 (crc32c set).toNat) m'))
      ∧ (last = true → setCheck m set (n 8 4) ≠ 0 → work (.haloParamLoad sl c) 0x0903 (.refused (setCheck m set (n 8 4)) 0)))
    ∧ (n 4 4 + c.req.length ≤ 32928 → m.halo.active.isSome = true → holdsClass m 5 c.qp = false →
      work (.haloParamLoad sl c) 0x0903 (.refused 12 0))
    ∧ (∀ set, (m.halo.active = none ∨ holdsClass m 5 c.qp = true) → m.halo.staged = some set →
      (m.halo.stagedSealed = false → work (.haloParamConfirm sl c) 0x0904 (.refused 8 0))
      ∧ (m.halo.stagedSealed = true → (m.pair.mode ≠ .inStep ∨ linked m p = false) →
        (w32 (n 0 4) = crc32c set → m.halo.active = none → ∃ m', done (.haloParamConfirm sl c) 0x0904 m' ∧ m'.halo.active = some set
          ∧ m'.halo.activeConfirmed = true ∧ m'.halo.staged = none ∧ m'.halo.conns = [])
        ∧ (w32 (n 0 4) = crc32c set → m.halo.active.isSome = true → ∃ m', done (.haloParamConfirm sl c) 0x0904 m'
          ∧ m'.halo = { m.halo with stagedConfirmed := true })
        ∧ (w32 (n 0 4) ≠ crc32c set → ∃ m', work (.haloParamConfirm sl c) 0x0904 (.refusedRec 0x0902 0 m') ∧ m'.halo = m.halo)))
    ∧ (n 0 2 ≤ 256 →
      (holdsClass m 4 c.qp = false → work (.haloChange sl c) 0x0905 (.refused 12 0))
      ∧ (holdsClass m 4 c.qp = true → m.pair.mode = .warm → work (.haloChange sl c) 0x0905 (.refused 14 0))
      ∧ (holdsClass m 4 c.qp = true → m.pair.mode ≠ .warm → m.halo.stagedConfirmed = false → work (.haloChange sl c) 0x0905 (.refused 0x0901 0))
      ∧ (∀ set, holdsClass m 4 c.qp = true → m.pair.mode ≠ .warm → m.halo.stagedConfirmed = true → m.halo.staged = some set →
        (∀ i, i < n 0 2 → ∃ k, taskOf m (reqTask c i) = some k ∧ k.halo = true ∧ (swapTarget k).isSome = true) →
        ∃ m', done (.haloChange sl c) 0x0905 m' ∧ m'.halo.active = some set ∧ m'.halo.activeConfirmed = true
          ∧ m'.halo.staged = m.halo.active ∧ m'.halo.stagedConfirmed = false))
    ∧ (∀ l, byteAt c.param 0 = 0 → namedConns m (n 2 2) = some l →
      (l.any (connWaits m) = true → done (.haloAck sl c) 0x0906 (ackConns m l))
      ∧ (l.any (connWaits m) = false → work (.haloAck sl c) 0x0906 (.refused 11 0)))
    ∧ (∀ x, byteAt c.param 0 = 1 → n 2 2 < 8 → m.halo.so[n 2 2]? = some x →
      (x.locked = false → x.interlock = false → work (.haloAck sl c) 0x0906 (.refused 11 0))
      ∧ (x.locked = true → soRecovered m (n 2 2) x = false → work (.haloAck sl c) 0x0906 (.refused 0x0906 0))
      ∧ (x.energised = false → (x.locked = true ∧ soRecovered m (n 2 2) x = true ∨ x.locked = false ∧ x.interlock = true) →
        ∃ m' y, done (.haloAck sl c) 0x0906 m' ∧ m'.halo.so[n 2 2]? = some y ∧ y.locked = false ∧ y.interlock = false ∧ y.edmFault = false))
    ∧ (n 2 2 ≤ 1024 → runs .query .any 0x0907 c m = true → ∃ rsp, Answers (.haloStatus sl c) s sl .query 0x0907 c (.done 0 0 rsp m)
        ∧ rsp.length = 32 + 16 * n 2 2)

/-- R354, R355, R358 to R360, R362, R375: the tests of the safety outputs, their faults, the EDM and the self-check. (model choices: log
entries 25, 37, 39) -/
def Obligations.HaloEvents : Prop :=
  ∀ (s : State) (sl : Slot) (ch : Nat) (x : So),
    let m := modOf s sl
    let so' (f : So → So) : Module := { m with halo := { m.halo with so := modNth m.halo.so ch f } }
    m.halo.so[ch]? = some x →
    (∀ high, fw m = true → ch < 8 → ∃ m' y, Becomes (.soTestSlot sl (2 * ch + if high then 0 else 1)) s sl m'
      ∧ m'.halo.testSlot = some (2 * ch + if high then 0 else 1) ∧ m'.halo.so[ch]? = some y
      ∧ (x.fallback = true → x.stuckHigh = high → y.test = none)
      ∧ ((x.fallback = false ∨ x.stuckHigh ≠ high) → y.test = some (high, x.energised))
      ∧ y.energised = x.energised ∧ y.locked = x.locked)
    ∧ (∀ pass fed, m.halo.testSlot = none → Idle (.soTestEnd sl pass fed) s)
    ∧ (∀ high dark, m.halo.testSlot = some (2 * ch + if high then 0 else 1) → x.test = some (high, dark) → ∃ m' y,
        Becomes (.soTestEnd sl true false) s sl m' ∧ m'.halo.so[ch]? = some y ∧ (if high then y.highOk else y.lowOk) = true
        ∧ m'.halo.tests = m.halo.tests + 1 ∧ m'.halo.testSlot = none ∧ y.locked = x.locked)
    ∧ (∀ high, m.halo.testSlot = some (2 * ch + if high then 0 else 1) → x.test = some (high, true) → x.locked = false → ∃ m' y,
        Becomes (.soTestEnd sl false false) s sl m' ∧ m'.halo.so[ch]? = some y
        ∧ (soEdmUsed (soActive m ch) = true → x.fallback = false → y.fallback = true ∧ y.stuckHigh = high ∧ y.locked = false)
        ∧ ((soEdmUsed (soActive m ch) = false ∨ x.fallback = true) → y.locked = true ∧ y.fallback = false ∧ y.energised = false))
    ∧ Becomes (.soReleaseTimeout sl ch) s sl (refresh (so' (fun x => { x with live := false })))
    ∧ (∀ level, powered m = false → Becomes (.edmInputChange sl ch level) s sl (so' (fun x => { x with edm := level })))
    ∧ (∀ level, powered m = true → ∃ m' y, Becomes (.edmInputChange sl ch level) s sl m' ∧ m'.halo.so[ch]? = some y ∧ y.edm = level
        ∧ (x.edm ≠ level → y.edmAt = now m) ∧ (x.edm = level → y.edmAt = x.edmAt))
    ∧ (fw m = true → x.edmDue = true →
      (x.edm ≠ x.energised → Becomes (.edmTimeExpiry sl ch) s sl (so' (fun x => { x with edmDue := false })))
      ∧ (x.edm = x.energised → ∃ m' y, Becomes (.edmTimeExpiry sl ch) s sl m' ∧ m'.halo.so[ch]? = some y ∧ y.edmFault = true ∧ y.locked = true
          ∧ y.energised = false))
    ∧ (x.edmDue = false → Idle (.edmTimeExpiry sl ch) s)
    ∧ (x.fallback = true → ∃ m' y, Becomes (.fallbackLimitExpiry sl ch) s sl m' ∧ m'.halo.so[ch]? = some y ∧ y.locked = true
        ∧ y.fallback = false ∧ y.energised = false)
    ∧ (x.fallback = false → Idle (.fallbackLimitExpiry sl ch) s)
    ∧ (fw m = true →
      (compsGood (regionOf m m.boot.cur 2) = true →
        Becomes (.haloSelfCheck sl true) s sl { m with boot := { m.boot with selfChecked := true } })
      ∧ ((m.boot.state = .ready ∨ m.boot.state = .run ∨ m.boot.state = .splitOff) → ∃ m', Becomes (.haloSelfCheck sl false) s sl m' ∧ m'.boot.state = .umbra ∧ m'.halo.umbraCause = 5))

/-! ### The pair, images and maintenance -/

/-- R272, R283, R285 to R287, R290, R291, R372: the PAIR commands on the lead, and their wait for the lead's report elsewhere. (model
choices: log entries 42, 80, 89, 93) -/
def Obligations.PairCommands : Prop :=
  ∀ (s : State) (sl : Slot) (c : Cmd),
    let m := modOf s sl
    let p := modOf s (otherSlot sl)
    let w := s.witness
    let b (o : Nat) : Nat := byteAt c.param o
    let n (o k : Nat) : Nat := le c.param o k
    let gives (i : Instr) (code : Nat) (r : QRes) (p' : Module) (w' : Witness) : Prop :=
      runs .work .sys code c m = true → isLead m = true → AnswersPair i s sl code c r p' w'
    let yields (i : Instr) (code : Nat) (r : QRes) : Prop := gives i code r p w
    let waits (i : Instr) (code : Nat) : Prop :=
      runs .work .sys code c m = true → isLead m = false → Answers i s sl .work code c (.later m)
    (runs .query .any 0x0501 c m = true → ∃ rsp, Answers (.pairStatus sl c) s sl .query 0x0501 c (.done 0 0 rsp m) ∧ rsp.length = 64)
    ∧ (waits (.pairRun sl c) 0x0502 ∧ waits (.pairWithdraw sl c) 0x0503 ∧ waits (.pairEquinox sl c) 0x0504 ∧ waits (.pairResync sl c) 0x0505
      ∧ waits (.pairWitness sl c) 0x0506)
    ∧ (b 0 = slotN m.slot →
      (m.boot.state ≠ .ready → yields (.pairRun sl c) 0x0502 (.refused 11 0))
      ∧ (m.boot.state = .ready → m.pair.stale = false → yields (.pairRun sl c) 0x0502 (.done 0 0 [] (enterRun m)) ∧ (enterRun m).boot.state = .run)
      ∧ (m.boot.state = .ready → m.pair.stale = true → (b 1).testBit 0 = false → yields (.pairRun sl c) 0x0502 (.refused 0x0504 0))
      ∧ (m.boot.state = .ready → m.pair.stale = true → (b 1).testBit 0 = true → yields (.pairRun sl c) 0x0502
          (.later (startClaim { m with pair := { m.pair with forcedRun := some (c.qp, c) } } true))))
    ∧ (b 0 ≤ 1 → b 0 ≠ slotN m.slot → linked m p = false → yields (.pairRun sl c) 0x0502 (.refused 0x0502 0)
        ∧ yields (.pairWithdraw sl c) 0x0503 (.refused 0x0502 0))
    ∧ (b 0 ≤ 1 → b 0 ≠ slotN m.slot → linked m p = true → leaseHeld m = true → m.pair.partnerInSet = true → m.pair.agen ≠ 0xFFFFFFFF →
      ∃ m' p', gives (.pairWithdraw sl c) 0x0503 (.done 0 0 [] m') p' w ∧ m'.pair.agen = m.pair.agen + 1 ∧ m'.pair.partnerInSet = false
        ∧ m'.pair.mode = .alone ∧ m'.pair.resync = none ∧ p'.pair.inSet = false ∧ p'.pair.role = .shadow
        ∧ (p.boot.state = .run → p'.boot.state = .ready))
    ∧ (b 0 = slotN m.slot → m.boot.state = .run → leaseHeld m = true →
      let started : Module := { m with
        pair := { m.pair with handover := some { qp := c.qp, cmd := c, code := 0x0503, limitMs := 100 } }
        mail := { m.mail with paused := true } }
      (m.pair.mode = .inStep → yields (.pairWithdraw sl c) 0x0503 (.later started))
      ∧ (m.pair.mode = .warm → (b 1).testBit 0 = true → yields (.pairWithdraw sl c) 0x0503 (.later started))
      ∧ (m.pair.mode = .warm → (b 1).testBit 0 = false → yields (.pairWithdraw sl c) 0x0503 (.refused 14 0)))
    ∧ (b 0 = slotN m.slot → m.boot.state = .run → m.pair.mode = .alone →
      ((b 1).testBit 0 = false → yields (.pairWithdraw sl c) 0x0503 (.refused 14 0))
      ∧ ((b 1).testBit 0 = true → ∃ m', yields (.pairWithdraw sl c) 0x0503 (.done 0x8502 0 [] m') ∧ m'.boot.state = .ready))
    ∧ (n 0 2 ≤ 1000 →
      (m.pair.mode ≠ .inStep → yields (.pairEquinox sl c) 0x0504 (.refused 14 0))
      ∧ (m.pair.mode = .inStep → leaseHeld m = false → yields (.pairEquinox sl c) 0x0504 (.refused 0x0501 0))
      ∧ (m.pair.mode = .inStep → leaseHeld m = true →
        (judge m p 2 .pair = 0 → ∃ m' p', gives (.pairEquinox sl c) 0x0504 (.later m') p' w
          ∧ m'.pair.handover = some { qp := c.qp, cmd := c, code := 0x0504, limitMs := if n 0 2 = 0 then 100 else n 0 2 }
          ∧ m'.mail.paused = true ∧ (tget m'.maint.entries 2).map (·.holder) = some .pair)
        ∧ (judge m p 2 .pair = 2 → yields (.pairEquinox sl c) 0x0504 (.refused 12 0))))
    ∧ (1000 < n 0 2 → yields (.pairEquinox sl c) 0x0504 (.refused 7 0))
    ∧ (leaseHeld m = false → yields (.pairResync sl c) 0x0505 (.refused 0x0501 0))
    ∧ (leaseHeld m = true → linked m p = false → yields (.pairResync sl c) 0x0505 (.refused 0x0502 0))
    ∧ (leaseHeld m = true → linked m p = true → m.boot.state = .run → joinable m p = true → m.pair.resync = none →
      (foreignDomain m p = true → (b 0).testBit 0 = false → yields (.pairResync sl c) 0x0505 (.refused 0x0503 0))
      ∧ ((foreignDomain m p = false ∨ (b 0).testBit 0 = true) → m.pair.agen ≠ 0xFFFFFFFF → judge m p 3 .pair = 0 → ∃ m' p' r,
          gives (.pairResync sl c) 0x0505 (.later m') p' w ∧ m'.pair.resync = some r ∧ r.phase = 1 ∧ p'.pair.joining = some 1
          ∧ p'.pair.domain = m.pair.domain ∧ (p.boot.state = .splitOff → p'.boot.state = .ready)))
    ∧ (n 0 4 ≠ 0 → b 5 ≤ 90 →
      let d := w32 (n 0 4)
      let put (x : Module) (a : W32) : Module :=
        { x with pair := { x.pair with domain := d, autoResync := (b 4).testBit 0, reminderDays := b 5, agen := a } }
      (d = m.pair.domain → gives (.pairWitness sl c) 0x0506 (.done 0 0 [] (put m m.pair.agen)) (if linked m p then put p p.pair.agen else p) w)
      ∧ (d ≠ m.pair.domain → m.boot.state ≠ .run → (linked m p = false ∨ p.boot.state ≠ .run) →
          gives (.pairWitness sl c) 0x0506 (.done 0 0 [] (put m 0)) (if linked m p then put p 0 else p) { w with domain := d, agen := 0 })
      ∧ (d ≠ m.pair.domain → m.boot.state = .run → yields (.pairWitness sl c) 0x0506 (.refused 11 0)))

/-- R46, R368, R370 to R374, R377, R382, R385 to R388: the IMAGE and MAINT commands. (model choices: log entries 80, 89, 91) -/
def Obligations.ImageMaintCommands : Prop :=
  ∀ (s : State) (sl : Slot) (c : Cmd),
    let m := modOf s sl
    let p := modOf s (otherSlot sl)
    let w := s.witness
    let b (o : Nat) : Nat := byteAt c.param o
    let n (o k : Nat) : Nat := le c.param o k
    let gives (i : Instr) (code : Nat) (r : QRes) (p' : Module) : Prop :=
      runs .work .sys code c m = true → isLead m = true → AnswersPair i s sl code c r p' w
    let waits (i : Instr) (code : Nat) : Prop :=
      runs .work .sys code c m = true → isLead m = false → Answers i s sl .work code c (.later m)
    let work (i : Instr) (code : Nat) (r : QRes) : Prop := runs .work .sys code c m = true → Answers i s sl .work code c r
    let own : Prop := b 0 = slotN m.slot
    let other : Prop := b 0 ≤ 1 ∧ b 0 ≠ slotN m.slot
    (runs .query .any 0x0A01 c m = true → ∃ rsp, Answers (.imageStatus sl c) s sl .query 0x0A01 c (.done 0 0 rsp m) ∧ rsp.length = 112)
    ∧ (runs .query .any 0x0A08 c m = true → ∃ rsp, Answers (.maintStatus sl c) s sl .query 0x0A08 c (.done 0 0 rsp m) ∧ rsp.length = 64)
    ∧ (waits (.imageActivate sl c) 0x0A02 ∧ waits (.imageRevert sl c) 0x0A03 ∧ waits (.imageDiscard sl c) 0x0A04 ∧ waits (.imageRelay sl c) 0x0A05)
    ∧ (b 0 ≤ 1 → b 1 ≤ 1 → (n 4 4 = 0 ∨ 10 ≤ n 4 4 ∧ n 4 4 ≤ 3600) →
      let t := named m p (b 0)
      (∀ e, activationCheck m p c (b 0) t.boot.cand = some e → gives (.imageActivate sl c) 0x0A02 (.refused e 0) p)
      ∧ (activationCheck m p c (b 0) t.boot.cand = none →
        (b 1 = 1 → handoverOk t (unnamed m p (b 0)) = false → gives (.imageActivate sl c) 0x0A02 (.refused 0x0A03 0) p)
        ∧ ((b 1 = 1 → handoverOk t (unnamed m p (b 0)) = true) → splitClash m t (n 2 2) = true →
            gives (.imageActivate sl c) 0x0A02 (.refused 0x0302 0) p)
        ∧ ((b 1 = 1 → handoverOk t (unnamed m p (b 0)) = true) → splitClash m t (n 2 2) = false →
          (b 1 = 1 → own → ∃ m', gives (.imageActivate sl c) 0x0A02 (.later m') p ∧ m'.maint.verdict = some (c.qp, 0x0A02, c)
            ∧ m'.boot.verifyingHandover = true ∧ m'.boot.newSplit = n 2 2 ∧ m'.boot.state = m.boot.state)
          ∧ (b 1 = 1 → other → ∃ m' p', gives (.imageActivate sl c) 0x0A02 (.later m') p' ∧ m'.maint.verdict = some (c.qp, 0x0A02, c)
            ∧ p'.boot.verifyingHandover = true ∧ p'.boot.newSplit = n 2 2 ∧ p'.boot.state = p.boot.state)
          ∧ (b 1 = 0 → own → leaseHeld m = true → gives (.imageActivate sl c) 0x0A02 (.later { m with
              pair := { m.pair with handover := some { qp := c.qp, cmd := c, code := 0x0A02, limitMs := 100 } }
              mail := { m.mail with paused := true } }) p)
          ∧ (b 1 = 0 → other → m.pair.agen ≠ 0xFFFFFFFF → ∃ m' p', gives (.imageActivate sl c) 0x0A02 (.later m') p'
            ∧ m'.maint.verdict = some (c.qp, 0x0A02, c) ∧ m'.pair.partnerInSet = false ∧ m'.pair.agen = m.pair.agen + 1
            ∧ p'.boot.state = .verify ∧ p'.boot.verifyFrom = .activate ∧ p'.boot.newSplit = n 2 2 ∧ p'.pair.role = .none))))
    ∧ (b 0 ≤ 1 →
      let t := named m p (b 0)
      let low : Prop := (regionOf t t.boot.prev 2).closed = true ∧ imgSec (regionOf t t.boot.prev 2) < t.hw.floor
      (∀ e, activationCheck m p c (b 0) t.boot.prev = some e → gives (.imageRevert sl c) 0x0A03 (.refused e 0) p)
      ∧ (activationCheck m p c (b 0) t.boot.prev = none → low → gives (.imageRevert sl c) 0x0A03 (.refused 0x0A04 0) p)
      ∧ (activationCheck m p c (b 0) t.boot.prev = none → ¬ low → own → leaseHeld m = true → gives (.imageRevert sl c) 0x0A03 (.later { m with
            pair := { m.pair with handover := some { qp := c.qp, cmd := c, code := 0x0A03, limitMs := 100 } }
            mail := { m.mail with paused := true } }) p)
      ∧ (activationCheck m p c (b 0) t.boot.prev = none → ¬ low → other → m.pair.agen ≠ 0xFFFFFFFF → ∃ m' p',
          gives (.imageRevert sl c) 0x0A03 (.later m') p' ∧ m'.maint.verdict = some (c.qp, 0x0A03, c) ∧ p'.boot.state = .verify
          ∧ p'.boot.verifyFrom = .revert))
    ∧ (own → ∃ m' p', gives (.imageDiscard sl c) 0x0A04 (.done 0 0 [] m') p' ∧ slotAt m'.boot m.boot.cand = {} ∧ m'.maint.rx = none
        ∧ m'.boot.relaying = false ∧ m'.boot.cand = m.boot.cand)
    ∧ (other → linked m p = true → ∃ m' p', gives (.imageDiscard sl c) 0x0A04 (.done 0 0 [] m') p' ∧ slotAt p'.boot p.boot.cand = {}
        ∧ p'.maint.rx = none)
    ∧ (other → linked m p = false → gives (.imageDiscard sl c) 0x0A04 (.refused 0x0502 0) p)
    ∧ (b 0 ≤ 1 → b 1 ≤ 1 → b 2 % 4 ≠ 0 → 4 ≤ c.req.length → le c.req 0 4 ≤ 63 → c.req.length = 4 + 18 * le c.req 0 4 →
      (own → (∀ e, startChain m p c = .error e → gives (.imageRelay sl c) 0x0A05 (.refused e 0) p)
        ∧ (∀ m1 p1 t, startChain m p c = .ok (m1, p1) → m1.maint.tx = some t →
          (relayOver t = false → gives (.imageRelay sl c) 0x0A05 (.later m1) p1)
          ∧ (relayOver t = true → gives (.imageRelay sl c) 0x0A05 (.done 0 0 (relayRsp t) { m1 with maint := { m1.maint with tx := none } }) p1)))
      ∧ (other → linked m p = true →
        (∀ e, startChain p m c = .error e → gives (.imageRelay sl c) 0x0A05 (.refused e 0) p)
        ∧ (∀ m1 p1 t, startChain p m c = .ok (p1, m1) → p1.maint.tx = some t → relayOver t = false → gives (.imageRelay sl c) 0x0A05 (.later m1) p1))
      ∧ (other → linked m p = false → gives (.imageRelay sl c) 0x0A05 (.refused 0x0502 0) p))
    ∧ (b 0 ∈ [1, 4, 5, 6] → n 2 2 ≤ 1440 →
      let lease := if n 2 2 = 0 then 60 else n 2 2
      let e : MaintEntry := { holder := .qp c.qp, leaseMin := lease, since := m.phys }
      (holdsClass m (b 0) c.qp = true → work (.maintTake sl c) 0x0A06
        (.done 0 0 [] { m with maint := { m.maint with entries := tset m.maint.entries (b 0) e } }))
      ∧ (holdsClass m (b 0) c.qp = false → judge m p (b 0) (.qp c.qp) = 0 → ∃ m', work (.maintTake sl c) 0x0A06 (.done 0 0 [] m')
          ∧ m'.maint = { m.maint with entries := tset m.maint.entries (b 0) e })
      ∧ (holdsClass m (b 0) c.qp = false → judge m p (b 0) (.qp c.qp) = 1 → work (.maintTake sl c) 0x0A06 .waits)
      ∧ (holdsClass m (b 0) c.qp = false → judge m p (b 0) (.qp c.qp) = 2 → work (.maintTake sl c) 0x0A06 (.refused 12 0)))
    ∧ (1 ≤ b 0 → b 0 ≤ 6 →
      ((holdsClass m (b 0) c.qp = true ∨ (b 1).testBit 0 = true ∧ c.qp = 0) → ∃ m', work (.maintGive sl c) 0x0A07 (.done 0 0 [] m')
        ∧ tget m'.maint.entries (b 0) = none ∧ ∀ k, k ≠ b 0 → tget m'.maint.entries k = tget m.maint.entries k)
      ∧ (holdsClass m (b 0) c.qp = false → ((b 1).testBit 0 = false ∨ c.qp ≠ 0) → work (.maintGive sl c) 0x0A07 (.refused 10 0)))

/-! ### The witness and the lease -/

/-- R272, R275, R276: what the witness makes of RENEW, CLAIM, RELEASE and PRESENT, and of the ends of its own periods. (model choices: log
entries 25, 81) -/
def Obligations.WitnessMessages : Prop :=
  ∀ (s : State) (sl : Slot) (msg : WMsg),
    let w := s.witness
    let becomes (i : Instr) (w' : Witness) : Prop := exec i s = .next { s with witness := w' }
    let answers (i : Instr) (type : Nat) (P : Witness → Prop) : Prop := ∃ w' r, becomes i w' ∧ P w' ∧ w'.out = w.out ++ [.reply sl type r]
      ∧ r.counter = msg.counter ∧ r.domain = w.domain ∧ r.agen = w'.agen
    let force := msg.flags.getLsbD 4
    let kept (w' : Witness) : Prop := w'.holder = w.holder ∧ w'.running = w.running ∧ w'.holdoff = w.holdoff ∧ w'.reserved = w.reserved ∧ w'.agen = w.agen
    let held : Prop := w.running = true ∧ w.holder = some sl
    (heard w msg = false → Idle (.renew sl msg) s ∧ Idle (.claim sl msg) s ∧ Idle (.release sl msg) s ∧ Idle (.present sl msg) s)
    ∧ (heard w msg = true →
      (held → answers (.renew sl msg) 9 (fun w' => w'.running = true ∧ w'.holder = some sl ∧ w'.agen = msg.agen ∧ w'.leadEpoch = msg.leadEpoch
        ∧ sync0Of w' (otherSlot sl) = (sync0Of w (otherSlot sl) || (!msg.flags.getLsbD 6 && runOf w (otherSlot sl)))))
      ∧ (¬ held → becomes (.renew sl msg) (claimAt w sl false msg))
      ∧ becomes (.claim sl msg) (claimAt w sl force msg)
      ∧ (held → answers (.claim sl msg) 8 (fun w' => kept w' ∧ pendOf w' sl = none))
      ∧ (¬ held → msg.agen.toNat < w.agen.toNat → force = false → answers (.claim sl msg) 12 (fun w' => kept w' ∧ pendOf w' sl = none))
      ∧ (¬ held → (w.agen.toNat ≤ msg.agen.toNat ∨ force = true) →
        ((w.running = true ∨ w.holdoff = true) →
          (sync0Of w sl = true → answers (.claim sl msg) 11 (fun w' => kept w' ∧ pendOf w' sl = none))
          ∧ (sync0Of w sl = false → answers (.claim sl msg) 10 (fun w' => kept w' ∧ ∃ q, pendOf w' sl = some q ∧ q.agen = msg.agen ∧ q.force = force
              ∧ q.counter = msg.counter)))
        ∧ (w.running = false → w.holdoff = false →
          (grantable w sl = true → answers (.claim sl msg) 8 (fun w' => w'.running = true ∧ w'.holder = some sl ∧ w'.holdoff = false ∧ w'.reserved = none
            ∧ pendOf w' sl = none
            ∧ ((w.holder = some sl ∨ w.reserved = some sl) → w'.agen = w.agen)
            ∧ (w.holder ≠ some sl → w.reserved ≠ some sl → w'.agen = incAgen (maxAgen w.agen msg.agen))))
          ∧ (grantable w sl = false → answers (.claim sl msg) 10 (fun w' => kept w' ∧ (pendOf w' sl).isSome = true))))
      ∧ (held → pendOf w (otherSlot sl) = none →
          answers (.release sl msg) 13 (fun w' => w'.running = false ∧ w'.reserved = some (otherSlot sl) ∧ w'.agen = w.agen))
      ∧ (held → ∀ q, pendOf w (otherSlot sl) = some q → ∃ w', becomes (.release sl msg) w' ∧ w'.running = true
          ∧ w'.holder = some (otherSlot sl) ∧ w'.agen = w.agen)
      ∧ (¬ held → answers (.release sl msg) 11 kept)
      ∧ answers (.present sl msg) 13 (fun w' => kept w' ∧ (match sl with | .a => w'.presentA | .b => w'.presentB) = some msg))
    ∧ (w.running = true → becomes .witnessLeaseEnd { w with running := false, holdoff := true })
    ∧ (w.running = false → Idle .witnessLeaseEnd s)
    ∧ (w.holdoff = false → Idle .witnessHoldoffEnd s)
    ∧ (w.holdoff = true → w.pendA = none → w.pendB = none → becomes .witnessHoldoffEnd { w with holdoff := false })
    ∧ (∀ q, w.holdoff = true → w.running = false → w.reserved = none → w.agen ≠ 0xFFFFFFFF → pendOf w sl = some q → pendOf w (otherSlot sl) = none →
        ∃ w', becomes .witnessHoldoffEnd w' ∧ w'.running = true ∧ w'.holder = some sl ∧ w'.holdoff = false)
    ∧ (∀ qa qb, w.holdoff = true → w.running = false → w.reserved = none → w.agen ≠ 0xFFFFFFFF → w.pendA = some qa → w.pendB = some qb →
        ∃ w', becomes .witnessHoldoffEnd w' ∧ w'.running = true ∧ w'.holder = some (if qa.order ≤ qb.order then .a else .b))
    ∧ ((pendOf w sl).isSome = true → ∃ w', becomes (.claimPendingExpiry sl) w' ∧ kept w' ∧ pendOf w' sl = none
        ∧ pendOf w' (otherSlot sl) = pendOf w (otherSlot sl))
    ∧ (pendOf w sl = none → Idle (.claimPendingExpiry sl) s)
    ∧ (w.reserved = none → Idle .releaseReservationEnd s)
    ∧ (w.reserved.isSome = true → w.pendA = none → w.pendB = none → becomes .releaseReservationEnd { w with reserved := none })

/-- R272, R274, R275, R277, R278: what a module sends the witness and when, and what it makes of the replies. (model choices: log entries
25, 88, 92, 94) -/
def Obligations.LeaseEvents : Prop :=
  ∀ (s : State) (sl : Slot) (msg : WMsg),
    let m := modOf s sl
    let p := modOf s (otherSlot sl)
    let pair' (f : Pair → Pair) : Module := { m with pair := f m.pair }
    let seen (x : Pair) : Pair := { x with w1Seen := true, stale := decide (x.agen.toNat < msg.agen.toNat) }
    let sends (i : Instr) (type : Nat) (force : Bool) : Prop := Becomes i s sl (toWitness m type force)
      ∧ ∃ r, (toWitness m type force).out = m.out ++ [.witness type r] ∧ r.counter = m.pair.counter + 1 ∧ r.domain = m.pair.domain
        ∧ r.agen = m.pair.agen ∧ r.flags.getLsbD 4 = force
    (serving m = true →
      (isLead m = true → leaseHeld m = true → m.pair.claiming = false → sends (.renewTimer sl) 1 false)
      ∧ (m.pair.role = .shadow → m.pair.linkUp = true → sends (.presentTimer sl) 4 false)
      ∧ (m.pair.claiming = true → sends (.claimTimer sl) 2 m.pair.claimForce))
    ∧ ((serving m = false ∨ isLead m = false ∨ leaseHeld m = false) → Idle (.renewTimer sl) s)
    ∧ ((serving m = false ∨ m.pair.claiming = false) → Idle (.claimTimer sl) s)
    ∧ ((serving m = false ∨ m.pair.linkUp = false) → Idle (.presentTimer sl) s)
    ∧ ((serving m = false ∨ isLead m = false ∨ leaseHeld m = true) → Idle (.leaseCheck sl) s)
    ∧ (serving m = true → isLead m = true → leaseHeld m = false →
      (m.pair.linkUp = true → m.pair.witnessLost = false → ∃ m', Becomes (.leaseCheck sl) s sl m' ∧ m'.pair.witnessLost = true
        ∧ m'.pair.claiming = true ∧ m'.pair.role = .lead)
      ∧ (m.pair.linkUp = false → m.boot.state = .run → ∃ m', Becomes (.leaseCheck sl) s sl m' ∧ m'.boot.state = .splitOff ∧ m'.pair.role = .none
        ∧ ∀ x ∈ m'.exec.tasks, x.2.cycle = none)
      ∧ (m.pair.linkUp = false → m.boot.state = .ready → ∃ m', Becomes (.leaseCheck sl) s sl m' ∧ m'.boot.state = .ready ∧ m'.pair.role = .none
        ∧ m'.pair.claiming = true))
    ∧ (lonelyShadow m = true →
      (m.pair.w1Seen = false → ∃ m', Becomes (.claimReplyTimeout sl) s sl m' ∧ m'.boot.state = .splitOff)
      ∧ (m.pair.w1Seen = true → Idle (.claimReplyTimeout sl) s)
      ∧ (validReply m msg = true → (∃ m', Becomes (.denied sl msg) s sl m' ∧ m'.boot.state = .splitOff)
        ∧ ∃ m', Becomes (.stale sl msg) s sl m' ∧ m'.boot.state = .splitOff))
    ∧ (serving m = true → m.boot.state = .ready → isLead m = false → m.pair.claiming = false → mayClaim m = true → linked m p = false →
        ∃ m', Becomes (.readyClaimTimer sl) s sl m' ∧ m'.pair.claiming = true ∧ m'.pair.claimForce = false)
    ∧ (linked m p = true → isLead p = true → Idle (.readyClaimTimer sl) s)
    ∧ (validReply m msg = false → Idle (.grant sl msg) s ∧ Idle (.renewed sl msg) s ∧ Idle (.wait sl msg) s ∧ Idle (.denied sl msg) s
        ∧ Idle (.stale sl msg) s ∧ Idle (.witnessAck sl msg) s)
    ∧ (validReply m msg = true →
      Becomes (.wait sl msg) s sl (pair' seen) ∧ Becomes (.witnessAck sl msg) s sl (pair' seen)
      ∧ (lonelyShadow m = false →
        Becomes (.denied sl msg) s sl (pair' seen)
        ∧ (isLead m = true → Becomes (.stale sl msg) s sl (pair' (fun x => { seen x with stale := true })))
        ∧ (isLead m = false → Becomes (.stale sl msg) s sl (pair' (fun x => { seen x with stale := true, claiming := false }))))
      ∧ (isLead m = false → Becomes (.renewed sl msg) s sl (pair' seen))
      ∧ (isLead m = true → ∃ m' p', BecomeBoth (.renewed sl msg) s sl m' p' ∧ m'.pair.leaseEnd = some (m.phys + 249000) ∧ m'.pair.role = .lead
          ∧ (m.pair.agen.toNat ≤ msg.agen.toNat → m'.pair.acceptHeld = false)
          ∧ (msg.agen.toNat < m.pair.agen.toNat → m'.pair.acceptHeld = m.pair.acceptHeld))
      ∧ (isLead m = false → m.pair.claiming = false → BecomeBoth (.grant sl msg) s sl (pair' seen) p)
      ∧ (isLead m = false → m.pair.claiming = true → m.pair.handover = none → p.pair.handover = none → m.pair.forcedRun = none → ∃ m' p',
          BecomeBoth (.grant sl msg) s sl m' p' ∧ m'.pair.role = .lead ∧ m'.pair.leaseEnd = some (m.phys + 249000)
          ∧ m'.pair.leadEpoch = m.pair.leadEpoch + 1 ∧ m'.pair.agen = maxAgen m.pair.agen msg.agen ∧ m'.pair.claiming = false
          ∧ m'.pair.mode = .alone ∧ (linked m p = true → serving p = true → p'.pair.role = .shadow))
      ∧ (isLead m = true → m.pair.forcedRun = none → ∃ m' p', BecomeBoth (.grant sl msg) s sl m' p' ∧ m'.pair.role = .lead
          ∧ m'.pair.leaseEnd = some (m.phys + 249000) ∧ m'.pair.claiming = false ∧ m'.pair.agen = maxAgen m.pair.agen msg.agen))
    ∧ (∀ lane, (hasPower m = false ∨ 1 < lane ∨ laneUp m lane = false) → Idle (.syncLaneDown sl lane) s)
    ∧ (∀ lane, hasPower m = true → lane ≤ 1 → laneUp m lane = true → laneUp m (1 - lane) = true → ∃ m', Becomes (.syncLaneDown sl lane) s sl m'
        ∧ laneUp m' lane = false ∧ laneUp m' (1 - lane) = true ∧ m'.pair.linkUp = m.pair.linkUp)
    ∧ (∀ lane, hasPower m = true → lane ≤ 1 → laneUp m lane = true → laneUp m (1 - lane) = false → m.pair.linkUp = true →
        exec (.syncLaneDown sl lane) s = .next (linkDown sl (withMod s sl (setLane m lane false (!laneUp p lane)))))
    ∧ (linkLost m p).pair.linkUp = false ∧ (linkLost m p).pair.mode = .alone
    ∧ (∀ lane, (drivesLink m = false ∨ 1 < lane ∨ laneUp m lane = true) → Idle (.syncLaneUp sl lane) s)
    ∧ (∀ lane, drivesLink m = true → lane ≤ 1 → laneUp m lane = false →
      ∃ m' p', BecomeBoth (.syncLaneUp sl lane) s sl m' p' ∧ laneUp m' lane = true
        ∧ (m.pair.linkUp = false → drivesLink p = true → (p.pair.lane0 = true ∨ p.pair.lane1 = true) → linked m' p' = true))

/-- R282 to R288, R385, R386: the equinox swap from its drain to its end, the course of a resync, the catch-up of a warm takeover, and the
limits of maintenance. (model choices: log entries 8, 25, 45, 48, 89) -/
def Obligations.HandoverResyncEvents : Prop :=
  ∀ (s : State) (sl : Slot),
    let m := modOf s sl
    let p := modOf s (otherSlot sl)
    (∀ h, m.pair.handover = some h →
      (h.released = false → isLead m = true → serving m = true → linked m p = true →
        (drained m h = true → ∃ m', Becomes (.equinoxDrainDone sl) s sl m' ∧ m'.pair.role = .shadow ∧ m'.pair.leaseEnd = none
          ∧ m'.pair.handover = some { h with released := true } ∧ .sync .equinoxNotice ∈ m'.out ∧ ∃ r, .witness 3 r ∈ m'.out)
        ∧ (drained m h = false → Idle (.equinoxDrainDone sl) s))
      ∧ (h.released = true → Idle (.equinoxDrainDone sl) s ∧ BecomeBoth (.equinoxDrainTimeout sl) s sl m (mirrorToken m p))
      ∧ (h.released = false → isLead m = true → h.code ≠ 0 → ∃ m' p', BecomeBoth (.equinoxDrainTimeout sl) s sl m' p' ∧ m'.pair.handover = none
          ∧ m'.mail.paused = false ∧ m'.pair.role = .lead ∧ (h.code = 0x0504 → tget m'.maint.entries 2 = none))
      ∧ (h.released = true → isLead m = false → inRun m = true → (linked m p = false ∨ isLead p = false) → ∃ m' p',
          BecomeBoth (.equinoxGrantTimeout sl) s sl m' p' ∧ m'.pair.claiming = true ∧ (linked m p = true → p'.pair.noticed = false ∧ p'.pair.claiming = false))
      ∧ (h.released = false → Idle (.equinoxGrantTimeout sl) s))
    ∧ (m.pair.handover = none → Idle (.equinoxDrainDone sl) s ∧ BecomeBoth (.equinoxDrainTimeout sl) s sl m (mirrorToken m p)
      ∧ Idle (.equinoxGrantTimeout sl) s)
    ∧ (∀ h, p.pair.handover = some h → h.released = true → inRun m = true → linked m p = true → isLead m = false → mayClaim m = true →
        ∃ m', Becomes (.equinoxNoticeReceive sl) s sl m' ∧ m'.pair.noticed = true ∧ m'.pair.claiming = true ∧ m'.pair.claimForce = false)
    ∧ (p.pair.handover = none → Idle (.equinoxNoticeReceive sl) s)
    ∧ (serving m = true → isLead m = true → m.pair.reminderDays ≠ 0 →
      ((m.pair.reminderDays * 86400000000000 : Int) ≤ almDiff (now m) m.pair.lastSwap →
        Becomes (.equinoxDueTimer sl) s sl (logEv m 0x0504 0 0 0xFFFF (leBytes 8 m.pair.lastSwap.toNat)))
      ∧ (almDiff (now m) m.pair.lastSwap < (m.pair.reminderDays * 86400000000000 : Int) → Idle (.equinoxDueTimer sl) s))
    ∧ (inRun m = true → isLead m = true → joinable m p = true → m.pair.resync = none → foreignDomain m p = false → leaseHeld m = true →
      m.pair.agen ≠ 0xFFFFFFFF → judge m p 3 .pair = 0 →
      (p.boot.state ≠ .run → m.pair.autoResync = true → ∃ m' p' r, BecomeBoth (.autoResyncStart sl) s sl m' p' ∧ m'.pair.resync = some r
        ∧ r.phase = 1 ∧ r.cmd = none ∧ p'.pair.joining = some 1)
      ∧ (p.boot.state ≠ .run → m.pair.autoResync = false → Idle (.autoResyncStart sl) s))
    ∧ (∀ r, m.pair.resync = some r → isLead m = true → linked m p = true → serving p = true →
      (r.phase = 1 → r.warmShadow = false → ∃ m' p', BecomeBoth (.resyncCopyDone sl) s sl m' p' ∧ m'.pair.resync = some { r with phase := 2 }
        ∧ m'.pair.mode = .warm ∧ p'.pair.mode = .warm ∧ m'.pair.partnerInSet = true ∧ p'.pair.inSet = true ∧ p'.pair.role = .shadow
        ∧ m'.pair.agen = incAgen m.pair.agen ∧ p'.pair.agen = incAgen m.pair.agen)
      ∧ (r.phase = 1 → r.warmShadow = true → ∃ m' p', BecomeBoth (.resyncCopyDone sl) s sl m' p' ∧ m'.pair = { m.pair with resync := some { r with phase := 3 } }
        ∧ p'.pair = { p.pair with joining := some 3 })
      ∧ (r.phase ≠ 1 → Idle (.resyncCopyDone sl) s)
      ∧ (∀ cut, r.phase = 3 → compatible m p = true → almGe cut (now m + 100000) = true → steady p = true → ∃ m' p',
          BecomeBoth (.resyncFollowDone sl cut) s sl m' p' ∧ m'.pair.cutover = some cut ∧ p'.pair.cutover = some cut ∧ p'.pair.joining = some 4
          ∧ m'.pair.resync = some { r with phase := 4, cutover := some cut })
      ∧ (∀ cut, r.phase = 3 → compatible m p = false → p.boot.state = .ready → ∃ m' p', BecomeBoth (.resyncFollowDone sl cut) s sl m' p'
          ∧ m'.pair.resync = none ∧ p'.boot.state = .run ∧ p'.pair.joining = none)
      ∧ ∃ m' p', BecomeBoth (.resyncTimeout sl) s sl m' p' ∧ m'.pair.resync = none ∧ p'.store.points = [] ∧ p'.pair.inSet = false
          ∧ p'.pair.joining = none ∧ (p.boot.state = .run → p'.boot.state = .ready))
    ∧ (m.pair.resync = none → Idle (.resyncTimeout sl) s ∧ Idle (.resyncCopyDone sl) s ∧ ∀ cut, Idle (.resyncFollowDone sl cut) s)
    ∧ (∀ item, follower m p = false → Idle (.syncResyncDataReceive sl item) s)
    ∧ (follower m p = true →
      (∃ m' p', BecomeBoth (.syncResyncDataReceive sl .points) s sl m' p' ∧ m'.store.pubs = p.store.pubs
        ∧ (∀ i, (tget m'.store.points i).map (fun r => (r.value, r.quality, r.owner, r.gen)) = (tget p.store.points i).map (fun r => (r.value, r.quality, r.owner, r.gen))))
      ∧ (∃ m' p', BecomeBoth (.syncResyncDataReceive sl .tickets) s sl m' p' ∧ m'.mail.tickets = p.mail.tickets ∧ m'.mail.highest = p.mail.highest)
      ∧ (∃ m' p', BecomeBoth (.syncResyncDataReceive sl .partitions) s sl m' p' ∧ m'.store.parts = p.store.parts))
    ∧ (∀ launch, inRun m = true → isLead m = true → m.pair.catchup = true → ∃ m', Becomes (.warmCatchupLaunch sl launch) s sl m'
        ∧ m'.pair = { m.pair with catchup := false })
    ∧ (∀ launch, m.pair.catchup = false → Idle (.warmCatchupLaunch sl launch) s)
    ∧ (∀ cls e, fw m = true → isLead m = true → tget m.maint.entries cls = some e →
      (holderCode e.holder = 1 → ∃ m' p', BecomeBoth (.maintLeaseExpiry sl cls) s sl m' p' ∧ tget m'.maint.entries cls = none
        ∧ (linked m p = true → m.pair.partnerInSet = true → p'.maint.entries = m'.maint.entries))
      ∧ (holderCode e.holder ≠ 1 → ∃ p', BecomeBoth (.maintLeaseExpiry sl cls) s sl m p'))
    ∧ (∀ qp t code c, m.maint.waits.find? (fun x => x.1 == qp && x.2.2.ticket == t) = some (qp, code, c) → ∃ m',
        Becomes (.maintWaitTimeout sl qp t) s sl (finish m' .work code c 4 0x0011 0 [])
        ∧ m' = { m with maint := { m.maint with waits := m.maint.waits.filter (fun x => !(x.1 == qp && x.2.2.ticket == t)) } })
    ∧ (∀ qp t, m.maint.waits.find? (fun x => x.1 == qp && x.2.2.ticket == t) = none → Idle (.maintWaitTimeout sl qp t) s)

/-! ### Steps and what the modules exchange about them -/

/-- R116, R123, R126, R129, R134, R136, R138, R140, R141, R149 to R151, R305: steps, releases and overruns, launches, the arbiter, the ICAL
input and mismatches of a cluster. (model choices: log entries 8, 25, 51, 52, 58) -/
def Obligations.StepEvents : Prop :=
  ∀ (s : State) (sl : Slot) (S : W64),
    let m := modOf s sl
    let p := modOf s (otherSlot sl)
    (stepDue m S = false → Idle (.step sl S) s)
    ∧ (stepDue m S = true → m.pair.cutover = none → dueTasks (goOnline m S) S = [] → m.maint.waits = [] → dueEntries m S = [] →
      m.exec.agreeing = none → ∃ m', Becomes (.step sl S) s sl m' ∧ m'.exec.lastStep = S ∧ m'.exec.tasks = m.exec.tasks
        ∧ m'.store.points = m.store.points ∧ m'.mail = m.mail ∧ m'.exec.agreeing = none)
    ∧ (∀ t k c, taskOf m t = some k → k.st = .running → cycling m = true → k.cycle = some c →
      (passes m p t S c = true → (boundTask1 m p S t).released = true ∧ (boundTask1 m p S t).starts = true)
      ∧ (passes m p t S c = false → (boundTask1 m p S t).released = false ∧ (boundTask1 m p S t).starts = false
        ∧ ∀ k', taskOf (boundTask1 m p S t).m t = some k' → k'.overruns = inc32 k.overruns ∧ (c.fails < 3 → k'.st = .running) ∧ (3 ≤ c.fails → k'.st = .faulted)))
    ∧ (∀ t table ws e r, (ws.map (fun e : WEnt => hIdx e.handle)).Nodup → e ∈ ws → live m e.handle = some r → ∃ r',
        tget (applySet m t S table ws).store.points (hIdx e.handle) = some r' ∧ r'.time = S ∧ r'.gen = r.gen
        ∧ (∀ ty, r.ty = some ty → r'.value = maskVal ty e.value) ∧ r'.forced = r.forced)
    ∧ (∀ id d stale, dropOf m id = some d → ∃ d', dropOf (takeOut m id stale false) id = some d' ∧ d'.outSeq = d.outSeq + 1
        ∧ d'.lastSeq = d.outSeq ∧ d'.lastStale = stale ∧ d'.lastData = outData m id d)
    ∧ (∀ reqs, powered m = true →
      let g := grantAll m.store.arb (reqs.take 64)
      ∃ m', Becomes (.arbiterWindowEnd sl reqs) s sl m' ∧ m'.out = m.out ++ [.grants g.2] ∧ m'.store.arb.used = 0 ∧ m'.store.arb.masked = false
        ∧ m'.store.arb.last = g.1.last ∧ (∀ cl q, m.store.arb.newClasses = some (cl, q) → m'.store.arb.classes = cl ∧ m'.store.arb.quota = q)
        ∧ m'.store.points = m.store.points)
    ∧ (∀ reqs, powered m = false → Idle (.arbiterWindowEnd sl reqs) s)
    ∧ (∀ sub h consumer x h' q v t, tget m.store.subs sub = some x → x.heldStates.find? (fun y => y.1 == h) = some (h', q, v, t) →
      isLead m = true → serving m = true → m.pair.window = false →
      Becomes (.subscriptionReportDeferred sl sub h consumer) s sl (reportOne m sub { x with consumer := consumer } h' q v t))
    ∧ (∀ sub h consumer, tget m.store.subs sub = none → Idle (.subscriptionReportDeferred sl sub h consumer) s)
    ∧ (∀ falling time,
      let last := if falling then m.alm.icalFall else m.alm.icalRise
      (fw m = true → (∃ l, last = some l ∧ (almDiff time l).natAbs < 1000) →
        Becomes (.icalEdge sl falling time) s sl { m with alm := { m.alm with icalGlitch := inc32 m.alm.icalGlitch } })
      ∧ (fw m = true → isLead m = false → (∀ l, last = some l → 1000 ≤ (almDiff time l).natAbs) →
        Becomes (.icalEdge sl falling time) s sl
          { m with alm := if falling then { m.alm with icalFall := some time } else { m.alm with icalRise := some time } })
      ∧ (fw m = true → isLead m = true → (∀ l, last = some l → 1000 ≤ (almDiff time l).natAbs) → (∀ x ∈ m.exec.tasks, x.2.icalSource ≠ 1) →
        Becomes (.icalEdge sl falling time) s sl
          { m with alm := if falling then { m.alm with icalFall := some time } else { m.alm with icalRise := some time } }))
    ∧ (∀ task k, fw m = true → taskOf m task = some k → k.st = .running → (k.icalSource = 1 ∨ k.icalSource = 2) → ∃ m' k',
        Becomes (.icalWindowClose sl task) s sl m' ∧ taskOf m' task = some k' ∧ k'.icalHit = false
        ∧ k'.syncAbsent = (if k.icalHit then k.syncAbsent else inc32 k.syncAbsent))
    ∧ (∀ cluster x, m.exec.units[2 * cluster]? = some x → serving m = true → cluster ≤ 15 → isSplit m cluster = false → x.fenced = false →
      x.resetting = false →
      let n := (recentTimes m x.mismatches 1000000000).length + 1
      (n ≤ 2 → ∃ m' p' x', BecomeBoth (.clusterMismatch sl cluster) s sl m' p' ∧ m'.exec.units[2 * cluster]? = some x' ∧ x'.resetting = true
        ∧ x'.running = none ∧ ∀ t k c, t ∈ unsealedOn m (2 * cluster) → taskOf m t = some k → k.cycle = some c → ∃ k', taskOf m' t = some k'
          ∧ k'.restarts = inc32 k.restarts ∧ k'.cycle = some (rewindCycle c (now m) (inStepWith m p)))
      ∧ (3 ≤ n → (m.boot.state = .run ∨ m.boot.state = .ready) → ∃ m' p' x', BecomeBoth (.clusterMismatch sl cluster) s sl m' p'
        ∧ m'.boot.state = .umbra ∧ m'.halo.umbraCause = 2 ∧ m'.exec.units[2 * cluster]? = some x' ∧ x'.fenced = true))
    ∧ (∀ cluster, isSplit m cluster = true → Idle (.clusterMismatch sl cluster) s)
    ∧ (∀ cluster x, m.exec.units[2 * cluster]? = some x →
      (x.resetting = true → Becomes (.clusterResetDone sl cluster) s sl
        (dispatch { m with exec := { m.exec with units := modNth m.exec.units (2 * cluster) (fun x => { x with resetting := false }) } } (2 * cluster)))
      ∧ (x.resetting = false → Idle (.clusterResetDone sl cluster) s))

/-- R76, R78, R119, R120, R131, R134, R150, R232, R234, R237, R287, R296, R300, R301, R310, R329: what a module makes of the messages of the
sync link. (model choices: log entries 8, 25, 45, 46, 57) -/
def Obligations.SyncEvents : Prop :=
  ∀ (s : State) (sl : Slot),
    let m := modOf s sl
    let p := modOf s (otherSlot sl)
    let follows : Prop := fw m = true ∧ linked m p = true ∧ isLead m = false
    (∀ S l l', (serving m = false ∨ inStepWith m p = false) → Idle (.syncSummaryReceive sl S l) s ∧ Idle (.syncContentReceive sl S l') s)
    ∧ (∀ S l, serving m = true → inStepWith m p = true → m.exec.agreeing = none → 0 < almDiff S m.exec.lastStep →
        Becomes (.syncSummaryReceive sl S l) s sl { m with exec := { m.exec with early := m.exec.early.filter (fun y => y.1 != S) ++ [(S, l)] } })
    ∧ (∀ S l o, serving m = true → inStepWith m p = true → m.exec.agreeing = some o → o.instant = S → o.partner = none →
        (agreed (takeSummary m o l).1 (takeSummary m o l).2 = false → Becomes (.syncSummaryReceive sl S l) s sl (takeSummary m o l).1)
        ∧ (takeSummary m o l).1.exec.agreeing = some { o with partner := some l })
    ∧ (∀ S l o, serving m = true → inStepWith m p = true → m.exec.agreeing = some o → o.instant = S →
        let o' : OpenStep := { o with got := o.got ++ l }
        let m' : Module := { m with exec := { m.exec with agreeing := some o' } }
        (agreed m' o' = false → Becomes (.syncContentReceive sl S l) s sl m')
        ∧ (agreed m' o' = true → exec (.syncContentReceive sl S l) s = .next (resumeSteps sl (withMod s sl (inputCommit o' m')))))
    ∧ (∀ task start t digest, serving m = true → linked m p = true → Becomes (.syncSealReceive sl task start t digest) s sl
        (taskMod m task (fun k => { k with cycle := k.cycle.map (fun c => if c.start = start then { c with partnerSeal := some (t, digest) } else c) })))
    ∧ (∀ task start ws k c, serving m = true → inStepWith m p = true → taskOf m task = some k → k.cycle = some c →
      ((c.start ≠ start ∨ c.restarting = false) → Idle (.syncWriteSetReceive sl task start ws) s)
      ∧ (c.start = start → c.restarting = true → c.follows = true →
        Becomes (.syncWriteSetReceive sl task start ws) s sl (setCycle m task { c with partnerWs := some ws })))
    ∧ (∀ task S ws k q, serving m = true → linked m p = true → isLead m = false → warmShadow m = true → taskOf m task = some k → taskOf p task = some q →
        ∃ m' k', Becomes (.syncCheckpointReceive sl task S ws) s sl m' ∧ taskOf m' task = some k' ∧ k'.lastReleased = q.lastReleased ∧ k'.outs = q.outs
        ∧ k'.fresh = true)
    ∧ (∀ task S ws, (linked m p = false ∨ isLead m = true ∨ warmShadow m = false) → Idle (.syncCheckpointReceive sl task S ws) s)
    ∧ (∀ qp d req, follows → m.pair.inSet = true → journalHas m qp d.ticket = false →
      let m' : Module := { m with mail := { m.mail with journal := m.mail.journal ++ [{ qp := qp, d := d, req := req }] } }
      Becomes (.syncJournalEntryReceive sl qp d req none) s sl (emit m' (.sync (.journalAck qp d.ticket)))
      ∧ ∀ step, ∃ m'' e, Becomes (.syncJournalEntryReceive sl qp d req (some step)) s sl m'' ∧ journalFind m'' qp d.ticket = some e
          ∧ e.accepted = true ∧ e.step = some step ∧ e.req = req)
    ∧ (∀ qp t, fw m = true → linked m p = true → isLead m = true → Becomes (.syncJournalAckReceive sl qp t) s sl
        (acceptReady (journalMod m qp t (fun e => { e with acked := true })) p))
    ∧ (∀ l, follows → ∃ m', Becomes (.syncFinalReportReceive sl l) s sl m' ∧ ∀ f ∈ l, journalHas m' f.1 f.2 = false)
    ∧ (∀ r, follows → BecomeBoth (.syncChronicleMirrorReceive sl r) s sl
        (emit { m with chron := { m.chron with recs := storeRec m.chron.recs r, lastSeq := r.seq } } (.sync (.chronicleAck r.seq)))
        { p with chron := { p.chron with unacked := p.chron.unacked.filter (fun x => x != r.seq) } })
    ∧ (∀ ev, fw m = true → linked m p = true → isLead m = true → Becomes (.syncShadowEventReceive sl ev) s sl (queueEvent m ev))
    ∧ (∀ ev, isLead m = false → Idle (.syncShadowEventReceive sl ev) s)
    ∧ (∀ task c, follows → Becomes (.syncIcalAnnounceReceive sl task c) s sl (icalPlace m task c (now m)))
    ∧ (∀ drop v S s0 mac, follows → Becomes (.syncOnlineAnnounceReceive sl drop v S s0 mac) s sl (dropMod m drop (fun d =>
        { d with st := .negotiating, assigning := false, version := v, mac := mac, outSeq := s0, onlineAt := some S })))
    ∧ (∀ seg f, sends m = true → linked m p = true → ringRuns m seg = true → Becomes (.syncRelayFrameReceive sl seg f) s sl (emit m (.ring seg f)))
    ∧ (∀ seg f, sends m = false → Idle (.syncRelayFrameReceive sl seg f) s)
    ∧ (∀ drop seq, fw m = true → linked m p = true → isLead m = true → Becomes (.syncAcyAckRelayReceive sl drop seq) s sl (acyAcked m p drop seq))
    ∧ (∀ drop seq, isLead m = false → Idle (.syncAcyAckRelayReceive sl drop seq) s)
    ∧ (∀ ch avg spread t, m.lio.trim = some t → serving m = true → linked m p = true → isLead m = true → t.remote = true → t.channel = ch →
        Becomes (.syncTrimReportReceive sl ch avg spread) s sl (finishTrim m t avg spread) ∧ (finishTrim m t avg spread).lio.trim = none)
    ∧ (∀ ch avg spread, m.lio.trim = none → Idle (.syncTrimReportReceive sl ch avg spread) s)
    ∧ (∀ a d, follows → ∃ m', Becomes (.syncStepAnnounceReceive sl a d) s sl m' ∧ m'.alm.sched.map (fun x => (x.1, x.2.1)) = some (a, d))
    ∧ (∀ t adj, serving m = true → linked m p = true → isLead m = false → isLead p = true → ∃ m', exec (.syncTimeReceive sl t adj) s =
        .next { withMod s sl m' with fresh := s.fresh + 1 } ∧ m'.pair.role = .shadow ∧ m'.alm.source = 1 ∧ m'.alm.locked = true
        ∧ (m.alm.alignDue = false → m'.alm.t = m.alm.t ∧ m'.alm.partnerOffset = almDiff (now m) t)
        ∧ (m.alm.alignDue = true → m'.alm.t = t ∧ m'.alm.alignDue = false))
    ∧ (fw m = true → isLead m = true → linked m p = true → Becomes (.partnerTimeSend sl) s sl (emit m (.sync (.time (now m) m.alm.adj))))
    ∧ ((fw m = false ∨ isLead m = false ∨ linked m p = false) → Idle (.partnerTimeSend sl) s)
    ∧ (∀ dg id x, serving m = true → isLead m = true → importOf m dg = some (id, x) → dg.crcGood = true → restartsSeq x dg = false →
        BecomeBoth (.importDatagramReceive sl dg) s sl (importMod m id (fun y => assemble y dg)) p)
    ∧ (∀ dg, (serving m = false ∨ isLead m = false) → Idle (.importDatagramReceive sl dg) s)
    ∧ (∀ task, hasPower m = true → (∀ x ∈ m.exec.tasks, ∀ c, x.2.cycle = some c → c.waitsLog = false) →
      let done := m.store.log.filter (fun l => l.complete && l.task == task)
      Becomes (.retainedApply sl task) s sl { m with store := { m.store with
        log := m.store.log.filter (fun l => !(l.complete && l.task == task))
        retained := done.foldl (fun r l => l.entries.foldl (fun r e => tset r e.1 e.2) r) m.store.retained } })

/-! ### Rings -/

/-- R24, R199, R202, R217, R219, R225, R228, R232, R235, R237, R239, R240, R241, R422: what arrives on the ring lanes of a module, what it
sends there at its own times, and the state of a ring. (model choices: log entries 16, 25, 61, 97) -/
def Obligations.RingEvents : Prop :=
  ∀ (s : State) (sl : Slot),
    let m := modOf s sl
    let p := modOf s (otherSlot sl)
    (∀ k f r, ringOf m k = some r →
      let rf := parseFrame f.bytes
      let m1 := laneMod m (2 * k) (fun l => { l with received := l.received + 1 })
      let proto : Prop := rf.ety = r.etherType ∧ rf.ety ≠ 0x88F7
      let known : Prop := 1 ≤ rf.ty ∧ rf.ty ≤ 8 ∧ (rf.ver = 1 ∨ rf.ver = 2)
      let fwd : Frame := { bytes := setPass m.slot f.bytes, fcs := fcsOut f.fcs }
      (ringRuns m k = false → Idle (.ringFrameForward sl k f) s)
      ∧ (ringRuns m k = true → proto → known → ownFrame m k rf = true → Becomes (.ringFrameForward sl k f) s sl m1)
      ∧ (ringRuns m k = true → proto → ¬ known →
        Becomes (.ringFrameForward sl k f) s sl (ringMod m1 k (fun r => { r with badHeader := inc32 r.badHeader })))
      ∧ (ringRuns m k = true → proto → known → ownFrame m k rf = false → spliceMatch m k (parseFrame fwd.bytes) true = [] →
        ∃ m', Becomes (.ringFrameForward sl k f) s sl m'
          ∧ (r.launching = false → r.buffer = [] → m'.out = m.out ++ [.ring k fwd])
          ∧ (r.launching = true → m'.out = m.out ∧ ∃ r', ringOf m' k = some r' ∧ r'.buffer = r.buffer ++ [fwd])
          ∧ (f.fcs = .bad → m'.glint.fcsBad = inc32 m.glint.fcsBad) ∧ (f.fcs = .stomped → m'.glint.stompSeen = inc32 m.glint.stompSeen))
      ∧ (ringRuns m k = true → rf.ety ≠ r.etherType → rf.ety ≠ 0x88F7 →
        Becomes (.ringFrameForward sl k f) s sl (departRing (countFcs m1 k f.fcs) k { f with fcs := fcsOut f.fcs }))
      ∧ (ringRuns m k = true → rf.ety = 0x88F7 → isPdelay f.bytes = true → Becomes (.ringFrameForward sl k f) s sl m1)
      ∧ (∃ m', Becomes (.heldFrameRelease sl k) s sl m' ∧ m'.out = m.out ++ r.buffer.map (fun f => .ring k f)
        ∧ ringOf m' k = some { r with launching := false, buffer := [] }))
    ∧ (∀ entry e, (spliceMap (activePart m.glint 4)).find? (fun x => x.1 == entry && !x.2.output) = some (entry, e) → glintRuns m = true →
      ∃ m', Becomes (.spliceFieldTimeout sl entry) s sl m' ∧ m'.glint.fieldTimeout = inc32 m.glint.fieldTimeout
        ∧ (e.clr = false → e.vbit ≠ 0xFFFF → m'.glint.lits = litSet m.glint.lits (0x200 + e.vbit) false)
        ∧ (e.clr = true → e.vbit = 0xFFFF → m'.glint.lits = litField m.glint.lits (0x200 + e.bit0) (8 * e.len) 0))
    ∧ (∀ k f d, TakenUp m k 2 f d →
      let rf := parseFrame f.bytes
      (d.held = none ∨ (∃ o, d.held = some o ∧ newer32 rf.seq o.key = true) →
        Becomes (.inFrameReceive sl k f) s sl (dropMod m rf.drop (fun d => { d with held := some { key := rf.seq, time := rf.time, data := rf.data } })))
      ∧ (∀ o, d.held = some o → o.key = rf.seq →
        Becomes (.inFrameReceive sl k f) s sl (dropMod m rf.drop (fun d => { d with duplicates := inc32 d.duplicates })))
      ∧ (∀ o, d.held = some o → o.key ≠ rf.seq → newer32 rf.seq o.key = false → Idle (.inFrameReceive sl k f) s))
    ∧ (∀ k f d, ringRuns m k = true → f.fcs = .good →
      let rf := parseFrame f.bytes
      rf.ty = 2 → (rf.ver = 1 ∨ rf.ver = 2) →
      (dropOf m rf.drop = none → Becomes (.inFrameReceive sl k f) s sl (countUnknown m k))
      ∧ (dropOf m rf.drop = some d → d.kind = .ring → d.segment = k → rf.ver ≠ d.version → Becomes (.inFrameReceive sl k f) s sl (countBad m k))
      ∧ (dropOf m rf.drop = some d → d.kind = .ring → d.segment = k → rf.ver = d.version → macNat rf.src ≠ d.mac →
        Becomes (.inFrameReceive sl k f) s sl (countUnknown m k)))
    ∧ (∀ k f, f.fcs ≠ .good → Idle (.inFrameReceive sl k f) s ∧ Idle (.acyAckReceive sl k f) s ∧ Idle (.syncFrameReceive sl k f) s
        ∧ Idle (.helloReceive sl k f) s ∧ Idle (.checkFrameReturn sl k f) s)
    ∧ (∀ k f d, TakenUp m k 4 f d →
      let rf := parseFrame f.bytes
      (isLead m = true → Becomes (.acyAckReceive sl k f) s sl (acyAcked m p rf.drop rf.seq))
      ∧ (isLead m = false → linked m p = true →
        Becomes (.acyAckReceive sl k f) s sl (emit (acyAcked m p rf.drop rf.seq) (.sync (.acyAck rf.drop rf.seq)))))
    ∧ (∀ k f d, TakenUp m k 5 f d →
      let rf := parseFrame f.bytes
      (icalNamed m rf.drop = false → Becomes (.syncFrameReceive sl k f) s sl (dropMod m rf.drop (fun d => { d with syncIgnored := inc32 d.syncIgnored })))
      ∧ (∀ last, icalNamed m rf.drop = true → d.lastEvent = some last →
        (1 ≤ dist32 rf.seq last → dist32 rf.seq last ≤ 65536 → Becomes (.syncFrameReceive sl k f) s sl
          (icalDropEvent (dropMod m rf.drop (fun d => { d with lastEvent := some rf.seq })) p rf.drop rf.time))
        ∧ (rf.seq = last → Becomes (.syncFrameReceive sl k f) s sl (dropMod m rf.drop (fun d => { d with duplicates := inc32 d.duplicates })))
        ∧ (65536 < dist32 rf.seq last → Idle (.syncFrameReceive sl k f) s)))
    ∧ (∀ k f d, ringRuns m k = true → f.fcs = .good →
      let rf := parseFrame f.bytes
      let v := byteAt rf.data 0
      rf.ty = 6 → rf.ver = 1 → 24 ≤ rf.data.length → dropOf m rf.drop = some d → d.kind = .ring → d.segment = k →
      (d.st = .online → macNat rf.src ≠ d.mac → Becomes (.helloReceive sl k f) s sl (dupDrop m k rf.drop rf.src))
      ∧ (isLead m = false → d.st ≠ .online → ∃ m', Becomes (.helloReceive sl k f) s sl m' ∧ dropOf m' rf.drop = some
          { d with family := w32 (be rf.data 12 4), versions := v, channels := be rf.data 2 2, wrapUp := bit (byteAt rf.data 1) 0
                   wrapDown := bit (byteAt rf.data 1) 1 })
      ∧ (isLead m = true → (d.st = .absent ∨ d.st = .offline) → (bit v 0 = true ∨ bit v 1 = true ∧ d.ceiling = 2) →
        ∃ m' d', Becomes (.helloReceive sl k f) s sl m' ∧ dropOf m' rf.drop = some d' ∧ d'.st = .negotiating ∧ d'.assigning = true
          ∧ d'.mac = macNat rf.src ∧ d'.version = if bit v 1 = true ∧ 2 ≤ d.ceiling then 2 else 1))
    ∧ (∀ drop d r, dropOf m drop = some d → ringOf m d.segment = some r → d.kind = .ring →
      (d.assigning = true → isLead m = true → m.pair.window = false → sends m = true →
        Becomes (.assignRetransmit sl drop) s sl (sendAssign m p drop) ∧ dropOf (sendAssign m p drop) drop = some { d with assignCtr := d.assignCtr + 1 })
      ∧ (d.assigning = false → Idle (.assignRetransmit sl drop) s)
      ∧ ((d.st ≠ .online ∨ sends m = false ∨ warmShadow m = true) → Idle (.acyRetransmit sl drop) s)
      ∧ (d.st = .online → sends m = true → warmShadow m = false → ∃ m', Becomes (.acyRetransmit sl drop) s sl m'
        ∧ dropOf m' drop = some { d with acyPending := d.acyPending.mapIdx (fun i a => if i < 8 then { a with sent := true } else a) }
        ∧ (m.pair.mode = .inStep → ∃ fs : List Frame, m'.out = m.out ++ fs.map (fun f => .ring d.segment f) ∧ fs.length = min 8 d.acyPending.length))
      ∧ (∀ seq, d.acyPending.find? (fun a => a.seq == seq && a.cmd.isSome && a.sent) = none → Idle (.acyDeliveryTimeout sl drop seq) s)
      ∧ (∀ seq a qp c, d.acyPending.find? (fun a => a.seq == seq && a.cmd.isSome && a.sent) = some a → a.cmd = some (qp, c) →
        Becomes (.acyDeliveryTimeout sl drop seq) s sl
          (dropMod (finish m .work 0x0407 { c with qp := qp } 3 0x8401 0 (leBytes 4 a.seq.toNat ++ zeros 4)) drop (fun d =>
            { d with acyPending := d.acyPending.map (fun x => if x.seq = seq then { x with cmd := none } else x) }))))
    ∧ (sends m = false → Idle (.checkFrameLaunch sl) s)
    ∧ (sends m = true → ∃ m', Becomes (.checkFrameLaunch sl) s sl m' ∧ ∀ k r, k < 8 → ringOf m k = some r →
      (ringRuns m k = true → ringOf m' k = some { r with checkSeq := r.checkSeq + 1, checkOut := r.checkOut + 1 } ∧ ∃ f, .ring k f ∈ m'.out)
      ∧ (ringRuns m k = false → ringOf m' k = some r))
    ∧ (∀ k f r, ringOf m k = some r →
      let rf := parseFrame f.bytes
      (ringRuns m k = true → f.fcs = .good → rf.ty = 8 → rf.src = moduleMac m.slot k → rf.flags &&& passBit (otherSlot m.slot) ≠ 0 →
        ∃ m' r', Becomes (.checkFrameReturn sl k f) s sl m' ∧ ringOf m' k = some r' ∧ r'.closed = true ∧ r'.checkOut = 0
          ∧ r'.changes = if ringState { r with closed := true } = ringState r then r.changes else inc32 r.changes)
      ∧ (rf.flags &&& passBit (otherSlot m.slot) = 0 → Idle (.checkFrameReturn sl k f) s)
      ∧ (∃ m' r', Becomes (.ringClosedTimeout sl k) s sl m' ∧ ringOf m' k = some r' ∧ r'.closed = false ∧ r'.checkOut = 0
          ∧ r'.checkMissing = sat32 (r.checkMissing + r.checkOut)))
    ∧ (∀ lane l r, lane < 16 → m.field.lanes[lane]? = some l → ringOf m (lane / 2) = some r →
      (powered m = false → Idle (.ringLaneLockLoss sl lane) s ∧ Idle (.ringLaneLinkUp sl lane) s)
      ∧ (powered m = true →
        (∃ m' r', Becomes (.ringLaneLockLoss sl lane) s sl m' ∧ ringOf m' (lane / 2) = some r' ∧ r'.held = true
          ∧ m'.field.lanes[lane]? = some { l with up := false, losses := inc32 l.losses })
        ∧ ∃ m' r', Becomes (.ringLaneLinkUp sl lane) s sl m' ∧ ringOf m' (lane / 2) = some r' ∧ m'.field.lanes[lane]? = some { l with up := true }
          ∧ (r'.held = false ↔ if lane % 2 = 0 then r.txUp = true else r.rxUp = true)))
    ∧ (∀ lane delay l, lane < 16 → m.field.lanes[lane]? = some l → fw m = true → ∃ m', Becomes (.pdelayMeasure sl lane delay) s sl m'
        ∧ m'.field.lanes[lane]? = some { l with delay := delay } ∧ .ptp 3 (3 + lane / 2) (now m) ∈ m'.out)
    ∧ (∀ lane delay, fw m = false → Idle (.pdelayMeasure sl lane delay) s)
    ∧ (sends m = true → isLead m = true → m.pair.window = false →
      Becomes (.ringPtpSyncSend sl) s sl (emits m ((enabledRings m).map (fun k => .ptp 0 (3 + k) (now m)))))
    ∧ ((sends m = false ∨ isLead m = false ∨ m.pair.window = true) → Idle (.ringPtpSyncSend sl) s)

/-! ### Drops in the field -/

/-- R26, R216, R218, R222, R224, R228, R229, R231, R235 to R238, R251, R258, R266: the behaviour of the drops on rings and buses, and their
power. (model choices: log entries 3, 21, 25, 97) -/
def Obligations.DropBehaviour : Prop :=
  ∀ (s : State) (id : Nat) (x : Station), tsorted s.stations = true → tget s.stations id = some x →
    (∀ up f ptp, x.powered = true → x.kind = .ring → (if up then x.linkUp else x.linkDown) = true →
      let rf := parseFrame f.bytes
      (macNat rf.src = x.mac → Idle (.dropFrameForward id up f ptp) s)
      ∧ (macNat rf.src ≠ x.mac → rf.ety ≠ 0x88F7 → DropBecomes (.dropFrameForward id up f ptp) s id (fun x =>
        { x with out := x.out ++ [.dropRing (if up then (if x.wrapDown then 1 else 2) else (if x.wrapUp then 2 else 1))
            { bytes := f.bytes, fcs := match f.fcs with | .good => .good | _ => .stomped }] })))
    ∧ (∀ up f ptp, x.powered = false → Idle (.dropFrameForward id up f ptp) s ∧ Idle (.dropSyncEvent id 0 0) s ∧ Idle (.dropHelloTimer id) s
        ∧ Idle (.dropOutputWatchdogExpiry id) s ∧ Idle (.dropOutAbsenceTimeout id) s ∧ Idle (.dropAssignReceive id f) s
        ∧ Idle (.dropLinkLoss id up) s ∧ Idle (.dropLinkStable id up) s)
    ∧ (∀ f t, x.powered = true → x.kind = .ring → x.assigned = true → f.fcs = .good →
      let rf := parseFrame f.bytes
      let d := dist32 rf.seq x.lastOut
      rf.ty = 1 → rf.ver = x.version → rf.drop = id → lenFits rf = true → ∃ u y, exec (.dropOutAccept id f t) s = .next u
        ∧ u = { s with stations := tset s.stations id y, fresh := s.fresh + 1 }
        ∧ ((d = 0 ∨ 65536 < d) → y = x)
        ∧ (1 ≤ d → d ≤ 65536 → y.lastOut = rf.seq
          ∧ (rf.time ≠ 0 → x.version = 2 → almDiff t rf.time < 0 →
            y.waitingOut = x.waitingOut ++ [(rf.time, rf.data, bit rf.flags 7)] ∧ y.outputs = x.outputs ∧ y.out = x.out)
          ∧ ((rf.time = 0 ∨ x.version = 1 ∨ 0 ≤ almDiff t rf.time) → y.inSeq = x.inSeq + 1
            ∧ (bit rf.flags 7 = false → y.outputs = rf.data ∧ y.inSafe = false)
            ∧ (bit rf.flags 7 = true → x.inSafe = true → y.outputs = x.outputs ∧ y.inSafe = true)
            ∧ (bit rf.flags 7 = true → x.inSafe = false → y.outputs = rf.data ∧ y.inSafe = false))))
    ∧ (∀ t data rest, x.powered = true → x.kind = .ring → x.waitingOut = (t, data, false) :: rest → ∃ y fr,
        exec (.dropApplyTime id) s = .next { s with stations := tset s.stations id y, fresh := s.fresh + 1 } ∧ y.waitingOut = rest
        ∧ y.outputs = data ∧ y.inSafe = false ∧ y.inSeq = x.inSeq + 1 ∧ y.out = x.out ++ [.dropDrive data, .dropRing 3 fr])
    ∧ (x.waitingOut = [] → exec (.dropApplyTime id) s = .next { s with stations := tset s.stations id x, fresh := s.fresh + 1 })
    ∧ (x.powered = true → x.inSafe = false → DropBecomes (.dropOutputWatchdogExpiry id) s id (fun x =>
        { x with inSafe := true, outputs := x.safe, out := x.out ++ [.dropDrive x.safe] }))
    ∧ (x.inSafe = true → Idle (.dropOutputWatchdogExpiry id) s)
    ∧ (x.powered = true → x.assigned = true →
      (x.kind = .ring → DropBecomes (.dropOutAbsenceTimeout id) s id (fun x =>
        { x with out := x.out ++ [.dropRing 3 (dropFrame x id 1 6 0 0 0 (helloData x))] }))
      ∧ (x.kind = .bus → DropBecomes (.dropOutAbsenceTimeout id) s id (fun x => { x with assigned := false, lastParts := [], helloDue := true })))
    ∧ (∀ f, x.powered = true → x.kind = .ring → f.fcs = .good →
      let rf := parseFrame f.bytes
      let v := byteAt rf.data 6
      rf.ty = 7 → rf.ver = 1 → rf.drop = id → 28 ≤ rf.data.length →
      (be rf.data 0 6 = x.mac → (v = 1 ∨ v = 2) → bit x.versions (v - 1) = true → ∃ y,
        exec (.dropAssignReceive id f) s = .next { s with stations := tset s.stations id y } ∧ y.assigned = true ∧ (∃ fr, y.out = x.out ++ [.dropRing 3 fr])
        ∧ (x.assigned = true → x.assign = rf.data → y = { x with out := y.out })
        ∧ (x.assigned = false ∨ x.assign ≠ rf.data → y.assign = rf.data ∧ y.version = v ∧ y.lastOut = w32 (be rf.data 8 4) - 1
          ∧ y.watchdog = be rf.data 20 4))
      ∧ (be rf.data 0 6 ≠ x.mac → Idle (.dropAssignReceive id f) s))
    ∧ (x.powered = true → x.kind = .ring → (x.linkUp = true ∨ x.linkDown = true) → (x.assigned = false ∨ x.wrapUp = true ∨ x.wrapDown = true) →
        DropBecomes (.dropHelloTimer id) s id (fun x => { x with out := x.out ++ [.dropRing 3 (dropFrame x id 1 6 0 0 0 (helloData x))] }))
    ∧ (∀ code t, x.powered = true →
      (x.kind = .ring → x.version = 1 → Idle (.dropSyncEvent id code t) s)
      ∧ (x.kind = .ring → x.version = 2 → ∃ fr, DropBecomes (.dropSyncEvent id code t) s id (fun x =>
        { x with lastEvent := x.lastEvent + 1, out := x.out ++ [.dropRing 3 fr] }) ∧ (parseFrame fr.bytes).seq = x.lastEvent + 1
          ∧ (parseFrame fr.bytes).time = t)
      ∧ (x.kind = .bus → DropBecomes (.dropSyncEvent id code t) s id (fun x => { x with lastEvent := x.lastEvent + 1, out := x.out ++ [.can x.segment
          { id := 0x080 + x.position, data := beBytes 2 ((x.lastEvent + 1).toNat % 65536) ++ beBytes 6 (t.toNat % 2 ^ 48) }] })))
    ∧ (x.powered = true → x.kind = .ring →
      DropBecomes (.dropLinkLoss id true) s id (fun x => { x with linkUp := false, wrapUp := true })
      ∧ DropBecomes (.dropLinkLoss id false) s id (fun x => { x with linkDown := false, wrapDown := true })
      ∧ DropBecomes (.dropLinkStable id true) s id (fun x => { x with linkUp := true, wrapUp := false })
      ∧ DropBecomes (.dropLinkStable id false) s id (fun x => { x with linkDown := true, wrapDown := false }))
    ∧ (∀ up down, ∃ y, exec (.dropPowerUp id up down) s = .next { s with stations := tset s.stations id y, fresh := s.fresh + 1 }
        ∧ y.powered = true ∧ y.assigned = false ∧ y.outputs = x.safe ∧ y.inSafe = true ∧ y.lastAcy = x.lastAcy
        ∧ (x.kind = .ring → y.wrapUp = !up ∧ y.wrapDown = !down))
    ∧ DropBecomes (.dropPowerLoss id) s id (fun x =>
        { x with powered := false, assigned := false, version := 0, assign := [], waitingOut := [], linkUp := false, linkDown := false
                 rowStart := none, unassigned := true, inSafe := true, outputs := [] })
    ∧ (∀ f, x.powered = true → x.kind = .bus → f.foreign = false → 8 ≤ f.data.length →
      (f.id = 0 → DropBecomes (.dropRowReceive id f) s id (fun x => { x with rowStart := some (w64 (be f.data 2 6)) }))
      ∧ (f.id ≠ 0 → Idle (.dropRowReceive id f) s))
    ∧ (∀ t, x.powered = true → x.kind = .bus → x.assigned = true → x.rowStart = some t → ∃ y fr,
        exec (.dropInSlotTime id) s = .next { s with stations := tset s.stations id y, fresh := s.fresh + 1 } ∧ y.inSeq = x.inSeq + 1
        ∧ y.rowStart = none ∧ y.out = x.out ++ [.can x.segment fr] ∧ fr.id = 0x200 + x.position)

/-- R259, R260, R263, R266: a gen-0 drop answers each request addressed to it, applies newer outputs once it was started, and applies a
message once. (model choices: log entries 3, 21, 97) -/
def Obligations.LineDropBehaviour : Prop :=
  ∀ (s : State) (id : Nat) (x : Station) (bytes : Bytes) (a func : Nat) (data : Bytes), tsorted s.stations = true →
    tget s.stations id = some x → x.powered = true → x.kind = .line → lineParse bytes = some (a, func, data) →
    ((128 ≤ a ∨ a % 32 ≠ x.position % 32) → exec (.lineDropRequestReceive id bytes) s = .next { s with stations := tset s.stations id x, fresh := s.fresh + 1 })
    ∧ (a < 128 → a % 32 = x.position % 32 → ∃ y, exec (.lineDropRequestReceive id bytes) s = .next { s with stations := tset s.stations id y, fresh := s.fresh + 1 }
      ∧ (func = 0x10 → 3 ≤ data.length →
        let seq := be data 0 2
        let d := (seq + 65536 - x.lastOut.toNat % 65536) % 65536
        (x.unassigned = false → 1 ≤ d → d ≤ 32767 → y.lastOut = w32 seq
          ∧ (bit (be data 2 1) 7 = false → y.outputs = data.drop 3 ∧ y.inSafe = false))
        ∧ ((x.unassigned = true ∨ d = 0 ∨ 32767 < d) → y.lastOut = x.lastOut ∧ y.outputs = x.outputs)
        ∧ ∃ l b, y.out = l ++ [.line x.segment b] ∧ be b 1 1 = 0x11 ∧ be b 3 2 = seq)
      ∧ (func = 0x16 → 4 ≤ data.length → y.unassigned = false ∧ y.lastOut = w32 ((be data 0 2 + 65535) % 65536) ∧ y.watchdog = 1000 * be data 2 2
        ∧ ∃ b, y.out = x.out ++ [.line x.segment b] ∧ be b 1 1 = 0x11)
      ∧ (func = 0x12 → 3 ≤ data.length →
        let next := (be data 0 1 + 256 - x.lastAcy.toNat % 256) % 256
        (next = 1 → y.lastAcy = x.lastAcy + 1) ∧ (next ≠ 1 → y.lastAcy = x.lastAcy ∧ y.applied = x.applied)
        ∧ ∃ b, y.out = x.out ++ [.line x.segment b] ∧ be b 1 1 = 0x13)
      ∧ (func = 0x14 → ∃ b, y.out = x.out ++ [.line x.segment b] ∧ be b 1 1 = 0x15 ∧ { y with out := x.out } = x)
      ∧ (func ≠ 0x10 → func ≠ 0x12 → func ≠ 0x14 → func ≠ 0x16 → y = x))

/-! ### Buses and lines -/

/-- R249 to R252, R255 to R258, R266, R267: the slots of a bus row, the results of transmissions, what a bus delivers and the end of a row.
(model choices: log entries 16, 25, 97) -/
def Obligations.BusEvents : Prop :=
  ∀ (s : State) (sl : Slot) (bus : Nat) (b : Bus),
    let m := modOf s sl
    let p := modOf s (otherSlot sl)
    let next := busMod m bus (fun b => { b with slot := b.slot + 1 })
    (busOf m bus = none → Idle (.busSlotStart sl bus) s ∧ Idle (.busRowEnd sl bus false) s ∧ ∀ r, Idle (.canTxResult sl bus r) s)
    ∧ (busOf m bus = some b → (b.cycling = false ∨ sends m = false) → Idle (.busSlotStart sl bus) s)
    ∧ (∀ e, busOf m bus = some b → b.cycling = true → sends m = true → (rowSlots (b.rows.getD b.row []))[b.slot]? = some e →
      let gives (f : CanFrame) (tx : Nat × Nat × W32 × Bool × Bytes) : Prop := ∃ m', Becomes (.busSlotStart sl bus) s sl m'
        ∧ m'.out = m.out ++ [.can bus f] ∧ ∃ b', busOf m' bus = some b' ∧ b'.slot = b.slot + 1 ∧ b'.txNow = some tx ∧ b'.cycling = true
      (e.kind = 1 → b.busOff = false → (m.pair.mode = .inStep ∨ isLead m = true) →
        gives { id := 0, data := beBytes 1 (b.row % 16) ++ zeros 1 ++ beBytes 6 (b.rowStart.toNat % 2 ^ 48) } (0, 0, 0, false, []))
      ∧ (∀ d, (e.kind = 2 ∧ m.slot = .a ∨ e.kind = 3 ∧ m.slot = .b) → nodeDrop m bus e.node = some d → d.st = .online → d.task.isSome = true →
        e.part < d.parts → sendsFor m d = true →
        let data := (d.lastData.drop (partStride d * e.part)).take (perPart d)
        (b.busOff = false → gives
          { id := 0x180 + 64 * slotN m.slot + e.node, data := canData d.fd (beBytes 4 d.lastSeq.toNat
              ++ beBytes 1 (128 * b2n d.lastStale + 64 * slotN m.slot + 16 * e.part) ++ zeros 1 ++ data) } (e.node, e.part, d.lastSeq, true, data))
        ∧ (b.busOff = true → ∃ m', Becomes (.busSlotStart sl bus) s sl m' ∧ m'.out = m.out ∧ ∃ b', busOf m' bus = some b'
          ∧ b'.notSent = inc32 b.notSent ∧ b'.failed = b.failed ++ [(e.node, e.part, d.lastSeq)]))
      ∧ (∀ id a d, (e.kind = 5 ∧ m.slot = .a ∨ e.kind = 6 ∧ m.slot = .b) → warmShadow m = false → b.busOff = false →
        acyPick (acyCandidates m .bus bus) = some (id, a) → dropOf m id = some d → gives
          { id := 0x100 + 64 * slotN m.slot + d.position, data := canData d.fd (beBytes 1 (a.seq.toNat % 256) ++ beBytes 2 a.cls.toNat
              ++ beBytes 1 a.payload.length ++ a.payload) } (d.position, 0, a.seq, false, []))
      ∧ (∀ n rest d, e.kind = 7 → b.busOff = false → b.assignNodes = n :: rest → isLead m = true → m.pair.window = false → nodeDrop m bus n = some d →
        gives { id := 0x280 + n, data := beBytes 4 d.outSeq.toNat ++ beBytes 2 (busInOffset b n) ++ beBytes 2 (ceilDiv d.watchdog 1000) }
          (n, 0, 0, false, []))
      ∧ ((e.kind = 2 ∧ m.slot = .b ∨ e.kind = 3 ∧ m.slot = .a ∨ e.kind = 4 ∨ e.kind = 7 ∧ b.assignNodes = []) →
        Becomes (.busSlotStart sl bus) s sl next))
    ∧ (∀ r node part seq isOut data, busOf m bus = some b → b.txNow = some (node, part, seq, isOut, data) →
      ∃ m' b', Becomes (.canTxResult sl bus r) s sl m' ∧ busOf m' bus = some b' ∧ b'.txNow = none ∧ b'.tec = tecAfter b.tec r
        ∧ (b'.busOff = true ↔ b.busOff = true ∨ 255 < tecAfter b.tec r)
        ∧ (r = .ok → isOut = true → tget b'.sentOk (node * 4 + part) = some (seq, data) ∧ b'.failed = b.failed)
        ∧ (r ≠ .ok → isOut = true → b'.failed = b.failed ++ [(node, part, seq)])
        ∧ (r = .arbLost → b'.arbLost = inc32 b.arbLost) ∧ (r = .bitError → b'.bitError = inc32 b.bitError)
        ∧ (r = .stuffForm → b'.stuffForm = inc32 b.stuffForm) ∧ (r = .ackError → b'.ackError = inc32 b.ackError)
        ∧ (r = .errorFrame → b'.errorFrame = inc32 b.errorFrame) ∧ (r = .notSent → b'.notSent = inc32 b.notSent))
    ∧ (∀ r, busOf m bus = some b → b.txNow = none → Idle (.canTxResult sl bus r) s)
    ∧ (∀ f, busOf m bus = some b → fw m = true → (f.foreign = true ∨ canAssigned f.id = false) →
      let m' := busMod m bus (fun b => { b with foreign := inc32 b.foreign })
      Becomes (.canInReceive sl bus f) s sl m' ∧ Becomes (.canPartnerOutReceive sl bus f) s sl m' ∧ Becomes (.canHelloReceive sl bus f) s sl m'
      ∧ Becomes (.canSyncReceive sl bus f) s sl m')
    ∧ (∀ f n d, busOf m bus = some b → fw m = true → f.foreign = false → n < 64 → nodeDrop m bus n = some d → d.kind = .bus → d.segment = bus →
      let id := 0x80 + 64 * bus + n
      (f.id = 0x200 + n → 6 + d.inLen ≤ f.data.length → d.acyPending = [] → d.held = none → Becomes (.canInReceive sl bus f) s sl
        (dropMod m id (fun d => { d with held := some { key := w32 (be f.data 0 4), time := now m
                                                        data := [BitVec.ofNat 8 (be f.data 4 1 / 64 * 64), 0] ++ (f.data.drop 6).take d.inLen } })))
      ∧ (f.id = 0x180 + 64 * slotN (otherSlot m.slot) + n → 6 + perPart d ≤ f.data.length → ∃ m' b', Becomes (.canPartnerOutReceive sl bus f) s sl m'
        ∧ busOf m' bus = some b'
        ∧ tget b'.shadowRx (n * 4 + field (be f.data 4 1) 5 4) = some (w32 (be f.data 0 4), (f.data.drop 6).take (perPart d)))
      ∧ (f.id = 0x300 + n → 8 ≤ f.data.length → isLead m = true → (d.st = .absent ∨ d.st = .offline) → ∃ m' d' b',
          Becomes (.canHelloReceive sl bus f) s sl m' ∧ dropOf m' id = some d' ∧ d'.st = .negotiating ∧ d'.assigning = true ∧ d'.version = 1
          ∧ busOf m' bus = some b' ∧ d.position ∈ b'.assignNodes)
      ∧ (f.id = 0x300 + n → 8 ≤ f.data.length → isLead m = false → ∃ m' d', Becomes (.canHelloReceive sl bus f) s sl m' ∧ dropOf m' id = some d'
          ∧ d'.st = d.st ∧ d'.channels = be f.data 2 2)
      ∧ (∀ last, f.id = 0x080 + n → 8 ≤ f.data.length → d.lastEvent = some last →
        let k := (be f.data 0 2 + 65536 - last.toNat % 65536) % 65536
        (icalNamed m id = false → Becomes (.canSyncReceive sl bus f) s sl (dropMod m id (fun d => { d with syncIgnored := inc32 d.syncIgnored })))
        ∧ (icalNamed m id = true → 1 ≤ k → k ≤ 32767 → Becomes (.canSyncReceive sl bus f) s sl
          (icalDropEvent (dropMod m id (fun d => { d with lastEvent := some (w32 (be f.data 0 2)) })) p id (extend48 (now m) (be f.data 2 6))))
        ∧ (icalNamed m id = true → 32767 < k → Idle (.canSyncReceive sl bus f) s)))
    ∧ (∀ cut, busOf m bus = some b → b.cycling = false → Idle (.busRowEnd sl bus cut) s)
    ∧ (∀ cut, busOf m bus = some b → b.cycling = true →
      let uncovered := b.failed.filter (fun x => match tget b.shadowRx (x.1 * 4 + x.2.1) with | some y => y.1 != x.2.2 | none => true)
      ∃ m' b', Becomes (.busRowEnd sl bus cut) s sl m' ∧ busOf m' bus = some b' ∧ b'.cycling = false ∧ b'.failed = [] ∧ b'.sentOk = []
        ∧ b'.rowCut = (if cut then inc32 b.rowCut else b.rowCut)
        ∧ ((isLead m = false ∨ uncovered = []) → b'.outMissed = b.outMissed ∧ m'.chron = m.chron)
        ∧ (∀ x, isLead m = true → uncovered = [x] → b'.outMissed = inc32 b.outMissed))
    ∧ (m.field.buses[bus]? = some b → ∃ m', Becomes (.busOffRecovery sl bus) s sl m'
        ∧ m'.field.buses[bus]? = some (if b.busOff then { b with busOff := false, tec := 0 } else b))

/-- R259 to R263, R266, R267: the slots of a poll cycle, the takeover by an in-step shadow, replies and their absence. (model choices: log
entries 25, 97) -/
def Obligations.LineEvents : Prop :=
  ∀ (s : State) (sl : Slot) (line : Nat) (l : Line),
    let m := modOf s sl
    (lineOf m line = none → Idle (.lineSlotStart sl line) s ∧ Idle (.lineTakeover sl line) s ∧ ∀ b g, Idle (.lineReplyReceive sl line b g) s)
    ∧ (∀ kind addr rest, lineOf m line = some l → l.slots = (kind, addr) :: rest → sends m = true →
      let l' : Line := { l with slots := rest, awaiting := none, request := [], startSeen := false }
      (lineRequest m line kind addr = none → ∃ m', Becomes (.lineSlotStart sl line) s sl m' ∧ m'.out = m.out ∧ lineOf m' line = some l')
      ∧ (∀ a d func data acy, lineRequest m line kind addr = some (a, d, func, data, acy) →
        (isLead m = true → m.pair.window = false → ∃ m', Becomes (.lineSlotStart sl line) s sl m'
          ∧ m'.out = m.out ++ [.line line (lineFrame m.slot a func data)] ∧ lineOf m' line = some { l' with awaiting := some (func, a) })
        ∧ (isLead m = false → m.pair.mode = .inStep → leadOnlyDrop m d = false → ∃ m', Becomes (.lineSlotStart sl line) s sl m' ∧ m'.out = m.out
          ∧ lineOf m' line = some { l' with request := beBytes 1 a ++ beBytes 1 func ++ data, awaiting := some (func, a) })))
    ∧ (∀ addr d, lineDrop m line addr = some d → d.st = .online → lineRequest m line 0 addr =
        some (addr, d, 0x10, beBytes 2 (d.lastSeq.toNat % 65536) ++ beBytes 1 (128 * b2n d.lastStale) ++ d.lastData, none))
    ∧ (lineOf m line = some l → (sends m = false ∨ isLead m = true ∨ m.pair.mode ≠ .inStep ∨ l.request = [] ∨ l.startSeen = true) →
        Idle (.lineTakeover sl line) s)
    ∧ (lineOf m line = some l → sends m = true → isLead m = false → m.pair.mode = .inStep → l.request ≠ [] → l.startSeen = false → ∃ m' l',
        Becomes (.lineTakeover sl line) s sl m' ∧ lineOf m' line = some l' ∧ l'.takeover = inc32 l.takeover
        ∧ l'.awaiting = some (byteAt l.request 1, byteAt l.request 0) ∧ l'.request = []
        ∧ m'.out = m.out ++ [.line line (lineFrame m.slot (byteAt l.request 0) (byteAt l.request 1) (l.request.drop 2))])
    ∧ (∀ bytes good, lineOf m line = some l → fw m = true → (good = false ∨ lineParse bytes = none) → ∃ m', Becomes (.lineReplyReceive sl line bytes good) s sl m'
        ∧ lineOf m' line = some { l with startSeen := true, lineError := inc32 l.lineError })
    ∧ (∀ bytes a func data req d, lineOf m line = some l → fw m = true → lineParse bytes = some (a, func, data) → 128 ≤ a →
        l.awaiting = some (req, a % 32) → lineDrop m line (a % 32) = some d → d.st = .online → d.acyPending = [] →
      let id := 32 * line + a % 32
      let m0 := lineMod (lineMod m line (fun l => { l with startSeen := true })) line (fun l => { l with awaiting := none })
      (func = 0x11 → req = 0x10 → 4 + d.inLen ≤ data.length → bit (be data 2 1) 5 = false → d.held = none →
        Becomes (.lineReplyReceive sl line bytes true) s sl (dropMod m0 id (fun d =>
          { d with held := some { key := extend16 d.lastSeq (be data 0 2), time := now m
                                  data := [BitVec.ofNat 8 (be data 2 1 / 64 * 64), 0] ++ (data.drop 4).take d.inLen } })))
      ∧ (func = 0x11 → req = 0x10 → 4 + d.inLen ≤ data.length → bit (be data 2 1) 5 = true → isLead m = true → ∃ m' d',
        Becomes (.lineReplyReceive sl line bytes true) s sl m' ∧ dropOf m' id = some d' ∧ d'.st = .negotiating ∧ d'.assigning = true))
    ∧ (m.field.lines[line]? = some l → ∃ m', Becomes (.lineReplyTimeout sl line) s sl m' ∧ m'.field.lines[line]? = some
        (if l.awaiting.isSome then { l with awaiting := none, replyMissing := inc32 l.replyMissing } else l))

/-! ### Time and Chronicle -/

/-- R143, R241, R293, R296 to R299, R302, R303, R305, R307, R308: steps of time, the BAR0 window, PPS and PTP. (model choices: log entries
3, 17, 18, 19, 25) -/
def Obligations.TimeEvents : Prop :=
  ∀ (s : State) (sl : Slot),
    let m := modOf s sl
    let gives (i : Instr) (P : Module → Prop) : Prop := ∃ m', Becomes i s sl m' ∧ P m'
    let free (i : Instr) (P : Module → Prop) : Prop := ∃ m', exec i s = .next { withMod s sl m' with fresh := s.fresh + 1 } ∧ P m'
    (∀ a d g, powered m = true → m.alm.sched = some (a, d, g) →
      (almGe (now m) a = true → gives (.timeStepApply sl) (fun m' => m'.alm.t = m.alm.t + d ∧ m'.alm.sched = none ∧ m'.alm.frac = m.alm.frac
        ∧ (d ≠ 0 → m'.alm.steps = inc32 m.alm.steps ∧ m'.alm.lastStep = now m + d
          ∧ ∀ k x, taskOf m k = some x → ∃ x', taskOf m' k = some x' ∧ x'.next = x.next + d ∧ x'.lastReleased = x.lastReleased.map (· + d))
        ∧ (d ≠ 0 → fw m = true → isLead m = true → ∃ e ∈ m'.chron.pendingRecs, e.code = 0x0601 ∧ le e.data 0 8 = (now m).toNat)))
      ∧ (almGe (now m) a = false → Idle (.timeStepApply sl) s))
    ∧ (m.alm.sched = none → Idle (.timeStepApply sl) s)
    ∧ (bar0Up m = true → Becomes (.almCapture sl true) s sl { m with alm := { m.alm with snap := m.alm.t, capCount := m.alm.capCount + 1 } }
        ∧ Idle (.almCapture sl false) s)
    ∧ (bar0Up m = false → Idle (.almCapture sl true) s)
    ∧ (∀ v : W32, bar0Up m = true →
      ((field v.toNat 31 16 ≠ 0xA1A5 ∨ v.getLsbD 0 = false) → Idle (.almStep sl v) s)
      ∧ (field v.toNat 31 16 = 0xA1A5 → v.getLsbD 0 = true →
        (mayBar0Step m = true → Becomes (.almStep sl v) s sl { m with alm := { m.alm with bar0Step := some (v.getLsbD 1, m.alm.stage) } })
        ∧ (mayBar0Step m = false → Becomes (.almStep sl v) s sl { m with alm := { m.alm with stepIgn := true } })))
    ∧ (∀ rel v, m.alm.bar0Step = some (rel, v) → powered m = true →
        gives (.bar0StepLand sl) (fun m' => m'.alm.t = (if rel then m.alm.t + v else v) ∧ m'.alm.bar0Step = none))
    ∧ (m.alm.bar0Step = none → Idle (.bar0StepLand sl) s)
    ∧ (∀ t, (fw m = false ∨ m.alm.ppsInOn = false) → free (.ppsInEdge sl t) (fun m' => m' = m))
    ∧ (∀ t, fw m = true → m.alm.ppsInOn = true →
      let glitch : Prop := ∃ l, m.alm.ppsLast = some l ∧ (almDiff t l).natAbs < 500000000
      let r := t.toNat % 1000000000
      (glitch → free (.ppsInEdge sl t) (fun m' => m' = { m with alm := { m.alm with ppsOutliers := inc32 m.alm.ppsOutliers } }))
      ∧ (¬ glitch → (isLead m = false ∨ m.alm.cfgSource ≠ 2) →
        free (.ppsInEdge sl t) (fun m' => m' = { m with alm := { m.alm with ppsLast := some t, ppsPresent := true } }))
      ∧ (¬ glitch → isLead m = true → m.alm.cfgSource = 2 → m.pair.window = false →
        (1000000 < r → r < 999000000 → free (.ppsInEdge sl t) (fun m' => m'.alm.t = m.alm.t ∧ m'.alm.adj = m.alm.adj ∧ m'.alm.source = m.alm.source
          ∧ m'.alm.ppsOutliers = inc32 m.alm.ppsOutliers ∧ m'.alm.ppsLast = some t))
        ∧ (r ≤ 1000000 → (m.alm.stepLimit = 0 ∨ r ≤ m.alm.stepLimit) → free (.ppsInEdge sl t) (fun m' => m'.alm.source = 3 ∧ m'.alm.locked = true
          ∧ m'.alm.offset = r ∧ m'.alm.sched = m.alm.sched ∧ m'.alm.t = m.alm.t))
        ∧ (r ≤ 1000000 → m.alm.stepLimit ≠ 0 → m.alm.stepLimit < r → m.alm.sched = none → free (.ppsInEdge sl t) (fun m' =>
          m'.alm.source = 3 ∧ m'.alm.locked = true ∧ m'.alm.adj = m.alm.adj ∧ m'.alm.t = m.alm.t
          ∧ ∃ a, m'.alm.sched = some (a, 0 - w64 r, 2) ∧ ((now m).toNat < 2 ^ 63 → a.toNat % 100000 = 0)))))
    ∧ (fw m = true → m.alm.ppsInOn = true →
      ((isLead m = false ∨ m.alm.source ≠ 3) → Becomes (.ppsInMissing sl) s sl { m with alm := { m.alm with ppsPresent := false } })
      ∧ (isLead m = true → m.alm.source = 3 →
        gives (.ppsInMissing sl) (fun m' => m'.alm.source = 4 ∧ m'.alm.locked = false ∧ m'.alm.ppsPresent = false ∧ m'.alm.t = m.alm.t)))
    ∧ (fw m = true → m.alm.ppsOutOn = true → m.alm.ppsOut = false →
      ((now m).toNat % 1000000000 < 5 → gives (.ppsOutRise sl) (fun m' => m'.alm.ppsOut = true ∧ m'.out = m.out ++ [.pps true]))
      ∧ (5 ≤ (now m).toNat % 1000000000 → Idle (.ppsOutRise sl) s))
    ∧ (fw m = true → m.alm.ppsOut = true → gives (.ppsOutFall sl) (fun m' => m'.alm.ppsOut = false ∧ m'.out = m.out ++ [.pps false]))
    ∧ (m.alm.ppsOut = false → Idle (.ppsOutFall sl) s)
    ∧ (∀ msg, (isLead m = false ∨ m.alm.role = 0 ∨ m.alm.role = 2) → free (.ptpMessageReceive sl msg) (fun m' => m' = m))
    ∧ (∀ gm, fw m = true → isLead m = true → (m.alm.role = 1 ∨ m.alm.role = 3) → m.alm.port1 ≠ 9 →
        free (.ptpMessageReceive sl { port := 1, announce := some gm }) (fun m' =>
          m' = { m with alm := { m.alm with port1 := 8, gmId := gm } }))
    ∧ (∀ off delay, fw m = true → isLead m = true → (m.alm.role = 1 ∨ m.alm.role = 3) → (m.alm.port2 = 8 ∨ m.alm.port2 = 9) →
        free (.ptpMessageReceive sl { port := 2, offset := some (off, delay) }) (fun m' => m'.alm.port2 = 9 ∧ m'.alm.pathDelay = delay
          ∧ m'.alm.offset = off ∧ (m.alm.cfgSource = 1 → m.pair.window = false → m'.alm.source = 2 ∧ m'.alm.locked = true)
          ∧ (m.alm.cfgSource ≠ 1 → m'.alm.source = m.alm.source ∧ m'.alm.adj = m.alm.adj)))
    ∧ (∀ port, fw m = true → isLead m = true → (port = 1 ∨ port = 2) →
      (portState m port = 8 → Becomes (.ptpAnnounceTimeout sl port) s sl (setPort m port (if m.alm.role = 3 then 6 else 4)))
      ∧ (portState m port = 9 → m.alm.source = 2 → gives (.ptpAnnounceTimeout sl port) (fun m' => m'.alm.source = 4 ∧ m'.alm.locked = false
        ∧ portState m' port = if m.alm.role = 3 then 6 else 4))
      ∧ (portState m port ≠ 8 → portState m port ≠ 9 → Idle (.ptpAnnounceTimeout sl port) s))
    ∧ (∀ port, hostMaster m port = false → Idle (.hostPtpSyncSend sl port) s)
    ∧ (∀ port, hostMaster m port = true → gives (.hostPtpSyncSend sl port) (fun m' => .ptp 0 port (now m) ∈ m'.out
        ∧ (m.alm.twoStep = false → m.chron = m'.chron → m'.out = m.out ++ [.ptp 0 port (now m)])
        ∧ (m.alm.twoStep = true → (txStamp m (15 + port)).2 = true → m'.out = m.out ++ [.ptp 0 port (now m), .ptp 4 port (now m)])))
    ∧ (fw m = true → isLead m = true → m.pair.window = true → Becomes (.holdoverEnd sl) s sl
        { m with pair := { m.pair with window := false }, alm := { m.alm with source := if m.alm.cfgSource = 0 then 0 else m.alm.cfgSource + 1, locked := false } })
    ∧ (m.pair.window = false → Idle (.holdoverEnd sl) s)
    ∧ (fw m = true → isLead m = true → m.pair.window = false → gives (.ptpAnnounceSend sl) (fun m' => ∃ es, m'.out = m.out ++ es ∧ ∀ e ∈ es,
        ∃ port, e = .ptp 1 port (now m) ∧ (port = 1 ∧ m.alm.port1 = 6 ∨ port = 2 ∧ m.alm.port2 = 6 ∨ sends m = true ∧ 3 ≤ port ∧ ringRuns m (port - 3) = true)))
    ∧ (isLead m = false → Idle (.ptpAnnounceSend sl) s)
    ∧ (∀ port, fw m = true → isLead m = true → m.pair.window = false → (port = 1 ∨ port = 2) →
      ((portState m port = 8 ∨ portState m port = 9) →
        gives (.ptpDelayReqSend sl port) (fun m' => .ptp (if m.alm.p2p then 3 else 2) port (now m) ∈ m'.out))
      ∧ (portState m port ≠ 8 → portState m port ≠ 9 → Idle (.ptpDelayReqSend sl port) s))

/-- R294: at power-good T, ADJ and SOURCE are 0; a module reset (by MRESET_N, the Lantern watchdog or BOOT_RESET) keeps T with its fraction
and ADJ and sets SOURCE to 0; before READY no PPS edge, PTP message or time message of the partner disciplines the Almanac, and from READY
on they do. -/
def Obligations.AlmanacResetRule : Prop :=
  ∀ (s : State) (sl : Slot),
    let m := modOf s sl
    (m.power.phase = .ramping → ∃ m', Becomes (.powerGood sl) s sl m' ∧ m'.alm.t = 0 ∧ m'.alm.adj = 0 ∧ m'.alm.source = 0)
    ∧ (∀ i, hasPower m = true → powered m = true →
      (i = .mreset sl ∨ i = .lanternWatchdogExpiry sl ∨ (i = .bootReset sl 0x0000A5C3 ∧ bar0Writes m = true)) →
      ∃ m', Becomes i s sl m' ∧ m'.alm.t = m.alm.t ∧ m'.alm.frac = m.alm.frac ∧ m'.alm.adj = m.alm.adj ∧ m'.alm.source = 0)
    ∧ (∀ t msg adj, fw m = false → ∀ i ∈ [Instr.ppsInEdge sl t, .ptpMessageReceive sl msg, .syncTimeReceive sl t adj],
      exec i s = .next { s with fresh := s.fresh + 1 })
    ∧ (∀ t, fw m = true → isLead m = true → m.pair.window = false → m.alm.ppsInOn = true → m.alm.cfgSource = 2 → m.alm.stepLimit = 0 →
      (∀ l, m.alm.ppsLast = some l → 500000000 ≤ (almDiff t l).natAbs) → t.toNat % 1000000000 ≤ 1000000 →
      ∃ m', exec (.ppsInEdge sl t) s = .next { withMod s sl m' with fresh := s.fresh + 1 } ∧ m'.alm.source = 3 ∧ m'.alm.locked = true)

/-- R309 to R313: a pending record gets the next sequence number, a mirror and its place; a run of suppressions ends with its summary.
(model choices: log entries 25, 84) -/
def Obligations.ChronicleEvents : Prop :=
  ∀ (s : State) (sl : Slot),
    let m := modOf s sl
    ((fw m = false ∨ m.chron.pendingRecs = []) → Idle (.chronicleRecordWrite sl) s)
    ∧ (∀ e rest, fw m = true → m.chron.pendingRecs = e :: rest →
      ((isLead m = true ∨ writesLocal m = true) → ∃ m' r, Becomes (.chronicleRecordWrite sl) s sl m' ∧ m'.chron.pendingRecs = rest
        ∧ m'.chron.lastSeq = m.chron.lastSeq + 1 ∧ r ∈ m'.chron.recs ∧ r.seq = m.chron.lastSeq + 1 ∧ r.ev = e ∧ r.leadEpoch = m.pair.leadEpoch
        ∧ r.localFlag = writesLocal m
        ∧ (∀ x ∈ m.chron.recs, x.seq < r.seq → r.seq < x.seq + 524288 → x ∈ m'.chron.recs)
        ∧ (∀ x ∈ m.chron.recs, x.seq + 524288 = r.seq → x ∉ m'.chron.recs)
        ∧ (isLead m = true → mirrors m = true → m'.out = m.out ++ [.sync (.chronicle r)] ∧ m'.chron.unacked = m.chron.unacked ++ [r.seq])
        ∧ ((isLead m = false ∨ mirrors m = false) → m'.out = m.out ∧ m'.chron.unacked = m.chron.unacked))
      ∧ (isLead m = false → writesLocal m = false → ∃ m', Becomes (.chronicleRecordWrite sl) s sl m' ∧ m'.chron.pendingRecs = rest
        ∧ m'.chron.recs = m.chron.recs ∧ m'.out = m.out ++ [.sync (.shadowEvent e)]))
    ∧ (∀ code, fw m = true → tget m.chron.runs code = none → Idle (.summaryTimeout sl code) s)
    ∧ (∀ code r, fw m = true → tsorted m.chron.runs = true → tget m.chron.runs code = some r → ∃ m' e, Becomes (.summaryTimeout sl code) s sl m'
        ∧ tget m'.chron.runs code = none ∧ m'.chron.pendingRecs = m.chron.pendingRecs ++ [e] ∧ e.code = 1 ∧ le e.data 0 2 = code % 65536
        ∧ le e.data 4 4 = sat32 r.count ∧ le e.data 8 8 = r.firstT.toNat ∧ le e.data 16 8 = r.lastT.toNat)
    ∧ (∀ e, exemptCode e.code = true → queueEvent m e = { m with chron := { m.chron with pendingRecs := m.chron.pendingRecs ++ [e] } })
    ∧ (∀ e, permitted m e = false → (queueEvent m e).chron.pendingRecs = m.chron.pendingRecs
        ∧ (queueEvent m e).chron.suppressed = inc32 m.chron.suppressed
        ∧ ∃ r, tget (queueEvent m e).chron.runs e.code = some r ∧ r.lastT = e.time)

/-! ### The host interface -/

/-- R59 to R62, R64 to R67, R69 to R73, R76, R81, R91: attaching and detaching, the doorbells, the anchor page, the fetch of a descriptor by
its checks and its ticket, and the posting of completions. (model choices: log entries 5, 25, 28, 29, 70, 79) -/
def Obligations.MailboxEvents : Prop :=
  ∀ (s : State) (sl : Slot),
    let m := modOf s sl
    let p := modOf s (otherSlot sl)
    let gives (i : Instr) (P : Module → Prop) : Prop := ∃ m', Becomes i s sl m' ∧ P m'
    let free (i : Instr) (P : Module → Prop) : Prop := ∃ m', exec i s = .next { withMod s sl m' with fresh := s.fresh + 1 } ∧ P m'
    (∀ page, (fw m = false ∨ attached m = true) → Idle (.attach sl page) s)
    ∧ (∀ a, fw m = true → attached m = false → anchorCode (some a) = 1 → gives (.attach sl (some a)) (fun m' =>
        tget m'.mail.qps 0 = some { st := .opened, vector := a.vec, sqBase := a.sqBase, cqBase := a.cqBase, sqSize := a.sqSize, cqSize := a.cqSize }
        ∧ m'.mail.anchorStatus = 1 ∧ m'.mail.hostTag = a.hostTag ∧ m'.mail.anchorAddr = rendezvous m.mail ∧ m'.mail.heartbeat = now m
        ∧ m'.mail.gen = m.mail.gen + 2))
    ∧ (∀ page, fw m = true → attached m = false → anchorCode page ≠ 1 → gives (.attach sl page) (fun m' => m'.mail.qps = m.mail.qps
        ∧ m'.mail.anchorStatus = anchorCode page ∧ m'.mail.gen = m.mail.gen + 2))
    ∧ (∀ a : AnchorPage, anchorCode none = 4 ∧ ((sqSizeOk a.sqSize = false ∨ cqSizeOk a.cqSize = false) → anchorCode (some a) = 2)
        ∧ (sqSizeOk a.sqSize = true → cqSizeOk a.cqSize = true → (a.sqBase.toNat % 4096 ≠ 0 ∨ a.cqBase.toNat % 4096 ≠ 0) → anchorCode (some a) = 3))
    ∧ (fw m = true → attached m = true → gives (.detach sl) (fun m' => (∀ x ∈ m'.mail.qps, x.2.udp = true) ∧ m'.boot.pulling = false
        ∧ m'.mail.tickets = m.mail.tickets ∧ (∀ e ∈ m.mail.journal, e.accepted = true → e ∈ m'.mail.journal)))
    ∧ ((fw m = false ∨ attached m = false) → Idle (.detach sl) s)
    ∧ (fw m = true → bar0Writes m = true → attached m = true → exec (.doorbellCqHead sl 0 0xDE7A) s = exec (.detach sl) s)
    ∧ (∀ n q v, fw m = true → bar0Writes m = true → attached m = true → tget m.mail.qps n = some q → q.udp = false →
      gives (.doorbellSqTail sl n v) (fun m' => tget m'.mail.qps n = some { q with sqTail := v.toNat })
      ∧ (n ≠ 0 ∨ v ≠ 0xDE7A → gives (.doorbellCqHead sl n v) (fun m' => tget m'.mail.qps n = some { q with cqHead := v.toNat })))
    ∧ (∀ v, fw m = true → bar0Writes m = true → attached m = false →
      Becomes (.doorbellSqTail sl 0 v) s sl { m with mail := { m.mail with r0Tail := v } }
      ∧ Becomes (.doorbellCqHead sl 0 v) s sl { m with mail := { m.mail with r0Head := v } }
      ∧ Becomes (.doorbellSqTail sl 1 v) s sl { m with mail := { m.mail with r1Tail := v } }
      ∧ Becomes (.doorbellCqHead sl 1 v) s sl { m with mail := { m.mail with r1Head := v } }
      ∧ Becomes (.doorbellSqTail sl 2 v) s sl { m with mail := { m.mail with r2Tail := v } })
    ∧ (fw m = true → attached m = true → gives (.anchorHeartbeat sl) (fun m' => m'.mail.heartbeat = now m ∧ m'.mail.gen = m.mail.gen + 2
        ∧ m'.out = m.out ++ [.anchor (anchorBlock m')]))
    ∧ ((fw m = false ∨ attached m = false) → Idle (.anchorHeartbeat sl) s)
    ∧ (∀ qp d req, mayFetch m qp d = false → free (.descriptorFetch sl qp d req) (fun m' => m' = m) ∧ free (.requestDmaTimeout sl qp d) (fun m' => m' = m))
    ∧ (∀ qp d q, mayFetch m qp d = true → tget m.mail.qps qp = some q → d.flags.getLsbD 0 = false →
      (∀ data sc, fetchCheck m qp false d = none → catalog d.code.toNat = some (.work, sc) →
        (ticketFind m qp d.ticket = none → journalFind m qp d.ticket = none →
            (tget m.mail.highest qp = none ∨ ∃ h, tget m.mail.highest qp = some h ∧ h.toNat < d.ticket.toNat) →
          free (.descriptorFetch sl qp d (some data)) (fun m' => (∃ e, journalFind m' qp d.ticket = some e ∧ e.d = d ∧ e.req = data
              ∧ (linked m p = true → m.pair.partnerInSet = true → e.accepted = false))
            ∧ (linked m p = true → m.pair.partnerInSet = true → .sync (.journal qp d data none) ∈ m'.out)))
        ∧ (∀ r, ticketFind m qp d.ticket = some r → r.stage ≠ 2 → r.status ≠ 5 → free (.descriptorFetch sl qp d (some data)) (fun m' =>
            m'.mail.journal = m.mail.journal ∧ m'.mail.tickets = m.mail.tickets ∧ ∃ q' c, tget m'.mail.qps qp = some q' ∧ q'.held = q.held ++ [c]
            ∧ c.ticket = d.ticket ∧ c.stage = r.stage ∧ c.status = r.status ∧ c.dup = true ∧ c.time = r.time)))
      ∧ (∀ data k sc, fetchCheck m qp false d = none → catalog d.code.toNat = some (k, sc) → k ≠ .work →
          free (.descriptorFetch sl qp d (some data)) (fun m' => m'.mail.waiting = m.mail.waiting ++ [(qp, d.code.toNat, cmdOf qp d data,
            (m.mail.journal.filter (fun e => e.qp == qp && !e.final)).map (fun e => e.d.ticket))] ∧ m'.mail.journal = m.mail.journal)))
    ∧ (∀ qp q, tget m.mail.qps qp = some q → q.held = [] → Idle (.completionPost sl qp) s)
    ∧ (∀ qp q c rest, tget m.mail.qps qp = some q → q.held = c :: rest → fw m = true → m.boot.handover = false → q.st ≠ .closed →
      (cqFull q = true → (c.work = false ∨ isLead m = true) → Idle (.completionPost sl qp) s)
      ∧ (cqFull q = false → c.waitsRecord = false → (c.work = false ∨ isLead m = true) → gives (.completionPost sl qp) (fun m' =>
        .completion qp c.ticket c.code c.stage c.status c.dup (!q.udp && q.phase) (if q.udp then 0 else q.sqHead) c.rsp c.detail c.time ∈ m'.out
        ∧ (q.closer = none → ∃ q', tget m'.mail.qps qp = some q' ∧ q'.held = rest ∧ q'.inFlight = (if c.final then q.inFlight - 1 else q.inFlight)
          ∧ (q.udp = false → q'.cqTail = (if Max.max q.cqSize 1 ≤ q.cqTail + 1 then 0 else q.cqTail + 1))
          ∧ (q.udp = true → q'.unacked = q.unacked ++ [q.dseqOut] ∧ q'.dseqOut = q.dseqOut + 1))
        ∧ (c.work = true → 3 ≤ c.stage → journalHas m' qp c.ticket = false)))
      ∧ (c.work = true → isLead m = false → gives (.completionPost sl qp) (fun m' => m'.out = m.out ∧ m'.mail.journal = m.mail.journal)))
    ∧ (∀ qp q, tget m.mail.qps qp = some q → fw m = true →
      (q.unsignalled = 0 → Idle (.coalesceAgeExpiry sl qp) s)
      ∧ (0 < q.unsignalled → m.boot.msiCount ≠ 0 → gives (.coalesceAgeExpiry sl qp) (fun m' => m'.out = m.out ++ [.msi (q.vector % m.boot.msiCount)]
        ∧ tget m'.mail.qps qp = some { q with unsignalled := 0 })))
    ∧ ((fw m = false ∨ isLead m = false ∨ m.pair.window = true) → Idle (.dupFinalReport sl) s)
    ∧ (∀ e q, fw m = true → isLead m = true → m.pair.window = false → m.mail.journal = [e] → e.inherited = true → e.final = true → e.posted = false →
        tget m.mail.qps e.qp = some q → q.st ≠ .closed → gives (.dupFinalReport sl) (fun m' => m'.mail.journal = [{ e with posted := true }]
          ∧ ∃ q' c, tget m'.mail.qps e.qp = some q' ∧ q'.held = q.held ++ [c] ∧ c.ticket = e.d.ticket ∧ c.dup = true ∧ c.stage = e.stage
          ∧ c.status = e.status))

/-- R85 to R87: datagrams of a UDP session in order, out of order and from strangers, and what is sent again. (model choices: log entries 5,
25) -/
def Obligations.UdpEvents : Prop :=
  ∀ (s : State) (sl : Slot),
    let m := modOf s sl
    let p := modOf s (otherSlot sl)
    let free (i : Instr) (m' : Module) : Prop := exec i s = .next { withMod s sl m' with fresh := s.fresh + 1 }
    let discard : Module := { m with mail := { m.mail with udpDiscards := inc32 m.mail.udpDiscards } }
    (∀ dg, fw m = false → free (.udpDatagramReceive sl dg) m)
    ∧ (∀ dg, fw m = true → tget m.mail.qps dg.qp = none → free (.udpDatagramReceive sl dg) discard)
    ∧ (∀ dg q, fw m = true → tget m.mail.qps dg.qp = some q →
      ((q.st = .closed ∨ q.udp = false ∨ q.peer ≠ dg.peer ∨ q.peerPort ≠ dg.port ∨ dg.crcGood = false) → free (.udpDatagramReceive sl dg) discard)
      ∧ (q.st = .opened → q.udp = true → q.peer = dg.peer → q.peerPort = dg.port → dg.crcGood = true →
        ((newer32 m.pair.leadEpoch dg.leadEpoch = true ∨ newer32 dg.dseq q.dseqIn = true) →
          free (.udpDatagramReceive sl dg) { discard with out := m.out ++ [.udpStatus dg.qp q.dseqIn] })
        ∧ (newer32 m.pair.leadEpoch dg.leadEpoch = false → m.boot.handover = false → m.mail.paused = false → m.mail.stalled = false → cqFull q = false →
            q.inFlight + dg.entries.length ≤ 256 → q.inFlight < 256 → m.mail.inFlight < 4096 →
            (∀ e ∈ dg.entries, awaitsAccept m dg.qp e.1.ticket = false) →
          (dg.dseq = q.dseqIn → free (.udpDatagramReceive sl dg) (takeAll (qpMod m dg.qp (fun x => { x with dseqIn := x.dseqIn + 1 })) p dg.qp
            (Config.ticketGap s.fresh) (Config.freeValue s.fresh) dg.entries))
          ∧ (newer32 q.dseqIn dg.dseq = true → free (.udpDatagramReceive sl dg) (takeAll m p dg.qp
            (Config.ticketGap s.fresh) (Config.freeValue s.fresh) dg.entries)))))
    ∧ (∀ qp q peer port next, fw m = true → tget m.mail.qps qp = some q → q.st ≠ .closed → q.udp = true →
      (q.peer = peer → q.peerPort = port → ∃ m', Becomes (.udpSequenceStatusReceive sl qp peer port next) s sl m'
        ∧ tget m'.mail.qps qp = some { q with unacked := q.unacked.filter (fun d => !newer32 next d) })
      ∧ ((q.peer ≠ peer ∨ q.peerPort ≠ port) → Becomes (.udpSequenceStatusReceive sl qp peer port next) s sl discard))
    ∧ (∀ qp peer port next, fw m = false → Idle (.udpSequenceStatusReceive sl qp peer port next) s ∧ Idle (.udpResendTimer sl qp) s)
    ∧ (∀ qp q, fw m = true → tget m.mail.qps qp = some q → q.udp = true →
      (q.unacked ≠ [] → Becomes (.udpResendTimer sl qp) s sl { m with out := m.out ++ [.udpResend qp q.unacked] })
      ∧ (q.unacked = [] → Idle (.udpResendTimer sl qp) s))

/-! ### Boot registers, image aperture, verification -/

/-- R33 to R35, R37 to R43, R45, R52, R53, R92, R299, R368: what writes to BAR0 do, and the pulls and header checks that they start. (model
choices: log entries 3, 6, 25, 69, 73, 75) -/
def Obligations.BootRegisterEvents : Prop :=
  ∀ (s : State) (sl : Slot),
    let m := modOf s sl
    let gives (i : Instr) (P : Module → Prop) : Prop := ∃ m', Becomes i s sl m' ∧ P m'
    (bar0Writes m = false → ∀ (h e : Bool) (c : BitVec 2) (k : W32) o d, Idle (.bootGo sl h e) s ∧ Idle (.relayEnWrite sl e) s ∧ Idle (.bootReset sl k) s
        ∧ Idle (.imgOpen sl c e) s ∧ Idle (.imgPull sl c) s ∧ Idle (.imgAbort sl c) s ∧ Idle (.imgClose sl c) s ∧ Idle (.apertureWrite sl o d) s)
    ∧ (∀ h e, bar0Writes m = true →
      let i := loadSlot m.boot
      let both := (regionOf m i 1).closed && (regionOf m i 2).closed
      (m.boot.state = .loader → both = true → gives (.bootGo sl h e) (fun m' => m'.boot.state = .verify ∧ m'.boot.hdrFirst = h ∧ m'.boot.relayEn = e
        ∧ verifySlot m'.boot = i))
      ∧ (m.boot.state = .loader → both = false → gives (.bootGo sl h e) (fun m' => m'.boot.state = .loader ∧ m'.boot.fail = 0x0A ∧ m'.boot.hdrFirst = h))
      ∧ (m.boot.state ≠ .loader → gives (.bootGo sl h e) (fun m' => m'.boot.state = m.boot.state ∧ m'.boot.fail = m.boot.fail ∧ m'.boot.relayEn = e))
      ∧ gives (.relayEnWrite sl e) (fun m' => m'.boot.relayEn = e ∧ m'.boot.state = m.boot.state ∧ m'.boot.hdrFirst = m.boot.hdrFirst
        ∧ (e = false → m.boot.relaying = true → m.boot.state = .loader → m'.boot.relayStop = true)
        ∧ (e = true → m.boot.relayEn = false → m'.boot.relayWithdrawn = false)))
    ∧ (∀ key, bar0Writes m = true → (key ≠ 0x0000A5C3 → Idle (.bootReset sl key) s)
        ∧ (key = 0x0000A5C3 → Becomes (.bootReset sl key) s sl (moduleReset m) ∧ (moduleReset m).boot.state = .loader ∧ (moduleReset m).boot.fail = m.boot.fail
          ∧ (moduleReset m).mail.qps = [] ∧ (moduleReset m).pair.role = .none ∧ (moduleReset m).alm.t = m.alm.t ∧ (moduleReset m).alm.source = 0))
    ∧ (∀ cls i c, bar0Writes m = true → clsOf cls = some c → apertureSlot m = some i →
      let r := regionOf m i c
      let allowed : Prop := r.owner < 2 ∧ (m.boot.state = .loader → m.boot.relaying = false) ∧ (m.boot.state ≠ .loader → hostMayUpdate m = true)
      (allowed → gives (.imgOpen sl cls false) (fun m' => regionOf m' i c = { r with
          isOpen := true, closed := false, owner := 1, len := 0, crc := 0, hdrSeen := [], hdrDue := false, hdrOk := false, hdrBad := false,
          hdrFirst := m.boot.hdrFirst } ∧ m'.boot.code = 0 ∧ m'.boot.cls = cls))
      ∧ (¬ allowed → gives (.imgOpen sl cls false) (fun m' => regionOf m' i c = r ∧ m'.boot.code = 0x0E))
      ∧ (m.boot.pulling = false →
        let len := 4096 * m.boot.pullLen.toNat
        (m.boot.bme = false → gives (.imgPull sl cls) (fun m' => m'.boot.pulling = false ∧ m'.boot.code = 0x0B))
        ∧ (m.boot.bme = true → regionSize c < len → gives (.imgPull sl cls) (fun m' => m'.boot.pulling = false ∧ m'.boot.code = 0x0F))
        ∧ (m.boot.bme = true → len ≤ regionSize c → r.isOpen = false → gives (.imgPull sl cls) (fun m' => m'.boot.pulling = false ∧ m'.boot.code = 0x0E))
        ∧ (m.boot.bme = true → len ≤ regionSize c → 0 < len → r.isOpen = true → gives (.imgPull sl cls) (fun m' => m'.boot.pulling = true
          ∧ m'.boot.pullEnd = len ∧ ∃ l : List (W64 × Nat), m'.out = m.out ++ l.map (fun x => .pullRead x.1 x.2) ∧ l.length = Min.min 32 (len / 512)
          ∧ ∀ k x, l[k]? = some x → x = (w64 (m.boot.srcHi.toNat * 2 ^ 32 + m.boot.srcLo.toNat / 4096 * 4096 + 512 * k), 512))))
      ∧ (r.owner < 2 → gives (.imgAbort sl cls) (fun m' => regionOf m' i c = {}
        ∧ (m.boot.pulling = true → m.boot.pullSlot = i → (m.boot.pullSafety = true ↔ c = 2) → m'.boot.pullAborted = true ∧ m'.boot.closePending = false)))
      ∧ (2 ≤ r.owner → gives (.imgAbort sl cls) (fun m' => regionOf m' i c = r))
      ∧ (r.isOpen = true → m.boot.pulling = false → r.hdrBad = false → gives (.imgClose sl cls) (fun m' =>
        regionOf m' i c = { r with isOpen := false, closed := true, owner := 0, crc := crc32c (memRead r.bytes 0 r.len) }))
      ∧ (r.isOpen = true → m.boot.pulling = false → r.hdrBad = true → gives (.imgClose sl cls) (fun m' => regionOf m' i c = r))
      ∧ (r.isOpen = true → m.boot.pulling = true → gives (.imgClose sl cls) (fun m' => regionOf m' i c = r ∧ m'.boot.closePending = true)))
    ∧ (∀ i c off data, bar0Writes m = true → clsOf m.boot.cls = some c → apertureSlot m = some i →
      let r := regionOf m i c
      let o := m.boot.win.toNat * 32768 + off
      ((r.isOpen = false ∨ m.boot.pulling = true ∨ r.hdrBad = true) → Idle (.apertureWrite sl off data) s)
      ∧ (r.isOpen = true → m.boot.pulling = false → r.hdrBad = false →
        (regionSize c < o + data.length → gives (.apertureWrite sl off data) (fun m' => regionOf m' i c = r ∧ m'.boot.code = 0x0F))
        ∧ (o + data.length ≤ regionSize c → gives (.apertureWrite sl off data) (fun m' => (regionOf m' i c).bytes = memWrite r.bytes o data
          ∧ (regionOf m' i c).len = Max.max r.len (o + data.length) ∧ (regionOf m' i c).isOpen = true ∧ (slotAt m'.boot i).verified = false))))
    ∧ (∀ o, exec (.pullReadTimeout sl o) s = exec (.pullReadCompletion sl o none) s)
    ∧ (∀ o d, (powered m = false ∨ m.boot.pulling = false ∨ o ∉ m.boot.pullOut) → Idle (.pullReadCompletion sl o d) s)
    ∧ (∀ o, powered m = true → m.boot.pulling = true → o ∈ m.boot.pullOut → m.boot.pullAborted = false →
      let c := if m.boot.pullSafety then 2 else 1
      gives (.pullReadCompletion sl o none) (fun m' => m'.boot.pulling = false ∧ m'.boot.code = 0x0B ∧ m'.boot.closePending = false
        ∧ regionOf m' m.boot.pullSlot c = regionOf m m.boot.pullSlot c)
      ∧ gives (.pullReadTimeout sl o) (fun m' => m'.boot.pulling = false ∧ m'.boot.code = 0x0B)
      ∧ ∀ d, m.boot.pullOut = [o] → m.boot.pullEnd ≤ m.boot.pullNext → m.boot.closePending = false →
        gives (.pullReadCompletion sl o (some d)) (fun m' => m'.boot.pulling = false
          ∧ (regionOf m' m.boot.pullSlot c).bytes = memWrite (regionOf m m.boot.pullSlot c).bytes o d ∧ m'.boot.code = m.boot.code))
    ∧ (hdrDueAt m = none → Idle (.headerFirstCheck sl) s)
    ∧ (∀ i c, hdrDueAt m = some (i, c) → hasPower m = true → powered m = true →
      let e := headerCode m c (regionOf m i c)
      gives (.headerFirstCheck sl) (fun m' => (regionOf m' i c).hdrDue = false ∧ (regionOf m' i c).hdrOk = (e == 0) ∧ (regionOf m' i c).hdrBad = (e != 0)
        ∧ m'.boot.code = if e = 0 then m.boot.code else BitVec.ofNat 8 e))
    ∧ (∀ v : W32,
      let cls : BitVec 2 := BitVec.ofNat 2 (field v.toNat 5 4)
      (bar0Up m = false → ∀ o, Idle (.registerWrite sl o v false) s)
      ∧ (v.getLsbD 0 = true → exec (.registerWrite sl 0x0104 v false) s = exec (.bootGo sl (v.getLsbD 2) (v.getLsbD 1)) s)
      ∧ (v.getLsbD 0 = false → v.getLsbD 2 = m.boot.hdrFirst → exec (.registerWrite sl 0x0104 v false) s = exec (.relayEnWrite sl (v.getLsbD 1)) s)
      ∧ exec (.registerWrite sl 0x010C v false) s = exec (.bootReset sl v) s
      ∧ exec (.registerWrite sl 0x4000 v false) s = exec (.almCapture sl (v.getLsbD 0)) s
      ∧ exec (.registerWrite sl 0x4028 v false) s = exec (.almStep sl v) s
      ∧ (∀ q, q ≤ 1027 → exec (.registerWrite sl (0x1000 + 8 * q) v false) s = exec (.doorbellSqTail sl q (v.setWidth 16)) s
        ∧ exec (.registerWrite sl (0x1004 + 8 * q) v false) s = exec (.doorbellCqHead sl q (v.setWidth 16)) s)
      ∧ (∀ o, exec (.registerWrite sl (0x8000 + o) v false) s = exec (.apertureWrite sl o (leBytes 4 v.toNat)) s)
      ∧ (v.getLsbD 2 = true → exec (.registerWrite sl 0x5000 v false) s = exec (.imgAbort sl cls) s)
      ∧ (v.getLsbD 2 = false → v.getLsbD 1 = false → v.getLsbD 0 = true →
        exec (.registerWrite sl 0x5000 v false) s = exec (.imgOpen sl cls (v.getLsbD 3)) s)
      ∧ (v.getLsbD 2 = false → v.getLsbD 1 = false → v.getLsbD 0 = false → v.getLsbD 3 = true →
        exec (.registerWrite sl 0x5000 v false) s = exec (.imgPull sl cls) s)
      ∧ (v.getLsbD 2 = false → v.getLsbD 1 = true → v.getLsbD 0 = false → v.getLsbD 3 = false →
        exec (.registerWrite sl 0x5000 v false) s = exec (.imgClose sl cls) s)
      ∧ (v.getLsbD 2 = false → v.getLsbD 1 = true → (v.getLsbD 0 = true ∨ v.getLsbD 3 = true) → Idle (.registerWrite sl 0x5000 v false) s)
      ∧ (bar0Writes m = true →
        Becomes (.registerWrite sl 0x5004 v false) s sl { m with boot := { m.boot with win := BitVec.ofNat 11 v.toNat } }
        ∧ Becomes (.registerWrite sl 0x5010 v false) s sl { m with boot := { m.boot with srcLo := v &&& 0xFFFFF000 } }
        ∧ Becomes (.registerWrite sl 0x5014 v false) s sl { m with boot := { m.boot with srcHi := v } }
        ∧ Becomes (.registerWrite sl 0x5018 v false) s sl { m with boot := { m.boot with pullLen := BitVec.ofNat 14 (v.toNat / 4096 % 16384) } })
      ∧ (bar0Up m = true →
        gives (.registerWrite sl 0x4020 v false) (fun m' => m'.alm.stage.toNat = m.alm.stage.toNat / 4294967296 * 4294967296 + v.toNat)
        ∧ gives (.registerWrite sl 0x4024 v false) (fun m' => m'.alm.stage.toNat = v.toNat * 4294967296 + m.alm.stage.toNat % 4294967296)
        ∧ gives (.registerWrite sl 0x4004 v false) (fun m' => m'.alm.stepIgn = (m.alm.stepIgn && !v.getLsbD 2)))
      ∧ (∀ o, o < 0x1000 → o ≠ 0x0104 → o ≠ 0x010C → Idle (.registerWrite sl o v false) s)
      ∧ (∀ o, (o / 4 = 0x43 ∨ o / 4 = 0x100A) → exec (.registerWrite sl o v true) s = .next { s with fresh := s.fresh + 1 }))

/-- R29, R33, R34, R44, R45, R48, R49, R53, R371, R376: the relay from the partner, the end of a verification and of the self-tests. (model
choices: log entries 8, 25, 76, 77) -/
def Obligations.LoaderEvents : Prop :=
  ∀ (s : State) (sl : Slot),
    let m := modOf s sl
    let p := modOf s (otherSlot sl)
    let both (i : Instr) (P : Module → Module → Prop) : Prop := ∃ m' p', BecomeBoth i s sl m' p' ∧ P m' p'
    let i := loadSlot m.boot
    (hasPower m = true → m.boot.state = .loader → m.boot.relayEn = true → m.boot.relaying = false → m.boot.relayWithdrawn = false → partnerOffers m p = true →
      (((regionOf m i 1).isOpen = true ∨ (regionOf m i 2).isOpen = true) → both (.partnerRelayStart sl) (fun m' p' => m'.boot.relayWithdrawn = true
        ∧ m'.boot.relaying = false ∧ p' = p))
      ∧ ((regionOf m i 1).isOpen = false → (regionOf m i 2).isOpen = false → both (.partnerRelayStart sl) (fun m' p' => m'.boot.relaying = true
        ∧ m'.boot.relayCls = 1 ∧ m'.boot.relayBlock = 0 ∧ (regionOf m' i 1).owner = 2 ∧ (regionOf m' i 2).owner = 2
        ∧ p'.boot.sending = some (1, 0, 0) ∧ p'.boot.sendSlot = p.boot.cur ∧ p'.boot.sendClasses = [1, 2]
        ∧ p'.out = p.out ++ [.sync (.relayBlock 1 0 (crc32c (blockBytes (regionOf p p.boot.cur 1) 0)))])))
    ∧ ((m.boot.state ≠ .loader ∨ m.boot.relayEn = false ∨ m.boot.relayWithdrawn = true ∨ partnerOffers m p = false) →
        BecomeBoth (.partnerRelayStart sl) s sl m p)
    ∧ (∀ cls b data crc, (m.boot.relaying = false ∨ linked m p = false ∨ m.boot.relayCls ≠ cls ∨ m.boot.relayBlock ≠ b) →
        Idle (.syncRelayBlockReceive sl cls b data crc) s)
    ∧ (∀ cls b data crc, hasPower m = true → m.boot.relaying = true → linked m p = true → m.boot.relayCls = cls → m.boot.relayBlock = b →
      let gives (P : Module → Prop) : Prop := ∃ m', Becomes (.syncRelayBlockReceive sl cls b data crc) s sl m' ∧ P m'
      (crc32c data ≠ crc → m.boot.relayFails ≠ 2 → gives (fun m' => m'.boot.relayFails = m.boot.relayFails + 1 ∧ m'.boot.relaying = true
        ∧ m'.out = m.out ++ [.sync (.relayBlockAck false)]))
      ∧ (crc32c data ≠ crc → m.boot.relayFails = 2 → m.boot.state = .loader → gives (fun m' => m'.boot.relaying = false ∧ m'.boot.fail = 0x0C
        ∧ m'.out = m.out ++ [.sync (.relayBlockAck false)]))
      ∧ (crc32c data = crc → m.boot.relayStop = false → ∀ c k, nextBlock p cls b = some (c, k) → gives (fun m' => m'.boot.relayCls = c ∧ m'.boot.relayBlock = k
        ∧ m'.boot.relayMib = m.boot.relayMib + 1 ∧ m'.boot.relayFails = 0 ∧ m'.out = m.out ++ [.sync (.relayBlockAck true)]
        ∧ (regionOf m' (relaySlot m) cls).bytes = memWrite (regionOf m (relaySlot m) cls).bytes (b * 1048576) data))
      ∧ (crc32c data = crc → m.boot.relayStop = false → m.boot.state = .loader → nextBlock p cls b = none → gives (fun m' => m'.boot.state = .verify
        ∧ m'.boot.relaying = false ∧ verifySlot m'.boot = i))
      ∧ (crc32c data = crc → m.boot.relayStop = true → gives (fun m' => m'.boot.relaying = false ∧ m'.boot.state = m.boot.state
        ∧ regionOf m' i 1 = {} ∧ regionOf m' i 2 = {})))
    ∧ (∀ good, m.boot.sending = none → BecomeBoth (.syncRelayBlockAckReceive sl good) s sl m p)
    ∧ (∀ cls b fails, m.boot.sending = some (cls, b, fails) → hasPower m = true → linked m p = true → p.boot.relaying = true →
      (∀ c k, nextBlock m cls b = some (c, k) → both (.syncRelayBlockAckReceive sl true) (fun m' p' => m'.boot.sending = some (c, k, 0) ∧ p' = p
        ∧ m'.out = m.out ++ [.sync (.relayBlock c k (crc32c (blockBytes (regionOf m m.boot.sendSlot c) k)))]))
      ∧ (nextBlock m cls b = none → m.maint.tx = none → both (.syncRelayBlockAckReceive sl true) (fun m' p' => m'.boot.sending = none ∧ p' = p))
      ∧ (both (.syncRelayBlockAckReceive sl false) (fun m' p' => m'.diag.blocksResent = inc32 m.diag.blocksResent ∧ p' = p
        ∧ (fails < 2 → m'.boot.sending = some (cls, b, fails + 1)
          ∧ m'.out = m.out ++ [.sync (.relayBlock cls b (crc32c (blockBytes (regionOf m m.boot.sendSlot cls) b)))])
        ∧ (2 ≤ fails → m'.boot.sending = none ∧ m'.out = m.out))))
    ∧ (∀ ecc, hasPower m = true → m.boot.state = .verify →
      let v := verifySlot m.boot
      let code := verifyCode m v ecc
      let gives (P : Module → Prop) : Prop := ∃ m', Becomes (.verifyDone sl ecc) s sl m' ∧ P m'
      (m.boot.verifyFrom = .loader →
        (code = 0 → gives (fun m' => m'.boot.state = .starting ∧ (slotAt m'.boot v).verified = true ∧ m'.boot.rolesGood = true))
        ∧ (code ≠ 0 → gives (fun m' => m'.boot.state = .loader ∧ m'.boot.fail = BitVec.ofNat 8 code ∧ (slotAt m'.boot v).verified = false)))
      ∧ (m.boot.verifyFrom = .activate →
        (code = 0 → gives (fun m' => m'.boot.state = .starting ∧ m'.boot.cur = m.boot.cand ∧ m'.boot.prev = m.boot.cur ∧ m'.boot.cand = m.boot.prev
          ∧ m'.boot.confirm = 1 ∧ m'.boot.windowDue = true ∧ m'.boot.split = m.boot.newSplit ∧ .sync (.verdict true 0) ∈ m'.out))
        ∧ (code ≠ 0 → gives (fun m' => m'.boot.state = .starting ∧ m'.boot.cur = m.boot.cur ∧ m'.boot.fail = BitVec.ofNat 8 code
          ∧ .sync (.verdict false code) ∈ m'.out)))
      ∧ (m.boot.verifyFrom = .revert →
        (code = 0 → gives (fun m' => m'.boot.state = .starting ∧ m'.boot.cur = m.boot.prev ∧ m'.boot.prev = m.boot.cur ∧ m'.boot.cand = m.boot.cand
          ∧ m'.boot.confirm = 2 ∧ .sync (.verdict true 0) ∈ m'.out))
        ∧ (code ≠ 0 → gives (fun m' => m'.boot.state = .starting ∧ m'.boot.cur = m.boot.cur ∧ .sync (.verdict false code) ∈ m'.out))))
    ∧ (verifyCode m i true = 0x0D ∧ (slotCode m i = 0 ↔ verifyCode m i false = 0))
    ∧ (∀ ecc, m.boot.state ≠ .verify → m.boot.verifyingHandover = false → Idle (.verifyDone sl ecc) s)
    ∧ (hasPower m = true → m.boot.state = .starting →
      (∃ m' p', BecomeBoth (.selftestDone sl none) s sl m' p' ∧ m'.boot.state = .ready ∧ m'.boot.fail = 0)
      ∧ (∀ u, ∃ m', BecomeBoth (.selftestDone sl (some u)) s sl m' p ∧ m'.boot.state = .halt ∧ m'.boot.fail = BitVec.ofNat 8 (0x10 + u % 8)))
    ∧ (∀ f, m.boot.state ≠ .starting → BecomeBoth (.selftestDone sl f) s sl m p)

/-! ### Power, resets, temperatures, memory -/

/-- R29, R31, R37, R62, R294, R395 to R401, R410, R411, R419: power-up and power-down, resets, feeds, the lever and the sensors. (model
choices: log entries 25, 73, 74, 96) -/
def Obligations.PowerEvents : Prop :=
  ∀ (s : State) (sl : Slot),
    let m := modOf s sl
    let gives (i : Instr) (P : Module → Prop) : Prop := ∃ m', Becomes i s sl m' ∧ P m'
    let reset (m' : Module) : Prop := m'.boot.state = .loader ∧ m'.boot.fail = m.boot.fail ∧ m'.mail.qps = [] ∧ m'.pair.role = .none
      ∧ m'.pair.agen = m.pair.agen ∧ m'.alm.t = m.alm.t ∧ m'.alm.adj = m.alm.adj ∧ m'.alm.source = 0 ∧ m'.hw.wiring = m.hw.wcPins ∧ m'.chron.recs = m.chron.recs
      ∧ m'.store.points = m.store.points ∧ m'.boot.cur = m.boot.cur
    (mayPowerUp m = true → Becomes (.powerUpStart sl) s sl { m with power := { m.power with phase := .ramping } })
    ∧ (mayPowerUp m = false → Idle (.powerUpStart sl) s)
    ∧ (m.power.phase = .ramping → gives (.powerGood sl) (fun m' => m'.power.phase = .bringUp ∧ m'.alm = {} ∧ m'.boot.fail = 0 ∧ m'.hw.wiring = m.hw.wcPins
        ∧ m'.hw.slotB = m.hw.slotBPin ∧ m'.store.log = [] ∧ m'.boot.loaderUp = false ∧ m'.boot.pcie = if m.boot.perstHeld then .down else .retry))
    ∧ (m.power.phase ≠ .ramping → Idle (.powerGood sl) s)
    ∧ (m.boot.mresetHeld = true → Idle (.loaderReady sl) s)
    ∧ (m.boot.mresetHeld = false → m.power.phase = .bringUp → gives (.loaderReady sl) (fun m' => m'.boot.state = .loader ∧ m'.power.phase = .good
        ∧ m'.boot.loaderUp = true))
    ∧ (hasPower m = true → powered m = true →
      gives (.mreset sl) (fun m' => reset m' ∧ m'.boot.mresetHeld = true ∧ m'.boot.loaderUp = false)
      ∧ gives (.lanternWatchdogExpiry sl) reset
      ∧ ∀ u, gives (.lockstepFault sl u) (fun m' => m'.boot.state = .halt ∧ m'.mail.qps = [] ∧ (∀ x ∈ m'.halo.so, x.energised = false)
        ∧ ∀ x ∈ m'.exec.tasks, x.2.cycle = none))
    ∧ (∀ u, hasPower m = false → Idle (.lockstepFault sl u) s ∧ Idle (.lanternWatchdogExpiry sl) s)
    ∧ Becomes (.mresetRelease sl) s sl { m with boot := { m.boot with mresetHeld := false } }
    ∧ gives (.perst sl) (fun m' => m'.boot.pcie = .down ∧ m'.boot.perstHeld = true ∧ m'.boot.state = m.boot.state ∧ (∀ x ∈ m'.mail.qps, x.2.udp = true)
        ∧ m'.exec = m.exec)
    ∧ (m.boot.perstHeld = false → Idle (.perstRelease sl) s)
    ∧ (m.boot.perstHeld = true → hasPower m = true →
        Becomes (.perstRelease sl) s sl { m with boot := { m.boot with perstHeld := false, pcie := .retry } })
    ∧ (m.boot.pcie = .retry → m.boot.perstHeld = false → Becomes (.pcieLinkTrained sl) s sl { m with boot := { m.boot with pcie := .trained } })
    ∧ (m.boot.pcie ≠ .retry → Idle (.pcieLinkTrained sl) s)
    ∧ (∀ mv,
      gives (.logicFeedLost sl 0 mv) (fun m' => m'.power.logic1 = false ∧ m'.power.logic1mV = mv ∧ m'.power.logic2 = m.power.logic2
        ∧ m'.boot.state = m.boot.state ∧ (hasPower m = true → m.power.logic2 = false → m'.power.inDip = true))
      ∧ gives (.logicFeedLost sl 1 mv) (fun m' => m'.power.logic2 = false ∧ m'.power.logic2mV = mv ∧ m'.power.logic1 = m.power.logic1)
      ∧ gives (.logicFeedRestored sl 0 mv) (fun m' => m'.power.logic1 = true ∧ m'.power.logic1mV = mv ∧ m'.power.inDip = false
        ∧ m'.power.rideThroughs = if m.power.inDip && hasPower m then inc32 m.power.rideThroughs else m.power.rideThroughs)
      ∧ gives (.logicFeedRestored sl 1 mv) (fun m' => m'.power.logic2 = true ∧ m'.power.logic2mV = mv)
      ∧ gives (.fieldFeedLost sl mv) (fun m' => m'.power.field = false ∧ m'.power.fieldmV = mv ∧ (hasPower m = true → ∀ x ∈ m'.halo.so, x.energised = false))
      ∧ gives (.fieldFeedRestored sl mv) (fun m' => m'.power.field = true ∧ m'.power.fieldmV = mv))
    ∧ (∀ a b c,
      (30 ≤ a → Becomes (.holdupReserveUpdate sl a b c) s sl { m with power := { m.power with reserve := a, reserve46 := b, bankmV := c } })
      ∧ (a < 30 → hasPower m = true → gives (.holdupReserveUpdate sl a b c) (fun m' => m'.power.phase = .goingDown ∧ m'.boot.state = m.boot.state
        ∧ ∀ r ∈ m'.field.rings, r.held = true)))
    ∧ (m.power.phase = .ramping → gives (.logicInputLowTimeout sl) (fun m' => m'.power.phase = .off)
        ∧ gives (.ejectorLeverOpen sl) (fun m' => m'.power.phase = .off ∧ m'.power.leverClosed = false))
    ∧ (hasPower m = true → gives (.logicInputLowTimeout sl) (fun m' => m'.power.phase = .goingDown)
        ∧ gives (.ejectorLeverOpen sl) (fun m' => m'.power.phase = .goingDown ∧ m'.power.leverClosed = false))
    ∧ (m.power.phase = .goingDown → gives (.powerDownComplete sl) (fun m' => m'.power.phase = .off ∧ m'.boot.state = .off ∧ m'.pair.agen = m.pair.agen
        ∧ m'.store.points = [] ∧ m'.store.retained = m.store.retained ∧ m'.chron.recs = m.chron.recs ∧ m'.mail.highest = m.mail.highest ∧ m'.mail.tickets = []
        ∧ m'.mail.floorH = m.mail.highest ∧ m'.boot.cur = m.boot.cur ∧ m'.hw = m.hw))
    ∧ (m.power.phase ≠ .goingDown → Idle (.powerDownComplete sl) s)
    ∧ (m.power.phase = .off → (m.power.logic1 = true ∨ m.power.logic2 = true) → m.power.tooHot = false →
        Becomes (.ejectorLeverClosed sl) s sl { m with power := { m.power with leverClosed := true, phase := .ramping } })
    ∧ (m.power.phase ≠ .off → Becomes (.ejectorLeverClosed sl) s sl { m with power := { m.power with leverClosed := true } })
    ∧ (∀ t0 t1 t2 t3 : Int,
      let top := Max.max (Max.max t0 t1) (Max.max t2 t3)
      (m.power.phase = .off → gives (.junctionRead sl t0 t1 t2 t3) (fun m' => m'.power.j0 = t0 ∧ m'.power.j3 = t3
        ∧ m'.power.tooHot = (m.power.tooHot && decide (1300 < top))))
      ∧ (hasPower m = true → 1600 ≤ top → gives (.junctionRead sl t0 t1 t2 t3) (fun m' => m'.power.phase = .goingDown ∧ m'.power.tooHot = true))
      ∧ (hasPower m = true → inRun m = true → 1500 ≤ top → top < 1600 → m.power.hotOnce = true → gives (.junctionRead sl t0 t1 t2 t3) (fun m' =>
        m'.boot.state = .umbra ∧ m'.halo.umbraCause = 1))
      ∧ (hasPower m = true → 1500 ≤ top → top < 1600 → m.power.hotOnce = false → gives (.junctionRead sl t0 t1 t2 t3) (fun m' =>
        m'.boot.state = m.boot.state ∧ m'.power.hotOnce = true ∧ m'.power.phase = .good))
      ∧ (hasPower m = true → top < 1500 → gives (.junctionRead sl t0 t1 t2 t3) (fun m' => m'.boot.state = m.boot.state ∧ m'.power.hotOnce = false
        ∧ m'.power.maxJunction = Max.max m.power.maxJunction top)))
    ∧ (∀ (t : Int) cool, hasPower m = true → gives (.coldPlateRead sl t cool) (fun m' => m'.power.coldPlate = t ∧ m'.power.maxCold = Max.max m.power.maxCold t
        ∧ (m.power.throttled = false → m'.power.throttled = decide (1200 ≤ t)) ∧ (m.power.throttled = true → m'.power.throttled = !(decide (t ≤ 1170) && cool))
        ∧ m'.power.outOfRange = decide (t < -400 ∨ 1250 < t)))

/-- R17, R18, R362, R418: errors in DRAM by region, in MRAM by entry, and a patrol pass. (model choices: log entries 25, 56, 65) -/
def Obligations.MemoryErrors : Prop :=
  ∀ (s : State) (sl : Slot),
    let m := modOf s sl
    let p := modOf s (otherSlot sl)
    (∀ sec, powered m = true → Becomes (.patrolPassEnd sl sec) s sl
        { m with diag := { m.diag with patrolAt := now m, patrolDuration := sat32 sec, patrolMib := 0 } })
    ∧ (∀ sec, powered m = false → Idle (.patrolPassEnd sl sec) s)
    ∧ (∀ r a t, hasPower m = false → BecomeBoth (.dramUncorrectable sl r a t) s sl m p)
    ∧ (hasPower m = true →
      let counted (m' : Module) (a : Nat) : Prop := m'.diag.dramUncorrectable = inc32 m.diag.dramUncorrectable ∧ m'.diag.dramUncorrectableAt = a
      (∀ a t, ∃ m', BecomeBoth (.dramUncorrectable sl .working a t) s sl m' p ∧ counted m' a ∧ m'.boot = m.boot ∧ m'.store = m.store ∧ m'.exec = m.exec)
      ∧ (∀ n a t, n ≠ m.boot.cur → n ≤ 2 → ∃ m', BecomeBoth (.dramUncorrectable sl (.imageSlot n) a t) s sl m' p ∧ counted m' a
        ∧ slotAt m'.boot n = {} ∧ m'.boot.state = m.boot.state)
      ∧ (∀ a t, serving m = true → ∃ m', BecomeBoth (.dramUncorrectable sl (.imageSlot m.boot.cur) a t) s sl m' p ∧ counted m' a
        ∧ m'.boot.state = .umbra ∧ m'.halo.umbraCause = 3)
      ∧ (∀ a, m.boot.state ≠ .verify → (recentTimes m m.diag.recent 3600000000000).length < 16 →
        ∃ m', BecomeBoth (.dramUncorrectable sl .pointStore a none) s sl m' p ∧ counted m' a ∧ m'.boot.state = m.boot.state
          ∧ m'.diag.recent = recentTimes m m.diag.recent 3600000000000 ++ [now m] ∧ m'.store = m.store)
      ∧ (∀ a, serving m = true → 16 ≤ (recentTimes m m.diag.recent 3600000000000).length →
        ∃ m', BecomeBoth (.dramUncorrectable sl .programBank a none) s sl m' p ∧ counted m' a ∧ m'.boot.state = .umbra ∧ m'.halo.umbraCause = 4)
      ∧ (∀ a t k, inStepWith m p = false → taskOf m t = some k → k.st = .running → ∃ m' k', BecomeBoth (.dramUncorrectable sl .programBank a (some t)) s sl m' p
        ∧ taskOf m' t = some k' ∧ k'.st = .stopped ∧ k'.cycle = none))
    ∧ (∀ a e, hasPower m = false → Idle (.mramUncorrectable sl a e) s)
    ∧ (hasPower m = true →
      (∀ a, ∃ m', Becomes (.mramUncorrectable sl a none) s sl m' ∧ m'.diag.mramUncorrectable = inc32 m.diag.mramUncorrectable ∧ m'.mail = m.mail)
      ∧ (∀ a qp t, journalHas m qp t = true → (linked m p = false ∨ m.pair.partnerInSet = false ∨ journalHas p qp t = false) →
        ∃ m', Becomes (.mramUncorrectable sl a (some (qp, t))) s sl m' ∧ journalHas m' qp t = false
          ∧ ∃ r, ticketFind m' qp t = some r ∧ r.stage = 4 ∧ r.status = 5)
      ∧ (∀ a qp t, linked m p = true → m.pair.inSet = true → m.pair.partnerInSet = true → journalHas p qp t = true →
        ∃ m', Becomes (.mramUncorrectable sl a (some (qp, t))) s sl m' ∧ m'.mail = m.mail))

/-! ### Update and relay chains -/

/-- R371, R373, R375, R376, R378: the end of a handover, confirmation and fallback, the fuse steps and the verdict on a shadow's image.
(model choices: log entries 25, 77, 90, 105) -/
def Obligations.UpdateEvents : Prop :=
  ∀ (s : State) (sl : Slot),
    let m := modOf s sl
    let p := modOf s (otherSlot sl)
    let gives (i : Instr) (P : Module → Prop) : Prop := ∃ m', Becomes i s sl m' ∧ P m'
    let reverted (b : Boot) : Prop := b.cur = m.boot.prev ∧ b.cand = m.boot.cur ∧ b.prev = m.boot.cand ∧ b.confirm = 2 ∧ b.windowRunning = false
    (fw m = true → m.boot.handover = true → gives (.handoverLanternResume sl) (fun m' => m'.boot.handover = false ∧ m'.mail.paused = false
        ∧ m'.boot.portsDue = m.boot.portsDue))
    ∧ (m.boot.handover = false → Idle (.handoverLanternResume sl) s)
    ∧ (∀ port, fw m = true → m.boot.handover = false → port ∈ m.boot.portsDue → gives (.handoverPortSwitch sl port) (fun m' =>
        m'.boot.portsDue = m.boot.portsDue.filter (fun x => x != port) ∧ m'.field = m.field ∧ m'.exec = m.exec ∧ m'.out = m.out
        ∧ (m'.boot.portsDue = [] → m.boot.windowDue = true → m.boot.windowHandover = true →
          m'.boot.windowRunning = true ∧ m'.boot.windowEnd = m.phys + m.boot.windowLen * 1000000000)))
    ∧ (∀ port, (m.boot.handover = true ∨ port ∉ m.boot.portsDue) → Idle (.handoverPortSwitch sl port) s)
    ∧ (confirmable m p = true → gives (.imageConfirm sl) (fun m' => m'.boot.confirm = 0 ∧ m'.boot.windowRunning = false
        ∧ (∃ e, m'.chron.pendingRecs = m.chron.pendingRecs ++ [e] ∧ e.code = 0x0A02)
        ∧ (∀ f, floorWanted m = some f → m'.boot.floorTarget = f)))
    ∧ (confirmable m p = false → Idle (.imageConfirm sl) s)
    ∧ ((inRun m = false ∨ m.boot.windowRunning = false) → BecomeBoth (.confirmWindowClose sl) s sl m p)
    ∧ (inRun m = true → m.boot.windowRunning = true → slotSound m m.boot.prev = false → ∃ m', BecomeBoth (.confirmWindowClose sl) s sl m' p
        ∧ m'.boot.confirm = 3 ∧ m'.boot.windowRunning = false ∧ m'.boot.state = .run ∧ m'.boot.cur = m.boot.cur)
    ∧ (inRun m = true → m.boot.windowRunning = true → slotSound m m.boot.prev = true →
      (m.boot.windowHandover = true → ∃ m', BecomeBoth (.confirmWindowClose sl) s sl m' p ∧ reverted m'.boot ∧ m'.boot.state = .run
        ∧ m'.boot.handover = true)
      ∧ (m.boot.windowHandover = false → isLead m = true → m.pair.mode = .inStep → leaseHeld m = true → m.pair.handover = none →
        ∃ m' h, BecomeBoth (.confirmWindowClose sl) s sl m' p ∧ m'.pair.handover = some h ∧ h.released = false ∧ m'.mail.paused = true ∧ m'.boot = m.boot)
      ∧ (m.boot.windowHandover = false → isLead m = false → linked m p = false → ∃ m', BecomeBoth (.confirmWindowClose sl) s sl m' p ∧ reverted m'.boot
        ∧ m'.boot.state = .ready ∧ m'.pair.role = .none ∧ (m.boot.cand ≠ m.boot.cur → (slotAt m'.boot m.boot.cand) = {})))
    ∧ (fw m = true → m.boot.floorTarget ≠ 0 → 80 ≤ m.power.reserve → gives (.fuseStepDone sl) (fun m' => m'.hw.floor = m.hw.floor + 1
        ∧ (m.boot.floorTarget ≤ m.hw.floor + 1 → m'.boot.floorTarget = 0
          ∧ ∃ e, m'.chron.pendingRecs = m.chron.pendingRecs ++ [e] ∧ e.code = 0x0A04)
        ∧ (m.hw.floor + 1 < m.boot.floorTarget → m'.boot.floorTarget = m.boot.floorTarget)))
    ∧ ((fw m = false ∨ m.boot.floorTarget = 0 ∨ m.power.reserve < 80) → Idle (.fuseStepDone sl) s)
    ∧ (∀ pass code, (fw m = false ∨ linked m p = false ∨ isLead m = false) → Idle (.imageVerdictReceive sl pass code) s)
    ∧ (∀ qp k c code, fw m = true → linked m p = true → isLead m = true → m.maint.verdict = some (qp, k, c) → holdsClass m 1 qp = false → code ≠ 0 →
      let m1 : Module := { m with pair := { m.pair with recordedSplit := p.pair.recordedSplit }, maint := { m.maint with verdict := none } }
      Becomes (.imageVerdictReceive sl true 0) s sl (finish m1 .work k c 3 0 0 [])
      ∧ Becomes (.imageVerdictReceive sl false code) s sl (finish m1 .work k c 3 0x8A01 code []))

/-- R46, R382 to R384: offers, acceptance, blocks, reports and timeouts of a relay chain between domains. (model choices: log entries 25,
91) -/
def Obligations.RelayEvents : Prop :=
  ∀ (s : State) (sl : Slot),
    let m := modOf s sl
    let p := modOf s (otherSlot sl)
    let both (i : Instr) (P : Module → Module → Prop) : Prop := ∃ m' p', BecomeBoth i s sl m' p' ∧ P m' p'
    (∀ o, fw m = false → BecomeBoth (.relayOfferReceive sl o) s sl m p)
    ∧ (∀ o, fw m = true →
      (offerAnswer m o ≠ 0 → both (.relayOfferReceive sl o) (fun m' p' => p' = p ∧ m'.maint = m.maint ∧ m'.boot = m.boot
        ∧ ∃ b, m'.out = m.out ++ [.relay 2 o.tid o.index b] ∧ be b 24 1 = offerAnswer m o))
      ∧ (offerAnswer m o = 0 → m.maint.rx = none → both (.relayOfferReceive sl o) (fun m' _ => m'.maint.rx = some { offer := o }
        ∧ (regionOf m' m.boot.cand o.cls).owner = 3 ∧ (∃ e, tget m'.maint.entries 1 = some e ∧ e.holder = .relay)
        ∧ ∃ b, .relay 2 o.tid o.index b ∈ m'.out ∧ be b 24 1 = 0)))
    ∧ (∀ tid b f d, m.maint.rx = none → BecomeBoth (.relayDataReceive sl tid b f d) s sl m p)
    ∧ (∀ x f d, m.maint.rx = some x → fw m = true →
      let b := x.block
      let len := Min.min 1048576 (x.offer.regionLen - b * 1048576)
      let frags := tset x.frags f d
      let data := (frags.flatMap (fun f => f.2)).take len
      f < (len + 1023) / 1024 →
      (frags.length < (len + 1023) / 1024 → both (.relayDataReceive sl x.offer.tid b f d) (fun m' p' => p' = p ∧ m'.out = m.out
        ∧ m'.maint.rx = some { x with frags := frags }))
      ∧ ((len + 1023) / 1024 ≤ frags.length → data.length = len → crc32c data ≠ x.offer.crcs.getD b 0 →
        both (.relayDataReceive sl x.offer.tid b f d) (fun m' p' => p' = p ∧ m'.maint.rx = some { x with frags := [] }
          ∧ ∃ a, m'.out = m.out ++ [.relay 4 x.offer.tid x.offer.index a] ∧ be a 24 1 = 1))
      ∧ ((len + 1023) / 1024 ≤ frags.length → data.length = len → crc32c data = x.offer.crcs.getD b 0 → b * 1048576 + len ≠ x.offer.regionLen →
        both (.relayDataReceive sl x.offer.tid b f d) (fun m' p' => p' = p ∧ m'.maint.rx = some { x with block := b + 1, frags := [] }
          ∧ (regionOf m' m.boot.cand x.offer.cls).bytes = memWrite (regionOf m m.boot.cand x.offer.cls).bytes (b * 1048576) data
          ∧ ∃ a, .relay 4 x.offer.tid x.offer.index a ∈ m'.out ∧ be a 24 1 = 0)))
    ∧ (∀ tid r b bad i c k d e, sendingTid m tid = false → BecomeBoth (.relayAcceptReceive sl tid r) s sl m p
        ∧ BecomeBoth (.relayBlockAckReceive sl tid b bad) s sl m p ∧ (m.maint.tx = none → BecomeBoth (.relayReportReceive sl tid i c k d e) s sl m p))
    ∧ (∀ t, m.maint.tx = some t → fw m = true → t.served = false → (t.cmd = none ∨ relayOver t = false) →
      let sent (i : Instr) (P : RelayTx → Prop) : Prop := ∃ m' t', BecomeBoth i s sl m' p ∧ m'.maint.tx = some t' ∧ P t'
      (t.accepted = false → sent (.relayAcceptReceive sl t.tid 0) (fun t' => t'.accepted = true ∧ t'.block = t.block ∧ t'.index = t.index))
      ∧ (t.accepted = false → t.own ≠ 0 → t.cmd = none → t.index + 1 < t.hops.length → ∀ r, r ≠ 0 → sent (.relayAcceptReceive sl t.tid r) (fun t' =>
        t'.index = t.index + 1 ∧ t'.accepted = false ∧ t'.block = 0))
      ∧ (t.accepted = true → t.sent = true →
        (t.block + 1 < txBlocks m t → sent (.relayBlockAckReceive sl t.tid t.block false) (fun t' => t'.block = t.block + 1 ∧ t'.fails = 0))
        ∧ (txBlocks m t ≤ t.block + 1 → nextClass t = none → sent (.relayBlockAckReceive sl t.tid t.block false) (fun t' => t'.served = true))
        ∧ (t.fails < 2 → sent (.relayBlockAckReceive sl t.tid t.block true) (fun t' => t'.block = t.block ∧ t'.fails = t.fails + 1)
          ∧ sent (.relayBlockAckTimeout sl) (fun t' => t'.block = t.block ∧ t'.fails = t.fails + 1)))
      ∧ (t.accepted = false → t.offers < 3 → ∃ m' b, BecomeBoth (.relayOfferTimeout sl) s sl m' p ∧ m'.maint.tx = some { t with offers := t.offers + 1 }
        ∧ m'.out = m.out ++ [.relay 1 t.tid t.index b])
      ∧ (t.accepted = false → BecomeBoth (.relayBlockAckTimeout sl) s sl m p)
      ∧ (t.accepted = true → BecomeBoth (.relayOfferTimeout sl) s sl m p))
    ∧ (∀ t qp c index cls result code stored, m.maint.tx = some t → fw m = true → t.own = 0 → t.cmd = some (qp, c) →
      let t' : RelayTx := { t with results := t.results.filter (fun r => !(r.index == index && r.cls == cls)) ++
        [{ index := index, cls := cls, result := result, code := code, stored := stored }] }
      (relayOver t' = false → ∃ m', BecomeBoth (.relayReportReceive sl t.tid index cls result code stored) s sl m' p ∧ m'.maint.tx = some t')
      ∧ (relayOver t' = true → isLead m = true → ∃ m', BecomeBoth (.relayReportReceive sl t.tid index cls result code stored) s sl m' p
        ∧ m'.maint.tx = none ∧ ∃ r, ticketFind m' c.qp c.ticket = some r ∧ r.stage = 3 ∧ r.status = if relayGood t' then 0 else 0x8A03)
      ∧ (isLead m = true → ∃ m', BecomeBoth (.relayProgressTimeout sl) s sl m' p ∧ m'.maint.tx = none
        ∧ ∃ r, ticketFind m' c.qp c.ticket = some r ∧ r.stage = 3 ∧ r.status = 0x8A03))
    ∧ (m.maint.tx = none → BecomeBoth (.relayProgressTimeout sl) s sl m p ∧ BecomeBoth (.relayOfferTimeout sl) s sl m p
        ∧ BecomeBoth (.relayBlockAckTimeout sl) s sl m p)

/-! ### The domain -/

/-- R231: a ring drop applies the next acyclic message and acknowledges it, acknowledges again what it has applied, and discards what leaves
a gap; its last applied acyclic SEQ outlives its own loss of power. -/
def Obligations.DropAcyclicRule : Prop :=
  ∀ (s : State) (id : Nat) (x : Station), tsorted s.stations = true → tget s.stations id = some x → x.kind = .ring →
    (∀ (seq : W32) (cls : W16) (payload : Bytes), x.powered = true →
      let d := dist32 seq x.lastAcy
      let acked (y : Station) (last : W32) : Prop := ∃ fr, y.out = x.out ++ [.dropRing 3 fr] ∧ (parseFrame fr.bytes).ty = 4
        ∧ (parseFrame fr.bytes).seq = last
      ∃ y, exec (.dropAcyReceive id seq cls payload) s = .next { s with stations := tset s.stations id y, fresh := s.fresh + 1 }
        ∧ (d = 1 → y.lastAcy = x.lastAcy + 1 ∧ y.applied = x.applied ++ [(x.lastAcy + 1, beBytes 2 cls.toNat ++ payload)]
          ∧ acked y (x.lastAcy + 1))
        ∧ ((d = 0 ∨ 0x80000000 ≤ d) → y.lastAcy = x.lastAcy ∧ y.applied = x.applied ∧ acked y x.lastAcy)
        ∧ (2 ≤ d → d < 0x80000000 → y = x))
    ∧ (∃ y, exec (.dropPowerLoss id) s = .next { s with stations := tset s.stations id y } ∧ y.powered = false ∧ y.lastAcy = x.lastAcy)
    ∧ (∀ up down, ∃ y, exec (.dropPowerUp id up down) s = .next { s with stations := tset s.stations id y, fresh := s.fresh + 1 }
        ∧ y.powered = true ∧ y.lastAcy = x.lastAcy)

/-- R74: the refusals at fetch, BAD_CODE (1), BAD_DESC (2), BAD_QP (3), NOT_LEAD (4), TICKET_EXPIRED (5), DMA_FAULT (6) and UNSUPPORTED
(0x12), record nothing and consume no ticket. -/
def Obligations.FetchRefusals : Prop :=
  ∀ (s : State) (sl : Slot) (qp : Nat) (d : Desc) (req : Option Bytes) (q : Qp),
    let m := modOf s sl
    mayFetch m qp d = true → tget m.mail.qps qp = some q → ∃ m' q' l,
      exec (.descriptorFetch sl qp d req) s = .next { withMod s sl m' with fresh := s.fresh + 1 } ∧ tget m'.mail.qps qp = some q'
      ∧ q'.held = q.held ++ l ∧ q'.inFlight = q.inFlight + 1 ∧ q'.sqHead = (q.sqHead + 1) % Max.max q.sqSize 1
      ∧ (∀ c ∈ l, c.stage = 4 → c.dup = false → c.status ∈ [1, 2, 3, 4, 5, 6, 0x12] →
          m'.mail.journal = m.mail.journal ∧ m'.mail.tickets = m.mail.tickets ∧ m'.mail.highest = m.mail.highest ∧ c.ticket = d.ticket)
      ∧ (let refused (st : Nat) : Prop := ∃ c ∈ l, c.stage = 4 ∧ c.dup = false ∧ c.status = st
        (∀ st, fetchCheck m qp false d = some st → refused st)
        ∧ (fetchCheck m qp false d = none → req = none → refused 6)
        ∧ (∀ data sc low h, fetchCheck m qp false d = none → req = some data → catalog d.code.toNat = some (.work, sc) →
          ticketFind m qp d.ticket = none → journalFind m qp d.ticket = none → tget m.mail.highest qp = some h → d.ticket.toNat ≤ h.toNat →
          ticketLow m qp = some low → d.ticket.toNat < low → refused 5))
      ∧ exec (.requestDmaTimeout sl qp d) s = exec (.descriptorFetch sl qp d none) s

/-- R41: a host write to the aperture stores its bytes at WIN × 32,768 + o and changes no other byte of the region, which keeps its
canonical form; a write that is discarded changes no byte, and only one beyond the region sets CODE. (model choices: log entries 6, 75) -/
def Obligations.ApertureMemory : Prop :=
  ∀ (s : State) (sl : Slot) (i : Nat) (c : Nat) (off : Nat) (data : Bytes),
    let m := modOf s sl
    let r := regionOf m i c
    let o := m.boot.win.toNat * 32768 + off
    bar0Writes m = true → clsOf m.boot.cls = some c → apertureSlot m = some i →
    ∃ m', Becomes (.apertureWrite sl off data) s sl m'
      ∧ (memWf r.bytes = true → memWf (regionOf m' i c).bytes = true)
      ∧ (r.isOpen = true → m.boot.pulling = false → r.hdrBad = false → o + data.length ≤ regionSize c →
        (∀ k b, data[k]? = some b → memGet (regionOf m' i c).bytes (o + k) = b)
        ∧ (∀ a, (a < o ∨ o + data.length ≤ a) → memGet (regionOf m' i c).bytes a = memGet r.bytes a) ∧ m'.boot.code = m.boot.code)
      ∧ (r.isOpen = false ∨ m.boot.pulling = true ∨ r.hdrBad = true → m' = m)
      ∧ (r.isOpen = true → m.boot.pulling = false → r.hdrBad = false → regionSize c < o + data.length →
        (regionOf m' i c).bytes = r.bytes ∧ m'.boot.code = 0x0F)

/-- One step runs the command at the front of the queue on the state with the queue's rest; with nothing waiting, the time of each module
advances by one Almanac cycle (log entry 7, a choice of the model). -/
def Obligations.StepRunsFront : Prop :=
  (∀ (s : State) (c : Instr) (rest : List Instr), s.pending = c :: rest → step s = exec c { s with pending := rest })
  ∧ (∀ s : State, s.pending = [] → step s = .next { s with modA := almTick s.modA, modB := almTick s.modB })

/-- R16, R31, R127, R210, R276, R294: after power-up of both modules the slots of images are empty, no task and no Glint program exists, no
QP is open, no lease is held, T, ADJ and SOURCE are 0, and nothing waits. That both modules are already in LOADER, and every value that no
rule gives, are the model's choice (log entries 1 and 2). -/
def Obligations.ResetState : Prop :=
  DomainOk State.reset ∧ State.reset.pending = [] ∧ State.reset.witness.running = false
  ∧ ∀ sl, let m := modOf State.reset sl
      m.slot = sl ∧ m.boot.state = .loader ∧ m.pair.role = .none ∧ m.mail.qps = [] ∧ m.mail.journal = [] ∧ m.exec.tasks = []
      ∧ (∀ i c, regionOf m i c = {}) ∧ m.alm.t = 0 ∧ m.alm.adj = 0 ∧ m.alm.source = 0
      ∧ glintRuns m = false ∧ sweepLen m.glint = 0

/-- R218, R276: every step of the domain keeps the record of the witness and the list of drops in order, and takes one command off the
queue. -/
def Obligations.DomainInvariant : Prop :=
  ∀ (s t : State), DomainOk s → step s = .next t → DomainOk t ∧ t.pending = s.pending.tail

/-- R276: a running lease ends only by a RELEASE of its holder or by its own end; until then no step gives the lease to another. A new
holder to whom the lease was not released raises AGEN. (model choices: log entry 81) -/
def Obligations.NoSecondLease : Prop :=
  ∀ (s t : State), WitnessOk s.witness → step s = .next t →
    (s.witness.running = true →
      (t.witness.running = true ∧ t.witness.holder = s.witness.holder)
      ∨ (∃ sl msg rest, s.pending = .release sl msg :: rest ∧ heard s.witness msg = true ∧ s.witness.holder = some sl)
      ∨ (∃ rest, s.pending = .witnessLeaseEnd :: rest ∧ t.witness.running = false))
    ∧ (s.witness.running = false → t.witness.running = true → t.witness.holder ≠ s.witness.holder → s.witness.reserved ≠ t.witness.holder →
      s.witness.agen.toNat < t.witness.agen.toNat)
end

