-- ==== Sys2Proof/Laws/Bits.lean ====
section
/-! SUPPORT. Laws/Bits.lean: byte fields, tables by key and the bytes of an image region. -/

namespace Sys2Proof.Bits
open Sys2Proof

/-! ### Byte fields -/

@[simp] theorem leBytes_length (n v : Nat) : (leBytes n v).length = n := by
  induction n generalizing v with
  | zero => rfl
  | succ n ih => simp [leBytes, ih]

@[simp] theorem beBytes_length (n v : Nat) : (beBytes n v).length = n := by simp [beBytes]

@[simp] theorem zeros_length (n : Nat) : (zeros n).length = n := by simp [zeros]

@[simp] theorem fit_length (n : Nat) (bs : Bytes) : (fit n bs).length = n := by simp [fit]

theorem leVal_leBytes (n v : Nat) : leVal (leBytes n v) = v % 256 ^ n := by
  induction n generalizing v with
  | zero => simp [leBytes, leVal, Nat.mod_one]
  | succ n ih =>
    have h : 256 ^ (n + 1) = 256 * 256 ^ n := Nat.pow_succ'
    rw [leBytes, leVal, ih, BitVec.toNat_ofNat, h, Nat.mod_mul]

/-- The field at the front of a run is the number written there. -/
theorem le_front (n v : Nat) (rest : Bytes) : le (leBytes n v ++ rest) 0 n = v % 256 ^ n := by
  simp [le, leVal_leBytes]

/-- A field past the first octets is a field of what follows them. -/
theorem le_skip (front rest : Bytes) (o n k : Nat) (h : front.length = k) (ho : k ≤ o) :
    le (front ++ rest) o n = le rest (o - k) n := by
  subst h
  simp [le, List.drop_append, List.drop_eq_nil_of_le ho]

/-! ### Tables -/

/-- Every key is above a bound. -/
def Above {α : Type} (n : Nat) (t : Table α) : Prop := ∀ p ∈ t, n < p.1

theorem tsorted_cons {α : Type} (p : Nat × α) (t : Table α) : tsorted (p :: t) = true ↔ Above p.1 t ∧ tsorted t = true := by
  induction t generalizing p with
  | nil => simp [tsorted, Above]
  | cons q t ih =>
    obtain ⟨k, v⟩ := p
    obtain ⟨l, w⟩ := q
    rw [tsorted, Bool.and_eq_true, decide_eq_true_iff]
    constructor
    · rintro ⟨hkl, hs⟩
      refine ⟨?_, hs⟩
      intro r hr
      rcases List.mem_cons.1 hr with rfl | hr
      · exact hkl
      · exact Nat.lt_trans hkl (((ih (l, w)).1 hs).1 r hr)
    · rintro ⟨ha, hs⟩
      exact ⟨ha (l, w) List.mem_cons_self, hs⟩

theorem tget_above {α : Type} (t : Table α) (i n : Nat) (h : Above n t) (hi : i ≤ n) : tget t i = none := by
  induction t with
  | nil => rfl
  | cons p t ih =>
    obtain ⟨k, v⟩ := p
    have hk : n < k := h (k, v) List.mem_cons_self
    rw [tget, if_neg (by omega)]
    exact ih (fun r hr => h r (List.mem_cons_of_mem _ hr))

@[simp] theorem tget_tset_same {α : Type} (t : Table α) (i : Nat) (a : α) : tget (tset t i a) i = some a := by
  induction t with
  | nil => simp [tset, tget]
  | cons p t ih =>
    obtain ⟨k, v⟩ := p
    rw [tset]
    split
    · simp [tget]
    · split
      · simp [tget]
      · next h1 h2 => rw [tget, if_neg (fun h => h2 h.symm), ih]

@[simp] theorem tget_tset_other {α : Type} (t : Table α) (i j : Nat) (a : α) (h : j ≠ i) : tget (tset t i a) j = tget t j := by
  induction t with
  | nil => simp [tset, tget, h.symm]
  | cons p t ih =>
    obtain ⟨k, v⟩ := p
    rw [tset]
    split
    · rw [tget, if_neg (fun e => h e.symm)]
    · split
      · next h2 =>
        rw [tget, if_neg (fun e => h e.symm), tget, if_neg (fun e => h (e.symm.trans h2.symm))]
      · rw [tget, tget, ih]

theorem tset_keys {α : Type} (t : Table α) (i : Nat) (a : α) : ∀ p ∈ tset t i a, p.1 = i ∨ p ∈ t := by
  induction t with
  | nil => simp [tset]
  | cons q t ih =>
    obtain ⟨k, v⟩ := q
    intro p hp
    rw [tset] at hp
    split at hp
    · rcases List.mem_cons.1 hp with rfl | hp
      · exact Or.inl rfl
      · exact Or.inr hp
    · split at hp
      · rcases List.mem_cons.1 hp with rfl | hp
        · exact Or.inl rfl
        · exact Or.inr (List.mem_cons_of_mem _ hp)
      · rcases List.mem_cons.1 hp with rfl | hp
        · exact Or.inr List.mem_cons_self
        · exact (ih p hp).imp id (List.mem_cons_of_mem _)

/-- Entering a value keeps the keys strictly rising. -/
theorem tset_sorted {α : Type} (t : Table α) (i : Nat) (a : α) (h : tsorted t = true) : tsorted (tset t i a) = true := by
  induction t with
  | nil => rfl
  | cons q t ih =>
    obtain ⟨k, v⟩ := q
    obtain ⟨ha, hs⟩ := (tsorted_cons _ _).1 h
    rw [tset]
    split
    · next hik =>
      exact (tsorted_cons _ _).2 ⟨by
        intro p hp
        rcases List.mem_cons.1 hp with rfl | hp
        · exact hik
        · exact Nat.lt_trans hik (ha p hp), h⟩
    · split
      · next h2 => exact (tsorted_cons _ _).2 ⟨by intro p hp; simpa [h2] using ha p hp, hs⟩
      · next h1 h2 =>
        refine (tsorted_cons _ _).2 ⟨?_, ih hs⟩
        intro p hp
        rcases tset_keys t i a p hp with e | hp
        · simp only [e]; omega
        · exact ha p hp

theorem filter_sorted {α : Type} (f : Nat × α → Bool) (t : Table α) (h : tsorted t = true) : tsorted (t.filter f) = true := by
  induction t with
  | nil => rfl
  | cons q t ih =>
    obtain ⟨ha, hs⟩ := (tsorted_cons _ _).1 h
    rw [List.filter_cons]
    split
    · exact (tsorted_cons _ _).2 ⟨fun p hp => ha p (List.mem_filter.1 hp).1, ih hs⟩
    · exact ih hs

/-- Removing an entry keeps the keys strictly rising. -/
theorem tdel_sorted {α : Type} (t : Table α) (i : Nat) (h : tsorted t = true) : tsorted (tdel t i) = true := filter_sorted _ t h

@[simp] theorem tmod_keys {α : Type} (t : Table α) (i : Nat) (f : α → α) : tkeys (tmod t i f) = tkeys t := by
  induction t with
  | nil => rfl
  | cons q t ih =>
    simp only [tmod, tkeys, List.map_cons, List.cons.injEq] at ih ⊢
    exact ⟨by split <;> rfl, ih⟩

theorem sorted_of_keys {α β : Type} (t : Table α) (u : Table β) (e : tkeys u = tkeys t) (h : tsorted t = true) : tsorted u = true := by
  induction t generalizing u with
  | nil => cases u with
    | nil => rfl
    | cons q u => simp [tkeys] at e
  | cons p t ih => cases u with
    | nil => rfl
    | cons q u =>
      simp only [tkeys, List.map_cons, List.cons.injEq] at e
      obtain ⟨ha, hs⟩ := (tsorted_cons _ _).1 h
      refine (tsorted_cons _ _).2 ⟨?_, ih u e.2 hs⟩
      intro r hr
      have hm : r.1 ∈ u.map (·.1) := List.mem_map_of_mem hr
      rw [e.2] at hm
      obtain ⟨x, hx, hxe⟩ := List.mem_map.1 hm
      have := ha x hx
      omega

/-- Changing an entry keeps the keys. -/
theorem tmod_sorted {α : Type} (t : Table α) (i : Nat) (f : α → α) (h : tsorted t = true) : tsorted (tmod t i f) = true :=
  sorted_of_keys t _ (tmod_keys t i f) h

theorem tget_tmod {α : Type} (t : Table α) (i j : Nat) (f : α → α) :
    tget (tmod t i f) j = if j = i then (tget t j).map f else tget t j := by
  induction t with
  | nil => simp [tmod, tget]
  | cons q t ih =>
    obtain ⟨k, v⟩ := q
    by_cases hki : k = i
    · by_cases hkj : k = j
      · subst hki; subst hkj; simp [tmod, tget]
      · have hji : j ≠ i := fun e => hkj (hki.trans e.symm)
        simp only [tmod, List.map_cons, if_pos hki, tget, if_neg hkj, if_neg hji] at ih ⊢
        exact ih
    · by_cases hkj : k = j
      · subst hkj; simp [tmod, tget, hki]
      · simp only [tmod, List.map_cons, if_neg hki, tget, if_neg hkj] at ih ⊢
        exact ih

@[simp] theorem tget_tmod_same {α : Type} (t : Table α) (i : Nat) (f : α → α) : tget (tmod t i f) i = (tget t i).map f := by
  rw [tget_tmod, if_pos rfl]

@[simp] theorem tget_tmod_other {α : Type} (t : Table α) (i j : Nat) (f : α → α) (h : j ≠ i) : tget (tmod t i f) j = tget t j := by
  rw [tget_tmod, if_neg h]

theorem tget_tdel {α : Type} (t : Table α) (i j : Nat) : tget (tdel t i) j = if j = i then none else tget t j := by
  induction t with
  | nil => simp [tdel, tget]
  | cons q t ih =>
    obtain ⟨k, v⟩ := q
    rw [tdel] at ih ⊢
    by_cases hki : k = i
    · subst hki
      by_cases hkj : k = j
      · subst hkj; simpa [tget] using ih
      · simp only [List.filter_cons, ne_eq, not_true, decide_false, Bool.false_eq_true, if_false, tget, if_neg hkj]; exact ih
    · by_cases hkj : k = j
      · subst hkj; simp [tget, hki]
      · simp only [List.filter_cons, ne_eq, hki, not_false_eq_true, decide_true, if_true, tget, if_neg hkj]; exact ih

/-! ### The bytes of an image region -/

/-- A byte reads as it was written, and every other byte as before. -/
theorem memGet_memPut (m : List (Nat × Byte)) (a b : Nat) (v : Byte) : memGet (memPut m a v) b = if b = a then v else memGet m b := by
  unfold memGet memPut
  split
  · next h => rw [tget_tdel]; split <;> simp_all
  · split
    · next e => subst e; simp
    · next e => rw [tget_tset_other _ _ _ _ e]

theorem memPut_wf (m : List (Nat × Byte)) (a : Nat) (v : Byte) (h : memWf m = true) : memWf (memPut m a v) = true := by
  unfold memWf at h ⊢
  rw [Bool.and_eq_true] at h ⊢
  obtain ⟨hs, hb⟩ := h
  unfold memPut
  split
  · exact ⟨tdel_sorted m a hs, List.all_eq_true.2 fun p hp => List.all_eq_true.1 hb p (List.mem_filter.1 hp).1⟩
  · next hv =>
    refine ⟨tset_sorted m a v hs, List.all_eq_true.2 fun p hp => ?_⟩
    have key : ∀ (t : Table Byte), (∀ q ∈ t, (q.2 != blank) = true) → ∀ q ∈ tset t a v, (q.2 != blank) = true := by
      intro t
      induction t with
      | nil => intro _ q hq; simp only [tset, List.mem_singleton] at hq; subst hq; simpa using hv
      | cons r t ih =>
        obtain ⟨k, w⟩ := r
        intro ht q hq
        rw [tset] at hq
        have ht' : ∀ q ∈ t, (q.2 != blank) = true := fun q hq => ht q (List.mem_cons_of_mem _ hq)
        split at hq
        · rcases List.mem_cons.1 hq with rfl | hq
          · simpa using hv
          · exact ht q hq
        · split at hq
          · rcases List.mem_cons.1 hq with rfl | hq
            · simpa using hv
            · exact ht' q hq
          · rcases List.mem_cons.1 hq with rfl | hq
            · exact ht _ List.mem_cons_self
            · exact ih ht' q hq
    exact key m (List.all_eq_true.1 hb) p hp

/-- Every write of a run keeps the canonical form. -/
theorem memWrite_wf (m : List (Nat × Byte)) (a : Nat) (bs : Bytes) (h : memWf m = true) : memWf (memWrite m a bs) = true := by
  induction bs generalizing m a with
  | nil => exact h
  | cons b bs ih => exact ih _ _ (memPut_wf m a b h)

/-- What a run of bytes leaves: its own bytes where it stands, and every other byte as before. -/
theorem memGet_memWrite (m : List (Nat × Byte)) (a b : Nat) (bs : Bytes) :
    memGet (memWrite m a bs) b = if a ≤ b ∧ b < a + bs.length then bs.getD (b - a) 0 else memGet m b := by
  induction bs generalizing m a with
  | nil => rw [memWrite, if_neg (by simp)]
  | cons x xs ih =>
    rw [memWrite, ih, memGet_memPut]
    by_cases h1 : b = a
    · subst h1
      rw [if_neg (by omega), if_pos rfl, if_pos (by simp only [List.length_cons]; omega)]; simp
    · by_cases h2 : a + 1 ≤ b ∧ b < a + 1 + xs.length
      · rw [if_pos h2, if_pos (by simp only [List.length_cons]; omega)]
        rw [show b - a = (b - (a + 1)) + 1 by omega]; simp
      · rw [if_neg h2, if_neg h1, if_neg (by simp only [List.length_cons]; omega)]

/-- A run reads back as it was written. -/
theorem memRead_memWrite (m : List (Nat × Byte)) (a i n : Nat) (bs : Bytes) (h : i + n ≤ bs.length) :
    memRead (memWrite m a bs) (a + i) n = (bs.drop i).take n := by
  induction n generalizing i with
  | zero => simp [memRead]
  | succ n ih =>
    have hl : i < bs.length := by omega
    have hb : memGet (memWrite m a bs) (a + i) = bs[i] := by
      rw [memGet_memWrite, if_pos (by omega), Nat.add_sub_cancel_left, List.getD_eq_getElem?_getD, List.getElem?_eq_getElem hl, Option.getD_some]
    rw [memRead, hb, Nat.add_assoc, ih (i + 1) (by omega), List.drop_eq_getElem_cons hl, List.take_succ_cons]

/-! ### Lists with a changed entry -/

theorem getElem?_modNth {α : Type} (l : List α) (i j : Nat) (f : α → α) : (modNth l i f)[j]? = if j = i then l[j]?.map f else l[j]? := by
  induction l generalizing i j with
  | nil => simp [modNth]
  | cons a as ih =>
    cases i with
    | zero => cases j with
      | zero => simp [modNth]
      | succ j => simp [modNth]
    | succ i => cases j with
      | zero => simp [modNth]
      | succ j => simp [modNth, ih]

@[simp] theorem length_modNth {α : Type} (l : List α) (i : Nat) (f : α → α) : (modNth l i f).length = l.length := by
  induction l generalizing i with
  | nil => rfl
  | cons a as ih => cases i <;> simp [modNth, ih]

end Sys2Proof.Bits
end

