-- ==== Sys2Proof/Laws/Exec.lean ====
section
/-! SUPPORT. Laws/Exec.lean: the meaning of each command, one equation per row of the table. -/

namespace Sys2Proof.Machine
open Sys2Proof

theorem exec_powerUpStart (sl : Slot) (s : State) :
    exec (.powerUpStart sl) s = execPowerUpStart sl s := rfl
theorem exec_powerGood (sl : Slot) (s : State) :
    exec (.powerGood sl) s = execPowerGood sl s := rfl
theorem exec_loaderReady (sl : Slot) (s : State) :
    exec (.loaderReady sl) s = execLoaderReady sl s := rfl
theorem exec_mreset (sl : Slot) (s : State) :
    exec (.mreset sl) s = execMreset sl s := rfl
theorem exec_perst (sl : Slot) (s : State) :
    exec (.perst sl) s = execPerst sl s := rfl
theorem exec_lanternWatchdogExpiry (sl : Slot) (s : State) :
    exec (.lanternWatchdogExpiry sl) s = execLanternWatchdogExpiry sl s := rfl
theorem exec_lockstepFault (sl : Slot) (unit : Nat) (s : State) :
    exec (.lockstepFault sl unit) s = execLockstepFault sl unit s := rfl
theorem exec_registerWrite (sl : Slot) (offset : Nat) (value : W32) (narrow : Bool) (s : State) :
    exec (.registerWrite sl offset value narrow) s = execRegisterWrite sl offset value narrow s := rfl
theorem exec_bootGo (sl : Slot) (hdrFirst relayEn : Bool) (s : State) :
    exec (.bootGo sl hdrFirst relayEn) s = execBootGo sl hdrFirst relayEn s := rfl
theorem exec_relayEnWrite (sl : Slot) (relayEn : Bool) (s : State) :
    exec (.relayEnWrite sl relayEn) s = execRelayEnWrite sl relayEn s := rfl
theorem exec_bootReset (sl : Slot) (key : W32) (s : State) :
    exec (.bootReset sl key) s = execBootReset sl key s := rfl
theorem exec_imgOpen (sl : Slot) (cls : BitVec 2) (pull : Bool) (s : State) :
    exec (.imgOpen sl cls pull) s = execImgOpen sl cls pull s := rfl
theorem exec_imgPull (sl : Slot) (cls : BitVec 2) (s : State) :
    exec (.imgPull sl cls) s = execImgPull sl cls s := rfl
theorem exec_imgAbort (sl : Slot) (cls : BitVec 2) (s : State) :
    exec (.imgAbort sl cls) s = execImgAbort sl cls s := rfl
theorem exec_imgClose (sl : Slot) (cls : BitVec 2) (s : State) :
    exec (.imgClose sl cls) s = execImgClose sl cls s := rfl
theorem exec_apertureWrite (sl : Slot) (offset : Nat) (data : Bytes) (s : State) :
    exec (.apertureWrite sl offset data) s = execApertureWrite sl offset data s := rfl
theorem exec_pullReadCompletion (sl : Slot) (offset : Nat) (data : Option Bytes) (s : State) :
    exec (.pullReadCompletion sl offset data) s = execPullReadCompletion sl offset data s := rfl
theorem exec_pullReadTimeout (sl : Slot) (offset : Nat) (s : State) :
    exec (.pullReadTimeout sl offset) s = execPullReadTimeout sl offset s := rfl
theorem exec_headerFirstCheck (sl : Slot) (s : State) :
    exec (.headerFirstCheck sl) s = execHeaderFirstCheck sl s := rfl
theorem exec_partnerRelayStart (sl : Slot) (s : State) :
    exec (.partnerRelayStart sl) s = execPartnerRelayStart sl s := rfl
theorem exec_syncRelayBlockReceive (sl : Slot) (cls : Nat) (block : Nat) (data : Bytes) (crc : W32) (s : State) :
    exec (.syncRelayBlockReceive sl cls block data crc) s = execSyncRelayBlockReceive sl cls block data crc s := rfl
theorem exec_verifyDone (sl : Slot) (eccError : Bool) (s : State) :
    exec (.verifyDone sl eccError) s = execVerifyDone sl eccError s := rfl
theorem exec_selftestDone (sl : Slot) (failed : Option Nat) (s : State) :
    exec (.selftestDone sl failed) s = execSelftestDone sl failed s := rfl
theorem exec_patrolPassEnd (sl : Slot) (seconds : Nat) (s : State) :
    exec (.patrolPassEnd sl seconds) s = execPatrolPassEnd sl seconds s := rfl
theorem exec_dramUncorrectable (sl : Slot) (region : DramRegion) (addr : Nat) (task : Option Nat) (s : State) :
    exec (.dramUncorrectable sl region addr task) s = execDramUncorrectable sl region addr task s := rfl
theorem exec_mramUncorrectable (sl : Slot) (addr : Nat) (entry : Option (Nat × W64)) (s : State) :
    exec (.mramUncorrectable sl addr entry) s = execMramUncorrectable sl addr entry s := rfl
theorem exec_attach (sl : Slot) (page : Option AnchorPage) (s : State) :
    exec (.attach sl page) s = execAttach sl page s := rfl
theorem exec_detach (sl : Slot) (s : State) :
    exec (.detach sl) s = execDetach sl s := rfl
theorem exec_doorbellSqTail (sl : Slot) (qp : Nat) (value : W16) (s : State) :
    exec (.doorbellSqTail sl qp value) s = execDoorbellSqTail sl qp value s := rfl
theorem exec_doorbellCqHead (sl : Slot) (qp : Nat) (value : W16) (s : State) :
    exec (.doorbellCqHead sl qp value) s = execDoorbellCqHead sl qp value s := rfl
theorem exec_anchorHeartbeat (sl : Slot) (s : State) :
    exec (.anchorHeartbeat sl) s = execAnchorHeartbeat sl s := rfl
theorem exec_descriptorFetch (sl : Slot) (qp : Nat) (d : Desc) (req : Option Bytes) (s : State) :
    exec (.descriptorFetch sl qp d req) s = execDescriptorFetch sl qp d req s := rfl
theorem exec_requestDmaTimeout (sl : Slot) (qp : Nat) (d : Desc) (s : State) :
    exec (.requestDmaTimeout sl qp d) s = execRequestDmaTimeout sl qp d s := rfl
theorem exec_completionPost (sl : Slot) (qp : Nat) (s : State) :
    exec (.completionPost sl qp) s = execCompletionPost sl qp s := rfl
theorem exec_coalesceAgeExpiry (sl : Slot) (qp : Nat) (s : State) :
    exec (.coalesceAgeExpiry sl qp) s = execCoalesceAgeExpiry sl qp s := rfl
theorem exec_dupFinalReport (sl : Slot) (s : State) :
    exec (.dupFinalReport sl) s = execDupFinalReport sl s := rfl
theorem exec_udpDatagramReceive (sl : Slot) (dg : UdpDgram) (s : State) :
    exec (.udpDatagramReceive sl dg) s = execUdpDatagramReceive sl dg s := rfl
theorem exec_udpSequenceStatusReceive (sl : Slot) (qp : Nat) (peer : Bytes) (port : Nat) (next : W32) (s : State) :
    exec (.udpSequenceStatusReceive sl qp peer port next) s = execUdpSequenceStatusReceive sl qp peer port next s := rfl
theorem exec_udpResendTimer (sl : Slot) (qp : Nat) (s : State) :
    exec (.udpResendTimer sl qp) s = execUdpResendTimer sl qp s := rfl
theorem exec_sessionOpen (sl : Slot) (c : Cmd) (s : State) :
    exec (.sessionOpen sl c) s = execSessionOpen sl c s := rfl
theorem exec_sessionClose (sl : Slot) (c : Cmd) (s : State) :
    exec (.sessionClose sl c) s = execSessionClose sl c s := rfl
theorem exec_sessionStatus (sl : Slot) (c : Cmd) (s : State) :
    exec (.sessionStatus sl c) s = execSessionStatus sl c s := rfl
theorem exec_sessionTickets (sl : Slot) (c : Cmd) (s : State) :
    exec (.sessionTickets sl c) s = execSessionTickets sl c s := rfl
theorem exec_sessionReticket (sl : Slot) (c : Cmd) (s : State) :
    exec (.sessionReticket sl c) s = execSessionReticket sl c s := rfl
theorem exec_sessionNop (sl : Slot) (c : Cmd) (s : State) :
    exec (.sessionNop sl c) s = execSessionNop sl c s := rfl
theorem exec_sessionCoalesce (sl : Slot) (c : Cmd) (s : State) :
    exec (.sessionCoalesce sl c) s = execSessionCoalesce sl c s := rfl
theorem exec_pointRead (sl : Slot) (c : Cmd) (s : State) :
    exec (.pointRead sl c) s = execPointRead sl c s := rfl
theorem exec_pointWrite (sl : Slot) (c : Cmd) (s : State) :
    exec (.pointWrite sl c) s = execPointWrite sl c s := rfl
theorem exec_pointAlloc (sl : Slot) (c : Cmd) (s : State) :
    exec (.pointAlloc sl c) s = execPointAlloc sl c s := rfl
theorem exec_pointFree (sl : Slot) (c : Cmd) (s : State) :
    exec (.pointFree sl c) s = execPointFree sl c s := rfl
theorem exec_pointDescribe (sl : Slot) (c : Cmd) (s : State) :
    exec (.pointDescribe sl c) s = execPointDescribe sl c s := rfl
theorem exec_pointSubscribe (sl : Slot) (c : Cmd) (s : State) :
    exec (.pointSubscribe sl c) s = execPointSubscribe sl c s := rfl
theorem exec_pointUnsubscribe (sl : Slot) (c : Cmd) (s : State) :
    exec (.pointUnsubscribe sl c) s = execPointUnsubscribe sl c s := rfl
theorem exec_pointForce (sl : Slot) (c : Cmd) (s : State) :
    exec (.pointForce sl c) s = execPointForce sl c s := rfl
theorem exec_pointUnforce (sl : Slot) (c : Cmd) (s : State) :
    exec (.pointUnforce sl c) s = execPointUnforce sl c s := rfl
theorem exec_pointRetain (sl : Slot) (c : Cmd) (s : State) :
    exec (.pointRetain sl c) s = execPointRetain sl c s := rfl
theorem exec_pointPublish (sl : Slot) (c : Cmd) (s : State) :
    exec (.pointPublish sl c) s = execPointPublish sl c s := rfl
theorem exec_pointImport (sl : Slot) (c : Cmd) (s : State) :
    exec (.pointImport sl c) s = execPointImport sl c s := rfl
theorem exec_taskDefine (sl : Slot) (c : Cmd) (s : State) :
    exec (.taskDefine sl c) s = execTaskDefine sl c s := rfl
theorem exec_taskLoad (sl : Slot) (c : Cmd) (s : State) :
    exec (.taskLoad sl c) s = execTaskLoad sl c s := rfl
theorem exec_taskSwap (sl : Slot) (c : Cmd) (s : State) :
    exec (.taskSwap sl c) s = execTaskSwap sl c s := rfl
theorem exec_taskStart (sl : Slot) (c : Cmd) (s : State) :
    exec (.taskStart sl c) s = execTaskStart sl c s := rfl
theorem exec_taskStop (sl : Slot) (c : Cmd) (s : State) :
    exec (.taskStop sl c) s = execTaskStop sl c s := rfl
theorem exec_taskDelete (sl : Slot) (c : Cmd) (s : State) :
    exec (.taskDelete sl c) s = execTaskDelete sl c s := rfl
theorem exec_taskStatus (sl : Slot) (c : Cmd) (s : State) :
    exec (.taskStatus sl c) s = execTaskStatus sl c s := rfl
theorem exec_taskIcal (sl : Slot) (c : Cmd) (s : State) :
    exec (.taskIcal sl c) s = execTaskIcal sl c s := rfl
theorem exec_glintLoad (sl : Slot) (c : Cmd) (s : State) :
    exec (.glintLoad sl c) s = execGlintLoad sl c s := rfl
theorem exec_glintSwap (sl : Slot) (c : Cmd) (s : State) :
    exec (.glintSwap sl c) s = execGlintSwap sl c s := rfl
theorem exec_glintStatus (sl : Slot) (c : Cmd) (s : State) :
    exec (.glintStatus sl c) s = execGlintStatus sl c s := rfl
theorem exec_segmentConfig (sl : Slot) (c : Cmd) (s : State) :
    exec (.segmentConfig sl c) s = execSegmentConfig sl c s := rfl
theorem exec_segmentBind (sl : Slot) (c : Cmd) (s : State) :
    exec (.segmentBind sl c) s = execSegmentBind sl c s := rfl
theorem exec_segmentSchedule (sl : Slot) (c : Cmd) (s : State) :
    exec (.segmentSchedule sl c) s = execSegmentSchedule sl c s := rfl
theorem exec_segmentStatus (sl : Slot) (c : Cmd) (s : State) :
    exec (.segmentStatus sl c) s = execSegmentStatus sl c s := rfl
theorem exec_dropAdd (sl : Slot) (c : Cmd) (s : State) :
    exec (.dropAdd sl c) s = execDropAdd sl c s := rfl
theorem exec_dropRemove (sl : Slot) (c : Cmd) (s : State) :
    exec (.dropRemove sl c) s = execDropRemove sl c s := rfl
theorem exec_dropSend (sl : Slot) (c : Cmd) (s : State) :
    exec (.dropSend sl c) s = execDropSend sl c s := rfl
theorem exec_dropStatus (sl : Slot) (c : Cmd) (s : State) :
    exec (.dropStatus sl c) s = execDropStatus sl c s := rfl
theorem exec_pairStatus (sl : Slot) (c : Cmd) (s : State) :
    exec (.pairStatus sl c) s = execPairStatus sl c s := rfl
theorem exec_pairRun (sl : Slot) (c : Cmd) (s : State) :
    exec (.pairRun sl c) s = execPairRun sl c s := rfl
theorem exec_pairWithdraw (sl : Slot) (c : Cmd) (s : State) :
    exec (.pairWithdraw sl c) s = execPairWithdraw sl c s := rfl
theorem exec_pairEquinox (sl : Slot) (c : Cmd) (s : State) :
    exec (.pairEquinox sl c) s = execPairEquinox sl c s := rfl
theorem exec_pairResync (sl : Slot) (c : Cmd) (s : State) :
    exec (.pairResync sl c) s = execPairResync sl c s := rfl
theorem exec_pairWitness (sl : Slot) (c : Cmd) (s : State) :
    exec (.pairWitness sl c) s = execPairWitness sl c s := rfl
theorem exec_timeStatus (sl : Slot) (c : Cmd) (s : State) :
    exec (.timeStatus sl c) s = execTimeStatus sl c s := rfl
theorem exec_timeConfig (sl : Slot) (c : Cmd) (s : State) :
    exec (.timeConfig sl c) s = execTimeConfig sl c s := rfl
theorem exec_timeStep (sl : Slot) (c : Cmd) (s : State) :
    exec (.timeStep sl c) s = execTimeStep sl c s := rfl
theorem exec_timeRate (sl : Slot) (c : Cmd) (s : State) :
    exec (.timeRate sl c) s = execTimeRate sl c s := rfl
theorem exec_timePps (sl : Slot) (c : Cmd) (s : State) :
    exec (.timePps sl c) s = execTimePps sl c s := rfl
theorem exec_chronicleBounds (sl : Slot) (c : Cmd) (s : State) :
    exec (.chronicleBounds sl c) s = execChronicleBounds sl c s := rfl
theorem exec_chronicleRead (sl : Slot) (c : Cmd) (s : State) :
    exec (.chronicleRead sl c) s = execChronicleRead sl c s := rfl
theorem exec_chronicleLimit (sl : Slot) (c : Cmd) (s : State) :
    exec (.chronicleLimit sl c) s = execChronicleLimit sl c s := rfl
theorem exec_chronicleNote (sl : Slot) (c : Cmd) (s : State) :
    exec (.chronicleNote sl c) s = execChronicleNote sl c s := rfl
theorem exec_localioConfig (sl : Slot) (c : Cmd) (s : State) :
    exec (.localioConfig sl c) s = execLocalioConfig sl c s := rfl
theorem exec_localioStatus (sl : Slot) (c : Cmd) (s : State) :
    exec (.localioStatus sl c) s = execLocalioStatus sl c s := rfl
theorem exec_localioTrim (sl : Slot) (c : Cmd) (s : State) :
    exec (.localioTrim sl c) s = execLocalioTrim sl c s := rfl
theorem exec_localioTrimLock (sl : Slot) (c : Cmd) (s : State) :
    exec (.localioTrimLock sl c) s = execLocalioTrimLock sl c s := rfl
theorem exec_localioVigil (sl : Slot) (c : Cmd) (s : State) :
    exec (.localioVigil sl c) s = execLocalioVigil sl c s := rfl
theorem exec_haloConnect (sl : Slot) (c : Cmd) (s : State) :
    exec (.haloConnect sl c) s = execHaloConnect sl c s := rfl
theorem exec_haloRelease (sl : Slot) (c : Cmd) (s : State) :
    exec (.haloRelease sl c) s = execHaloRelease sl c s := rfl
theorem exec_haloParamLoad (sl : Slot) (c : Cmd) (s : State) :
    exec (.haloParamLoad sl c) s = execHaloParamLoad sl c s := rfl
theorem exec_haloParamConfirm (sl : Slot) (c : Cmd) (s : State) :
    exec (.haloParamConfirm sl c) s = execHaloParamConfirm sl c s := rfl
theorem exec_haloChange (sl : Slot) (c : Cmd) (s : State) :
    exec (.haloChange sl c) s = execHaloChange sl c s := rfl
theorem exec_haloAck (sl : Slot) (c : Cmd) (s : State) :
    exec (.haloAck sl c) s = execHaloAck sl c s := rfl
theorem exec_haloStatus (sl : Slot) (c : Cmd) (s : State) :
    exec (.haloStatus sl c) s = execHaloStatus sl c s := rfl
theorem exec_imageStatus (sl : Slot) (c : Cmd) (s : State) :
    exec (.imageStatus sl c) s = execImageStatus sl c s := rfl
theorem exec_imageActivate (sl : Slot) (c : Cmd) (s : State) :
    exec (.imageActivate sl c) s = execImageActivate sl c s := rfl
theorem exec_imageRevert (sl : Slot) (c : Cmd) (s : State) :
    exec (.imageRevert sl c) s = execImageRevert sl c s := rfl
theorem exec_imageDiscard (sl : Slot) (c : Cmd) (s : State) :
    exec (.imageDiscard sl c) s = execImageDiscard sl c s := rfl
theorem exec_imageRelay (sl : Slot) (c : Cmd) (s : State) :
    exec (.imageRelay sl c) s = execImageRelay sl c s := rfl
theorem exec_maintTake (sl : Slot) (c : Cmd) (s : State) :
    exec (.maintTake sl c) s = execMaintTake sl c s := rfl
theorem exec_maintGive (sl : Slot) (c : Cmd) (s : State) :
    exec (.maintGive sl c) s = execMaintGive sl c s := rfl
theorem exec_maintStatus (sl : Slot) (c : Cmd) (s : State) :
    exec (.maintStatus sl c) s = execMaintStatus sl c s := rfl
theorem exec_partitionCreate (sl : Slot) (c : Cmd) (s : State) :
    exec (.partitionCreate sl c) s = execPartitionCreate sl c s := rfl
theorem exec_partitionDelete (sl : Slot) (c : Cmd) (s : State) :
    exec (.partitionDelete sl c) s = execPartitionDelete sl c s := rfl
theorem exec_partitionCaps (sl : Slot) (c : Cmd) (s : State) :
    exec (.partitionCaps sl c) s = execPartitionCaps sl c s := rfl
theorem exec_partitionRunlock (sl : Slot) (c : Cmd) (s : State) :
    exec (.partitionRunlock sl c) s = execPartitionRunlock sl c s := rfl
theorem exec_guardRegions (sl : Slot) (c : Cmd) (s : State) :
    exec (.guardRegions sl c) s = execGuardRegions sl c s := rfl
theorem exec_guardViolation (sl : Slot) (c : Cmd) (s : State) :
    exec (.guardViolation sl c) s = execGuardViolation sl c s := rfl
theorem exec_guardClear (sl : Slot) (c : Cmd) (s : State) :
    exec (.guardClear sl c) s = execGuardClear sl c s := rfl
theorem exec_diagCounters (sl : Slot) (c : Cmd) (s : State) :
    exec (.diagCounters sl c) s = execDiagCounters sl c s := rfl
theorem exec_diagThermal (sl : Slot) (c : Cmd) (s : State) :
    exec (.diagThermal sl c) s = execDiagThermal sl c s := rfl
theorem exec_diagMemory (sl : Slot) (c : Cmd) (s : State) :
    exec (.diagMemory sl c) s = execDiagMemory sl c s := rfl
theorem exec_diagLanes (sl : Slot) (c : Cmd) (s : State) :
    exec (.diagLanes sl c) s = execDiagLanes sl c s := rfl
theorem exec_diagSelftest (sl : Slot) (c : Cmd) (s : State) :
    exec (.diagSelftest sl c) s = execDiagSelftest sl c s := rfl
theorem exec_arbiterWindowEnd (sl : Slot) (requests : List (Option (List Nat))) (s : State) :
    exec (.arbiterWindowEnd sl requests) s = execArbiterWindowEnd sl requests s := rfl
theorem exec_step (sl : Slot) (instant : W64) (s : State) :
    exec (.step sl instant) s = execStep sl instant s := rfl
theorem exec_syncSummaryReceive (sl : Slot) (instant : W64) (entries : List SumEntry) (s : State) :
    exec (.syncSummaryReceive sl instant entries) s = execSyncSummaryReceive sl instant entries s := rfl
theorem exec_syncContentReceive (sl : Slot) (instant : W64) (items : List Content) (s : State) :
    exec (.syncContentReceive sl instant items) s = execSyncContentReceive sl instant items s := rfl
theorem exec_syncSealReceive (sl : Slot) (task : Nat) (start : W64) (sealTime : W64) (digest : W32) (s : State) :
    exec (.syncSealReceive sl task start sealTime digest) s = execSyncSealReceive sl task start sealTime digest s := rfl
theorem exec_syncCheckpointReceive (sl : Slot) (task : Nat) (instant : W64) (ws : List WEnt) (s : State) :
    exec (.syncCheckpointReceive sl task instant ws) s = execSyncCheckpointReceive sl task instant ws s := rfl
theorem exec_syncWriteSetReceive (sl : Slot) (task : Nat) (instant : W64) (ws : List WEnt) (s : State) :
    exec (.syncWriteSetReceive sl task instant ws) s = execSyncWriteSetReceive sl task instant ws s := rfl
theorem exec_syncJournalEntryReceive (sl : Slot) (qp : Nat) (d : Desc) (req : Bytes) (assigned : Option W64) (s : State) :
    exec (.syncJournalEntryReceive sl qp d req assigned) s = execSyncJournalEntryReceive sl qp d req assigned s := rfl
theorem exec_syncJournalAckReceive (sl : Slot) (qp : Nat) (ticket : W64) (s : State) :
    exec (.syncJournalAckReceive sl qp ticket) s = execSyncJournalAckReceive sl qp ticket s := rfl
theorem exec_syncFinalReportReceive (sl : Slot) (finals : List (Nat × W64)) (s : State) :
    exec (.syncFinalReportReceive sl finals) s = execSyncFinalReportReceive sl finals s := rfl
theorem exec_syncChronicleMirrorReceive (sl : Slot) (rec : ChronRec) (s : State) :
    exec (.syncChronicleMirrorReceive sl rec) s = execSyncChronicleMirrorReceive sl rec s := rfl
theorem exec_syncShadowEventReceive (sl : Slot) (ev : ChronEvent) (s : State) :
    exec (.syncShadowEventReceive sl ev) s = execSyncShadowEventReceive sl ev s := rfl
theorem exec_syncIcalAnnounceReceive (sl : Slot) (task : Nat) (candidate : W64) (s : State) :
    exec (.syncIcalAnnounceReceive sl task candidate) s = execSyncIcalAnnounceReceive sl task candidate s := rfl
theorem exec_syncOnlineAnnounceReceive (sl : Slot) (drop : Nat) (version : Nat) (online : W64) (s0 : W32) (mac : Nat) (s : State) :
    exec (.syncOnlineAnnounceReceive sl drop version online s0 mac) s = execSyncOnlineAnnounceReceive sl drop version online s0 mac s := rfl
theorem exec_syncRelayFrameReceive (sl : Slot) (segment : Nat) (f : Frame) (s : State) :
    exec (.syncRelayFrameReceive sl segment f) s = execSyncRelayFrameReceive sl segment f s := rfl
theorem exec_syncAcyAckRelayReceive (sl : Slot) (drop : Nat) (seq : W32) (s : State) :
    exec (.syncAcyAckRelayReceive sl drop seq) s = execSyncAcyAckRelayReceive sl drop seq s := rfl
theorem exec_syncTrimReportReceive (sl : Slot) (channel : Nat) (average : Int) (spread : Nat) (s : State) :
    exec (.syncTrimReportReceive sl channel average spread) s = execSyncTrimReportReceive sl channel average spread s := rfl
theorem exec_syncResyncDataReceive (sl : Slot) (item : ResyncItem) (s : State) :
    exec (.syncResyncDataReceive sl item) s = execSyncResyncDataReceive sl item s := rfl
theorem exec_syncStepAnnounceReceive (sl : Slot) (instant : W64) (delta : W64) (s : State) :
    exec (.syncStepAnnounceReceive sl instant delta) s = execSyncStepAnnounceReceive sl instant delta s := rfl
theorem exec_syncTimeReceive (sl : Slot) (time : W64) (adj : Int) (s : State) :
    exec (.syncTimeReceive sl time adj) s = execSyncTimeReceive sl time adj s := rfl
theorem exec_partnerTimeSend (sl : Slot) (s : State) :
    exec (.partnerTimeSend sl) s = execPartnerTimeSend sl s := rfl
theorem exec_retainedApply (sl : Slot) (task : Nat) (s : State) :
    exec (.retainedApply sl task) s = execRetainedApply sl task s := rfl
theorem exec_subscriptionReportDeferred (sl : Slot) (sub : Nat) (handle : W32) (consumer : Nat) (s : State) :
    exec (.subscriptionReportDeferred sl sub handle consumer) s = execSubscriptionReportDeferred sl sub handle consumer s := rfl
theorem exec_importDatagramReceive (sl : Slot) (dg : PubDgram) (s : State) :
    exec (.importDatagramReceive sl dg) s = execImportDatagramReceive sl dg s := rfl
theorem exec_clusterMismatch (sl : Slot) (cluster : Nat) (s : State) :
    exec (.clusterMismatch sl cluster) s = execClusterMismatch sl cluster s := rfl
theorem exec_clusterResetDone (sl : Slot) (cluster : Nat) (s : State) :
    exec (.clusterResetDone sl cluster) s = execClusterResetDone sl cluster s := rfl
theorem exec_icalWindowClose (sl : Slot) (task : Nat) (s : State) :
    exec (.icalWindowClose sl task) s = execIcalWindowClose sl task s := rfl
theorem exec_icalEdge (sl : Slot) (falling : Bool) (time : W64) (s : State) :
    exec (.icalEdge sl falling time) s = execIcalEdge sl falling time s := rfl
theorem exec_lNop (sl : Slot) (u : Nat) (s : State) :
    exec (.lNop sl u) s = execLNop sl u s := rfl
theorem exec_pushi (sl : Slot) (u : Nat) (imm : BitVec 24) (s : State) :
    exec (.pushi sl u imm) s = execPushi sl u imm s := rfl
theorem exec_pushb (sl : Slot) (u : Nat) (imm : Bool) (s : State) :
    exec (.pushb sl u imm) s = execPushb sl u imm s := rfl
theorem exec_pushc (sl : Slot) (u : Nat) (t : LType) (k : Nat) (s : State) :
    exec (.pushc sl u t k) s = execPushc sl u t k s := rfl
theorem exec_ldp (sl : Slot) (u : Nat) (t : LType) (idx : Nat) (s : State) :
    exec (.ldp sl u t idx) s = execLdp sl u t idx s := rfl
theorem exec_stp (sl : Slot) (u : Nat) (t : LType) (idx : Nat) (s : State) :
    exec (.stp sl u t idx) s = execStp sl u t idx s := rfl
theorem exec_ldq (sl : Slot) (u : Nat) (t : LType) (idx : Nat) (s : State) :
    exec (.ldq sl u t idx) s = execLdq sl u t idx s := rfl
theorem exec_ldtm (sl : Slot) (u : Nat) (t : LType) (idx : Nat) (s : State) :
    exec (.ldtm sl u t idx) s = execLdtm sl u t idx s := rfl
theorem exec_ldx (sl : Slot) (u : Nat) (t : LType) (base count : Nat) (s : State) :
    exec (.ldx sl u t base count) s = execLdx sl u t base count s := rfl
theorem exec_stx (sl : Slot) (u : Nat) (t : LType) (base count : Nat) (s : State) :
    exec (.stx sl u t base count) s = execStx sl u t base count s := rfl
theorem exec_ldl (sl : Slot) (u : Nat) (l : Nat) (s : State) :
    exec (.ldl sl u l) s = execLdl sl u l s := rfl
theorem exec_stl (sl : Slot) (u : Nat) (l : Nat) (s : State) :
    exec (.stl sl u l) s = execStl sl u l s := rfl
theorem exec_dup (sl : Slot) (u : Nat) (s : State) :
    exec (.dup sl u) s = execDup sl u s := rfl
theorem exec_lDrop (sl : Slot) (u : Nat) (s : State) :
    exec (.lDrop sl u) s = execLDrop sl u s := rfl
theorem exec_lSwap (sl : Slot) (u : Nat) (s : State) :
    exec (.lSwap sl u) s = execLSwap sl u s := rfl
theorem exec_over (sl : Slot) (u : Nat) (s : State) :
    exec (.over sl u) s = execOver sl u s := rfl
theorem exec_rot (sl : Slot) (u : Nat) (s : State) :
    exec (.rot sl u) s = execRot sl u s := rfl
theorem exec_add (sl : Slot) (u : Nat) (t : LType) (s : State) :
    exec (.add sl u t) s = execAdd sl u t s := rfl
theorem exec_sub (sl : Slot) (u : Nat) (t : LType) (s : State) :
    exec (.sub sl u t) s = execSub sl u t s := rfl
theorem exec_mul (sl : Slot) (u : Nat) (t : LType) (s : State) :
    exec (.mul sl u t) s = execMul sl u t s := rfl
theorem exec_div (sl : Slot) (u : Nat) (t : LType) (s : State) :
    exec (.div sl u t) s = execDiv sl u t s := rfl
theorem exec_mod (sl : Slot) (u : Nat) (t : LType) (s : State) :
    exec (.mod sl u t) s = execMod sl u t s := rfl
theorem exec_neg (sl : Slot) (u : Nat) (t : LType) (s : State) :
    exec (.neg sl u t) s = execNeg sl u t s := rfl
theorem exec_abs (sl : Slot) (u : Nat) (t : LType) (s : State) :
    exec (.abs sl u t) s = execAbs sl u t s := rfl
theorem exec_min (sl : Slot) (u : Nat) (t : LType) (s : State) :
    exec (.min sl u t) s = execMin sl u t s := rfl
theorem exec_max (sl : Slot) (u : Nat) (t : LType) (s : State) :
    exec (.max sl u t) s = execMax sl u t s := rfl
theorem exec_eq (sl : Slot) (u : Nat) (t : LType) (s : State) :
    exec (.eq sl u t) s = execEq sl u t s := rfl
theorem exec_ne (sl : Slot) (u : Nat) (t : LType) (s : State) :
    exec (.ne sl u t) s = execNe sl u t s := rfl
theorem exec_lt (sl : Slot) (u : Nat) (t : LType) (s : State) :
    exec (.lt sl u t) s = execLt sl u t s := rfl
theorem exec_le (sl : Slot) (u : Nat) (t : LType) (s : State) :
    exec (.le sl u t) s = execLe sl u t s := rfl
theorem exec_gt (sl : Slot) (u : Nat) (t : LType) (s : State) :
    exec (.gt sl u t) s = execGt sl u t s := rfl
theorem exec_ge (sl : Slot) (u : Nat) (t : LType) (s : State) :
    exec (.ge sl u t) s = execGe sl u t s := rfl
theorem exec_and (sl : Slot) (u : Nat) (s : State) :
    exec (.and sl u) s = execAnd sl u s := rfl
theorem exec_or (sl : Slot) (u : Nat) (s : State) :
    exec (.or sl u) s = execOr sl u s := rfl
theorem exec_xor (sl : Slot) (u : Nat) (s : State) :
    exec (.xor sl u) s = execXor sl u s := rfl
theorem exec_not (sl : Slot) (u : Nat) (s : State) :
    exec (.not sl u) s = execNot sl u s := rfl
theorem exec_band (sl : Slot) (u : Nat) (t : LType) (s : State) :
    exec (.band sl u t) s = execBand sl u t s := rfl
theorem exec_bor (sl : Slot) (u : Nat) (t : LType) (s : State) :
    exec (.bor sl u t) s = execBor sl u t s := rfl
theorem exec_bxor (sl : Slot) (u : Nat) (t : LType) (s : State) :
    exec (.bxor sl u t) s = execBxor sl u t s := rfl
theorem exec_bnot (sl : Slot) (u : Nat) (t : LType) (s : State) :
    exec (.bnot sl u t) s = execBnot sl u t s := rfl
theorem exec_shl (sl : Slot) (u : Nat) (t : LType) (s : State) :
    exec (.shl sl u t) s = execShl sl u t s := rfl
theorem exec_shr (sl : Slot) (u : Nat) (t : LType) (s : State) :
    exec (.shr sl u t) s = execShr sl u t s := rfl
theorem exec_shru (sl : Slot) (u : Nat) (t : LType) (s : State) :
    exec (.shru sl u t) s = execShru sl u t s := rfl
theorem exec_cvt (sl : Slot) (u : Nat) (target source : LType) (s : State) :
    exec (.cvt sl u target source) s = execCvt sl u target source s := rfl
theorem exec_sqrt (sl : Slot) (u : Nat) (t : LType) (s : State) :
    exec (.sqrt sl u t) s = execSqrt sl u t s := rfl
theorem exec_exp (sl : Slot) (u : Nat) (t : LType) (s : State) :
    exec (.exp sl u t) s = execExp sl u t s := rfl
theorem exec_ln (sl : Slot) (u : Nat) (t : LType) (s : State) :
    exec (.ln sl u t) s = execLn sl u t s := rfl
theorem exec_sin (sl : Slot) (u : Nat) (t : LType) (s : State) :
    exec (.sin sl u t) s = execSin sl u t s := rfl
theorem exec_cos (sl : Slot) (u : Nat) (t : LType) (s : State) :
    exec (.cos sl u t) s = execCos sl u t s := rfl
theorem exec_atan2 (sl : Slot) (u : Nat) (t : LType) (s : State) :
    exec (.atan2 sl u t) s = execAtan2 sl u t s := rfl
theorem exec_qget (sl : Slot) (u : Nat) (s : State) :
    exec (.qget sl u) s = execQget sl u s := rfl
theorem exec_qset (sl : Slot) (u : Nat) (s : State) :
    exec (.qset sl u) s = execQset sl u s := rfl
theorem exec_endCycle (sl : Slot) (u : Nat) (s : State) :
    exec (.endCycle sl u) s = execEndCycle sl u s := rfl
theorem exec_br (sl : Slot) (u : Nat) (off : BitVec 24) (s : State) :
    exec (.br sl u off) s = execBr sl u off s := rfl
theorem exec_brt (sl : Slot) (u : Nat) (off : BitVec 24) (s : State) :
    exec (.brt sl u off) s = execBrt sl u off s := rfl
theorem exec_brf (sl : Slot) (u : Nat) (off : BitVec 24) (s : State) :
    exec (.brf sl u off) s = execBrf sl u off s := rfl
theorem exec_call (sl : Slot) (u : Nat) (block : Nat) (s : State) :
    exec (.call sl u block) s = execCall sl u block s := rfl
theorem exec_ret (sl : Slot) (u : Nat) (s : State) :
    exec (.ret sl u) s = execRet sl u s := rfl
theorem exec_now (sl : Slot) (u : Nat) (s : State) :
    exec (.now sl u) s = execNow sl u s := rfl
theorem exec_dt (sl : Slot) (u : Nat) (s : State) :
    exec (.dt sl u) s = execDt sl u s := rfl
theorem exec_first (sl : Slot) (u : Nat) (s : State) :
    exec (.first sl u) s = execFirst sl u s := rfl
theorem exec_exc (sl : Slot) (u : Nat) (s : State) :
    exec (.exc sl u) s = execExc sl u s := rfl
theorem exec_pid (sl : Slot) (u : Nat) (base : Nat) (s : State) :
    exec (.pid sl u base) s = execPid sl u base s := rfl
theorem exec_ramp (sl : Slot) (u : Nat) (base : Nat) (s : State) :
    exec (.ramp sl u base) s = execRamp sl u base s := rfl
theorem exec_leadlag (sl : Slot) (u : Nat) (base : Nat) (s : State) :
    exec (.leadlag sl u base) s = execLeadlag sl u base s := rfl
theorem exec_total (sl : Slot) (u : Nat) (base : Nat) (s : State) :
    exec (.total sl u base) s = execTotal sl u base s := rfl
theorem exec_timer (sl : Slot) (u : Nat) (variant base : Nat) (s : State) :
    exec (.timer sl u variant base) s = execTimer sl u variant base s := rfl
theorem exec_select (sl : Slot) (u : Nat) (n base : Nat) (s : State) :
    exec (.select sl u n base) s = execSelect sl u n base s := rfl
theorem exec_limit (sl : Slot) (u : Nat) (t : LType) (s : State) :
    exec (.limit sl u t) s = execLimit sl u t s := rfl
theorem exec_deadband (sl : Slot) (u : Nat) (variant base : Nat) (s : State) :
    exec (.deadband sl u variant base) s = execDeadband sl u variant base s := rfl
theorem exec_glintLd (sl : Slot) (addr : BitVec 12) (s : State) :
    exec (.glintLd sl addr) s = execGlintLd sl addr s := rfl
theorem exec_glintLdn (sl : Slot) (addr : BitVec 12) (s : State) :
    exec (.glintLdn sl addr) s = execGlintLdn sl addr s := rfl
theorem exec_glintAnd (sl : Slot) (addr : BitVec 12) (s : State) :
    exec (.glintAnd sl addr) s = execGlintAnd sl addr s := rfl
theorem exec_glintAndn (sl : Slot) (addr : BitVec 12) (s : State) :
    exec (.glintAndn sl addr) s = execGlintAndn sl addr s := rfl
theorem exec_glintOr (sl : Slot) (addr : BitVec 12) (s : State) :
    exec (.glintOr sl addr) s = execGlintOr sl addr s := rfl
theorem exec_glintOrn (sl : Slot) (addr : BitVec 12) (s : State) :
    exec (.glintOrn sl addr) s = execGlintOrn sl addr s := rfl
theorem exec_glintXor (sl : Slot) (addr : BitVec 12) (s : State) :
    exec (.glintXor sl addr) s = execGlintXor sl addr s := rfl
theorem exec_glintSt (sl : Slot) (addr : BitVec 12) (s : State) :
    exec (.glintSt sl addr) s = execGlintSt sl addr s := rfl
theorem exec_glintStn (sl : Slot) (addr : BitVec 12) (s : State) :
    exec (.glintStn sl addr) s = execGlintStn sl addr s := rfl
theorem exec_glintSet (sl : Slot) (addr : BitVec 12) (s : State) :
    exec (.glintSet sl addr) s = execGlintSet sl addr s := rfl
theorem exec_glintRst (sl : Slot) (addr : BitVec 12) (s : State) :
    exec (.glintRst sl addr) s = execGlintRst sl addr s := rfl
theorem exec_glintAndp (sl : Slot) (addr : BitVec 12) (s : State) :
    exec (.glintAndp sl addr) s = execGlintAndp sl addr s := rfl
theorem exec_glintOrp (sl : Slot) (addr : BitVec 12) (s : State) :
    exec (.glintOrp sl addr) s = execGlintOrp sl addr s := rfl
theorem exec_glintPop (sl : Slot) (s : State) :
    exec (.glintPop sl) s = execGlintPop sl s := rfl
theorem exec_glintTon (sl : Slot) (n : Nat) (s : State) :
    exec (.glintTon sl n) s = execGlintTon sl n s := rfl
theorem exec_glintTof (sl : Slot) (n : Nat) (s : State) :
    exec (.glintTof sl n) s = execGlintTof sl n s := rfl
theorem exec_glintTp (sl : Slot) (n : Nat) (s : State) :
    exec (.glintTp sl n) s = execGlintTp sl n s := rfl
theorem exec_glintCtu (sl : Slot) (n : Nat) (s : State) :
    exec (.glintCtu sl n) s = execGlintCtu sl n s := rfl
theorem exec_glintCtd (sl : Slot) (n : Nat) (s : State) :
    exec (.glintCtd sl n) s = execGlintCtd sl n s := rfl
theorem exec_glintCrst (sl : Slot) (n : Nat) (s : State) :
    exec (.glintCrst sl n) s = execGlintCrst sl n s := rfl
theorem exec_glintCld (sl : Slot) (n : Nat) (s : State) :
    exec (.glintCld sl n) s = execGlintCld sl n s := rfl
theorem exec_glintSkipf (sl : Slot) (n : Nat) (s : State) :
    exec (.glintSkipf sl n) s = execGlintSkipf sl n s := rfl
theorem exec_glintSkipt (sl : Slot) (n : Nat) (s : State) :
    exec (.glintSkipt sl n) s = execGlintSkipt sl n s := rfl
theorem exec_glintNop (sl : Slot) (s : State) :
    exec (.glintNop sl) s = execGlintNop sl s := rfl
theorem exec_glintSweepEnd (sl : Slot) (s : State) :
    exec (.glintSweepEnd sl) s = execGlintSweepEnd sl s := rfl
theorem exec_glintTimerExpiry (sl : Slot) (n : Nat) (s : State) :
    exec (.glintTimerExpiry sl n) s = execGlintTimerExpiry sl n s := rfl
theorem exec_glintBankSwitch (sl : Slot) (s : State) :
    exec (.glintBankSwitch sl) s = execGlintBankSwitch sl s := rfl
theorem exec_gleamValue (sl : Slot) (channel : Nat) (value : BitVec 10) (s : State) :
    exec (.gleamValue sl channel value) s = execGleamValue sl channel value s := rfl
theorem exec_ringFrameForward (sl : Slot) (segment : Nat) (f : Frame) (s : State) :
    exec (.ringFrameForward sl segment f) s = execRingFrameForward sl segment f s := rfl
theorem exec_spliceFieldTimeout (sl : Slot) (entry : Nat) (s : State) :
    exec (.spliceFieldTimeout sl entry) s = execSpliceFieldTimeout sl entry s := rfl
theorem exec_heldFrameRelease (sl : Slot) (segment : Nat) (s : State) :
    exec (.heldFrameRelease sl segment) s = execHeldFrameRelease sl segment s := rfl
theorem exec_inFrameReceive (sl : Slot) (segment : Nat) (f : Frame) (s : State) :
    exec (.inFrameReceive sl segment f) s = execInFrameReceive sl segment f s := rfl
theorem exec_acyAckReceive (sl : Slot) (segment : Nat) (f : Frame) (s : State) :
    exec (.acyAckReceive sl segment f) s = execAcyAckReceive sl segment f s := rfl
theorem exec_syncFrameReceive (sl : Slot) (segment : Nat) (f : Frame) (s : State) :
    exec (.syncFrameReceive sl segment f) s = execSyncFrameReceive sl segment f s := rfl
theorem exec_helloReceive (sl : Slot) (segment : Nat) (f : Frame) (s : State) :
    exec (.helloReceive sl segment f) s = execHelloReceive sl segment f s := rfl
theorem exec_assignRetransmit (sl : Slot) (drop : Nat) (s : State) :
    exec (.assignRetransmit sl drop) s = execAssignRetransmit sl drop s := rfl
theorem exec_acyRetransmit (sl : Slot) (drop : Nat) (s : State) :
    exec (.acyRetransmit sl drop) s = execAcyRetransmit sl drop s := rfl
theorem exec_acyDeliveryTimeout (sl : Slot) (drop : Nat) (seq : W32) (s : State) :
    exec (.acyDeliveryTimeout sl drop seq) s = execAcyDeliveryTimeout sl drop seq s := rfl
theorem exec_checkFrameLaunch (sl : Slot) (s : State) :
    exec (.checkFrameLaunch sl) s = execCheckFrameLaunch sl s := rfl
theorem exec_checkFrameReturn (sl : Slot) (segment : Nat) (f : Frame) (s : State) :
    exec (.checkFrameReturn sl segment f) s = execCheckFrameReturn sl segment f s := rfl
theorem exec_ringClosedTimeout (sl : Slot) (segment : Nat) (s : State) :
    exec (.ringClosedTimeout sl segment) s = execRingClosedTimeout sl segment s := rfl
theorem exec_ringLaneLockLoss (sl : Slot) (lane : Nat) (s : State) :
    exec (.ringLaneLockLoss sl lane) s = execRingLaneLockLoss sl lane s := rfl
theorem exec_ringPtpSyncSend (sl : Slot) (s : State) :
    exec (.ringPtpSyncSend sl) s = execRingPtpSyncSend sl s := rfl
theorem exec_pdelayMeasure (sl : Slot) (lane : Nat) (delay : Nat) (s : State) :
    exec (.pdelayMeasure sl lane delay) s = execPdelayMeasure sl lane delay s := rfl
theorem exec_dropFrameForward (id : Nat) (up : Bool) (f : Frame) (ptp : Option Nat) (s : State) :
    exec (.dropFrameForward id up f ptp) s = execDropFrameForward id up f ptp s := rfl
theorem exec_dropOutAccept (id : Nat) (f : Frame) (now1 : W64) (s : State) :
    exec (.dropOutAccept id f now1) s = execDropOutAccept id f now1 s := rfl
theorem exec_dropApplyTime (id : Nat) (s : State) :
    exec (.dropApplyTime id) s = execDropApplyTime id s := rfl
theorem exec_dropOutputWatchdogExpiry (id : Nat) (s : State) :
    exec (.dropOutputWatchdogExpiry id) s = execDropOutputWatchdogExpiry id s := rfl
theorem exec_dropOutAbsenceTimeout (id : Nat) (s : State) :
    exec (.dropOutAbsenceTimeout id) s = execDropOutAbsenceTimeout id s := rfl
theorem exec_dropAcyReceive (id : Nat) (seq : W32) (cls : W16) (payload : Bytes) (s : State) :
    exec (.dropAcyReceive id seq cls payload) s = execDropAcyReceive id seq cls payload s := rfl
theorem exec_dropAssignReceive (id : Nat) (f : Frame) (s : State) :
    exec (.dropAssignReceive id f) s = execDropAssignReceive id f s := rfl
theorem exec_dropHelloTimer (id : Nat) (s : State) :
    exec (.dropHelloTimer id) s = execDropHelloTimer id s := rfl
theorem exec_dropSyncEvent (id : Nat) (code : W16) (time : W64) (s : State) :
    exec (.dropSyncEvent id code time) s = execDropSyncEvent id code time s := rfl
theorem exec_dropLinkLoss (id : Nat) (up : Bool) (s : State) :
    exec (.dropLinkLoss id up) s = execDropLinkLoss id up s := rfl
theorem exec_dropLinkStable (id : Nat) (up : Bool) (s : State) :
    exec (.dropLinkStable id up) s = execDropLinkStable id up s := rfl
theorem exec_busSlotStart (sl : Slot) (bus : Nat) (s : State) :
    exec (.busSlotStart sl bus) s = execBusSlotStart sl bus s := rfl
theorem exec_canTxResult (sl : Slot) (bus : Nat) (r : CanResult) (s : State) :
    exec (.canTxResult sl bus r) s = execCanTxResult sl bus r s := rfl
theorem exec_canInReceive (sl : Slot) (bus : Nat) (f : CanFrame) (s : State) :
    exec (.canInReceive sl bus f) s = execCanInReceive sl bus f s := rfl
theorem exec_canPartnerOutReceive (sl : Slot) (bus : Nat) (f : CanFrame) (s : State) :
    exec (.canPartnerOutReceive sl bus f) s = execCanPartnerOutReceive sl bus f s := rfl
theorem exec_canHelloReceive (sl : Slot) (bus : Nat) (f : CanFrame) (s : State) :
    exec (.canHelloReceive sl bus f) s = execCanHelloReceive sl bus f s := rfl
theorem exec_canSyncReceive (sl : Slot) (bus : Nat) (f : CanFrame) (s : State) :
    exec (.canSyncReceive sl bus f) s = execCanSyncReceive sl bus f s := rfl
theorem exec_busRowEnd (sl : Slot) (bus : Nat) (cut : Bool) (s : State) :
    exec (.busRowEnd sl bus cut) s = execBusRowEnd sl bus cut s := rfl
theorem exec_busOffRecovery (sl : Slot) (bus : Nat) (s : State) :
    exec (.busOffRecovery sl bus) s = execBusOffRecovery sl bus s := rfl
theorem exec_lineSlotStart (sl : Slot) (line : Nat) (s : State) :
    exec (.lineSlotStart sl line) s = execLineSlotStart sl line s := rfl
theorem exec_lineTakeover (sl : Slot) (line : Nat) (s : State) :
    exec (.lineTakeover sl line) s = execLineTakeover sl line s := rfl
theorem exec_lineReplyReceive (sl : Slot) (line : Nat) (bytes : Bytes) (good : Bool) (s : State) :
    exec (.lineReplyReceive sl line bytes good) s = execLineReplyReceive sl line bytes good s := rfl
theorem exec_lineReplyTimeout (sl : Slot) (line : Nat) (s : State) :
    exec (.lineReplyTimeout sl line) s = execLineReplyTimeout sl line s := rfl
theorem exec_syncLaneDown (sl : Slot) (lane : Nat) (s : State) :
    exec (.syncLaneDown sl lane) s = execSyncLaneDown sl lane s := rfl
theorem exec_syncLaneUp (sl : Slot) (lane : Nat) (s : State) :
    exec (.syncLaneUp sl lane) s = execSyncLaneUp sl lane s := rfl
theorem exec_renewTimer (sl : Slot) (s : State) :
    exec (.renewTimer sl) s = execRenewTimer sl s := rfl
theorem exec_presentTimer (sl : Slot) (s : State) :
    exec (.presentTimer sl) s = execPresentTimer sl s := rfl
theorem exec_claimTimer (sl : Slot) (s : State) :
    exec (.claimTimer sl) s = execClaimTimer sl s := rfl
theorem exec_leaseCheck (sl : Slot) (s : State) :
    exec (.leaseCheck sl) s = execLeaseCheck sl s := rfl
theorem exec_claimReplyTimeout (sl : Slot) (s : State) :
    exec (.claimReplyTimeout sl) s = execClaimReplyTimeout sl s := rfl
theorem exec_readyClaimTimer (sl : Slot) (s : State) :
    exec (.readyClaimTimer sl) s = execReadyClaimTimer sl s := rfl
theorem exec_grant (sl : Slot) (msg : WMsg) (s : State) :
    exec (.grant sl msg) s = execGrant sl msg s := rfl
theorem exec_renewed (sl : Slot) (msg : WMsg) (s : State) :
    exec (.renewed sl msg) s = execRenewed sl msg s := rfl
theorem exec_wait (sl : Slot) (msg : WMsg) (s : State) :
    exec (.wait sl msg) s = execWait sl msg s := rfl
theorem exec_denied (sl : Slot) (msg : WMsg) (s : State) :
    exec (.denied sl msg) s = execDenied sl msg s := rfl
theorem exec_stale (sl : Slot) (msg : WMsg) (s : State) :
    exec (.stale sl msg) s = execStale sl msg s := rfl
theorem exec_witnessAck (sl : Slot) (msg : WMsg) (s : State) :
    exec (.witnessAck sl msg) s = execWitnessAck sl msg s := rfl
theorem exec_renew (sl : Slot) (msg : WMsg) (s : State) :
    exec (.renew sl msg) s = execRenew sl msg s := rfl
theorem exec_claim (sl : Slot) (msg : WMsg) (s : State) :
    exec (.claim sl msg) s = execClaim sl msg s := rfl
theorem exec_release (sl : Slot) (msg : WMsg) (s : State) :
    exec (.release sl msg) s = execRelease sl msg s := rfl
theorem exec_present (sl : Slot) (msg : WMsg) (s : State) :
    exec (.present sl msg) s = execPresent sl msg s := rfl
theorem exec_witnessLeaseEnd (s : State) :
    exec (.witnessLeaseEnd) s = execWitnessLeaseEnd s := rfl
theorem exec_claimPendingExpiry (sl : Slot) (s : State) :
    exec (.claimPendingExpiry sl) s = execClaimPendingExpiry sl s := rfl
theorem exec_releaseReservationEnd (s : State) :
    exec (.releaseReservationEnd) s = execReleaseReservationEnd s := rfl
theorem exec_warmCatchupLaunch (sl : Slot) (now1 : W64) (s : State) :
    exec (.warmCatchupLaunch sl now1) s = execWarmCatchupLaunch sl now1 s := rfl
theorem exec_equinoxDrainDone (sl : Slot) (s : State) :
    exec (.equinoxDrainDone sl) s = execEquinoxDrainDone sl s := rfl
theorem exec_equinoxDrainTimeout (sl : Slot) (s : State) :
    exec (.equinoxDrainTimeout sl) s = execEquinoxDrainTimeout sl s := rfl
theorem exec_equinoxNoticeReceive (sl : Slot) (s : State) :
    exec (.equinoxNoticeReceive sl) s = execEquinoxNoticeReceive sl s := rfl
theorem exec_equinoxGrantTimeout (sl : Slot) (s : State) :
    exec (.equinoxGrantTimeout sl) s = execEquinoxGrantTimeout sl s := rfl
theorem exec_equinoxDueTimer (sl : Slot) (s : State) :
    exec (.equinoxDueTimer sl) s = execEquinoxDueTimer sl s := rfl
theorem exec_autoResyncStart (sl : Slot) (s : State) :
    exec (.autoResyncStart sl) s = execAutoResyncStart sl s := rfl
theorem exec_resyncCopyDone (sl : Slot) (s : State) :
    exec (.resyncCopyDone sl) s = execResyncCopyDone sl s := rfl
theorem exec_resyncFollowDone (sl : Slot) (cutover : W64) (s : State) :
    exec (.resyncFollowDone sl cutover) s = execResyncFollowDone sl cutover s := rfl
theorem exec_resyncTimeout (sl : Slot) (s : State) :
    exec (.resyncTimeout sl) s = execResyncTimeout sl s := rfl
theorem exec_timeStepApply (sl : Slot) (s : State) :
    exec (.timeStepApply sl) s = execTimeStepApply sl s := rfl
theorem exec_almCapture (sl : Slot) (cap : Bool) (s : State) :
    exec (.almCapture sl cap) s = execAlmCapture sl cap s := rfl
theorem exec_almStep (sl : Slot) (value : W32) (s : State) :
    exec (.almStep sl value) s = execAlmStep sl value s := rfl
theorem exec_bar0StepLand (sl : Slot) (s : State) :
    exec (.bar0StepLand sl) s = execBar0StepLand sl s := rfl
theorem exec_ppsInEdge (sl : Slot) (time : W64) (s : State) :
    exec (.ppsInEdge sl time) s = execPpsInEdge sl time s := rfl
theorem exec_ppsInMissing (sl : Slot) (s : State) :
    exec (.ppsInMissing sl) s = execPpsInMissing sl s := rfl
theorem exec_ppsOutRise (sl : Slot) (s : State) :
    exec (.ppsOutRise sl) s = execPpsOutRise sl s := rfl
theorem exec_ppsOutFall (sl : Slot) (s : State) :
    exec (.ppsOutFall sl) s = execPpsOutFall sl s := rfl
theorem exec_ptpMessageReceive (sl : Slot) (msg : PtpMsg) (s : State) :
    exec (.ptpMessageReceive sl msg) s = execPtpMessageReceive sl msg s := rfl
theorem exec_ptpAnnounceTimeout (sl : Slot) (port : Nat) (s : State) :
    exec (.ptpAnnounceTimeout sl port) s = execPtpAnnounceTimeout sl port s := rfl
theorem exec_hostPtpSyncSend (sl : Slot) (port : Nat) (s : State) :
    exec (.hostPtpSyncSend sl port) s = execHostPtpSyncSend sl port s := rfl
theorem exec_holdoverEnd (sl : Slot) (s : State) :
    exec (.holdoverEnd sl) s = execHoldoverEnd sl s := rfl
theorem exec_chronicleRecordWrite (sl : Slot) (s : State) :
    exec (.chronicleRecordWrite sl) s = execChronicleRecordWrite sl s := rfl
theorem exec_summaryTimeout (sl : Slot) (code : Nat) (s : State) :
    exec (.summaryTimeout sl code) s = execSummaryTimeout sl code s := rfl
theorem exec_loopSupplyUpdate (sl : Slot) (s : State) :
    exec (.loopSupplyUpdate sl) s = execLoopSupplyUpdate sl s := rfl
theorem exec_loopSupplyThermal (sl : Slot) (channel : Nat) (s : State) :
    exec (.loopSupplyThermal sl channel) s = execLoopSupplyThermal sl channel s := rfl
theorem exec_loopSupplyRestart (sl : Slot) (channel : Nat) (s : State) :
    exec (.loopSupplyRestart sl channel) s = execLoopSupplyRestart sl channel s := rfl
theorem exec_cicOutput (sl : Slot) (channel : Nat) (raw : Int) (limited : Bool) (s : State) :
    exec (.cicOutput sl channel raw limited) s = execCicOutput sl channel raw limited s := rfl
theorem exec_trimMeasureDone (sl : Slot) (average : Int) (spread : Nat) (s : State) :
    exec (.trimMeasureDone sl average spread) s = execTrimMeasureDone sl average spread s := rfl
theorem exec_buttonPress (sl : Slot) (s : State) :
    exec (.buttonPress sl) s = execButtonPress sl s := rfl
theorem exec_buttonHeld (sl : Slot) (which : Nat) (s : State) :
    exec (.buttonHeld sl which) s = execButtonHeld sl which s := rfl
theorem exec_trimModeTimeout (sl : Slot) (s : State) :
    exec (.trimModeTimeout sl) s = execTrimModeTimeout sl s := rfl
theorem exec_dioInputChange (sl : Slot) (channel : Nat) (level : Bool) (s : State) :
    exec (.dioInputChange sl channel level) s = execDioInputChange sl channel level s := rfl
theorem exec_diFilterPass (sl : Slot) (channel : Nat) (s : State) :
    exec (.diFilterPass sl channel) s = execDiFilterPass sl channel s := rfl
theorem exec_doOverload (sl : Slot) (channel : Nat) (milliamp : Nat) (s : State) :
    exec (.doOverload sl channel milliamp) s = execDoOverload sl channel milliamp s := rfl
theorem exec_doGroupLimit (sl : Slot) (group : Nat) (s : State) :
    exec (.doGroupLimit sl group) s = execDoGroupLimit sl group s := rfl
theorem exec_doOvertemp (sl : Slot) (channel : Nat) (s : State) :
    exec (.doOvertemp sl channel) s = execDoOvertemp sl channel s := rfl
theorem exec_doOpenWire (sl : Slot) (channel : Nat) (s : State) :
    exec (.doOpenWire sl channel) s = execDoOpenWire sl channel s := rfl
theorem exec_doLatchRearm (sl : Slot) (kind : Nat) (channel : Nat) (s : State) :
    exec (.doLatchRearm sl kind channel) s = execDoLatchRearm sl kind channel s := rfl
theorem exec_doDiagClear (sl : Slot) (kind : Nat) (channel : Nat) (bits : W16) (s : State) :
    exec (.doDiagClear sl kind channel bits) s = execDoDiagClear sl kind channel bits s := rfl
theorem exec_fdoOverload (sl : Slot) (channel : Nat) (s : State) :
    exec (.fdoOverload sl channel) s = execFdoOverload sl channel s := rfl
theorem exec_vigilExpiry (sl : Slot) (kind : Nat) (channel : Nat) (s : State) :
    exec (.vigilExpiry sl kind channel) s = execVigilExpiry sl kind channel s := rfl
theorem exec_soTestSlot (sl : Slot) (slotNo : Nat) (s : State) :
    exec (.soTestSlot sl slotNo) s = execSoTestSlot sl slotNo s := rfl
theorem exec_soTestEnd (sl : Slot) (pass : Bool) (fed : Bool) (s : State) :
    exec (.soTestEnd sl pass fed) s = execSoTestEnd sl pass fed s := rfl
theorem exec_soReleaseTimeout (sl : Slot) (channel : Nat) (s : State) :
    exec (.soReleaseTimeout sl channel) s = execSoReleaseTimeout sl channel s := rfl
theorem exec_edmInputChange (sl : Slot) (channel : Nat) (level : Bool) (s : State) :
    exec (.edmInputChange sl channel level) s = execEdmInputChange sl channel level s := rfl
theorem exec_edmTimeExpiry (sl : Slot) (channel : Nat) (s : State) :
    exec (.edmTimeExpiry sl channel) s = execEdmTimeExpiry sl channel s := rfl
theorem exec_fallbackLimitExpiry (sl : Slot) (channel : Nat) (s : State) :
    exec (.fallbackLimitExpiry sl channel) s = execFallbackLimitExpiry sl channel s := rfl
theorem exec_haloSelfCheck (sl : Slot) (vectorsPass : Bool) (s : State) :
    exec (.haloSelfCheck sl vectorsPass) s = execHaloSelfCheck sl vectorsPass s := rfl
theorem exec_handoverLanternResume (sl : Slot) (s : State) :
    exec (.handoverLanternResume sl) s = execHandoverLanternResume sl s := rfl
theorem exec_handoverPortSwitch (sl : Slot) (port : Nat) (s : State) :
    exec (.handoverPortSwitch sl port) s = execHandoverPortSwitch sl port s := rfl
theorem exec_imageConfirm (sl : Slot) (s : State) :
    exec (.imageConfirm sl) s = execImageConfirm sl s := rfl
theorem exec_confirmWindowClose (sl : Slot) (s : State) :
    exec (.confirmWindowClose sl) s = execConfirmWindowClose sl s := rfl
theorem exec_fuseStepDone (sl : Slot) (s : State) :
    exec (.fuseStepDone sl) s = execFuseStepDone sl s := rfl
theorem exec_relayOfferReceive (sl : Slot) (o : RelayOffer) (s : State) :
    exec (.relayOfferReceive sl o) s = execRelayOfferReceive sl o s := rfl
theorem exec_relayAcceptReceive (sl : Slot) (tid : W32) (result : Nat) (s : State) :
    exec (.relayAcceptReceive sl tid result) s = execRelayAcceptReceive sl tid result s := rfl
theorem exec_relayDataReceive (sl : Slot) (tid : W32) (block fragment : Nat) (payload : Bytes) (s : State) :
    exec (.relayDataReceive sl tid block fragment payload) s = execRelayDataReceive sl tid block fragment payload s := rfl
theorem exec_relayBlockAckReceive (sl : Slot) (tid : W32) (block : Nat) (bad : Bool) (s : State) :
    exec (.relayBlockAckReceive sl tid block bad) s = execRelayBlockAckReceive sl tid block bad s := rfl
theorem exec_relayReportReceive (sl : Slot) (tid : W32) (index : Nat) (cls : Nat) (result code : Nat) (stored : Nat) (s : State) :
    exec (.relayReportReceive sl tid index cls result code stored) s = execRelayReportReceive sl tid index cls result code stored s := rfl
theorem exec_relayOfferTimeout (sl : Slot) (s : State) :
    exec (.relayOfferTimeout sl) s = execRelayOfferTimeout sl s := rfl
theorem exec_relayBlockAckTimeout (sl : Slot) (s : State) :
    exec (.relayBlockAckTimeout sl) s = execRelayBlockAckTimeout sl s := rfl
theorem exec_relayProgressTimeout (sl : Slot) (s : State) :
    exec (.relayProgressTimeout sl) s = execRelayProgressTimeout sl s := rfl
theorem exec_maintLeaseExpiry (sl : Slot) (cls : Nat) (s : State) :
    exec (.maintLeaseExpiry sl cls) s = execMaintLeaseExpiry sl cls s := rfl
theorem exec_maintWaitTimeout (sl : Slot) (qp : Nat) (ticket : W64) (s : State) :
    exec (.maintWaitTimeout sl qp ticket) s = execMaintWaitTimeout sl qp ticket s := rfl
theorem exec_logicFeedLost (sl : Slot) (feed : Nat) (millivolt : Nat) (s : State) :
    exec (.logicFeedLost sl feed millivolt) s = execLogicFeedLost sl feed millivolt s := rfl
theorem exec_logicFeedRestored (sl : Slot) (feed : Nat) (millivolt : Nat) (s : State) :
    exec (.logicFeedRestored sl feed millivolt) s = execLogicFeedRestored sl feed millivolt s := rfl
theorem exec_fieldFeedLost (sl : Slot) (millivolt : Nat) (s : State) :
    exec (.fieldFeedLost sl millivolt) s = execFieldFeedLost sl millivolt s := rfl
theorem exec_fieldFeedRestored (sl : Slot) (millivolt : Nat) (s : State) :
    exec (.fieldFeedRestored sl millivolt) s = execFieldFeedRestored sl millivolt s := rfl
theorem exec_holdupReserveUpdate (sl : Slot) (present at46 : Nat) (bank : Nat) (s : State) :
    exec (.holdupReserveUpdate sl present at46 bank) s = execHoldupReserveUpdate sl present at46 bank s := rfl
theorem exec_logicInputLowTimeout (sl : Slot) (s : State) :
    exec (.logicInputLowTimeout sl) s = execLogicInputLowTimeout sl s := rfl
theorem exec_powerDownComplete (sl : Slot) (s : State) :
    exec (.powerDownComplete sl) s = execPowerDownComplete sl s := rfl
theorem exec_ejectorLeverOpen (sl : Slot) (s : State) :
    exec (.ejectorLeverOpen sl) s = execEjectorLeverOpen sl s := rfl
theorem exec_ejectorLeverClosed (sl : Slot) (s : State) :
    exec (.ejectorLeverClosed sl) s = execEjectorLeverClosed sl s := rfl
theorem exec_junctionRead (sl : Slot) (t0 t1 t2 t3 : Int) (s : State) :
    exec (.junctionRead sl t0 t1 t2 t3) s = execJunctionRead sl t0 t1 t2 t3 s := rfl
theorem exec_coldPlateRead (sl : Slot) (t : Int) (coolFor10s : Bool) (s : State) :
    exec (.coldPlateRead sl t coolFor10s) s = execColdPlateRead sl t coolFor10s s := rfl
theorem exec_mresetRelease (sl : Slot) (s : State) :
    exec (.mresetRelease sl) s = execMresetRelease sl s := rfl
theorem exec_perstRelease (sl : Slot) (s : State) :
    exec (.perstRelease sl) s = execPerstRelease sl s := rfl
theorem exec_pcieLinkTrained (sl : Slot) (s : State) :
    exec (.pcieLinkTrained sl) s = execPcieLinkTrained sl s := rfl
theorem exec_ringLaneLinkUp (sl : Slot) (lane : Nat) (s : State) :
    exec (.ringLaneLinkUp sl lane) s = execRingLaneLinkUp sl lane s := rfl
theorem exec_dropPowerUp (id : Nat) (linkUp linkDown : Bool) (s : State) :
    exec (.dropPowerUp id linkUp linkDown) s = execDropPowerUp id linkUp linkDown s := rfl
theorem exec_dropPowerLoss (id : Nat) (s : State) :
    exec (.dropPowerLoss id) s = execDropPowerLoss id s := rfl
theorem exec_dropRowReceive (id : Nat) (f : CanFrame) (s : State) :
    exec (.dropRowReceive id f) s = execDropRowReceive id f s := rfl
theorem exec_dropInSlotTime (id : Nat) (s : State) :
    exec (.dropInSlotTime id) s = execDropInSlotTime id s := rfl
theorem exec_lineDropRequestReceive (id : Nat) (bytes : Bytes) (s : State) :
    exec (.lineDropRequestReceive id bytes) s = execLineDropRequestReceive id bytes s := rfl
theorem exec_witnessHoldoffEnd (s : State) :
    exec (.witnessHoldoffEnd) s = execWitnessHoldoffEnd s := rfl
theorem exec_syncRelayBlockAckReceive (sl : Slot) (good : Bool) (s : State) :
    exec (.syncRelayBlockAckReceive sl good) s = execSyncRelayBlockAckReceive sl good s := rfl
theorem exec_imageVerdictReceive (sl : Slot) (pass : Bool) (code : Nat) (s : State) :
    exec (.imageVerdictReceive sl pass code) s = execImageVerdictReceive sl pass code s := rfl
theorem exec_ptpAnnounceSend (sl : Slot) (s : State) :
    exec (.ptpAnnounceSend sl) s = execPtpAnnounceSend sl s := rfl
theorem exec_ptpDelayReqSend (sl : Slot) (port : Nat) (s : State) :
    exec (.ptpDelayReqSend sl port) s = execPtpDelayReqSend sl port s := rfl

end Sys2Proof.Machine
end

