-- ==== Sys2Proof/Laws/State.lean ====
section
/-! SUPPORT. Laws/State.lean: what each named update of the state and of a module leaves, one lemma per field, true by unfolding. -/

namespace Sys2Proof.Machine
open Sys2Proof

/-! ### The slots -/

@[simp] theorem otherSlot_a : otherSlot .a = .b := rfl
@[simp] theorem otherSlot_b : otherSlot .b = .a := rfl
@[simp] theorem otherSlot_otherSlot (sl : Slot) : otherSlot (otherSlot sl) = sl := by cases sl <;> rfl
@[simp] theorem otherSlot_ne (sl : Slot) : otherSlot sl ≠ sl := by cases sl <;> decide
@[simp] theorem modOf_a (s : State) : modOf s .a = s.modA := rfl
@[simp] theorem modOf_b (s : State) : modOf s .b = s.modB := rfl
@[simp] theorem withMod_same (s : State) (sl : Slot) (m : Module) : modOf (withMod s sl m) sl = m := by cases sl <;> rfl
@[simp] theorem withMod_other (s : State) (sl : Slot) (m : Module) : modOf (withMod s sl m) (otherSlot sl) = modOf s (otherSlot sl) := by
  cases sl <;> rfl
@[simp] theorem withMod_other_same (s : State) (sl : Slot) (m : Module) : modOf (withMod s (otherSlot sl) m) sl = modOf s sl := by
  cases sl <;> rfl
@[simp] theorem withMod_witness (s : State) (sl : Slot) (m : Module) : (withMod s sl m).witness = s.witness := by cases sl <;> rfl
@[simp] theorem withMod_stations (s : State) (sl : Slot) (m : Module) : (withMod s sl m).stations = s.stations := by cases sl <;> rfl
@[simp] theorem withMod_fresh (s : State) (sl : Slot) (m : Module) : (withMod s sl m).fresh = s.fresh := by cases sl <;> rfl
@[simp] theorem withMod_pending (s : State) (sl : Slot) (m : Module) : (withMod s sl m).pending = s.pending := by cases sl <;> rfl
@[simp] theorem withMod_self (s : State) (sl : Slot) : withMod s sl (modOf s sl) = s := by cases sl <;> rfl
@[simp] theorem withMod_withMod (s : State) (sl : Slot) (m n : Module) : withMod (withMod s sl m) sl n = withMod s sl n := by
  cases sl <;> rfl

/-! ### What a module sends -/

@[simp] theorem emit_slot (m : Module) (e : Emit) : (emit m e).slot = m.slot := rfl
@[simp] theorem emits_slot (m : Module) (es : List Emit) : (emits m es).slot = m.slot := rfl
@[simp] theorem emit_hw (m : Module) (e : Emit) : (emit m e).hw = m.hw := rfl
@[simp] theorem emits_hw (m : Module) (es : List Emit) : (emits m es).hw = m.hw := rfl
@[simp] theorem emit_power (m : Module) (e : Emit) : (emit m e).power = m.power := rfl
@[simp] theorem emits_power (m : Module) (es : List Emit) : (emits m es).power = m.power := rfl
@[simp] theorem emit_boot (m : Module) (e : Emit) : (emit m e).boot = m.boot := rfl
@[simp] theorem emits_boot (m : Module) (es : List Emit) : (emits m es).boot = m.boot := rfl
@[simp] theorem emit_mail (m : Module) (e : Emit) : (emit m e).mail = m.mail := rfl
@[simp] theorem emits_mail (m : Module) (es : List Emit) : (emits m es).mail = m.mail := rfl
@[simp] theorem emit_store (m : Module) (e : Emit) : (emit m e).store = m.store := rfl
@[simp] theorem emits_store (m : Module) (es : List Emit) : (emits m es).store = m.store := rfl
@[simp] theorem emit_exec (m : Module) (e : Emit) : (emit m e).exec = m.exec := rfl
@[simp] theorem emits_exec (m : Module) (es : List Emit) : (emits m es).exec = m.exec := rfl
@[simp] theorem emit_glint (m : Module) (e : Emit) : (emit m e).glint = m.glint := rfl
@[simp] theorem emits_glint (m : Module) (es : List Emit) : (emits m es).glint = m.glint := rfl
@[simp] theorem emit_field (m : Module) (e : Emit) : (emit m e).field = m.field := rfl
@[simp] theorem emits_field (m : Module) (es : List Emit) : (emits m es).field = m.field := rfl
@[simp] theorem emit_pair (m : Module) (e : Emit) : (emit m e).pair = m.pair := rfl
@[simp] theorem emits_pair (m : Module) (es : List Emit) : (emits m es).pair = m.pair := rfl
@[simp] theorem emit_alm (m : Module) (e : Emit) : (emit m e).alm = m.alm := rfl
@[simp] theorem emits_alm (m : Module) (es : List Emit) : (emits m es).alm = m.alm := rfl
@[simp] theorem emit_chron (m : Module) (e : Emit) : (emit m e).chron = m.chron := rfl
@[simp] theorem emits_chron (m : Module) (es : List Emit) : (emits m es).chron = m.chron := rfl
@[simp] theorem emit_lio (m : Module) (e : Emit) : (emit m e).lio = m.lio := rfl
@[simp] theorem emits_lio (m : Module) (es : List Emit) : (emits m es).lio = m.lio := rfl
@[simp] theorem emit_halo (m : Module) (e : Emit) : (emit m e).halo = m.halo := rfl
@[simp] theorem emits_halo (m : Module) (es : List Emit) : (emits m es).halo = m.halo := rfl
@[simp] theorem emit_maint (m : Module) (e : Emit) : (emit m e).maint = m.maint := rfl
@[simp] theorem emits_maint (m : Module) (es : List Emit) : (emits m es).maint = m.maint := rfl
@[simp] theorem emit_diag (m : Module) (e : Emit) : (emit m e).diag = m.diag := rfl
@[simp] theorem emits_diag (m : Module) (es : List Emit) : (emits m es).diag = m.diag := rfl
@[simp] theorem emit_phys (m : Module) (e : Emit) : (emit m e).phys = m.phys := rfl
@[simp] theorem emits_phys (m : Module) (es : List Emit) : (emits m es).phys = m.phys := rfl
@[simp] theorem emit_out (m : Module) (e : Emit) : (emit m e).out = m.out ++ [e] := rfl
@[simp] theorem emits_out (m : Module) (es : List Emit) : (emits m es).out = m.out ++ es := rfl

/-! ### The parts of a module -/

@[simp] theorem almMod_slot (m : Module) (f : Alm → Alm) : (almMod m f).slot = m.slot := rfl
@[simp] theorem almMod_hw (m : Module) (f : Alm → Alm) : (almMod m f).hw = m.hw := rfl
@[simp] theorem almMod_power (m : Module) (f : Alm → Alm) : (almMod m f).power = m.power := rfl
@[simp] theorem almMod_boot (m : Module) (f : Alm → Alm) : (almMod m f).boot = m.boot := rfl
@[simp] theorem almMod_mail (m : Module) (f : Alm → Alm) : (almMod m f).mail = m.mail := rfl
@[simp] theorem almMod_store (m : Module) (f : Alm → Alm) : (almMod m f).store = m.store := rfl
@[simp] theorem almMod_exec (m : Module) (f : Alm → Alm) : (almMod m f).exec = m.exec := rfl
@[simp] theorem almMod_glint (m : Module) (f : Alm → Alm) : (almMod m f).glint = m.glint := rfl
@[simp] theorem almMod_field (m : Module) (f : Alm → Alm) : (almMod m f).field = m.field := rfl
@[simp] theorem almMod_pair (m : Module) (f : Alm → Alm) : (almMod m f).pair = m.pair := rfl
@[simp] theorem almMod_alm (m : Module) (f : Alm → Alm) : (almMod m f).alm = f m.alm := rfl
@[simp] theorem almMod_chron (m : Module) (f : Alm → Alm) : (almMod m f).chron = m.chron := rfl
@[simp] theorem almMod_lio (m : Module) (f : Alm → Alm) : (almMod m f).lio = m.lio := rfl
@[simp] theorem almMod_halo (m : Module) (f : Alm → Alm) : (almMod m f).halo = m.halo := rfl
@[simp] theorem almMod_maint (m : Module) (f : Alm → Alm) : (almMod m f).maint = m.maint := rfl
@[simp] theorem almMod_diag (m : Module) (f : Alm → Alm) : (almMod m f).diag = m.diag := rfl
@[simp] theorem almMod_phys (m : Module) (f : Alm → Alm) : (almMod m f).phys = m.phys := rfl
@[simp] theorem almMod_out (m : Module) (f : Alm → Alm) : (almMod m f).out = m.out := rfl

@[simp] theorem chronMod_slot (m : Module) (f : Chron → Chron) : (chronMod m f).slot = m.slot := rfl
@[simp] theorem chronMod_hw (m : Module) (f : Chron → Chron) : (chronMod m f).hw = m.hw := rfl
@[simp] theorem chronMod_power (m : Module) (f : Chron → Chron) : (chronMod m f).power = m.power := rfl
@[simp] theorem chronMod_boot (m : Module) (f : Chron → Chron) : (chronMod m f).boot = m.boot := rfl
@[simp] theorem chronMod_mail (m : Module) (f : Chron → Chron) : (chronMod m f).mail = m.mail := rfl
@[simp] theorem chronMod_store (m : Module) (f : Chron → Chron) : (chronMod m f).store = m.store := rfl
@[simp] theorem chronMod_exec (m : Module) (f : Chron → Chron) : (chronMod m f).exec = m.exec := rfl
@[simp] theorem chronMod_glint (m : Module) (f : Chron → Chron) : (chronMod m f).glint = m.glint := rfl
@[simp] theorem chronMod_field (m : Module) (f : Chron → Chron) : (chronMod m f).field = m.field := rfl
@[simp] theorem chronMod_pair (m : Module) (f : Chron → Chron) : (chronMod m f).pair = m.pair := rfl
@[simp] theorem chronMod_alm (m : Module) (f : Chron → Chron) : (chronMod m f).alm = m.alm := rfl
@[simp] theorem chronMod_chron (m : Module) (f : Chron → Chron) : (chronMod m f).chron = f m.chron := rfl
@[simp] theorem chronMod_lio (m : Module) (f : Chron → Chron) : (chronMod m f).lio = m.lio := rfl
@[simp] theorem chronMod_halo (m : Module) (f : Chron → Chron) : (chronMod m f).halo = m.halo := rfl
@[simp] theorem chronMod_maint (m : Module) (f : Chron → Chron) : (chronMod m f).maint = m.maint := rfl
@[simp] theorem chronMod_diag (m : Module) (f : Chron → Chron) : (chronMod m f).diag = m.diag := rfl
@[simp] theorem chronMod_phys (m : Module) (f : Chron → Chron) : (chronMod m f).phys = m.phys := rfl
@[simp] theorem chronMod_out (m : Module) (f : Chron → Chron) : (chronMod m f).out = m.out := rfl

@[simp] theorem xMod_slot (m : Module) (f : Exec → Exec) : (xMod m f).slot = m.slot := rfl
@[simp] theorem xMod_hw (m : Module) (f : Exec → Exec) : (xMod m f).hw = m.hw := rfl
@[simp] theorem xMod_power (m : Module) (f : Exec → Exec) : (xMod m f).power = m.power := rfl
@[simp] theorem xMod_boot (m : Module) (f : Exec → Exec) : (xMod m f).boot = m.boot := rfl
@[simp] theorem xMod_mail (m : Module) (f : Exec → Exec) : (xMod m f).mail = m.mail := rfl
@[simp] theorem xMod_store (m : Module) (f : Exec → Exec) : (xMod m f).store = m.store := rfl
@[simp] theorem xMod_exec (m : Module) (f : Exec → Exec) : (xMod m f).exec = f m.exec := rfl
@[simp] theorem xMod_glint (m : Module) (f : Exec → Exec) : (xMod m f).glint = m.glint := rfl
@[simp] theorem xMod_field (m : Module) (f : Exec → Exec) : (xMod m f).field = m.field := rfl
@[simp] theorem xMod_pair (m : Module) (f : Exec → Exec) : (xMod m f).pair = m.pair := rfl
@[simp] theorem xMod_alm (m : Module) (f : Exec → Exec) : (xMod m f).alm = m.alm := rfl
@[simp] theorem xMod_chron (m : Module) (f : Exec → Exec) : (xMod m f).chron = m.chron := rfl
@[simp] theorem xMod_lio (m : Module) (f : Exec → Exec) : (xMod m f).lio = m.lio := rfl
@[simp] theorem xMod_halo (m : Module) (f : Exec → Exec) : (xMod m f).halo = m.halo := rfl
@[simp] theorem xMod_maint (m : Module) (f : Exec → Exec) : (xMod m f).maint = m.maint := rfl
@[simp] theorem xMod_diag (m : Module) (f : Exec → Exec) : (xMod m f).diag = m.diag := rfl
@[simp] theorem xMod_phys (m : Module) (f : Exec → Exec) : (xMod m f).phys = m.phys := rfl
@[simp] theorem xMod_out (m : Module) (f : Exec → Exec) : (xMod m f).out = m.out := rfl

@[simp] theorem diagMod_slot (m : Module) (f : Diag → Diag) : (diagMod m f).slot = m.slot := rfl
@[simp] theorem diagMod_hw (m : Module) (f : Diag → Diag) : (diagMod m f).hw = m.hw := rfl
@[simp] theorem diagMod_power (m : Module) (f : Diag → Diag) : (diagMod m f).power = m.power := rfl
@[simp] theorem diagMod_boot (m : Module) (f : Diag → Diag) : (diagMod m f).boot = m.boot := rfl
@[simp] theorem diagMod_mail (m : Module) (f : Diag → Diag) : (diagMod m f).mail = m.mail := rfl
@[simp] theorem diagMod_store (m : Module) (f : Diag → Diag) : (diagMod m f).store = m.store := rfl
@[simp] theorem diagMod_exec (m : Module) (f : Diag → Diag) : (diagMod m f).exec = m.exec := rfl
@[simp] theorem diagMod_glint (m : Module) (f : Diag → Diag) : (diagMod m f).glint = m.glint := rfl
@[simp] theorem diagMod_field (m : Module) (f : Diag → Diag) : (diagMod m f).field = m.field := rfl
@[simp] theorem diagMod_pair (m : Module) (f : Diag → Diag) : (diagMod m f).pair = m.pair := rfl
@[simp] theorem diagMod_alm (m : Module) (f : Diag → Diag) : (diagMod m f).alm = m.alm := rfl
@[simp] theorem diagMod_chron (m : Module) (f : Diag → Diag) : (diagMod m f).chron = m.chron := rfl
@[simp] theorem diagMod_lio (m : Module) (f : Diag → Diag) : (diagMod m f).lio = m.lio := rfl
@[simp] theorem diagMod_halo (m : Module) (f : Diag → Diag) : (diagMod m f).halo = m.halo := rfl
@[simp] theorem diagMod_maint (m : Module) (f : Diag → Diag) : (diagMod m f).maint = m.maint := rfl
@[simp] theorem diagMod_diag (m : Module) (f : Diag → Diag) : (diagMod m f).diag = f m.diag := rfl
@[simp] theorem diagMod_phys (m : Module) (f : Diag → Diag) : (diagMod m f).phys = m.phys := rfl
@[simp] theorem diagMod_out (m : Module) (f : Diag → Diag) : (diagMod m f).out = m.out := rfl

@[simp] theorem gMod_slot (m : Module) (f : Glint → Glint) : (gMod m f).slot = m.slot := rfl
@[simp] theorem gMod_hw (m : Module) (f : Glint → Glint) : (gMod m f).hw = m.hw := rfl
@[simp] theorem gMod_power (m : Module) (f : Glint → Glint) : (gMod m f).power = m.power := rfl
@[simp] theorem gMod_boot (m : Module) (f : Glint → Glint) : (gMod m f).boot = m.boot := rfl
@[simp] theorem gMod_mail (m : Module) (f : Glint → Glint) : (gMod m f).mail = m.mail := rfl
@[simp] theorem gMod_store (m : Module) (f : Glint → Glint) : (gMod m f).store = m.store := rfl
@[simp] theorem gMod_exec (m : Module) (f : Glint → Glint) : (gMod m f).exec = m.exec := rfl
@[simp] theorem gMod_glint (m : Module) (f : Glint → Glint) : (gMod m f).glint = f m.glint := rfl
@[simp] theorem gMod_field (m : Module) (f : Glint → Glint) : (gMod m f).field = m.field := rfl
@[simp] theorem gMod_pair (m : Module) (f : Glint → Glint) : (gMod m f).pair = m.pair := rfl
@[simp] theorem gMod_alm (m : Module) (f : Glint → Glint) : (gMod m f).alm = m.alm := rfl
@[simp] theorem gMod_chron (m : Module) (f : Glint → Glint) : (gMod m f).chron = m.chron := rfl
@[simp] theorem gMod_lio (m : Module) (f : Glint → Glint) : (gMod m f).lio = m.lio := rfl
@[simp] theorem gMod_halo (m : Module) (f : Glint → Glint) : (gMod m f).halo = m.halo := rfl
@[simp] theorem gMod_maint (m : Module) (f : Glint → Glint) : (gMod m f).maint = m.maint := rfl
@[simp] theorem gMod_diag (m : Module) (f : Glint → Glint) : (gMod m f).diag = m.diag := rfl
@[simp] theorem gMod_phys (m : Module) (f : Glint → Glint) : (gMod m f).phys = m.phys := rfl
@[simp] theorem gMod_out (m : Module) (f : Glint → Glint) : (gMod m f).out = m.out := rfl

@[simp] theorem haloMod_slot (m : Module) (f : Halo → Halo) : (haloMod m f).slot = m.slot := rfl
@[simp] theorem haloMod_hw (m : Module) (f : Halo → Halo) : (haloMod m f).hw = m.hw := rfl
@[simp] theorem haloMod_power (m : Module) (f : Halo → Halo) : (haloMod m f).power = m.power := rfl
@[simp] theorem haloMod_boot (m : Module) (f : Halo → Halo) : (haloMod m f).boot = m.boot := rfl
@[simp] theorem haloMod_mail (m : Module) (f : Halo → Halo) : (haloMod m f).mail = m.mail := rfl
@[simp] theorem haloMod_store (m : Module) (f : Halo → Halo) : (haloMod m f).store = m.store := rfl
@[simp] theorem haloMod_exec (m : Module) (f : Halo → Halo) : (haloMod m f).exec = m.exec := rfl
@[simp] theorem haloMod_glint (m : Module) (f : Halo → Halo) : (haloMod m f).glint = m.glint := rfl
@[simp] theorem haloMod_field (m : Module) (f : Halo → Halo) : (haloMod m f).field = m.field := rfl
@[simp] theorem haloMod_pair (m : Module) (f : Halo → Halo) : (haloMod m f).pair = m.pair := rfl
@[simp] theorem haloMod_alm (m : Module) (f : Halo → Halo) : (haloMod m f).alm = m.alm := rfl
@[simp] theorem haloMod_chron (m : Module) (f : Halo → Halo) : (haloMod m f).chron = m.chron := rfl
@[simp] theorem haloMod_lio (m : Module) (f : Halo → Halo) : (haloMod m f).lio = m.lio := rfl
@[simp] theorem haloMod_halo (m : Module) (f : Halo → Halo) : (haloMod m f).halo = f m.halo := rfl
@[simp] theorem haloMod_maint (m : Module) (f : Halo → Halo) : (haloMod m f).maint = m.maint := rfl
@[simp] theorem haloMod_diag (m : Module) (f : Halo → Halo) : (haloMod m f).diag = m.diag := rfl
@[simp] theorem haloMod_phys (m : Module) (f : Halo → Halo) : (haloMod m f).phys = m.phys := rfl
@[simp] theorem haloMod_out (m : Module) (f : Halo → Halo) : (haloMod m f).out = m.out := rfl

@[simp] theorem bootMod_slot (m : Module) (f : Boot → Boot) : (bootMod m f).slot = m.slot := rfl
@[simp] theorem bootMod_hw (m : Module) (f : Boot → Boot) : (bootMod m f).hw = m.hw := rfl
@[simp] theorem bootMod_power (m : Module) (f : Boot → Boot) : (bootMod m f).power = m.power := rfl
@[simp] theorem bootMod_boot (m : Module) (f : Boot → Boot) : (bootMod m f).boot = f m.boot := rfl
@[simp] theorem bootMod_mail (m : Module) (f : Boot → Boot) : (bootMod m f).mail = m.mail := rfl
@[simp] theorem bootMod_store (m : Module) (f : Boot → Boot) : (bootMod m f).store = m.store := rfl
@[simp] theorem bootMod_exec (m : Module) (f : Boot → Boot) : (bootMod m f).exec = m.exec := rfl
@[simp] theorem bootMod_glint (m : Module) (f : Boot → Boot) : (bootMod m f).glint = m.glint := rfl
@[simp] theorem bootMod_field (m : Module) (f : Boot → Boot) : (bootMod m f).field = m.field := rfl
@[simp] theorem bootMod_pair (m : Module) (f : Boot → Boot) : (bootMod m f).pair = m.pair := rfl
@[simp] theorem bootMod_alm (m : Module) (f : Boot → Boot) : (bootMod m f).alm = m.alm := rfl
@[simp] theorem bootMod_chron (m : Module) (f : Boot → Boot) : (bootMod m f).chron = m.chron := rfl
@[simp] theorem bootMod_lio (m : Module) (f : Boot → Boot) : (bootMod m f).lio = m.lio := rfl
@[simp] theorem bootMod_halo (m : Module) (f : Boot → Boot) : (bootMod m f).halo = m.halo := rfl
@[simp] theorem bootMod_maint (m : Module) (f : Boot → Boot) : (bootMod m f).maint = m.maint := rfl
@[simp] theorem bootMod_diag (m : Module) (f : Boot → Boot) : (bootMod m f).diag = m.diag := rfl
@[simp] theorem bootMod_phys (m : Module) (f : Boot → Boot) : (bootMod m f).phys = m.phys := rfl
@[simp] theorem bootMod_out (m : Module) (f : Boot → Boot) : (bootMod m f).out = m.out := rfl

@[simp] theorem lioMod_slot (m : Module) (f : Lio → Lio) : (lioMod m f).slot = m.slot := rfl
@[simp] theorem lioMod_hw (m : Module) (f : Lio → Lio) : (lioMod m f).hw = m.hw := rfl
@[simp] theorem lioMod_power (m : Module) (f : Lio → Lio) : (lioMod m f).power = m.power := rfl
@[simp] theorem lioMod_boot (m : Module) (f : Lio → Lio) : (lioMod m f).boot = m.boot := rfl
@[simp] theorem lioMod_mail (m : Module) (f : Lio → Lio) : (lioMod m f).mail = m.mail := rfl
@[simp] theorem lioMod_store (m : Module) (f : Lio → Lio) : (lioMod m f).store = m.store := rfl
@[simp] theorem lioMod_exec (m : Module) (f : Lio → Lio) : (lioMod m f).exec = m.exec := rfl
@[simp] theorem lioMod_glint (m : Module) (f : Lio → Lio) : (lioMod m f).glint = m.glint := rfl
@[simp] theorem lioMod_field (m : Module) (f : Lio → Lio) : (lioMod m f).field = m.field := rfl
@[simp] theorem lioMod_pair (m : Module) (f : Lio → Lio) : (lioMod m f).pair = m.pair := rfl
@[simp] theorem lioMod_alm (m : Module) (f : Lio → Lio) : (lioMod m f).alm = m.alm := rfl
@[simp] theorem lioMod_chron (m : Module) (f : Lio → Lio) : (lioMod m f).chron = m.chron := rfl
@[simp] theorem lioMod_lio (m : Module) (f : Lio → Lio) : (lioMod m f).lio = f m.lio := rfl
@[simp] theorem lioMod_halo (m : Module) (f : Lio → Lio) : (lioMod m f).halo = m.halo := rfl
@[simp] theorem lioMod_maint (m : Module) (f : Lio → Lio) : (lioMod m f).maint = m.maint := rfl
@[simp] theorem lioMod_diag (m : Module) (f : Lio → Lio) : (lioMod m f).diag = m.diag := rfl
@[simp] theorem lioMod_phys (m : Module) (f : Lio → Lio) : (lioMod m f).phys = m.phys := rfl
@[simp] theorem lioMod_out (m : Module) (f : Lio → Lio) : (lioMod m f).out = m.out := rfl

@[simp] theorem maintMod_slot (m : Module) (f : Maint → Maint) : (maintMod m f).slot = m.slot := rfl
@[simp] theorem maintMod_hw (m : Module) (f : Maint → Maint) : (maintMod m f).hw = m.hw := rfl
@[simp] theorem maintMod_power (m : Module) (f : Maint → Maint) : (maintMod m f).power = m.power := rfl
@[simp] theorem maintMod_boot (m : Module) (f : Maint → Maint) : (maintMod m f).boot = m.boot := rfl
@[simp] theorem maintMod_mail (m : Module) (f : Maint → Maint) : (maintMod m f).mail = m.mail := rfl
@[simp] theorem maintMod_store (m : Module) (f : Maint → Maint) : (maintMod m f).store = m.store := rfl
@[simp] theorem maintMod_exec (m : Module) (f : Maint → Maint) : (maintMod m f).exec = m.exec := rfl
@[simp] theorem maintMod_glint (m : Module) (f : Maint → Maint) : (maintMod m f).glint = m.glint := rfl
@[simp] theorem maintMod_field (m : Module) (f : Maint → Maint) : (maintMod m f).field = m.field := rfl
@[simp] theorem maintMod_pair (m : Module) (f : Maint → Maint) : (maintMod m f).pair = m.pair := rfl
@[simp] theorem maintMod_alm (m : Module) (f : Maint → Maint) : (maintMod m f).alm = m.alm := rfl
@[simp] theorem maintMod_chron (m : Module) (f : Maint → Maint) : (maintMod m f).chron = m.chron := rfl
@[simp] theorem maintMod_lio (m : Module) (f : Maint → Maint) : (maintMod m f).lio = m.lio := rfl
@[simp] theorem maintMod_halo (m : Module) (f : Maint → Maint) : (maintMod m f).halo = m.halo := rfl
@[simp] theorem maintMod_maint (m : Module) (f : Maint → Maint) : (maintMod m f).maint = f m.maint := rfl
@[simp] theorem maintMod_diag (m : Module) (f : Maint → Maint) : (maintMod m f).diag = m.diag := rfl
@[simp] theorem maintMod_phys (m : Module) (f : Maint → Maint) : (maintMod m f).phys = m.phys := rfl
@[simp] theorem maintMod_out (m : Module) (f : Maint → Maint) : (maintMod m f).out = m.out := rfl

@[simp] theorem powerMod_slot (m : Module) (f : Power → Power) : (powerMod m f).slot = m.slot := rfl
@[simp] theorem powerMod_hw (m : Module) (f : Power → Power) : (powerMod m f).hw = m.hw := rfl
@[simp] theorem powerMod_power (m : Module) (f : Power → Power) : (powerMod m f).power = f m.power := rfl
@[simp] theorem powerMod_boot (m : Module) (f : Power → Power) : (powerMod m f).boot = m.boot := rfl
@[simp] theorem powerMod_mail (m : Module) (f : Power → Power) : (powerMod m f).mail = m.mail := rfl
@[simp] theorem powerMod_store (m : Module) (f : Power → Power) : (powerMod m f).store = m.store := rfl
@[simp] theorem powerMod_exec (m : Module) (f : Power → Power) : (powerMod m f).exec = m.exec := rfl
@[simp] theorem powerMod_glint (m : Module) (f : Power → Power) : (powerMod m f).glint = m.glint := rfl
@[simp] theorem powerMod_field (m : Module) (f : Power → Power) : (powerMod m f).field = m.field := rfl
@[simp] theorem powerMod_pair (m : Module) (f : Power → Power) : (powerMod m f).pair = m.pair := rfl
@[simp] theorem powerMod_alm (m : Module) (f : Power → Power) : (powerMod m f).alm = m.alm := rfl
@[simp] theorem powerMod_chron (m : Module) (f : Power → Power) : (powerMod m f).chron = m.chron := rfl
@[simp] theorem powerMod_lio (m : Module) (f : Power → Power) : (powerMod m f).lio = m.lio := rfl
@[simp] theorem powerMod_halo (m : Module) (f : Power → Power) : (powerMod m f).halo = m.halo := rfl
@[simp] theorem powerMod_maint (m : Module) (f : Power → Power) : (powerMod m f).maint = m.maint := rfl
@[simp] theorem powerMod_diag (m : Module) (f : Power → Power) : (powerMod m f).diag = m.diag := rfl
@[simp] theorem powerMod_phys (m : Module) (f : Power → Power) : (powerMod m f).phys = m.phys := rfl
@[simp] theorem powerMod_out (m : Module) (f : Power → Power) : (powerMod m f).out = m.out := rfl

@[simp] theorem pairMod_slot (m : Module) (f : Pair → Pair) : (pairMod m f).slot = m.slot := rfl
@[simp] theorem pairMod_hw (m : Module) (f : Pair → Pair) : (pairMod m f).hw = m.hw := rfl
@[simp] theorem pairMod_power (m : Module) (f : Pair → Pair) : (pairMod m f).power = m.power := rfl
@[simp] theorem pairMod_boot (m : Module) (f : Pair → Pair) : (pairMod m f).boot = m.boot := rfl
@[simp] theorem pairMod_mail (m : Module) (f : Pair → Pair) : (pairMod m f).mail = m.mail := rfl
@[simp] theorem pairMod_store (m : Module) (f : Pair → Pair) : (pairMod m f).store = m.store := rfl
@[simp] theorem pairMod_exec (m : Module) (f : Pair → Pair) : (pairMod m f).exec = m.exec := rfl
@[simp] theorem pairMod_glint (m : Module) (f : Pair → Pair) : (pairMod m f).glint = m.glint := rfl
@[simp] theorem pairMod_field (m : Module) (f : Pair → Pair) : (pairMod m f).field = m.field := rfl
@[simp] theorem pairMod_pair (m : Module) (f : Pair → Pair) : (pairMod m f).pair = f m.pair := rfl
@[simp] theorem pairMod_alm (m : Module) (f : Pair → Pair) : (pairMod m f).alm = m.alm := rfl
@[simp] theorem pairMod_chron (m : Module) (f : Pair → Pair) : (pairMod m f).chron = m.chron := rfl
@[simp] theorem pairMod_lio (m : Module) (f : Pair → Pair) : (pairMod m f).lio = m.lio := rfl
@[simp] theorem pairMod_halo (m : Module) (f : Pair → Pair) : (pairMod m f).halo = m.halo := rfl
@[simp] theorem pairMod_maint (m : Module) (f : Pair → Pair) : (pairMod m f).maint = m.maint := rfl
@[simp] theorem pairMod_diag (m : Module) (f : Pair → Pair) : (pairMod m f).diag = m.diag := rfl
@[simp] theorem pairMod_phys (m : Module) (f : Pair → Pair) : (pairMod m f).phys = m.phys := rfl
@[simp] theorem pairMod_out (m : Module) (f : Pair → Pair) : (pairMod m f).out = m.out := rfl

@[simp] theorem mailMod_slot (m : Module) (f : Mailbox → Mailbox) : (mailMod m f).slot = m.slot := rfl
@[simp] theorem mailMod_hw (m : Module) (f : Mailbox → Mailbox) : (mailMod m f).hw = m.hw := rfl
@[simp] theorem mailMod_power (m : Module) (f : Mailbox → Mailbox) : (mailMod m f).power = m.power := rfl
@[simp] theorem mailMod_boot (m : Module) (f : Mailbox → Mailbox) : (mailMod m f).boot = m.boot := rfl
@[simp] theorem mailMod_mail (m : Module) (f : Mailbox → Mailbox) : (mailMod m f).mail = f m.mail := rfl
@[simp] theorem mailMod_store (m : Module) (f : Mailbox → Mailbox) : (mailMod m f).store = m.store := rfl
@[simp] theorem mailMod_exec (m : Module) (f : Mailbox → Mailbox) : (mailMod m f).exec = m.exec := rfl
@[simp] theorem mailMod_glint (m : Module) (f : Mailbox → Mailbox) : (mailMod m f).glint = m.glint := rfl
@[simp] theorem mailMod_field (m : Module) (f : Mailbox → Mailbox) : (mailMod m f).field = m.field := rfl
@[simp] theorem mailMod_pair (m : Module) (f : Mailbox → Mailbox) : (mailMod m f).pair = m.pair := rfl
@[simp] theorem mailMod_alm (m : Module) (f : Mailbox → Mailbox) : (mailMod m f).alm = m.alm := rfl
@[simp] theorem mailMod_chron (m : Module) (f : Mailbox → Mailbox) : (mailMod m f).chron = m.chron := rfl
@[simp] theorem mailMod_lio (m : Module) (f : Mailbox → Mailbox) : (mailMod m f).lio = m.lio := rfl
@[simp] theorem mailMod_halo (m : Module) (f : Mailbox → Mailbox) : (mailMod m f).halo = m.halo := rfl
@[simp] theorem mailMod_maint (m : Module) (f : Mailbox → Mailbox) : (mailMod m f).maint = m.maint := rfl
@[simp] theorem mailMod_diag (m : Module) (f : Mailbox → Mailbox) : (mailMod m f).diag = m.diag := rfl
@[simp] theorem mailMod_phys (m : Module) (f : Mailbox → Mailbox) : (mailMod m f).phys = m.phys := rfl
@[simp] theorem mailMod_out (m : Module) (f : Mailbox → Mailbox) : (mailMod m f).out = m.out := rfl

@[simp] theorem taskMod_slot (m : Module) (t : Nat) (f : Task → Task) : (taskMod m t f).slot = m.slot := rfl
@[simp] theorem taskMod_hw (m : Module) (t : Nat) (f : Task → Task) : (taskMod m t f).hw = m.hw := rfl
@[simp] theorem taskMod_power (m : Module) (t : Nat) (f : Task → Task) : (taskMod m t f).power = m.power := rfl
@[simp] theorem taskMod_boot (m : Module) (t : Nat) (f : Task → Task) : (taskMod m t f).boot = m.boot := rfl
@[simp] theorem taskMod_mail (m : Module) (t : Nat) (f : Task → Task) : (taskMod m t f).mail = m.mail := rfl
@[simp] theorem taskMod_store (m : Module) (t : Nat) (f : Task → Task) : (taskMod m t f).store = m.store := rfl
@[simp] theorem taskMod_glint (m : Module) (t : Nat) (f : Task → Task) : (taskMod m t f).glint = m.glint := rfl
@[simp] theorem taskMod_field (m : Module) (t : Nat) (f : Task → Task) : (taskMod m t f).field = m.field := rfl
@[simp] theorem taskMod_pair (m : Module) (t : Nat) (f : Task → Task) : (taskMod m t f).pair = m.pair := rfl
@[simp] theorem taskMod_alm (m : Module) (t : Nat) (f : Task → Task) : (taskMod m t f).alm = m.alm := rfl
@[simp] theorem taskMod_chron (m : Module) (t : Nat) (f : Task → Task) : (taskMod m t f).chron = m.chron := rfl
@[simp] theorem taskMod_lio (m : Module) (t : Nat) (f : Task → Task) : (taskMod m t f).lio = m.lio := rfl
@[simp] theorem taskMod_halo (m : Module) (t : Nat) (f : Task → Task) : (taskMod m t f).halo = m.halo := rfl
@[simp] theorem taskMod_maint (m : Module) (t : Nat) (f : Task → Task) : (taskMod m t f).maint = m.maint := rfl
@[simp] theorem taskMod_diag (m : Module) (t : Nat) (f : Task → Task) : (taskMod m t f).diag = m.diag := rfl
@[simp] theorem taskMod_phys (m : Module) (t : Nat) (f : Task → Task) : (taskMod m t f).phys = m.phys := rfl
@[simp] theorem taskMod_out (m : Module) (t : Nat) (f : Task → Task) : (taskMod m t f).out = m.out := rfl

@[simp] theorem unitMod_slot (m : Module) (u : Nat) (f : XUnit → XUnit) : (unitMod m u f).slot = m.slot := rfl
@[simp] theorem unitMod_hw (m : Module) (u : Nat) (f : XUnit → XUnit) : (unitMod m u f).hw = m.hw := rfl
@[simp] theorem unitMod_power (m : Module) (u : Nat) (f : XUnit → XUnit) : (unitMod m u f).power = m.power := rfl
@[simp] theorem unitMod_boot (m : Module) (u : Nat) (f : XUnit → XUnit) : (unitMod m u f).boot = m.boot := rfl
@[simp] theorem unitMod_mail (m : Module) (u : Nat) (f : XUnit → XUnit) : (unitMod m u f).mail = m.mail := rfl
@[simp] theorem unitMod_store (m : Module) (u : Nat) (f : XUnit → XUnit) : (unitMod m u f).store = m.store := rfl
@[simp] theorem unitMod_glint (m : Module) (u : Nat) (f : XUnit → XUnit) : (unitMod m u f).glint = m.glint := rfl
@[simp] theorem unitMod_field (m : Module) (u : Nat) (f : XUnit → XUnit) : (unitMod m u f).field = m.field := rfl
@[simp] theorem unitMod_pair (m : Module) (u : Nat) (f : XUnit → XUnit) : (unitMod m u f).pair = m.pair := rfl
@[simp] theorem unitMod_alm (m : Module) (u : Nat) (f : XUnit → XUnit) : (unitMod m u f).alm = m.alm := rfl
@[simp] theorem unitMod_chron (m : Module) (u : Nat) (f : XUnit → XUnit) : (unitMod m u f).chron = m.chron := rfl
@[simp] theorem unitMod_lio (m : Module) (u : Nat) (f : XUnit → XUnit) : (unitMod m u f).lio = m.lio := rfl
@[simp] theorem unitMod_halo (m : Module) (u : Nat) (f : XUnit → XUnit) : (unitMod m u f).halo = m.halo := rfl
@[simp] theorem unitMod_maint (m : Module) (u : Nat) (f : XUnit → XUnit) : (unitMod m u f).maint = m.maint := rfl
@[simp] theorem unitMod_diag (m : Module) (u : Nat) (f : XUnit → XUnit) : (unitMod m u f).diag = m.diag := rfl
@[simp] theorem unitMod_phys (m : Module) (u : Nat) (f : XUnit → XUnit) : (unitMod m u f).phys = m.phys := rfl
@[simp] theorem unitMod_out (m : Module) (u : Nat) (f : XUnit → XUnit) : (unitMod m u f).out = m.out := rfl

@[simp] theorem dropMod_slot (m : Module) (i : Nat) (f : DropCfg → DropCfg) : (dropMod m i f).slot = m.slot := rfl
@[simp] theorem dropMod_hw (m : Module) (i : Nat) (f : DropCfg → DropCfg) : (dropMod m i f).hw = m.hw := rfl
@[simp] theorem dropMod_power (m : Module) (i : Nat) (f : DropCfg → DropCfg) : (dropMod m i f).power = m.power := rfl
@[simp] theorem dropMod_boot (m : Module) (i : Nat) (f : DropCfg → DropCfg) : (dropMod m i f).boot = m.boot := rfl
@[simp] theorem dropMod_mail (m : Module) (i : Nat) (f : DropCfg → DropCfg) : (dropMod m i f).mail = m.mail := rfl
@[simp] theorem dropMod_store (m : Module) (i : Nat) (f : DropCfg → DropCfg) : (dropMod m i f).store = m.store := rfl
@[simp] theorem dropMod_exec (m : Module) (i : Nat) (f : DropCfg → DropCfg) : (dropMod m i f).exec = m.exec := rfl
@[simp] theorem dropMod_glint (m : Module) (i : Nat) (f : DropCfg → DropCfg) : (dropMod m i f).glint = m.glint := rfl
@[simp] theorem dropMod_pair (m : Module) (i : Nat) (f : DropCfg → DropCfg) : (dropMod m i f).pair = m.pair := rfl
@[simp] theorem dropMod_alm (m : Module) (i : Nat) (f : DropCfg → DropCfg) : (dropMod m i f).alm = m.alm := rfl
@[simp] theorem dropMod_chron (m : Module) (i : Nat) (f : DropCfg → DropCfg) : (dropMod m i f).chron = m.chron := rfl
@[simp] theorem dropMod_lio (m : Module) (i : Nat) (f : DropCfg → DropCfg) : (dropMod m i f).lio = m.lio := rfl
@[simp] theorem dropMod_halo (m : Module) (i : Nat) (f : DropCfg → DropCfg) : (dropMod m i f).halo = m.halo := rfl
@[simp] theorem dropMod_maint (m : Module) (i : Nat) (f : DropCfg → DropCfg) : (dropMod m i f).maint = m.maint := rfl
@[simp] theorem dropMod_diag (m : Module) (i : Nat) (f : DropCfg → DropCfg) : (dropMod m i f).diag = m.diag := rfl
@[simp] theorem dropMod_phys (m : Module) (i : Nat) (f : DropCfg → DropCfg) : (dropMod m i f).phys = m.phys := rfl
@[simp] theorem dropMod_out (m : Module) (i : Nat) (f : DropCfg → DropCfg) : (dropMod m i f).out = m.out := rfl

@[simp] theorem pointMod_slot (m : Module) (i : Nat) (f : PointRec → PointRec) : (pointMod m i f).slot = m.slot := rfl
@[simp] theorem pointMod_hw (m : Module) (i : Nat) (f : PointRec → PointRec) : (pointMod m i f).hw = m.hw := rfl
@[simp] theorem pointMod_power (m : Module) (i : Nat) (f : PointRec → PointRec) : (pointMod m i f).power = m.power := rfl
@[simp] theorem pointMod_boot (m : Module) (i : Nat) (f : PointRec → PointRec) : (pointMod m i f).boot = m.boot := rfl
@[simp] theorem pointMod_mail (m : Module) (i : Nat) (f : PointRec → PointRec) : (pointMod m i f).mail = m.mail := rfl
@[simp] theorem pointMod_exec (m : Module) (i : Nat) (f : PointRec → PointRec) : (pointMod m i f).exec = m.exec := rfl
@[simp] theorem pointMod_glint (m : Module) (i : Nat) (f : PointRec → PointRec) : (pointMod m i f).glint = m.glint := rfl
@[simp] theorem pointMod_field (m : Module) (i : Nat) (f : PointRec → PointRec) : (pointMod m i f).field = m.field := rfl
@[simp] theorem pointMod_pair (m : Module) (i : Nat) (f : PointRec → PointRec) : (pointMod m i f).pair = m.pair := rfl
@[simp] theorem pointMod_alm (m : Module) (i : Nat) (f : PointRec → PointRec) : (pointMod m i f).alm = m.alm := rfl
@[simp] theorem pointMod_chron (m : Module) (i : Nat) (f : PointRec → PointRec) : (pointMod m i f).chron = m.chron := rfl
@[simp] theorem pointMod_lio (m : Module) (i : Nat) (f : PointRec → PointRec) : (pointMod m i f).lio = m.lio := rfl
@[simp] theorem pointMod_halo (m : Module) (i : Nat) (f : PointRec → PointRec) : (pointMod m i f).halo = m.halo := rfl
@[simp] theorem pointMod_maint (m : Module) (i : Nat) (f : PointRec → PointRec) : (pointMod m i f).maint = m.maint := rfl
@[simp] theorem pointMod_diag (m : Module) (i : Nat) (f : PointRec → PointRec) : (pointMod m i f).diag = m.diag := rfl
@[simp] theorem pointMod_phys (m : Module) (i : Nat) (f : PointRec → PointRec) : (pointMod m i f).phys = m.phys := rfl
@[simp] theorem pointMod_out (m : Module) (i : Nat) (f : PointRec → PointRec) : (pointMod m i f).out = m.out := rfl

@[simp] theorem partMod_slot (m : Module) (p : Nat) (f : Partition → Partition) : (partMod m p f).slot = m.slot := rfl
@[simp] theorem partMod_hw (m : Module) (p : Nat) (f : Partition → Partition) : (partMod m p f).hw = m.hw := rfl
@[simp] theorem partMod_power (m : Module) (p : Nat) (f : Partition → Partition) : (partMod m p f).power = m.power := rfl
@[simp] theorem partMod_boot (m : Module) (p : Nat) (f : Partition → Partition) : (partMod m p f).boot = m.boot := rfl
@[simp] theorem partMod_mail (m : Module) (p : Nat) (f : Partition → Partition) : (partMod m p f).mail = m.mail := rfl
@[simp] theorem partMod_exec (m : Module) (p : Nat) (f : Partition → Partition) : (partMod m p f).exec = m.exec := rfl
@[simp] theorem partMod_glint (m : Module) (p : Nat) (f : Partition → Partition) : (partMod m p f).glint = m.glint := rfl
@[simp] theorem partMod_field (m : Module) (p : Nat) (f : Partition → Partition) : (partMod m p f).field = m.field := rfl
@[simp] theorem partMod_pair (m : Module) (p : Nat) (f : Partition → Partition) : (partMod m p f).pair = m.pair := rfl
@[simp] theorem partMod_alm (m : Module) (p : Nat) (f : Partition → Partition) : (partMod m p f).alm = m.alm := rfl
@[simp] theorem partMod_chron (m : Module) (p : Nat) (f : Partition → Partition) : (partMod m p f).chron = m.chron := rfl
@[simp] theorem partMod_lio (m : Module) (p : Nat) (f : Partition → Partition) : (partMod m p f).lio = m.lio := rfl
@[simp] theorem partMod_halo (m : Module) (p : Nat) (f : Partition → Partition) : (partMod m p f).halo = m.halo := rfl
@[simp] theorem partMod_maint (m : Module) (p : Nat) (f : Partition → Partition) : (partMod m p f).maint = m.maint := rfl
@[simp] theorem partMod_diag (m : Module) (p : Nat) (f : Partition → Partition) : (partMod m p f).diag = m.diag := rfl
@[simp] theorem partMod_phys (m : Module) (p : Nat) (f : Partition → Partition) : (partMod m p f).phys = m.phys := rfl
@[simp] theorem partMod_out (m : Module) (p : Nat) (f : Partition → Partition) : (partMod m p f).out = m.out := rfl

@[simp] theorem qpMod_slot (m : Module) (q : Nat) (f : Qp → Qp) : (qpMod m q f).slot = m.slot := rfl
@[simp] theorem qpMod_hw (m : Module) (q : Nat) (f : Qp → Qp) : (qpMod m q f).hw = m.hw := rfl
@[simp] theorem qpMod_power (m : Module) (q : Nat) (f : Qp → Qp) : (qpMod m q f).power = m.power := rfl
@[simp] theorem qpMod_boot (m : Module) (q : Nat) (f : Qp → Qp) : (qpMod m q f).boot = m.boot := rfl
@[simp] theorem qpMod_store (m : Module) (q : Nat) (f : Qp → Qp) : (qpMod m q f).store = m.store := rfl
@[simp] theorem qpMod_exec (m : Module) (q : Nat) (f : Qp → Qp) : (qpMod m q f).exec = m.exec := rfl
@[simp] theorem qpMod_glint (m : Module) (q : Nat) (f : Qp → Qp) : (qpMod m q f).glint = m.glint := rfl
@[simp] theorem qpMod_field (m : Module) (q : Nat) (f : Qp → Qp) : (qpMod m q f).field = m.field := rfl
@[simp] theorem qpMod_pair (m : Module) (q : Nat) (f : Qp → Qp) : (qpMod m q f).pair = m.pair := rfl
@[simp] theorem qpMod_alm (m : Module) (q : Nat) (f : Qp → Qp) : (qpMod m q f).alm = m.alm := rfl
@[simp] theorem qpMod_chron (m : Module) (q : Nat) (f : Qp → Qp) : (qpMod m q f).chron = m.chron := rfl
@[simp] theorem qpMod_lio (m : Module) (q : Nat) (f : Qp → Qp) : (qpMod m q f).lio = m.lio := rfl
@[simp] theorem qpMod_halo (m : Module) (q : Nat) (f : Qp → Qp) : (qpMod m q f).halo = m.halo := rfl
@[simp] theorem qpMod_maint (m : Module) (q : Nat) (f : Qp → Qp) : (qpMod m q f).maint = m.maint := rfl
@[simp] theorem qpMod_diag (m : Module) (q : Nat) (f : Qp → Qp) : (qpMod m q f).diag = m.diag := rfl
@[simp] theorem qpMod_phys (m : Module) (q : Nat) (f : Qp → Qp) : (qpMod m q f).phys = m.phys := rfl
@[simp] theorem qpMod_out (m : Module) (q : Nat) (f : Qp → Qp) : (qpMod m q f).out = m.out := rfl

end Sys2Proof.Machine
end

