-- ==== Sys2Proof/Laws/Ops.lean ====
section
/-! SUPPORT. Laws/Ops.lean: what each shape of command can do to the state, once for each shape. -/

namespace Sys2Proof.Machine
open Sys2Proof

/-! ### Everything a shape of command can do -/

/-- The queue, the witness and the drops stay. -/
structure Keeps (s t : State) : Prop where
  pending : t.pending = s.pending
  witness : t.witness = s.witness
  stations : t.stations = s.stations

theorem Keeps.refl (s : State) : Keeps s s := ⟨rfl, rfl, rfl⟩

theorem Keeps.trans {s t u : State} (h : Keeps s t) (k : Keeps t u) : Keeps s u :=
  ⟨k.pending.trans h.pending, k.witness.trans h.witness, k.stations.trans h.stations⟩

theorem Keeps.withMod (s : State) (sl : Slot) (m : Module) : Keeps s (withMod s sl m) := ⟨by simp, by simp, by simp⟩

theorem onMod_next {s t : State} {sl : Slot} {f : Module → Module} (h : onMod s sl f = .next t) : t = withMod s sl (f (modOf s sl)) := by
  unfold onMod at h; injection h with h; exact h.symm

theorem onPair_next {s t : State} {sl : Slot} {f : Module → Module → Module} (h : onPair s sl f = .next t) :
    t = withMod s sl (f (modOf s sl) (modOf s (otherSlot sl))) := by
  unfold onPair at h; injection h with h; exact h.symm

theorem onMod_keeps {s t : State} {sl : Slot} {f : Module → Module} (h : onMod s sl f = .next t) : Keeps s t := by
  rw [onMod_next h]; exact .withMod s sl _

theorem onPair_keeps {s t : State} {sl : Slot} {f : Module → Module → Module} (h : onPair s sl f = .next t) : Keeps s t := by
  rw [onPair_next h]; exact .withMod s sl _

theorem onModFree_keeps {s t : State} {sl : Slot} {f : Module → W64 → Module} (h : onModFree s sl f = .next t) : Keeps s t := by
  unfold onModFree at h; injection h with h; subst h; exact ⟨by simp, by simp, by simp⟩

theorem onPairFree_keeps {s t : State} {sl : Slot} {f : Module → Module → W64 → Module} (h : onPairFree s sl f = .next t) : Keeps s t := by
  unfold onPairFree at h; injection h with h; subst h; exact ⟨by simp, by simp, by simp⟩

theorem onBoth_keeps {s t : State} {sl : Slot} {f : Module → Module → Module × Module} (h : onBoth s sl f = .next t) : Keeps s t := by
  unfold onBoth at h; injection h with h; subst h; exact ⟨by simp, by simp, by simp⟩

/-- A Quondi command without effect on the partner: its execution on the module of its slot. -/
theorem quondi_next {h : Module → Module → Cmd → QRes} {k : Kind} {sc : Scope} {code : Nat} {s t : State} {sl : Slot} {c : Cmd}
    (e : quondi h k sc code s sl c = .next t) : t = withMod s sl (runCmd h k sc code c (modOf s sl) (modOf s (otherSlot sl))) :=
  onPair_next e

theorem quondi_keeps {h : Module → Module → Cmd → QRes} {k : Kind} {sc : Scope} {code : Nat} {s t : State} {sl : Slot} {c : Cmd}
    (e : quondi h k sc code s sl c = .next t) : Keeps s t := onPair_keeps e

theorem glintIns_keeps {f : Module → Glint → Glint} {s t : State} {sl : Slot} (h : glintIns f s sl = .next t) : Keeps s t := onMod_keeps h

theorem lumen_keeps {len cost : Nat} {f : LEnv → Cycle → LRes} {s t : State} {sl : Slot} {u : Nat} (h : lumen len cost f s sl u = .next t) :
    Keeps s t := by
  unfold lumen at h
  dsimp only at h
  split at h
  · injection h with h; subst h; exact .refl s
  · split at h
    · injection h with h; subst h; exact .withMod s sl _
    · cases h

/-- A Lumen instruction changes no other module. -/
theorem lumen_other {len cost : Nat} {f : LEnv → Cycle → LRes} {s t : State} {sl : Slot} {u : Nat} (h : lumen len cost f s sl u = .next t) :
    modOf t (otherSlot sl) = modOf s (otherSlot sl) := by
  unfold lumen at h
  dsimp only at h
  split at h
  · injection h with h; subst h; rfl
  · split at h
    · injection h with h; subst h; simp
    · cases h

/-- A command with effects on both modules changes the queue and the drops not, and the witness only as its handler says. -/
theorem quondiPair_next {h : Module → Module → Witness → Cmd → PRes} {k : Kind} {sc : Scope} {code : Nat} {s t : State} {sl : Slot} {c : Cmd}
    (e : quondiPair h k sc code s sl c = .next t) :
    t.pending = s.pending ∧ t.stations = s.stations ∧
      (t.witness = s.witness ∨ t.witness = (h (modOf s sl) (modOf s (otherSlot sl)) s.witness c).w) := by
  unfold quondiPair at e
  simp only at e
  split at e
  · injection e with e; subst e; simp
  · split at e
    · injection e with e; subst e; simp
    · injection e with e; subst e; simp

theorem onStation_next {s t : State} {id : Nat} {f : Station → Station} (h : onStation s id f = .next t) :
    t = { s with stations := Bits.tmod s.stations id f } := by
  unfold onStation at h; injection h with h; exact h.symm

theorem onWitness_next {s t : State} {f : Witness → Witness} (h : onWitness s f = .next t) : t = { s with witness := f s.witness } := by
  unfold onWitness at h; injection h with h; exact h.symm

/-! ### The execution of a Quondi command -/

/-- A command that nothing turns away runs its handler (R56, R72, R98, R109). -/
theorem runCmd_runs {h : Module → Module → Cmd → QRes} {k : Kind} {sc : Scope} {code : Nat} {c : Cmd} {m : Module} (p : Module)
    (r : runs k sc code c m = true) : runCmd h k sc code c m p = settle m k code c (h m p c) := by
  simp only [runs, Bool.and_eq_true, Bool.not_eq_true'] at r
  obtain ⟨⟨⟨⟨⟨⟨h1, h2⟩, h3⟩, h4⟩, h5⟩, h6⟩, h7⟩ := r
  unfold runCmd
  rw [if_neg (by simp [h1, h2, h5]), if_neg (by simp [h3]), if_neg (by simp [h4]), if_neg (by simp [h6]), if_neg (by simp [h7])]

theorem quondi_runs {h : Module → Module → Cmd → QRes} {k : Kind} {sc : Scope} {code : Nat} {c : Cmd} {s : State} {sl : Slot}
    (r : runs k sc code c (modOf s sl) = true) :
    quondi h k sc code s sl c = .next (withMod s sl (settle (modOf s sl) k code c (h (modOf s sl) (modOf s (otherSlot sl)) c))) := by
  unfold quondi onPair
  rw [runCmd_runs _ r]

theorem quondiPair_runs {h : Module → Module → Witness → Cmd → PRes} {k : Kind} {sc : Scope} {code : Nat} {c : Cmd} {s : State} {sl : Slot}
    (r : runs k sc code c (modOf s sl) = true) (l : isLead (modOf s sl) = true) :
    quondiPair h k sc code s sl c =
      .next { withMod (withMod s sl (settle (modOf s sl) k code c (h (modOf s sl) (modOf s (otherSlot sl)) s.witness c).res)) (otherSlot sl)
          (h (modOf s sl) (modOf s (otherSlot sl)) s.witness c).p with
        witness := (h (modOf s sl) (modOf s (otherSlot sl)) s.witness c).w } := by
  unfold quondiPair
  simp [r, l]

/-! ### Commands over elements -/

/-- All elements pass: each has its effect in turn. -/
theorem elems_fold {f : Module → Nat → Except Nat Module} (g : Module → Nat → Module) (n i : Nat) (m : Module)
    (h : ∀ j a, i ≤ j → j < i + n → f a j = .ok (g a j)) : elems f n i m = .ok ((List.range' i n).foldl g m) := by
  induction n generalizing i m with
  | zero => rfl
  | succ k ih =>
    unfold elems
    rw [h i m (by omega) (by omega)]
    dsimp only
    rw [ih _ _ (fun j a h1 h2 => h j a (by omega) (by omega)), List.range'_succ, List.foldl_cons]

/-- The first element that fails ends the command. -/
theorem elems_error {f : Module → Nat → Except Nat Module} (g : Module → Nat → Module) (e k : Nat) (hk : ∀ a, f a k = .error e) (n i : Nat)
    (m : Module) (h1 : i ≤ k) (h2 : k < i + n) (h : ∀ j a, i ≤ j → j < k → f a j = .ok (g a j)) : elems f n i m = .error (e, k) := by
  induction n generalizing i m with
  | zero => omega
  | succ n ih =>
    unfold elems
    by_cases hi : i = k
    · subst hi; rw [hk]
    · rw [h i m (by omega) (by omega)]
      dsimp only
      rw [ih _ _ (by omega) (by omega) (fun j a h1 h2 => h j a (by omega) (by omega))]

end Sys2Proof.Machine
end

