-- ==== Sys2Proof/Laws/Frames.lean ====
section
/-! SUPPORT. Laws/Frames.lean: which parts of a module the shared operations change, and that they change no other. -/

namespace Sys2Proof.Machine
open Sys2Proof Sys2Proof.Bits

theorem pushPending_only (m : Module) (e : ChronEvent) :
    pushPending m e = { m with chron := (pushPending m e).chron } := rfl
@[simp] theorem pushPending_slot (m : Module) (e : ChronEvent) : (pushPending m e).slot = m.slot := by rw [pushPending_only]
@[simp] theorem pushPending_hw (m : Module) (e : ChronEvent) : (pushPending m e).hw = m.hw := by rw [pushPending_only]
@[simp] theorem pushPending_power (m : Module) (e : ChronEvent) : (pushPending m e).power = m.power := by rw [pushPending_only]
@[simp] theorem pushPending_boot (m : Module) (e : ChronEvent) : (pushPending m e).boot = m.boot := by rw [pushPending_only]
@[simp] theorem pushPending_mail (m : Module) (e : ChronEvent) : (pushPending m e).mail = m.mail := by rw [pushPending_only]
@[simp] theorem pushPending_store (m : Module) (e : ChronEvent) : (pushPending m e).store = m.store := by rw [pushPending_only]
@[simp] theorem pushPending_exec (m : Module) (e : ChronEvent) : (pushPending m e).exec = m.exec := by rw [pushPending_only]
@[simp] theorem pushPending_glint (m : Module) (e : ChronEvent) : (pushPending m e).glint = m.glint := by rw [pushPending_only]
@[simp] theorem pushPending_field (m : Module) (e : ChronEvent) : (pushPending m e).field = m.field := by rw [pushPending_only]
@[simp] theorem pushPending_pair (m : Module) (e : ChronEvent) : (pushPending m e).pair = m.pair := by rw [pushPending_only]
@[simp] theorem pushPending_alm (m : Module) (e : ChronEvent) : (pushPending m e).alm = m.alm := by rw [pushPending_only]
@[simp] theorem pushPending_lio (m : Module) (e : ChronEvent) : (pushPending m e).lio = m.lio := by rw [pushPending_only]
@[simp] theorem pushPending_halo (m : Module) (e : ChronEvent) : (pushPending m e).halo = m.halo := by rw [pushPending_only]
@[simp] theorem pushPending_maint (m : Module) (e : ChronEvent) : (pushPending m e).maint = m.maint := by rw [pushPending_only]
@[simp] theorem pushPending_diag (m : Module) (e : ChronEvent) : (pushPending m e).diag = m.diag := by rw [pushPending_only]
@[simp] theorem pushPending_phys (m : Module) (e : ChronEvent) : (pushPending m e).phys = m.phys := by rw [pushPending_only]
@[simp] theorem pushPending_out (m : Module) (e : ChronEvent) : (pushPending m e).out = m.out := by rw [pushPending_only]

theorem endRun_only (m : Module) (c : Nat) :
    endRun m c = { m with chron := (endRun m c).chron } := by unfold endRun; split <;> rfl
@[simp] theorem endRun_slot (m : Module) (c : Nat) : (endRun m c).slot = m.slot := by rw [endRun_only]
@[simp] theorem endRun_hw (m : Module) (c : Nat) : (endRun m c).hw = m.hw := by rw [endRun_only]
@[simp] theorem endRun_power (m : Module) (c : Nat) : (endRun m c).power = m.power := by rw [endRun_only]
@[simp] theorem endRun_boot (m : Module) (c : Nat) : (endRun m c).boot = m.boot := by rw [endRun_only]
@[simp] theorem endRun_mail (m : Module) (c : Nat) : (endRun m c).mail = m.mail := by rw [endRun_only]
@[simp] theorem endRun_store (m : Module) (c : Nat) : (endRun m c).store = m.store := by rw [endRun_only]
@[simp] theorem endRun_exec (m : Module) (c : Nat) : (endRun m c).exec = m.exec := by rw [endRun_only]
@[simp] theorem endRun_glint (m : Module) (c : Nat) : (endRun m c).glint = m.glint := by rw [endRun_only]
@[simp] theorem endRun_field (m : Module) (c : Nat) : (endRun m c).field = m.field := by rw [endRun_only]
@[simp] theorem endRun_pair (m : Module) (c : Nat) : (endRun m c).pair = m.pair := by rw [endRun_only]
@[simp] theorem endRun_alm (m : Module) (c : Nat) : (endRun m c).alm = m.alm := by rw [endRun_only]
@[simp] theorem endRun_lio (m : Module) (c : Nat) : (endRun m c).lio = m.lio := by rw [endRun_only]
@[simp] theorem endRun_halo (m : Module) (c : Nat) : (endRun m c).halo = m.halo := by rw [endRun_only]
@[simp] theorem endRun_maint (m : Module) (c : Nat) : (endRun m c).maint = m.maint := by rw [endRun_only]
@[simp] theorem endRun_diag (m : Module) (c : Nat) : (endRun m c).diag = m.diag := by rw [endRun_only]
@[simp] theorem endRun_phys (m : Module) (c : Nat) : (endRun m c).phys = m.phys := by rw [endRun_only]
@[simp] theorem endRun_out (m : Module) (c : Nat) : (endRun m c).out = m.out := by rw [endRun_only]

theorem suppress_only (m : Module) (e : ChronEvent) :
    suppress m e = { m with chron := (suppress m e).chron } := rfl
@[simp] theorem suppress_slot (m : Module) (e : ChronEvent) : (suppress m e).slot = m.slot := by rw [suppress_only]
@[simp] theorem suppress_hw (m : Module) (e : ChronEvent) : (suppress m e).hw = m.hw := by rw [suppress_only]
@[simp] theorem suppress_power (m : Module) (e : ChronEvent) : (suppress m e).power = m.power := by rw [suppress_only]
@[simp] theorem suppress_boot (m : Module) (e : ChronEvent) : (suppress m e).boot = m.boot := by rw [suppress_only]
@[simp] theorem suppress_mail (m : Module) (e : ChronEvent) : (suppress m e).mail = m.mail := by rw [suppress_only]
@[simp] theorem suppress_store (m : Module) (e : ChronEvent) : (suppress m e).store = m.store := by rw [suppress_only]
@[simp] theorem suppress_exec (m : Module) (e : ChronEvent) : (suppress m e).exec = m.exec := by rw [suppress_only]
@[simp] theorem suppress_glint (m : Module) (e : ChronEvent) : (suppress m e).glint = m.glint := by rw [suppress_only]
@[simp] theorem suppress_field (m : Module) (e : ChronEvent) : (suppress m e).field = m.field := by rw [suppress_only]
@[simp] theorem suppress_pair (m : Module) (e : ChronEvent) : (suppress m e).pair = m.pair := by rw [suppress_only]
@[simp] theorem suppress_alm (m : Module) (e : ChronEvent) : (suppress m e).alm = m.alm := by rw [suppress_only]
@[simp] theorem suppress_lio (m : Module) (e : ChronEvent) : (suppress m e).lio = m.lio := by rw [suppress_only]
@[simp] theorem suppress_halo (m : Module) (e : ChronEvent) : (suppress m e).halo = m.halo := by rw [suppress_only]
@[simp] theorem suppress_maint (m : Module) (e : ChronEvent) : (suppress m e).maint = m.maint := by rw [suppress_only]
@[simp] theorem suppress_diag (m : Module) (e : ChronEvent) : (suppress m e).diag = m.diag := by rw [suppress_only]
@[simp] theorem suppress_phys (m : Module) (e : ChronEvent) : (suppress m e).phys = m.phys := by rw [suppress_only]
@[simp] theorem suppress_out (m : Module) (e : ChronEvent) : (suppress m e).out = m.out := by rw [suppress_only]

theorem queueEvent_only (m : Module) (e : ChronEvent) :
    queueEvent m e = { m with chron := (queueEvent m e).chron } := by
  unfold queueEvent; dsimp only; split
  · rfl
  · split
    · rw [endRun_only m e.code]; rfl
    · rfl
@[simp] theorem queueEvent_slot (m : Module) (e : ChronEvent) : (queueEvent m e).slot = m.slot := by rw [queueEvent_only]
@[simp] theorem queueEvent_hw (m : Module) (e : ChronEvent) : (queueEvent m e).hw = m.hw := by rw [queueEvent_only]
@[simp] theorem queueEvent_power (m : Module) (e : ChronEvent) : (queueEvent m e).power = m.power := by rw [queueEvent_only]
@[simp] theorem queueEvent_boot (m : Module) (e : ChronEvent) : (queueEvent m e).boot = m.boot := by rw [queueEvent_only]
@[simp] theorem queueEvent_mail (m : Module) (e : ChronEvent) : (queueEvent m e).mail = m.mail := by rw [queueEvent_only]
@[simp] theorem queueEvent_store (m : Module) (e : ChronEvent) : (queueEvent m e).store = m.store := by rw [queueEvent_only]
@[simp] theorem queueEvent_exec (m : Module) (e : ChronEvent) : (queueEvent m e).exec = m.exec := by rw [queueEvent_only]
@[simp] theorem queueEvent_glint (m : Module) (e : ChronEvent) : (queueEvent m e).glint = m.glint := by rw [queueEvent_only]
@[simp] theorem queueEvent_field (m : Module) (e : ChronEvent) : (queueEvent m e).field = m.field := by rw [queueEvent_only]
@[simp] theorem queueEvent_pair (m : Module) (e : ChronEvent) : (queueEvent m e).pair = m.pair := by rw [queueEvent_only]
@[simp] theorem queueEvent_alm (m : Module) (e : ChronEvent) : (queueEvent m e).alm = m.alm := by rw [queueEvent_only]
@[simp] theorem queueEvent_lio (m : Module) (e : ChronEvent) : (queueEvent m e).lio = m.lio := by rw [queueEvent_only]
@[simp] theorem queueEvent_halo (m : Module) (e : ChronEvent) : (queueEvent m e).halo = m.halo := by rw [queueEvent_only]
@[simp] theorem queueEvent_maint (m : Module) (e : ChronEvent) : (queueEvent m e).maint = m.maint := by rw [queueEvent_only]
@[simp] theorem queueEvent_diag (m : Module) (e : ChronEvent) : (queueEvent m e).diag = m.diag := by rw [queueEvent_only]
@[simp] theorem queueEvent_phys (m : Module) (e : ChronEvent) : (queueEvent m e).phys = m.phys := by rw [queueEvent_only]
@[simp] theorem queueEvent_out (m : Module) (e : ChronEvent) : (queueEvent m e).out = m.out := by rw [queueEvent_only]

theorem routeEvent_only (m : Module) (b : Bool) (e : ChronEvent) :
    routeEvent m b e = { m with chron := (routeEvent m b e).chron, out := (routeEvent m b e).out } := by
  unfold routeEvent; split
  · rfl
  · split
    · rw [queueEvent_only m e]
    · split <;> rfl
@[simp] theorem routeEvent_slot (m : Module) (b : Bool) (e : ChronEvent) : (routeEvent m b e).slot = m.slot := by rw [routeEvent_only]
@[simp] theorem routeEvent_hw (m : Module) (b : Bool) (e : ChronEvent) : (routeEvent m b e).hw = m.hw := by rw [routeEvent_only]
@[simp] theorem routeEvent_power (m : Module) (b : Bool) (e : ChronEvent) : (routeEvent m b e).power = m.power := by rw [routeEvent_only]
@[simp] theorem routeEvent_boot (m : Module) (b : Bool) (e : ChronEvent) : (routeEvent m b e).boot = m.boot := by rw [routeEvent_only]
@[simp] theorem routeEvent_mail (m : Module) (b : Bool) (e : ChronEvent) : (routeEvent m b e).mail = m.mail := by rw [routeEvent_only]
@[simp] theorem routeEvent_store (m : Module) (b : Bool) (e : ChronEvent) : (routeEvent m b e).store = m.store := by rw [routeEvent_only]
@[simp] theorem routeEvent_exec (m : Module) (b : Bool) (e : ChronEvent) : (routeEvent m b e).exec = m.exec := by rw [routeEvent_only]
@[simp] theorem routeEvent_glint (m : Module) (b : Bool) (e : ChronEvent) : (routeEvent m b e).glint = m.glint := by rw [routeEvent_only]
@[simp] theorem routeEvent_field (m : Module) (b : Bool) (e : ChronEvent) : (routeEvent m b e).field = m.field := by rw [routeEvent_only]
@[simp] theorem routeEvent_pair (m : Module) (b : Bool) (e : ChronEvent) : (routeEvent m b e).pair = m.pair := by rw [routeEvent_only]
@[simp] theorem routeEvent_alm (m : Module) (b : Bool) (e : ChronEvent) : (routeEvent m b e).alm = m.alm := by rw [routeEvent_only]
@[simp] theorem routeEvent_lio (m : Module) (b : Bool) (e : ChronEvent) : (routeEvent m b e).lio = m.lio := by rw [routeEvent_only]
@[simp] theorem routeEvent_halo (m : Module) (b : Bool) (e : ChronEvent) : (routeEvent m b e).halo = m.halo := by rw [routeEvent_only]
@[simp] theorem routeEvent_maint (m : Module) (b : Bool) (e : ChronEvent) : (routeEvent m b e).maint = m.maint := by rw [routeEvent_only]
@[simp] theorem routeEvent_diag (m : Module) (b : Bool) (e : ChronEvent) : (routeEvent m b e).diag = m.diag := by rw [routeEvent_only]
@[simp] theorem routeEvent_phys (m : Module) (b : Bool) (e : ChronEvent) : (routeEvent m b e).phys = m.phys := by rw [routeEvent_only]

theorem logEv_only (m : Module) (code kind idx part : Nat) (d : Bytes) :
    logEv m code kind idx part d = { m with chron := (logEv m code kind idx part d).chron, out := (logEv m code kind idx part d).out } := routeEvent_only m false _
@[simp] theorem logEv_slot (m : Module) (code kind idx part : Nat) (d : Bytes) : (logEv m code kind idx part d).slot = m.slot := by rw [logEv_only]
@[simp] theorem logEv_hw (m : Module) (code kind idx part : Nat) (d : Bytes) : (logEv m code kind idx part d).hw = m.hw := by rw [logEv_only]
@[simp] theorem logEv_power (m : Module) (code kind idx part : Nat) (d : Bytes) : (logEv m code kind idx part d).power = m.power := by rw [logEv_only]
@[simp] theorem logEv_boot (m : Module) (code kind idx part : Nat) (d : Bytes) : (logEv m code kind idx part d).boot = m.boot := by rw [logEv_only]
@[simp] theorem logEv_mail (m : Module) (code kind idx part : Nat) (d : Bytes) : (logEv m code kind idx part d).mail = m.mail := by rw [logEv_only]
@[simp] theorem logEv_store (m : Module) (code kind idx part : Nat) (d : Bytes) : (logEv m code kind idx part d).store = m.store := by rw [logEv_only]
@[simp] theorem logEv_exec (m : Module) (code kind idx part : Nat) (d : Bytes) : (logEv m code kind idx part d).exec = m.exec := by rw [logEv_only]
@[simp] theorem logEv_glint (m : Module) (code kind idx part : Nat) (d : Bytes) : (logEv m code kind idx part d).glint = m.glint := by rw [logEv_only]
@[simp] theorem logEv_field (m : Module) (code kind idx part : Nat) (d : Bytes) : (logEv m code kind idx part d).field = m.field := by rw [logEv_only]
@[simp] theorem logEv_pair (m : Module) (code kind idx part : Nat) (d : Bytes) : (logEv m code kind idx part d).pair = m.pair := by rw [logEv_only]
@[simp] theorem logEv_alm (m : Module) (code kind idx part : Nat) (d : Bytes) : (logEv m code kind idx part d).alm = m.alm := by rw [logEv_only]
@[simp] theorem logEv_lio (m : Module) (code kind idx part : Nat) (d : Bytes) : (logEv m code kind idx part d).lio = m.lio := by rw [logEv_only]
@[simp] theorem logEv_halo (m : Module) (code kind idx part : Nat) (d : Bytes) : (logEv m code kind idx part d).halo = m.halo := by rw [logEv_only]
@[simp] theorem logEv_maint (m : Module) (code kind idx part : Nat) (d : Bytes) : (logEv m code kind idx part d).maint = m.maint := by rw [logEv_only]
@[simp] theorem logEv_diag (m : Module) (code kind idx part : Nat) (d : Bytes) : (logEv m code kind idx part d).diag = m.diag := by rw [logEv_only]
@[simp] theorem logEv_phys (m : Module) (code kind idx part : Nat) (d : Bytes) : (logEv m code kind idx part d).phys = m.phys := by rw [logEv_only]

theorem logBoth_only (m : Module) (code kind idx part : Nat) (d : Bytes) :
    logBoth m code kind idx part d = { m with chron := (logBoth m code kind idx part d).chron, out := (logBoth m code kind idx part d).out } := routeEvent_only m true _
@[simp] theorem logBoth_slot (m : Module) (code kind idx part : Nat) (d : Bytes) : (logBoth m code kind idx part d).slot = m.slot := by rw [logBoth_only]
@[simp] theorem logBoth_hw (m : Module) (code kind idx part : Nat) (d : Bytes) : (logBoth m code kind idx part d).hw = m.hw := by rw [logBoth_only]
@[simp] theorem logBoth_power (m : Module) (code kind idx part : Nat) (d : Bytes) : (logBoth m code kind idx part d).power = m.power := by rw [logBoth_only]
@[simp] theorem logBoth_boot (m : Module) (code kind idx part : Nat) (d : Bytes) : (logBoth m code kind idx part d).boot = m.boot := by rw [logBoth_only]
@[simp] theorem logBoth_mail (m : Module) (code kind idx part : Nat) (d : Bytes) : (logBoth m code kind idx part d).mail = m.mail := by rw [logBoth_only]
@[simp] theorem logBoth_store (m : Module) (code kind idx part : Nat) (d : Bytes) : (logBoth m code kind idx part d).store = m.store := by rw [logBoth_only]
@[simp] theorem logBoth_exec (m : Module) (code kind idx part : Nat) (d : Bytes) : (logBoth m code kind idx part d).exec = m.exec := by rw [logBoth_only]
@[simp] theorem logBoth_glint (m : Module) (code kind idx part : Nat) (d : Bytes) : (logBoth m code kind idx part d).glint = m.glint := by rw [logBoth_only]
@[simp] theorem logBoth_field (m : Module) (code kind idx part : Nat) (d : Bytes) : (logBoth m code kind idx part d).field = m.field := by rw [logBoth_only]
@[simp] theorem logBoth_pair (m : Module) (code kind idx part : Nat) (d : Bytes) : (logBoth m code kind idx part d).pair = m.pair := by rw [logBoth_only]
@[simp] theorem logBoth_alm (m : Module) (code kind idx part : Nat) (d : Bytes) : (logBoth m code kind idx part d).alm = m.alm := by rw [logBoth_only]
@[simp] theorem logBoth_lio (m : Module) (code kind idx part : Nat) (d : Bytes) : (logBoth m code kind idx part d).lio = m.lio := by rw [logBoth_only]
@[simp] theorem logBoth_halo (m : Module) (code kind idx part : Nat) (d : Bytes) : (logBoth m code kind idx part d).halo = m.halo := by rw [logBoth_only]
@[simp] theorem logBoth_maint (m : Module) (code kind idx part : Nat) (d : Bytes) : (logBoth m code kind idx part d).maint = m.maint := by rw [logBoth_only]
@[simp] theorem logBoth_diag (m : Module) (code kind idx part : Nat) (d : Bytes) : (logBoth m code kind idx part d).diag = m.diag := by rw [logBoth_only]
@[simp] theorem logBoth_phys (m : Module) (code kind idx part : Nat) (d : Bytes) : (logBoth m code kind idx part d).phys = m.phys := by rw [logBoth_only]

theorem msi_only (m : Module) (v : Nat) :
    msi m v = { m with out := (msi m v).out } := by unfold msi; split <;> rfl
@[simp] theorem msi_slot (m : Module) (v : Nat) : (msi m v).slot = m.slot := by rw [msi_only]
@[simp] theorem msi_hw (m : Module) (v : Nat) : (msi m v).hw = m.hw := by rw [msi_only]
@[simp] theorem msi_power (m : Module) (v : Nat) : (msi m v).power = m.power := by rw [msi_only]
@[simp] theorem msi_boot (m : Module) (v : Nat) : (msi m v).boot = m.boot := by rw [msi_only]
@[simp] theorem msi_mail (m : Module) (v : Nat) : (msi m v).mail = m.mail := by rw [msi_only]
@[simp] theorem msi_store (m : Module) (v : Nat) : (msi m v).store = m.store := by rw [msi_only]
@[simp] theorem msi_exec (m : Module) (v : Nat) : (msi m v).exec = m.exec := by rw [msi_only]
@[simp] theorem msi_glint (m : Module) (v : Nat) : (msi m v).glint = m.glint := by rw [msi_only]
@[simp] theorem msi_field (m : Module) (v : Nat) : (msi m v).field = m.field := by rw [msi_only]
@[simp] theorem msi_pair (m : Module) (v : Nat) : (msi m v).pair = m.pair := by rw [msi_only]
@[simp] theorem msi_alm (m : Module) (v : Nat) : (msi m v).alm = m.alm := by rw [msi_only]
@[simp] theorem msi_chron (m : Module) (v : Nat) : (msi m v).chron = m.chron := by rw [msi_only]
@[simp] theorem msi_lio (m : Module) (v : Nat) : (msi m v).lio = m.lio := by rw [msi_only]
@[simp] theorem msi_halo (m : Module) (v : Nat) : (msi m v).halo = m.halo := by rw [msi_only]
@[simp] theorem msi_maint (m : Module) (v : Nat) : (msi m v).maint = m.maint := by rw [msi_only]
@[simp] theorem msi_diag (m : Module) (v : Nat) : (msi m v).diag = m.diag := by rw [msi_only]
@[simp] theorem msi_phys (m : Module) (v : Nat) : (msi m v).phys = m.phys := by rw [msi_only]

theorem writeAnchor_only (m : Module) :
    writeAnchor m = { m with mail := (writeAnchor m).mail, out := (writeAnchor m).out } := rfl
@[simp] theorem writeAnchor_slot (m : Module) : (writeAnchor m).slot = m.slot := by rw [writeAnchor_only]
@[simp] theorem writeAnchor_hw (m : Module) : (writeAnchor m).hw = m.hw := by rw [writeAnchor_only]
@[simp] theorem writeAnchor_power (m : Module) : (writeAnchor m).power = m.power := by rw [writeAnchor_only]
@[simp] theorem writeAnchor_boot (m : Module) : (writeAnchor m).boot = m.boot := by rw [writeAnchor_only]
@[simp] theorem writeAnchor_store (m : Module) : (writeAnchor m).store = m.store := by rw [writeAnchor_only]
@[simp] theorem writeAnchor_exec (m : Module) : (writeAnchor m).exec = m.exec := by rw [writeAnchor_only]
@[simp] theorem writeAnchor_glint (m : Module) : (writeAnchor m).glint = m.glint := by rw [writeAnchor_only]
@[simp] theorem writeAnchor_field (m : Module) : (writeAnchor m).field = m.field := by rw [writeAnchor_only]
@[simp] theorem writeAnchor_pair (m : Module) : (writeAnchor m).pair = m.pair := by rw [writeAnchor_only]
@[simp] theorem writeAnchor_alm (m : Module) : (writeAnchor m).alm = m.alm := by rw [writeAnchor_only]
@[simp] theorem writeAnchor_chron (m : Module) : (writeAnchor m).chron = m.chron := by rw [writeAnchor_only]
@[simp] theorem writeAnchor_lio (m : Module) : (writeAnchor m).lio = m.lio := by rw [writeAnchor_only]
@[simp] theorem writeAnchor_halo (m : Module) : (writeAnchor m).halo = m.halo := by rw [writeAnchor_only]
@[simp] theorem writeAnchor_maint (m : Module) : (writeAnchor m).maint = m.maint := by rw [writeAnchor_only]
@[simp] theorem writeAnchor_diag (m : Module) : (writeAnchor m).diag = m.diag := by rw [writeAnchor_only]
@[simp] theorem writeAnchor_phys (m : Module) : (writeAnchor m).phys = m.phys := by rw [writeAnchor_only]

theorem anchorChange_only (m : Module) :
    anchorChange m = { m with mail := (anchorChange m).mail, out := (anchorChange m).out } := by
  unfold anchorChange; split
  · rw [msi_only (writeAnchor m) 0]; rfl
  · rfl
@[simp] theorem anchorChange_slot (m : Module) : (anchorChange m).slot = m.slot := by rw [anchorChange_only]
@[simp] theorem anchorChange_hw (m : Module) : (anchorChange m).hw = m.hw := by rw [anchorChange_only]
@[simp] theorem anchorChange_power (m : Module) : (anchorChange m).power = m.power := by rw [anchorChange_only]
@[simp] theorem anchorChange_boot (m : Module) : (anchorChange m).boot = m.boot := by rw [anchorChange_only]
@[simp] theorem anchorChange_store (m : Module) : (anchorChange m).store = m.store := by rw [anchorChange_only]
@[simp] theorem anchorChange_exec (m : Module) : (anchorChange m).exec = m.exec := by rw [anchorChange_only]
@[simp] theorem anchorChange_glint (m : Module) : (anchorChange m).glint = m.glint := by rw [anchorChange_only]
@[simp] theorem anchorChange_field (m : Module) : (anchorChange m).field = m.field := by rw [anchorChange_only]
@[simp] theorem anchorChange_pair (m : Module) : (anchorChange m).pair = m.pair := by rw [anchorChange_only]
@[simp] theorem anchorChange_alm (m : Module) : (anchorChange m).alm = m.alm := by rw [anchorChange_only]
@[simp] theorem anchorChange_chron (m : Module) : (anchorChange m).chron = m.chron := by rw [anchorChange_only]
@[simp] theorem anchorChange_lio (m : Module) : (anchorChange m).lio = m.lio := by rw [anchorChange_only]
@[simp] theorem anchorChange_halo (m : Module) : (anchorChange m).halo = m.halo := by rw [anchorChange_only]
@[simp] theorem anchorChange_maint (m : Module) : (anchorChange m).maint = m.maint := by rw [anchorChange_only]
@[simp] theorem anchorChange_diag (m : Module) : (anchorChange m).diag = m.diag := by rw [anchorChange_only]
@[simp] theorem anchorChange_phys (m : Module) : (anchorChange m).phys = m.phys := by rw [anchorChange_only]

theorem anchorIfChanged_only (m : Module) (old : Module) :
    anchorIfChanged old m = { m with mail := (anchorIfChanged old m).mail, out := (anchorIfChanged old m).out } := by
  unfold anchorIfChanged; split
  · rfl
  · exact anchorChange_only m
@[simp] theorem anchorIfChanged_slot (m : Module) (old : Module) : (anchorIfChanged old m).slot = m.slot := by rw [anchorIfChanged_only]
@[simp] theorem anchorIfChanged_hw (m : Module) (old : Module) : (anchorIfChanged old m).hw = m.hw := by rw [anchorIfChanged_only]
@[simp] theorem anchorIfChanged_power (m : Module) (old : Module) : (anchorIfChanged old m).power = m.power := by rw [anchorIfChanged_only]
@[simp] theorem anchorIfChanged_boot (m : Module) (old : Module) : (anchorIfChanged old m).boot = m.boot := by rw [anchorIfChanged_only]
@[simp] theorem anchorIfChanged_store (m : Module) (old : Module) : (anchorIfChanged old m).store = m.store := by rw [anchorIfChanged_only]
@[simp] theorem anchorIfChanged_exec (m : Module) (old : Module) : (anchorIfChanged old m).exec = m.exec := by rw [anchorIfChanged_only]
@[simp] theorem anchorIfChanged_glint (m : Module) (old : Module) : (anchorIfChanged old m).glint = m.glint := by rw [anchorIfChanged_only]
@[simp] theorem anchorIfChanged_field (m : Module) (old : Module) : (anchorIfChanged old m).field = m.field := by rw [anchorIfChanged_only]
@[simp] theorem anchorIfChanged_pair (m : Module) (old : Module) : (anchorIfChanged old m).pair = m.pair := by rw [anchorIfChanged_only]
@[simp] theorem anchorIfChanged_alm (m : Module) (old : Module) : (anchorIfChanged old m).alm = m.alm := by rw [anchorIfChanged_only]
@[simp] theorem anchorIfChanged_chron (m : Module) (old : Module) : (anchorIfChanged old m).chron = m.chron := by rw [anchorIfChanged_only]
@[simp] theorem anchorIfChanged_lio (m : Module) (old : Module) : (anchorIfChanged old m).lio = m.lio := by rw [anchorIfChanged_only]
@[simp] theorem anchorIfChanged_halo (m : Module) (old : Module) : (anchorIfChanged old m).halo = m.halo := by rw [anchorIfChanged_only]
@[simp] theorem anchorIfChanged_maint (m : Module) (old : Module) : (anchorIfChanged old m).maint = m.maint := by rw [anchorIfChanged_only]
@[simp] theorem anchorIfChanged_diag (m : Module) (old : Module) : (anchorIfChanged old m).diag = m.diag := by rw [anchorIfChanged_only]
@[simp] theorem anchorIfChanged_phys (m : Module) (old : Module) : (anchorIfChanged old m).phys = m.phys := by rw [anchorIfChanged_only]

theorem checkStall_only (m : Module) :
    checkStall m = { m with mail := (checkStall m).mail, chron := (checkStall m).chron, out := (checkStall m).out } := by
  unfold checkStall; dsimp only; split
  · split <;> rfl
  · split
    · rw [logEv_only]
    · rfl
@[simp] theorem checkStall_slot (m : Module) : (checkStall m).slot = m.slot := by rw [checkStall_only]
@[simp] theorem checkStall_hw (m : Module) : (checkStall m).hw = m.hw := by rw [checkStall_only]
@[simp] theorem checkStall_power (m : Module) : (checkStall m).power = m.power := by rw [checkStall_only]
@[simp] theorem checkStall_boot (m : Module) : (checkStall m).boot = m.boot := by rw [checkStall_only]
@[simp] theorem checkStall_store (m : Module) : (checkStall m).store = m.store := by rw [checkStall_only]
@[simp] theorem checkStall_exec (m : Module) : (checkStall m).exec = m.exec := by rw [checkStall_only]
@[simp] theorem checkStall_glint (m : Module) : (checkStall m).glint = m.glint := by rw [checkStall_only]
@[simp] theorem checkStall_field (m : Module) : (checkStall m).field = m.field := by rw [checkStall_only]
@[simp] theorem checkStall_pair (m : Module) : (checkStall m).pair = m.pair := by rw [checkStall_only]
@[simp] theorem checkStall_alm (m : Module) : (checkStall m).alm = m.alm := by rw [checkStall_only]
@[simp] theorem checkStall_lio (m : Module) : (checkStall m).lio = m.lio := by rw [checkStall_only]
@[simp] theorem checkStall_halo (m : Module) : (checkStall m).halo = m.halo := by rw [checkStall_only]
@[simp] theorem checkStall_maint (m : Module) : (checkStall m).maint = m.maint := by rw [checkStall_only]
@[simp] theorem checkStall_diag (m : Module) : (checkStall m).diag = m.diag := by rw [checkStall_only]
@[simp] theorem checkStall_phys (m : Module) : (checkStall m).phys = m.phys := by rw [checkStall_only]

theorem journalMod_only (m : Module) (qp : Nat) (t : W64) (f : JEntry → JEntry) :
    journalMod m qp t f = { m with mail := (journalMod m qp t f).mail } := rfl
@[simp] theorem journalMod_slot (m : Module) (qp : Nat) (t : W64) (f : JEntry → JEntry) : (journalMod m qp t f).slot = m.slot := by rw [journalMod_only]
@[simp] theorem journalMod_hw (m : Module) (qp : Nat) (t : W64) (f : JEntry → JEntry) : (journalMod m qp t f).hw = m.hw := by rw [journalMod_only]
@[simp] theorem journalMod_power (m : Module) (qp : Nat) (t : W64) (f : JEntry → JEntry) : (journalMod m qp t f).power = m.power := by rw [journalMod_only]
@[simp] theorem journalMod_boot (m : Module) (qp : Nat) (t : W64) (f : JEntry → JEntry) : (journalMod m qp t f).boot = m.boot := by rw [journalMod_only]
@[simp] theorem journalMod_store (m : Module) (qp : Nat) (t : W64) (f : JEntry → JEntry) : (journalMod m qp t f).store = m.store := by rw [journalMod_only]
@[simp] theorem journalMod_exec (m : Module) (qp : Nat) (t : W64) (f : JEntry → JEntry) : (journalMod m qp t f).exec = m.exec := by rw [journalMod_only]
@[simp] theorem journalMod_glint (m : Module) (qp : Nat) (t : W64) (f : JEntry → JEntry) : (journalMod m qp t f).glint = m.glint := by rw [journalMod_only]
@[simp] theorem journalMod_field (m : Module) (qp : Nat) (t : W64) (f : JEntry → JEntry) : (journalMod m qp t f).field = m.field := by rw [journalMod_only]
@[simp] theorem journalMod_pair (m : Module) (qp : Nat) (t : W64) (f : JEntry → JEntry) : (journalMod m qp t f).pair = m.pair := by rw [journalMod_only]
@[simp] theorem journalMod_alm (m : Module) (qp : Nat) (t : W64) (f : JEntry → JEntry) : (journalMod m qp t f).alm = m.alm := by rw [journalMod_only]
@[simp] theorem journalMod_chron (m : Module) (qp : Nat) (t : W64) (f : JEntry → JEntry) : (journalMod m qp t f).chron = m.chron := by rw [journalMod_only]
@[simp] theorem journalMod_lio (m : Module) (qp : Nat) (t : W64) (f : JEntry → JEntry) : (journalMod m qp t f).lio = m.lio := by rw [journalMod_only]
@[simp] theorem journalMod_halo (m : Module) (qp : Nat) (t : W64) (f : JEntry → JEntry) : (journalMod m qp t f).halo = m.halo := by rw [journalMod_only]
@[simp] theorem journalMod_maint (m : Module) (qp : Nat) (t : W64) (f : JEntry → JEntry) : (journalMod m qp t f).maint = m.maint := by rw [journalMod_only]
@[simp] theorem journalMod_diag (m : Module) (qp : Nat) (t : W64) (f : JEntry → JEntry) : (journalMod m qp t f).diag = m.diag := by rw [journalMod_only]
@[simp] theorem journalMod_phys (m : Module) (qp : Nat) (t : W64) (f : JEntry → JEntry) : (journalMod m qp t f).phys = m.phys := by rw [journalMod_only]
@[simp] theorem journalMod_out (m : Module) (qp : Nat) (t : W64) (f : JEntry → JEntry) : (journalMod m qp t f).out = m.out := by rw [journalMod_only]

theorem journalRetire_only (m : Module) (qp : Nat) (t : W64) :
    journalRetire m qp t = { m with mail := (journalRetire m qp t).mail, chron := (journalRetire m qp t).chron, out := (journalRetire m qp t).out } := by unfold journalRetire; dsimp only; rw [checkStall_only]
@[simp] theorem journalRetire_slot (m : Module) (qp : Nat) (t : W64) : (journalRetire m qp t).slot = m.slot := by rw [journalRetire_only]
@[simp] theorem journalRetire_hw (m : Module) (qp : Nat) (t : W64) : (journalRetire m qp t).hw = m.hw := by rw [journalRetire_only]
@[simp] theorem journalRetire_power (m : Module) (qp : Nat) (t : W64) : (journalRetire m qp t).power = m.power := by rw [journalRetire_only]
@[simp] theorem journalRetire_boot (m : Module) (qp : Nat) (t : W64) : (journalRetire m qp t).boot = m.boot := by rw [journalRetire_only]
@[simp] theorem journalRetire_store (m : Module) (qp : Nat) (t : W64) : (journalRetire m qp t).store = m.store := by rw [journalRetire_only]
@[simp] theorem journalRetire_exec (m : Module) (qp : Nat) (t : W64) : (journalRetire m qp t).exec = m.exec := by rw [journalRetire_only]
@[simp] theorem journalRetire_glint (m : Module) (qp : Nat) (t : W64) : (journalRetire m qp t).glint = m.glint := by rw [journalRetire_only]
@[simp] theorem journalRetire_field (m : Module) (qp : Nat) (t : W64) : (journalRetire m qp t).field = m.field := by rw [journalRetire_only]
@[simp] theorem journalRetire_pair (m : Module) (qp : Nat) (t : W64) : (journalRetire m qp t).pair = m.pair := by rw [journalRetire_only]
@[simp] theorem journalRetire_alm (m : Module) (qp : Nat) (t : W64) : (journalRetire m qp t).alm = m.alm := by rw [journalRetire_only]
@[simp] theorem journalRetire_lio (m : Module) (qp : Nat) (t : W64) : (journalRetire m qp t).lio = m.lio := by rw [journalRetire_only]
@[simp] theorem journalRetire_halo (m : Module) (qp : Nat) (t : W64) : (journalRetire m qp t).halo = m.halo := by rw [journalRetire_only]
@[simp] theorem journalRetire_maint (m : Module) (qp : Nat) (t : W64) : (journalRetire m qp t).maint = m.maint := by rw [journalRetire_only]
@[simp] theorem journalRetire_diag (m : Module) (qp : Nat) (t : W64) : (journalRetire m qp t).diag = m.diag := by rw [journalRetire_only]
@[simp] theorem journalRetire_phys (m : Module) (qp : Nat) (t : W64) : (journalRetire m qp t).phys = m.phys := by rw [journalRetire_only]

theorem ticketPut_only (m : Module) (qp : Nat) (r : TicketRec) :
    ticketPut m qp r = { m with mail := (ticketPut m qp r).mail } := rfl
@[simp] theorem ticketPut_slot (m : Module) (qp : Nat) (r : TicketRec) : (ticketPut m qp r).slot = m.slot := by rw [ticketPut_only]
@[simp] theorem ticketPut_hw (m : Module) (qp : Nat) (r : TicketRec) : (ticketPut m qp r).hw = m.hw := by rw [ticketPut_only]
@[simp] theorem ticketPut_power (m : Module) (qp : Nat) (r : TicketRec) : (ticketPut m qp r).power = m.power := by rw [ticketPut_only]
@[simp] theorem ticketPut_boot (m : Module) (qp : Nat) (r : TicketRec) : (ticketPut m qp r).boot = m.boot := by rw [ticketPut_only]
@[simp] theorem ticketPut_store (m : Module) (qp : Nat) (r : TicketRec) : (ticketPut m qp r).store = m.store := by rw [ticketPut_only]
@[simp] theorem ticketPut_exec (m : Module) (qp : Nat) (r : TicketRec) : (ticketPut m qp r).exec = m.exec := by rw [ticketPut_only]
@[simp] theorem ticketPut_glint (m : Module) (qp : Nat) (r : TicketRec) : (ticketPut m qp r).glint = m.glint := by rw [ticketPut_only]
@[simp] theorem ticketPut_field (m : Module) (qp : Nat) (r : TicketRec) : (ticketPut m qp r).field = m.field := by rw [ticketPut_only]
@[simp] theorem ticketPut_pair (m : Module) (qp : Nat) (r : TicketRec) : (ticketPut m qp r).pair = m.pair := by rw [ticketPut_only]
@[simp] theorem ticketPut_alm (m : Module) (qp : Nat) (r : TicketRec) : (ticketPut m qp r).alm = m.alm := by rw [ticketPut_only]
@[simp] theorem ticketPut_chron (m : Module) (qp : Nat) (r : TicketRec) : (ticketPut m qp r).chron = m.chron := by rw [ticketPut_only]
@[simp] theorem ticketPut_lio (m : Module) (qp : Nat) (r : TicketRec) : (ticketPut m qp r).lio = m.lio := by rw [ticketPut_only]
@[simp] theorem ticketPut_halo (m : Module) (qp : Nat) (r : TicketRec) : (ticketPut m qp r).halo = m.halo := by rw [ticketPut_only]
@[simp] theorem ticketPut_maint (m : Module) (qp : Nat) (r : TicketRec) : (ticketPut m qp r).maint = m.maint := by rw [ticketPut_only]
@[simp] theorem ticketPut_diag (m : Module) (qp : Nat) (r : TicketRec) : (ticketPut m qp r).diag = m.diag := by rw [ticketPut_only]
@[simp] theorem ticketPut_phys (m : Module) (qp : Nat) (r : TicketRec) : (ticketPut m qp r).phys = m.phys := by rw [ticketPut_only]
@[simp] theorem ticketPut_out (m : Module) (qp : Nat) (r : TicketRec) : (ticketPut m qp r).out = m.out := by rw [ticketPut_only]

theorem pushCpl_only (m : Module) (qp : Nat) (c : Cpl) :
    pushCpl m qp c = { m with mail := (pushCpl m qp c).mail } := by unfold pushCpl; split <;> rfl
@[simp] theorem pushCpl_slot (m : Module) (qp : Nat) (c : Cpl) : (pushCpl m qp c).slot = m.slot := by rw [pushCpl_only]
@[simp] theorem pushCpl_hw (m : Module) (qp : Nat) (c : Cpl) : (pushCpl m qp c).hw = m.hw := by rw [pushCpl_only]
@[simp] theorem pushCpl_power (m : Module) (qp : Nat) (c : Cpl) : (pushCpl m qp c).power = m.power := by rw [pushCpl_only]
@[simp] theorem pushCpl_boot (m : Module) (qp : Nat) (c : Cpl) : (pushCpl m qp c).boot = m.boot := by rw [pushCpl_only]
@[simp] theorem pushCpl_store (m : Module) (qp : Nat) (c : Cpl) : (pushCpl m qp c).store = m.store := by rw [pushCpl_only]
@[simp] theorem pushCpl_exec (m : Module) (qp : Nat) (c : Cpl) : (pushCpl m qp c).exec = m.exec := by rw [pushCpl_only]
@[simp] theorem pushCpl_glint (m : Module) (qp : Nat) (c : Cpl) : (pushCpl m qp c).glint = m.glint := by rw [pushCpl_only]
@[simp] theorem pushCpl_field (m : Module) (qp : Nat) (c : Cpl) : (pushCpl m qp c).field = m.field := by rw [pushCpl_only]
@[simp] theorem pushCpl_pair (m : Module) (qp : Nat) (c : Cpl) : (pushCpl m qp c).pair = m.pair := by rw [pushCpl_only]
@[simp] theorem pushCpl_alm (m : Module) (qp : Nat) (c : Cpl) : (pushCpl m qp c).alm = m.alm := by rw [pushCpl_only]
@[simp] theorem pushCpl_chron (m : Module) (qp : Nat) (c : Cpl) : (pushCpl m qp c).chron = m.chron := by rw [pushCpl_only]
@[simp] theorem pushCpl_lio (m : Module) (qp : Nat) (c : Cpl) : (pushCpl m qp c).lio = m.lio := by rw [pushCpl_only]
@[simp] theorem pushCpl_halo (m : Module) (qp : Nat) (c : Cpl) : (pushCpl m qp c).halo = m.halo := by rw [pushCpl_only]
@[simp] theorem pushCpl_maint (m : Module) (qp : Nat) (c : Cpl) : (pushCpl m qp c).maint = m.maint := by rw [pushCpl_only]
@[simp] theorem pushCpl_diag (m : Module) (qp : Nat) (c : Cpl) : (pushCpl m qp c).diag = m.diag := by rw [pushCpl_only]
@[simp] theorem pushCpl_phys (m : Module) (qp : Nat) (c : Cpl) : (pushCpl m qp c).phys = m.phys := by rw [pushCpl_only]
@[simp] theorem pushCpl_out (m : Module) (qp : Nat) (c : Cpl) : (pushCpl m qp c).out = m.out := by rw [pushCpl_only]

theorem unwait_only (m : Module) (code : Nat) (c : Cmd) :
    unwait m code c = { m with mail := (unwait m code c).mail } := rfl
@[simp] theorem unwait_slot (m : Module) (code : Nat) (c : Cmd) : (unwait m code c).slot = m.slot := by rw [unwait_only]
@[simp] theorem unwait_hw (m : Module) (code : Nat) (c : Cmd) : (unwait m code c).hw = m.hw := by rw [unwait_only]
@[simp] theorem unwait_power (m : Module) (code : Nat) (c : Cmd) : (unwait m code c).power = m.power := by rw [unwait_only]
@[simp] theorem unwait_boot (m : Module) (code : Nat) (c : Cmd) : (unwait m code c).boot = m.boot := by rw [unwait_only]
@[simp] theorem unwait_store (m : Module) (code : Nat) (c : Cmd) : (unwait m code c).store = m.store := by rw [unwait_only]
@[simp] theorem unwait_exec (m : Module) (code : Nat) (c : Cmd) : (unwait m code c).exec = m.exec := by rw [unwait_only]
@[simp] theorem unwait_glint (m : Module) (code : Nat) (c : Cmd) : (unwait m code c).glint = m.glint := by rw [unwait_only]
@[simp] theorem unwait_field (m : Module) (code : Nat) (c : Cmd) : (unwait m code c).field = m.field := by rw [unwait_only]
@[simp] theorem unwait_pair (m : Module) (code : Nat) (c : Cmd) : (unwait m code c).pair = m.pair := by rw [unwait_only]
@[simp] theorem unwait_alm (m : Module) (code : Nat) (c : Cmd) : (unwait m code c).alm = m.alm := by rw [unwait_only]
@[simp] theorem unwait_chron (m : Module) (code : Nat) (c : Cmd) : (unwait m code c).chron = m.chron := by rw [unwait_only]
@[simp] theorem unwait_lio (m : Module) (code : Nat) (c : Cmd) : (unwait m code c).lio = m.lio := by rw [unwait_only]
@[simp] theorem unwait_halo (m : Module) (code : Nat) (c : Cmd) : (unwait m code c).halo = m.halo := by rw [unwait_only]
@[simp] theorem unwait_maint (m : Module) (code : Nat) (c : Cmd) : (unwait m code c).maint = m.maint := by rw [unwait_only]
@[simp] theorem unwait_diag (m : Module) (code : Nat) (c : Cmd) : (unwait m code c).diag = m.diag := by rw [unwait_only]
@[simp] theorem unwait_phys (m : Module) (code : Nat) (c : Cmd) : (unwait m code c).phys = m.phys := by rw [unwait_only]
@[simp] theorem unwait_out (m : Module) (code : Nat) (c : Cmd) : (unwait m code c).out = m.out := by rw [unwait_only]

theorem retireFinal_only (m : Module) (qp : Nat) (t : W64) :
    retireFinal m qp t = { m with mail := (retireFinal m qp t).mail, chron := (retireFinal m qp t).chron, out := (retireFinal m qp t).out } := by
  unfold retireFinal; dsimp only; split
  · rfl
  · rw [journalRetire_only]; split <;> rfl
@[simp] theorem retireFinal_slot (m : Module) (qp : Nat) (t : W64) : (retireFinal m qp t).slot = m.slot := by rw [retireFinal_only]
@[simp] theorem retireFinal_hw (m : Module) (qp : Nat) (t : W64) : (retireFinal m qp t).hw = m.hw := by rw [retireFinal_only]
@[simp] theorem retireFinal_power (m : Module) (qp : Nat) (t : W64) : (retireFinal m qp t).power = m.power := by rw [retireFinal_only]
@[simp] theorem retireFinal_boot (m : Module) (qp : Nat) (t : W64) : (retireFinal m qp t).boot = m.boot := by rw [retireFinal_only]
@[simp] theorem retireFinal_store (m : Module) (qp : Nat) (t : W64) : (retireFinal m qp t).store = m.store := by rw [retireFinal_only]
@[simp] theorem retireFinal_exec (m : Module) (qp : Nat) (t : W64) : (retireFinal m qp t).exec = m.exec := by rw [retireFinal_only]
@[simp] theorem retireFinal_glint (m : Module) (qp : Nat) (t : W64) : (retireFinal m qp t).glint = m.glint := by rw [retireFinal_only]
@[simp] theorem retireFinal_field (m : Module) (qp : Nat) (t : W64) : (retireFinal m qp t).field = m.field := by rw [retireFinal_only]
@[simp] theorem retireFinal_pair (m : Module) (qp : Nat) (t : W64) : (retireFinal m qp t).pair = m.pair := by rw [retireFinal_only]
@[simp] theorem retireFinal_alm (m : Module) (qp : Nat) (t : W64) : (retireFinal m qp t).alm = m.alm := by rw [retireFinal_only]
@[simp] theorem retireFinal_lio (m : Module) (qp : Nat) (t : W64) : (retireFinal m qp t).lio = m.lio := by rw [retireFinal_only]
@[simp] theorem retireFinal_halo (m : Module) (qp : Nat) (t : W64) : (retireFinal m qp t).halo = m.halo := by rw [retireFinal_only]
@[simp] theorem retireFinal_maint (m : Module) (qp : Nat) (t : W64) : (retireFinal m qp t).maint = m.maint := by rw [retireFinal_only]
@[simp] theorem retireFinal_diag (m : Module) (qp : Nat) (t : W64) : (retireFinal m qp t).diag = m.diag := by rw [retireFinal_only]
@[simp] theorem retireFinal_phys (m : Module) (qp : Nat) (t : W64) : (retireFinal m qp t).phys = m.phys := by rw [retireFinal_only]

theorem refreshOuts_only (m : Module) :
    refreshOuts m = { m with lio := (refreshOuts m).lio } := rfl
@[simp] theorem refreshOuts_slot (m : Module) : (refreshOuts m).slot = m.slot := by rw [refreshOuts_only]
@[simp] theorem refreshOuts_hw (m : Module) : (refreshOuts m).hw = m.hw := by rw [refreshOuts_only]
@[simp] theorem refreshOuts_power (m : Module) : (refreshOuts m).power = m.power := by rw [refreshOuts_only]
@[simp] theorem refreshOuts_boot (m : Module) : (refreshOuts m).boot = m.boot := by rw [refreshOuts_only]
@[simp] theorem refreshOuts_mail (m : Module) : (refreshOuts m).mail = m.mail := by rw [refreshOuts_only]
@[simp] theorem refreshOuts_store (m : Module) : (refreshOuts m).store = m.store := by rw [refreshOuts_only]
@[simp] theorem refreshOuts_exec (m : Module) : (refreshOuts m).exec = m.exec := by rw [refreshOuts_only]
@[simp] theorem refreshOuts_glint (m : Module) : (refreshOuts m).glint = m.glint := by rw [refreshOuts_only]
@[simp] theorem refreshOuts_field (m : Module) : (refreshOuts m).field = m.field := by rw [refreshOuts_only]
@[simp] theorem refreshOuts_pair (m : Module) : (refreshOuts m).pair = m.pair := by rw [refreshOuts_only]
@[simp] theorem refreshOuts_alm (m : Module) : (refreshOuts m).alm = m.alm := by rw [refreshOuts_only]
@[simp] theorem refreshOuts_chron (m : Module) : (refreshOuts m).chron = m.chron := by rw [refreshOuts_only]
@[simp] theorem refreshOuts_halo (m : Module) : (refreshOuts m).halo = m.halo := by rw [refreshOuts_only]
@[simp] theorem refreshOuts_maint (m : Module) : (refreshOuts m).maint = m.maint := by rw [refreshOuts_only]
@[simp] theorem refreshOuts_diag (m : Module) : (refreshOuts m).diag = m.diag := by rw [refreshOuts_only]
@[simp] theorem refreshOuts_phys (m : Module) : (refreshOuts m).phys = m.phys := by rw [refreshOuts_only]
@[simp] theorem refreshOuts_out (m : Module) : (refreshOuts m).out = m.out := by rw [refreshOuts_only]

theorem refreshSo_only (m : Module) :
    refreshSo m = { m with halo := (refreshSo m).halo } := rfl
@[simp] theorem refreshSo_slot (m : Module) : (refreshSo m).slot = m.slot := by rw [refreshSo_only]
@[simp] theorem refreshSo_hw (m : Module) : (refreshSo m).hw = m.hw := by rw [refreshSo_only]
@[simp] theorem refreshSo_power (m : Module) : (refreshSo m).power = m.power := by rw [refreshSo_only]
@[simp] theorem refreshSo_boot (m : Module) : (refreshSo m).boot = m.boot := by rw [refreshSo_only]
@[simp] theorem refreshSo_mail (m : Module) : (refreshSo m).mail = m.mail := by rw [refreshSo_only]
@[simp] theorem refreshSo_store (m : Module) : (refreshSo m).store = m.store := by rw [refreshSo_only]
@[simp] theorem refreshSo_exec (m : Module) : (refreshSo m).exec = m.exec := by rw [refreshSo_only]
@[simp] theorem refreshSo_glint (m : Module) : (refreshSo m).glint = m.glint := by rw [refreshSo_only]
@[simp] theorem refreshSo_field (m : Module) : (refreshSo m).field = m.field := by rw [refreshSo_only]
@[simp] theorem refreshSo_pair (m : Module) : (refreshSo m).pair = m.pair := by rw [refreshSo_only]
@[simp] theorem refreshSo_alm (m : Module) : (refreshSo m).alm = m.alm := by rw [refreshSo_only]
@[simp] theorem refreshSo_chron (m : Module) : (refreshSo m).chron = m.chron := by rw [refreshSo_only]
@[simp] theorem refreshSo_lio (m : Module) : (refreshSo m).lio = m.lio := by rw [refreshSo_only]
@[simp] theorem refreshSo_maint (m : Module) : (refreshSo m).maint = m.maint := by rw [refreshSo_only]
@[simp] theorem refreshSo_diag (m : Module) : (refreshSo m).diag = m.diag := by rw [refreshSo_only]
@[simp] theorem refreshSo_phys (m : Module) : (refreshSo m).phys = m.phys := by rw [refreshSo_only]
@[simp] theorem refreshSo_out (m : Module) : (refreshSo m).out = m.out := by rw [refreshSo_only]

theorem refresh_only (m : Module) :
    refresh m = { m with lio := (refresh m).lio, halo := (refresh m).halo } := rfl
@[simp] theorem refresh_slot (m : Module) : (refresh m).slot = m.slot := by rw [refresh_only]
@[simp] theorem refresh_hw (m : Module) : (refresh m).hw = m.hw := by rw [refresh_only]
@[simp] theorem refresh_power (m : Module) : (refresh m).power = m.power := by rw [refresh_only]
@[simp] theorem refresh_boot (m : Module) : (refresh m).boot = m.boot := by rw [refresh_only]
@[simp] theorem refresh_mail (m : Module) : (refresh m).mail = m.mail := by rw [refresh_only]
@[simp] theorem refresh_store (m : Module) : (refresh m).store = m.store := by rw [refresh_only]
@[simp] theorem refresh_exec (m : Module) : (refresh m).exec = m.exec := by rw [refresh_only]
@[simp] theorem refresh_glint (m : Module) : (refresh m).glint = m.glint := by rw [refresh_only]
@[simp] theorem refresh_field (m : Module) : (refresh m).field = m.field := by rw [refresh_only]
@[simp] theorem refresh_pair (m : Module) : (refresh m).pair = m.pair := by rw [refresh_only]
@[simp] theorem refresh_alm (m : Module) : (refresh m).alm = m.alm := by rw [refresh_only]
@[simp] theorem refresh_chron (m : Module) : (refresh m).chron = m.chron := by rw [refresh_only]
@[simp] theorem refresh_maint (m : Module) : (refresh m).maint = m.maint := by rw [refresh_only]
@[simp] theorem refresh_diag (m : Module) : (refresh m).diag = m.diag := by rw [refresh_only]
@[simp] theorem refresh_phys (m : Module) : (refresh m).phys = m.phys := by rw [refresh_only]
@[simp] theorem refresh_out (m : Module) : (refresh m).out = m.out := by rw [refresh_only]

theorem outChMod_only (m : Module) (k ch : Nat) (f : OutCh → OutCh) :
    outChMod m k ch f = { m with lio := (outChMod m k ch f).lio } := by unfold outChMod; split <;> rfl
@[simp] theorem outChMod_slot (m : Module) (k ch : Nat) (f : OutCh → OutCh) : (outChMod m k ch f).slot = m.slot := by rw [outChMod_only]
@[simp] theorem outChMod_hw (m : Module) (k ch : Nat) (f : OutCh → OutCh) : (outChMod m k ch f).hw = m.hw := by rw [outChMod_only]
@[simp] theorem outChMod_power (m : Module) (k ch : Nat) (f : OutCh → OutCh) : (outChMod m k ch f).power = m.power := by rw [outChMod_only]
@[simp] theorem outChMod_boot (m : Module) (k ch : Nat) (f : OutCh → OutCh) : (outChMod m k ch f).boot = m.boot := by rw [outChMod_only]
@[simp] theorem outChMod_mail (m : Module) (k ch : Nat) (f : OutCh → OutCh) : (outChMod m k ch f).mail = m.mail := by rw [outChMod_only]
@[simp] theorem outChMod_store (m : Module) (k ch : Nat) (f : OutCh → OutCh) : (outChMod m k ch f).store = m.store := by rw [outChMod_only]
@[simp] theorem outChMod_exec (m : Module) (k ch : Nat) (f : OutCh → OutCh) : (outChMod m k ch f).exec = m.exec := by rw [outChMod_only]
@[simp] theorem outChMod_glint (m : Module) (k ch : Nat) (f : OutCh → OutCh) : (outChMod m k ch f).glint = m.glint := by rw [outChMod_only]
@[simp] theorem outChMod_field (m : Module) (k ch : Nat) (f : OutCh → OutCh) : (outChMod m k ch f).field = m.field := by rw [outChMod_only]
@[simp] theorem outChMod_pair (m : Module) (k ch : Nat) (f : OutCh → OutCh) : (outChMod m k ch f).pair = m.pair := by rw [outChMod_only]
@[simp] theorem outChMod_alm (m : Module) (k ch : Nat) (f : OutCh → OutCh) : (outChMod m k ch f).alm = m.alm := by rw [outChMod_only]
@[simp] theorem outChMod_chron (m : Module) (k ch : Nat) (f : OutCh → OutCh) : (outChMod m k ch f).chron = m.chron := by rw [outChMod_only]
@[simp] theorem outChMod_halo (m : Module) (k ch : Nat) (f : OutCh → OutCh) : (outChMod m k ch f).halo = m.halo := by rw [outChMod_only]
@[simp] theorem outChMod_maint (m : Module) (k ch : Nat) (f : OutCh → OutCh) : (outChMod m k ch f).maint = m.maint := by rw [outChMod_only]
@[simp] theorem outChMod_diag (m : Module) (k ch : Nat) (f : OutCh → OutCh) : (outChMod m k ch f).diag = m.diag := by rw [outChMod_only]
@[simp] theorem outChMod_phys (m : Module) (k ch : Nat) (f : OutCh → OutCh) : (outChMod m k ch f).phys = m.phys := by rw [outChMod_only]
@[simp] theorem outChMod_out (m : Module) (k ch : Nat) (f : OutCh → OutCh) : (outChMod m k ch f).out = m.out := by rw [outChMod_only]

theorem refreshOut_only (m : Module) (k ch : Nat) :
    refreshOut m k ch = { m with lio := (refreshOut m k ch).lio } := outChMod_only m k ch _
@[simp] theorem refreshOut_slot (m : Module) (k ch : Nat) : (refreshOut m k ch).slot = m.slot := by rw [refreshOut_only]
@[simp] theorem refreshOut_hw (m : Module) (k ch : Nat) : (refreshOut m k ch).hw = m.hw := by rw [refreshOut_only]
@[simp] theorem refreshOut_power (m : Module) (k ch : Nat) : (refreshOut m k ch).power = m.power := by rw [refreshOut_only]
@[simp] theorem refreshOut_boot (m : Module) (k ch : Nat) : (refreshOut m k ch).boot = m.boot := by rw [refreshOut_only]
@[simp] theorem refreshOut_mail (m : Module) (k ch : Nat) : (refreshOut m k ch).mail = m.mail := by rw [refreshOut_only]
@[simp] theorem refreshOut_store (m : Module) (k ch : Nat) : (refreshOut m k ch).store = m.store := by rw [refreshOut_only]
@[simp] theorem refreshOut_exec (m : Module) (k ch : Nat) : (refreshOut m k ch).exec = m.exec := by rw [refreshOut_only]
@[simp] theorem refreshOut_glint (m : Module) (k ch : Nat) : (refreshOut m k ch).glint = m.glint := by rw [refreshOut_only]
@[simp] theorem refreshOut_field (m : Module) (k ch : Nat) : (refreshOut m k ch).field = m.field := by rw [refreshOut_only]
@[simp] theorem refreshOut_pair (m : Module) (k ch : Nat) : (refreshOut m k ch).pair = m.pair := by rw [refreshOut_only]
@[simp] theorem refreshOut_alm (m : Module) (k ch : Nat) : (refreshOut m k ch).alm = m.alm := by rw [refreshOut_only]
@[simp] theorem refreshOut_chron (m : Module) (k ch : Nat) : (refreshOut m k ch).chron = m.chron := by rw [refreshOut_only]
@[simp] theorem refreshOut_halo (m : Module) (k ch : Nat) : (refreshOut m k ch).halo = m.halo := by rw [refreshOut_only]
@[simp] theorem refreshOut_maint (m : Module) (k ch : Nat) : (refreshOut m k ch).maint = m.maint := by rw [refreshOut_only]
@[simp] theorem refreshOut_diag (m : Module) (k ch : Nat) : (refreshOut m k ch).diag = m.diag := by rw [refreshOut_only]
@[simp] theorem refreshOut_phys (m : Module) (k ch : Nat) : (refreshOut m k ch).phys = m.phys := by rw [refreshOut_only]
@[simp] theorem refreshOut_out (m : Module) (k ch : Nat) : (refreshOut m k ch).out = m.out := by rw [refreshOut_only]

theorem vigilRestart_only (m : Module) (k ch : Nat) :
    vigilRestart m k ch = { m with lio := (vigilRestart m k ch).lio, chron := (vigilRestart m k ch).chron, out := (vigilRestart m k ch).out } := by
  unfold vigilRestart; split
  · rfl
  · dsimp only; split
    · rw [refreshOut_only, logEv_only, outChMod_only]
    · rw [outChMod_only]
@[simp] theorem vigilRestart_slot (m : Module) (k ch : Nat) : (vigilRestart m k ch).slot = m.slot := by rw [vigilRestart_only]
@[simp] theorem vigilRestart_hw (m : Module) (k ch : Nat) : (vigilRestart m k ch).hw = m.hw := by rw [vigilRestart_only]
@[simp] theorem vigilRestart_power (m : Module) (k ch : Nat) : (vigilRestart m k ch).power = m.power := by rw [vigilRestart_only]
@[simp] theorem vigilRestart_boot (m : Module) (k ch : Nat) : (vigilRestart m k ch).boot = m.boot := by rw [vigilRestart_only]
@[simp] theorem vigilRestart_mail (m : Module) (k ch : Nat) : (vigilRestart m k ch).mail = m.mail := by rw [vigilRestart_only]
@[simp] theorem vigilRestart_store (m : Module) (k ch : Nat) : (vigilRestart m k ch).store = m.store := by rw [vigilRestart_only]
@[simp] theorem vigilRestart_exec (m : Module) (k ch : Nat) : (vigilRestart m k ch).exec = m.exec := by rw [vigilRestart_only]
@[simp] theorem vigilRestart_glint (m : Module) (k ch : Nat) : (vigilRestart m k ch).glint = m.glint := by rw [vigilRestart_only]
@[simp] theorem vigilRestart_field (m : Module) (k ch : Nat) : (vigilRestart m k ch).field = m.field := by rw [vigilRestart_only]
@[simp] theorem vigilRestart_pair (m : Module) (k ch : Nat) : (vigilRestart m k ch).pair = m.pair := by rw [vigilRestart_only]
@[simp] theorem vigilRestart_alm (m : Module) (k ch : Nat) : (vigilRestart m k ch).alm = m.alm := by rw [vigilRestart_only]
@[simp] theorem vigilRestart_halo (m : Module) (k ch : Nat) : (vigilRestart m k ch).halo = m.halo := by rw [vigilRestart_only]
@[simp] theorem vigilRestart_maint (m : Module) (k ch : Nat) : (vigilRestart m k ch).maint = m.maint := by rw [vigilRestart_only]
@[simp] theorem vigilRestart_diag (m : Module) (k ch : Nat) : (vigilRestart m k ch).diag = m.diag := by rw [vigilRestart_only]
@[simp] theorem vigilRestart_phys (m : Module) (k ch : Nat) : (vigilRestart m k ch).phys = m.phys := by rw [vigilRestart_only]

/-- A run of changes that each keep a part keeps it. -/
theorem foldl_keeps {α β : Type} (g : Module → β) (f : Module → α → Module) (h : ∀ m x, g (f m x) = g m) (l : List α) (m : Module) :
    g (l.foldl f m) = g m := by
  induction l generalizing m with
  | nil => rfl
  | cons x xs ih => exact (ih (f m x)).trans (h m x)

@[simp] theorem vigilSweep_slot (m : Module) : (vigilSweep m).slot = m.slot :=
  foldl_keeps (·.slot) _ (fun m x => by split <;> simp) allOut m
@[simp] theorem vigilSweep_hw (m : Module) : (vigilSweep m).hw = m.hw :=
  foldl_keeps (·.hw) _ (fun m x => by split <;> simp) allOut m
@[simp] theorem vigilSweep_power (m : Module) : (vigilSweep m).power = m.power :=
  foldl_keeps (·.power) _ (fun m x => by split <;> simp) allOut m
@[simp] theorem vigilSweep_boot (m : Module) : (vigilSweep m).boot = m.boot :=
  foldl_keeps (·.boot) _ (fun m x => by split <;> simp) allOut m
@[simp] theorem vigilSweep_mail (m : Module) : (vigilSweep m).mail = m.mail :=
  foldl_keeps (·.mail) _ (fun m x => by split <;> simp) allOut m
@[simp] theorem vigilSweep_store (m : Module) : (vigilSweep m).store = m.store :=
  foldl_keeps (·.store) _ (fun m x => by split <;> simp) allOut m
@[simp] theorem vigilSweep_exec (m : Module) : (vigilSweep m).exec = m.exec :=
  foldl_keeps (·.exec) _ (fun m x => by split <;> simp) allOut m
@[simp] theorem vigilSweep_glint (m : Module) : (vigilSweep m).glint = m.glint :=
  foldl_keeps (·.glint) _ (fun m x => by split <;> simp) allOut m
@[simp] theorem vigilSweep_field (m : Module) : (vigilSweep m).field = m.field :=
  foldl_keeps (·.field) _ (fun m x => by split <;> simp) allOut m
@[simp] theorem vigilSweep_pair (m : Module) : (vigilSweep m).pair = m.pair :=
  foldl_keeps (·.pair) _ (fun m x => by split <;> simp) allOut m
@[simp] theorem vigilSweep_alm (m : Module) : (vigilSweep m).alm = m.alm :=
  foldl_keeps (·.alm) _ (fun m x => by split <;> simp) allOut m
@[simp] theorem vigilSweep_halo (m : Module) : (vigilSweep m).halo = m.halo :=
  foldl_keeps (·.halo) _ (fun m x => by split <;> simp) allOut m
@[simp] theorem vigilSweep_maint (m : Module) : (vigilSweep m).maint = m.maint :=
  foldl_keeps (·.maint) _ (fun m x => by split <;> simp) allOut m
@[simp] theorem vigilSweep_diag (m : Module) : (vigilSweep m).diag = m.diag :=
  foldl_keeps (·.diag) _ (fun m x => by split <;> simp) allOut m
@[simp] theorem vigilSweep_phys (m : Module) : (vigilSweep m).phys = m.phys :=
  foldl_keeps (·.phys) _ (fun m x => by split <;> simp) allOut m

/-! ### The end of a Quondi command -/

/-- Only the mailbox, the Chronicle and the output of a module differ. -/
def MailOnly (m n : Module) : Prop := n = { m with mail := n.mail, chron := n.chron, out := n.out }

theorem MailOnly.refl (m : Module) : MailOnly m m := rfl
theorem MailOnly.trans {m n o : Module} (h : MailOnly m n) (k : MailOnly n o) : MailOnly m o := by
  unfold MailOnly at *; rw [k, h]
theorem MailOnly.ite {m n o : Module} {p : Prop} [Decidable p] (h : MailOnly m n) (k : MailOnly m o) : MailOnly m (if p then n else o) := by
  split
  · exact h
  · exact k
theorem pushCpl_mail (m : Module) (qp : Nat) (c : Cpl) : MailOnly m (pushCpl m qp c) := by unfold MailOnly; rw [pushCpl_only]
theorem retireFinal_mailOnly (m : Module) (qp : Nat) (t : W64) : MailOnly m (retireFinal m qp t) := by unfold MailOnly; rw [retireFinal_only]
theorem foldl_pushCpl_mail (qp : Nat) (l : List Cpl) (m : Module) : MailOnly m (l.foldl (fun a x => pushCpl a qp x) m) := by
  induction l generalizing m with
  | nil => exact .refl m
  | cons x xs ih => exact (pushCpl_mail m qp x).trans (ih _)

/-- The final stage of a command changes the mailbox, and through a stall that ends or begins the Chronicle. -/
theorem finish_mailOnly (m : Module) (k : Kind) (code : Nat) (c : Cmd) (stage status detail : Nat) (rsp : Bytes) (w : Bool) :
    MailOnly m (finish m k code c stage status detail rsp w) := by
  unfold finish
  split
  · unfold finishWork
    dsimp only
    have h : ∀ r f, MailOnly m (journalMod (ticketPut m c.qp r) c.qp c.ticket f) := fun _ _ => rfl
    refine MailOnly.ite (MailOnly.ite ?_ ?_) (h _ _)
    · exact (MailOnly.ite (h _ _) ((h _ _).trans (pushCpl_mail _ _ _))).trans (foldl_pushCpl_mail _ _ _)
    · exact ((MailOnly.ite (h _ _) ((h _ _).trans (pushCpl_mail _ _ _))).trans (foldl_pushCpl_mail _ _ _)).trans (retireFinal_mailOnly _ _ _)
  · exact (show MailOnly m (unwait m code c) from rfl).trans (pushCpl_mail _ _ _)

@[simp] theorem finish_slot (m : Module) (k : Kind) (code : Nat) (c : Cmd) (stage status detail : Nat) (rsp : Bytes) (w : Bool) :
    (finish m k code c stage status detail rsp w).slot = m.slot := by rw [finish_mailOnly m k code c stage status detail rsp w]
@[simp] theorem finish_hw (m : Module) (k : Kind) (code : Nat) (c : Cmd) (stage status detail : Nat) (rsp : Bytes) (w : Bool) :
    (finish m k code c stage status detail rsp w).hw = m.hw := by rw [finish_mailOnly m k code c stage status detail rsp w]
@[simp] theorem finish_power (m : Module) (k : Kind) (code : Nat) (c : Cmd) (stage status detail : Nat) (rsp : Bytes) (w : Bool) :
    (finish m k code c stage status detail rsp w).power = m.power := by rw [finish_mailOnly m k code c stage status detail rsp w]
@[simp] theorem finish_boot (m : Module) (k : Kind) (code : Nat) (c : Cmd) (stage status detail : Nat) (rsp : Bytes) (w : Bool) :
    (finish m k code c stage status detail rsp w).boot = m.boot := by rw [finish_mailOnly m k code c stage status detail rsp w]
@[simp] theorem finish_store (m : Module) (k : Kind) (code : Nat) (c : Cmd) (stage status detail : Nat) (rsp : Bytes) (w : Bool) :
    (finish m k code c stage status detail rsp w).store = m.store := by rw [finish_mailOnly m k code c stage status detail rsp w]
@[simp] theorem finish_exec (m : Module) (k : Kind) (code : Nat) (c : Cmd) (stage status detail : Nat) (rsp : Bytes) (w : Bool) :
    (finish m k code c stage status detail rsp w).exec = m.exec := by rw [finish_mailOnly m k code c stage status detail rsp w]
@[simp] theorem finish_glint (m : Module) (k : Kind) (code : Nat) (c : Cmd) (stage status detail : Nat) (rsp : Bytes) (w : Bool) :
    (finish m k code c stage status detail rsp w).glint = m.glint := by rw [finish_mailOnly m k code c stage status detail rsp w]
@[simp] theorem finish_field (m : Module) (k : Kind) (code : Nat) (c : Cmd) (stage status detail : Nat) (rsp : Bytes) (w : Bool) :
    (finish m k code c stage status detail rsp w).field = m.field := by rw [finish_mailOnly m k code c stage status detail rsp w]
@[simp] theorem finish_pair (m : Module) (k : Kind) (code : Nat) (c : Cmd) (stage status detail : Nat) (rsp : Bytes) (w : Bool) :
    (finish m k code c stage status detail rsp w).pair = m.pair := by rw [finish_mailOnly m k code c stage status detail rsp w]
@[simp] theorem finish_alm (m : Module) (k : Kind) (code : Nat) (c : Cmd) (stage status detail : Nat) (rsp : Bytes) (w : Bool) :
    (finish m k code c stage status detail rsp w).alm = m.alm := by rw [finish_mailOnly m k code c stage status detail rsp w]
@[simp] theorem finish_lio (m : Module) (k : Kind) (code : Nat) (c : Cmd) (stage status detail : Nat) (rsp : Bytes) (w : Bool) :
    (finish m k code c stage status detail rsp w).lio = m.lio := by rw [finish_mailOnly m k code c stage status detail rsp w]
@[simp] theorem finish_halo (m : Module) (k : Kind) (code : Nat) (c : Cmd) (stage status detail : Nat) (rsp : Bytes) (w : Bool) :
    (finish m k code c stage status detail rsp w).halo = m.halo := by rw [finish_mailOnly m k code c stage status detail rsp w]
@[simp] theorem finish_maint (m : Module) (k : Kind) (code : Nat) (c : Cmd) (stage status detail : Nat) (rsp : Bytes) (w : Bool) :
    (finish m k code c stage status detail rsp w).maint = m.maint := by rw [finish_mailOnly m k code c stage status detail rsp w]
@[simp] theorem finish_diag (m : Module) (k : Kind) (code : Nat) (c : Cmd) (stage status detail : Nat) (rsp : Bytes) (w : Bool) :
    (finish m k code c stage status detail rsp w).diag = m.diag := by rw [finish_mailOnly m k code c stage status detail rsp w]
@[simp] theorem finish_phys (m : Module) (k : Kind) (code : Nat) (c : Cmd) (stage status detail : Nat) (rsp : Bytes) (w : Bool) :
    (finish m k code c stage status detail rsp w).phys = m.phys := by rw [finish_mailOnly m k code c stage status detail rsp w]

end Sys2Proof.Machine
end

