-- ==== Sys2Proof/Laws/Glint.lean ====
section
/-! SUPPORT. Laws/Glint.lean: the literal map and the shape of a Glint instruction. -/

namespace Sys2Proof.Machine
open Sys2Proof Sys2Proof.Bits

theorem natOfBits_testBit (l : List Bool) (i : Nat) : (natOfBits l).testBit i = l.getD i false := by
  induction l generalizing i with
  | nil => simp [natOfBits]
  | cons b bs ih =>
    cases i with
    | zero => cases b <;> simp [natOfBits, b2n, Nat.testBit_zero] <;> omega
    | succ i =>
      rw [natOfBits, Nat.testBit_succ, show (b2n b + 2 * natOfBits bs) / 2 = natOfBits bs by cases b <;> simp [b2n] <;> omega, ih]
      rfl

/-- A bit of a replaced field is that of the new value; every other literal stays. -/
theorem litField_bit (l : BitVec 1024) (o n v i : Nat) (hi : i < 1024) :
    (litField l o n v).getLsbD i = if o ≤ i ∧ i < o + n then v.testBit (i - o) else l.getLsbD i := by
  have hm : ∀ x, (x % 2 ^ n * 2 ^ o).testBit i = (decide (o ≤ i) && decide (i - o < n) && x.testBit (i - o)) := by
    intro x; rw [Nat.testBit_mul_two_pow, Nat.testBit_mod_two_pow]; cases decide (o ≤ i) <;> simp
  have hk : ((2 ^ n - 1) * 2 ^ o).testBit i = (decide (o ≤ i) && decide (i - o < n)) := by
    rw [Nat.testBit_mul_two_pow, Nat.testBit_two_pow_sub_one]
  unfold litField
  simp only [BitVec.getLsbD_or, BitVec.getLsbD_and, BitVec.getLsbD_not, BitVec.getLsbD_ofNat, hi, decide_true, Bool.true_and, hm, hk]
  by_cases h : o ≤ i ∧ i < o + n
  · rw [if_pos h]; have : i - o < n := by omega
    simp [h.1, this]
  · rw [if_neg h]
    by_cases h1 : o ≤ i
    · have : ¬ i - o < n := by omega
      simp [this]
    · simp [h1]

theorem chunks_get (n k i : Nat) (bs : Bytes) (h : i < k) : (chunks n k bs)[i]? = some ((bs.drop (n * i)).take n) := by
  induction k generalizing i bs with
  | zero => omega
  | succ k ih =>
    cases i with
    | zero => simp [chunks]
    | succ i =>
      rw [chunks, List.getElem?_cons_succ, ih i _ (by omega), List.drop_drop]
      rw [show n + n * i = n * (i + 1) by rw [Nat.mul_add, Nat.mul_one, Nat.add_comm]]

/-- Entry i of the select table. -/
theorem selWords_get (part : Bytes) (i : Nat) (h : i < 816) : (selWords part)[i]? = some (le part (2 * i) 2) := by
  unfold selWords
  rw [List.getElem?_map, chunks_get 2 816 i part h]
  rfl

/-- A bit that is neither a pin, a status literal nor a driven flag comes out of a Glint cycle as the instruction left it. -/
theorem glintCycle_bit (m : Module) (f : Glint → Glint) (i : Nat) (h : gWritable m.glint i = true) :
    (glintCycle m f).glint.lits.getLsbD i = (f m.glint).lits.getLsbD i := by
  have hi : 0x80 ≤ i ∧ i < 0x200 := by
    simp only [gWritable, Bool.or_eq_true, Bool.and_eq_true, decide_eq_true_eq] at h; omega
  simp only [glintCycle, refresh_glint, statusLits]
  rw [litField_bit _ _ _ _ _ (by omega), if_neg (by omega), litField_bit _ _ _ _ _ (by omega), if_neg (by omega),
    litField_bit _ _ _ _ _ (by omega), if_neg (by omega), drivenFlags, litField_bit _ _ _ _ _ (by omega)]
  split
  · next hc =>
    have hsel : selected m.glint (i - 0x100 + 48) = false := by
      simp only [gWritable, Bool.or_eq_true, Bool.and_eq_true, decide_eq_true_eq, Bool.not_eq_true'] at h
      rcases h with h | h
      · omega
      · exact h.2
    obtain ⟨k, rfl⟩ : ∃ k, i = 0x100 + k := ⟨i - 0x100, by omega⟩
    have hk : k < 256 := by omega
    rw [natOfBits_testBit, List.getD_eq_getElem?_getD, List.getElem?_mapIdx, Nat.add_sub_cancel_left, List.getElem?_take, if_pos hk,
      List.getElem?_drop, selWords_get _ _ (by omega)]
    have hw : bit (le (activePart m.glint 1) (2 * (48 + k)) 2) 15 = false := by
      simp only [selected, selSource] at hsel
      rw [show 256 + k - 256 + 48 = 48 + k by omega] at hsel
      split at hsel
      · simp at hsel
      · next hn => simpa using hn
    simp [hw]
  · rfl

/-- A Glint cycle changes the engine and the outputs it drives. -/
theorem glintCycle_only (m : Module) (f : Glint → Glint) :
    glintCycle m f = { m with glint := (glintCycle m f).glint, lio := (glintCycle m f).lio, halo := (glintCycle m f).halo } := by
  unfold glintCycle; dsimp only; rw [refresh_only]

theorem glintCycle_state (m : Module) (f : Glint → Glint) :
    (glintCycle m f).glint.pc = (f m.glint).pc ∧ Safety.gState (glintCycle m f).glint = Safety.gState (f m.glint) := by
  unfold glintCycle Safety.gState; simp

/-- The instruction `f` is the next word of the sweep. -/
theorem glintIns_step {i : Instr} {s : State} {sl : Slot} {f : Module → Glint → Glint} (e : exec i s = glintIns f s sl)
    (due : Safety.GlintDue (modOf s sl)) (h : Glint → Glint)
    (hf : Safety.gState (if 0 < (modOf s sl).glint.skip then { (modOf s sl).glint with skip := (modOf s sl).glint.skip - 1 }
      else f (modOf s sl) (modOf s sl).glint) = Safety.gState (h (modOf s sl).glint)) : Safety.GlintStep i s sl h := by
  unfold Safety.GlintStep
  rw [e, glintIns, onMod, if_neg (by simp [due.1, due.2])]
  refine ⟨_, rfl, ?_, ?_, ?_⟩
  · rw [withMod_same, (glintCycle_state _ _).1]
  · rw [withMod_same, (glintCycle_state _ _).2]; exact hf
  · rw [withMod_same, ← glintCycle_only]

end Sys2Proof.Machine
end

