-- ==== Sys2Proof/Laws/Steps.lean ====
section
/-! SUPPORT. Laws/Steps.lean: what the steps of the control cycle and the commands of a module can do to the queue, the witness and the
drops. -/

namespace Sys2Proof.Machine
open Sys2Proof

/-- The queue and the drops stay; of the witness at most the domain and the generation change, which PAIR.WITNESS sets. -/
structure Quiet (s t : State) : Prop where
  pending : t.pending = s.pending
  stations : t.stations = s.stations
  witness : t.witness = { s.witness with domain := t.witness.domain, agen := t.witness.agen }

theorem Keeps.quiet {s t : State} (h : Keeps s t) : Quiet s t := ⟨h.pending, h.stations, by rw [h.witness]⟩

theorem Quiet.refl (s : State) : Quiet s s := (Keeps.refl s).quiet

theorem Quiet.trans {s t u : State} (h : Quiet s t) (k : Quiet t u) : Quiet s u :=
  ⟨k.pending.trans h.pending, k.stations.trans h.stations, by rw [k.witness, h.witness]⟩

theorem Quiet.withMod (s : State) (sl : Slot) (m : Module) : Quiet s (withMod s sl m) := (Keeps.withMod s sl m).quiet

theorem Quiet.ite {s t u : State} {p : Prop} [Decidable p] (h : Quiet s t) (k : Quiet s u) : Quiet s (if p then t else u) := by
  split
  · exact h
  · exact k

/-- The result of every handler of a command with effects on both modules. -/
def Mild (h : Module → Module → Witness → Cmd → PRes) : Prop :=
  ∀ m p w c, (h m p w c).w = { w with domain := (h m p w c).w.domain, agen := (h m p w c).w.agen }

theorem mild_run : Mild hPairRun := by intro m p w c; unfold hPairRun; dsimp only [alone']; repeat' (first | rfl | split)
theorem mild_withdraw : Mild hPairWithdraw := by intro m p w c; unfold hPairWithdraw; dsimp only [alone']; repeat' (first | rfl | split)
theorem mild_equinox : Mild hPairEquinox := by intro m p w c; unfold hPairEquinox; dsimp only [alone']; repeat' (first | rfl | split)
theorem mild_resync : Mild hPairResync := by intro m p w c; unfold hPairResync; dsimp only [alone']; repeat' (first | rfl | split)
theorem mild_witness : Mild hPairWitness := by intro m p w c; unfold hPairWitness; dsimp only [alone']; repeat' (first | rfl | split)
theorem mild_relay : Mild hImageRelay := by intro m p w c; unfold hImageRelay; dsimp only [alone']; repeat' (first | rfl | split)
theorem mild_activate : Mild hImageActivate := by intro m p w c; unfold hImageActivate; dsimp only [alone']; repeat' (first | rfl | split)
theorem mild_revert : Mild hImageRevert := by intro m p w c; unfold hImageRevert; dsimp only [alone']; repeat' (first | rfl | split)
theorem mild_discard : Mild hImageDiscard := by intro m p w c; unfold hImageDiscard; dsimp only [alone']; repeat' (first | rfl | split)

theorem quondiPair_quiet {h : Module → Module → Witness → Cmd → PRes} (mild : Mild h) {k : Kind} {sc : Scope} {code : Nat} {s t : State}
    {sl : Slot} {c : Cmd} (e : quondiPair h k sc code s sl c = .next t) : Quiet s t := by
  obtain ⟨hp, hs, hw | hw⟩ := quondiPair_next e
  · exact ⟨hp, hs, by rw [hw]⟩
  · exact ⟨hp, hs, by rw [hw]; exact mild _ _ _ _⟩

/-! ### Accepted work (R72, R129) -/

theorem workRow_quiet {code : Nat} {f : Slot → Cmd → State → Res} (h : workRow code = some f) {sl : Slot} {c : Cmd} {s t : State}
    (e : f sl c s = .next t) : Quiet s t := by
  unfold workRow at h
  split at h <;> first
    | (cases h; done)
    | (cases h; exact (quondi_keeps e).quiet)
    | (cases h; exact quondiPair_quiet mild_run e)
    | (cases h; exact quondiPair_quiet mild_withdraw e)
    | (cases h; exact quondiPair_quiet mild_equinox e)
    | (cases h; exact quondiPair_quiet mild_resync e)
    | (cases h; exact quondiPair_quiet mild_witness e)
    | (cases h; exact quondiPair_quiet mild_activate e)
    | (cases h; exact quondiPair_quiet mild_revert e)
    | (cases h; exact quondiPair_quiet mild_discard e)
    | (cases h; exact quondiPair_quiet mild_relay e)
    | (cases h; exact (onBoth_keeps e).quiet)

theorem runWork_quiet (sl : Slot) (code : Nat) (c : Cmd) (s : State) : Quiet s (runWork sl code c s) := by
  unfold runWork
  split
  · next f h =>
    split
    · next t e => exact workRow_quiet h e
    · exact .refl s
  · exact .refl s

theorem foldl_quiet {α : Type} (f : State → α → State) (h : ∀ s x, Quiet s (f s x)) (l : List α) (s : State) : Quiet s (l.foldl f s) := by
  induction l generalizing s with
  | nil => exact .refl s
  | cons x xs ih => exact (h s x).trans (ih (f s x))

theorem retryWait_quiet (sl : Slot) (s : State) (w : Nat × Nat × Cmd) : Quiet s (retryWait sl s w) :=
  (Quiet.withMod s sl _).trans (runWork_quiet sl _ _ _)

theorem commitCommands_quiet (sl : Slot) (S : W64) (s : State) : Quiet s (commitCommands sl S s) := by
  unfold commitCommands
  dsimp only
  split
  · exact .refl s
  · exact (foldl_quiet _ (retryWait_quiet sl) _ s).trans (foldl_quiet _ (fun s e => runWork_quiet sl _ _ s) _ _)

/-! ### The steps of the control cycle (R129 to R132) -/

theorem viewed_quiet (s : State) (sl : Slot) (f : Module → Module → Module) : Quiet s (viewed s sl f) := .withMod s sl _

theorem finishStep_quiet (sl : Slot) (late : Bool) (s : State) (o : OpenStep) : Quiet s (finishStep sl late s o) := by
  unfold finishStep
  dsimp only
  refine (commitCommands_quiet sl o.instant s).trans (Quiet.trans ?_ (viewed_quiet _ sl _))
  split
  · exact .refl _
  · exact viewed_quiet _ sl _

theorem drainSteps_quiet (sl : Slot) (l : List OpenStep) (s : State) : Quiet s (drainSteps sl l s) := by
  induction l generalizing s with
  | nil => exact .refl s
  | cons o rest ih =>
    rw [drainSteps]
    split
    · exact .withMod s sl _
    · exact (finishStep_quiet sl _ s o).trans (ih _)

theorem resumeSteps_quiet (sl : Slot) (s : State) : Quiet s (resumeSteps sl s) :=
  (Quiet.withMod s sl _).trans (drainSteps_quiet sl _ _)

theorem closeAgreement_quiet (sl : Slot) (s : State) : Quiet s (closeAgreement sl s) := by
  unfold closeAgreement
  dsimp only
  split
  · split
    · exact (Quiet.withMod s sl _).trans (resumeSteps_quiet sl _)
    · exact .refl s
  · exact .refl s

theorem agreeAlone_quiet (sl : Slot) (s : State) : Quiet s (agreeAlone sl s) := by
  unfold agreeAlone
  dsimp only
  split
  · exact (Quiet.withMod s sl _).trans (resumeSteps_quiet sl _)
  · exact .refl s

theorem takeStep_quiet (sl : Slot) (S : W64) (s : State) : Quiet s (takeStep sl S s) := by
  unfold takeStep
  dsimp only
  split
  · exact .refl s
  · refine Quiet.ite ?_ ?_
    · exact ((Quiet.withMod s sl _).trans (Quiet.withMod _ (otherSlot sl) _)).trans (finishStep_quiet sl false _ _)
    · exact Quiet.trans (Quiet.ite (((Quiet.withMod s sl _).trans (Quiet.withMod _ (otherSlot sl) _)).trans (viewed_quiet _ sl _))
        ((Quiet.withMod s sl _).trans (Quiet.withMod _ (otherSlot sl) _))) (Quiet.withMod _ sl _)

theorem takePartnerSummary_quiet (sl : Slot) (i : W64) (l : List SumEntry) (s : State) : Quiet s (takePartnerSummary sl i l s) := by
  unfold takePartnerSummary
  dsimp only
  have keep : ∀ b : Bool, Quiet s (if b = true then
      withMod s sl (xMod (modOf s sl) (fun x => { x with early := x.early.filter (fun y => y.1 != i) ++ [(i, l)] })) else s) := by
    intro b; split
    · exact .withMod s sl _
    · exact .refl s
  split
  · exact .refl s
  · split
    · split
      · split
        · exact .refl s
        · exact (Quiet.withMod s sl _).trans (closeAgreement_quiet sl _)
      · exact keep _
    · exact keep _

theorem takePartnerContent_quiet (sl : Slot) (i : W64) (l : List Content) (s : State) : Quiet s (takePartnerContent sl i l s) := by
  unfold takePartnerContent
  dsimp only
  split
  · exact .refl s
  · split
    · split
      · exact (Quiet.withMod s sl _).trans (closeAgreement_quiet sl _)
      · exact .refl s
    · exact .refl s

theorem linkDown_quiet (sl : Slot) (s : State) : Quiet s (linkDown sl s) :=
  (viewed_quiet s sl linkLost).trans ((Quiet.withMod _ sl _).trans (agreeAlone_quiet sl _))

theorem laneLost_quiet (sl : Slot) (lane : Nat) (s : State) : Quiet s (laneLost sl lane s) := by
  unfold laneLost
  dsimp only
  split
  · exact .refl s
  · split
    · exact (Quiet.withMod s sl _).trans (linkDown_quiet sl _)
    · exact .withMod s sl _

end Sys2Proof.Machine
end

