-- ==== Sys2Proof/Tests/Slice0.lean ====
section
/-! SUPPORT. Tests/Slice0.lean: a command that each check of WellFormed refuses, a witness for the hypotheses of each statement, and
a few steps whose result the manual states. -/

namespace Sys2Proof.Tests
open Sys2Proof Sys2Proof.Machine Sys2Proof.Bits Sys2Proof.Safety
set_option Elab.async false

/-! ### Small states and operands -/

def mod (st : ModState) (role : Role := .lead) : Module := { slot := .a, boot := { state := st }, pair := { role := role } }
def dom (m : Module) : State := { State.reset with modA := m }
def duo (m p : Module) : State := { State.reset with modA := m, modB := p }

/-- A pair in step: A leads, B follows, the lease runs. -/
def leadUp : Module :=
  { mod .run with pair := { role := .lead, mode := .inStep, lane0 := true, lane1 := true, linkUp := true, inSet := true, partnerInSet := true,
                            leaseEnd := some 1000 } }
def shadowUp : Module :=
  { slot := .b, boot := { state := .run }
    pair := { role := .shadow, mode := .inStep, lane0 := true, lane1 := true, linkUp := true, inSet := true, partnerInSet := true } }

def pad (l : Bytes) (n : Nat := 24) : Bytes := l ++ List.replicate (n - l.length) 0
def cmd (param : Bytes) (req : Bytes := []) (target : W16 := 0xFFFF) : Cmd := { qp := 0, ticket := 1, target := target, param := pad param, req := req }

/-- Partition 0 with every capability and slots 0 to 31, of which 0 holds an INT32 point. -/
def part0 : Partition := { quota := 4, base := 0, count := 32, caps := 0x1FF, cred := List.replicate 16 0, free := [(1, 31)] }
def point0 : PointRec := { ty := some .int32 }
def stored (m : Module) : Module := { m with store := { m.store with parts := [(0, part0)], points := [(0, point0)] } }
def onPart (param : Bytes) (req : Bytes := []) : Cmd := cmd param req 0

/-! ### Commands that cannot arrive -/

theorem test_ill_unit : wellFormed (.dup .a 32) = false := by decide
theorem test_ill_cluster : wellFormed (.clusterMismatch .a 16) = false := by decide
theorem test_ill_task : wellFormed (.icalWindowClose .a 4096) = false := by decide
theorem test_ill_qp : wellFormed (.completionPost .a 1028) = false := by decide
theorem test_ill_param : wellFormed (.pointRead .a { qp := 0, param := [] }) = false := by decide
theorem test_ill_data_length : wellFormed (.pointRead .a { qp := 0, rspLen := 65537, param := pad [] }) = false := by decide
theorem test_ill_ring : wellFormed (.heldFrameRelease .a 8) = false := by decide
theorem test_ill_legacy_segment : wellFormed (.busSlotStart .a 4) = false := by decide
theorem test_ill_ring_lane : wellFormed (.ringLaneLockLoss .a 16) = false := by decide
theorem test_ill_half : wellFormed (.syncLaneUp .a 2) = false := by decide
theorem test_ill_port : wellFormed (.hostPtpSyncSend .a 0) = false := by decide
theorem test_ill_drop : wellFormed (.dropHelloTimer 4096) = false := by decide
theorem test_ill_frame : wellFormed (.inFrameReceive .a 0 { bytes := [] }) = false := by decide
theorem test_ill_can_frame : wellFormed (.canInReceive .a 0 { id := 2 ^ 29, data := [] }) = false := by decide
theorem test_ill_channel : wellFormed (.gleamValue .a 4 0) = false := by decide
theorem test_ill_class : wellFormed (.maintLeaseExpiry .a 0) = false := by decide
theorem test_ill_lumen_field : wellFormed (.ldl .a 0 256) = false := by decide
theorem test_ill_glint_field : wellFormed (.glintSkipf .a 0) = false := by decide
theorem test_ill_splice : wellFormed (.spliceFieldTimeout .a 256) = false := by decide
theorem test_well_formed : wellFormed (.pointRead .a (cmd [1])) = true := by decide

/-! ### Witnesses of the hypotheses of the statements -/

/-- A Glint bank with a bit program of one word, and the other bank sealed. -/
def emptyBank : GBank := { p0 := { sealed := true }, p1 := { sealed := true }, p2 := { sealed := true }, p3 := { sealed := true }, p4 := { sealed := true } }
def glintM : Module := { mod .run with glint := { active := some 0, bank0 := { emptyBank with p2 := { bytes := pad [] 4, sealed := true } }, bank1 := emptyBank } }
def glintG (f : Glint → Glint) : Module := { glintM with glint := f glintM.glint }

theorem witness_GlintBitProgram : (GlintDue glintM ∧ glintM.glint.skip = 0) ∧ gWritable glintM.glint 0x100 = true ∧ gWritable glintM.glint 0x78 = false := by
  unfold GlintDue; decide

theorem witness_GlintBitProgram_skip : GlintDue (glintG (fun g => { g with skip := 4095 })) ∧ 0 < (glintG (fun g => { g with skip := 4095 })).glint.skip := by
  unfold GlintDue; decide

theorem witness_GlintBitProgram_pop : (glintG (fun g => { g with branch := [(true, false)] })).glint.branch = (true, false) :: [] := by decide

theorem witness_GlintTimersCounters : GlintDue glintM ∧ glintM.glint.skip = 0
    ∧ (glintG (fun g => { g with acc := true })).glint.acc = true ∧ (tget glintM.glint.edges 0).getD false = false := by
  unfold GlintDue; decide

theorem witness_GlintEvents : glintRuns glintM = true
    ∧ (sweepLen glintM.glint ≠ 0 ∧ sweepLen glintM.glint ≤ (glintG (fun g => { g with pc := 1 })).glint.pc)
    ∧ (let g := (glintG (fun g => { g with timers := [(255, { counting := true })] })).glint;
      tget g.timers 255 = some { counting := true })
    ∧ (let g := (glintG (fun g => { g with swapOrdered := true })).glint;
      g.swapOrdered = true ∧ g.pc = 0 ∧ gTarget g = some 1) := by decide

/-! A task on unit 0 in the first cycle of a code part of one block; the guard lets it reach the point store. -/

def desc0 : GuardDesc := { first := 0, last := 0x1FFFFFF, perm := 0xFF }
def codePart : Bytes := pad [0, 0, 0, 0, 0, 0, 2, 0, 80, 0, 0, 0, 8] 112
/-- Entry 0 names point 0 as INT32 to read and write; entry 1 names point 1 as REAL64. -/
def tablePart : Bytes := [0, 0, 0, 0, 2, 3, 0, 0] ++ [0, 0, 0, 0, 2, 3, 0, 0] ++ [1, 0, 0, 0, 5, 3, 0, 0]
def cycle0 (st : List SEntry) : Cycle :=
  { start := 1000, bank := 0, snap := [(0, point0), (1, { ty := some .real64 })], ready := true, begun := true, stack := st
    frames := [{ block := 0, pc := 0, locals := [{ ty := .int32, val := 0, q := 0xC000 }], base := 0 }] }
def task0 (st : List SEntry) : Task :=
  { part := 0, period := 1000, phase := 0, prio := 0, cluster := 0, core := false, frameKiB := 4, halo := false, unchecked := false
    st := .running, active := some 0, code0 := { bytes := codePart, sealed := true }, table0 := { bytes := tablePart, sealed := true }
    cycle := some (cycle0 st) }
def lumenM (st : List SEntry) : Module :=
  { mod .run with exec := { tasks := [(0, task0 st)], units := [{ running := some 0, descs := [desc0] }] } }
def env0 (st : List SEntry) : LEnv :=
  { m := lumenM st, t := 0, k := task0 st, code := codePart, table := tablePart, descs := [desc0] }
def i32 (v : W64) : SEntry := { ty := .int32, val := v, q := 0xC000 }
def r64 (v : W64) : SEntry := { ty := .real64, val := v, q := 0xC000 }
def bl (v : W64) : SEntry := { ty := .bool, val := v, q := 0xC000 }

theorem part_unblocked (st : List SEntry) (c : Cycle) (part o kind : Nat) : partBlocked (env0 st) (unitAt (env0 st) c part o) kind = none := by
  have h : descMatches desc0 (unitAt (env0 st) c part o) = false := by
    unfold descMatches desc0 unitAt partUnit
    simp
    omega
  have hd : (env0 st).descs = [desc0] := rfl
  unfold partBlocked
  rw [hd]
  simp [List.findIdx?_cons, h]

theorem point_open (st : List SEntry) (kind slot : Nat) (hk : kind ≤ 1) (hs : slot ≤ 0x1FFFFFF) : pointBlocked (env0 st) kind 0 slot = none := by
  have hd : (env0 st).descs = [desc0] := rfl
  have hp : (env0 st).k.part = 0 := rfl
  have hm : descMatches desc0 slot = true := by unfold descMatches desc0; simp; omega
  unfold pointBlocked guardCheck
  rw [hd, hp]
  obtain rfl | rfl : kind = 0 ∨ kind = 1 := by omega
  · simp [List.findIdx?_cons, hm, permBit]; rfl
  · simp [List.findIdx?_cons, hm, permBit]; rfl

theorem entry_of (st : List SEntry) (i acc : Nat) (t : LType) (h : W32)
    (ht : 8 * i < tablePart.length ∧ (tableEntry tablePart i).2.1 = typeCode t ∧ bit (tableEntry tablePart i).2.2 acc = true ∧ (tableEntry tablePart i).1 = h) :
    entryOf (env0 st) i acc t = some h := by
  have hd : (env0 st).table = tablePart := rfl
  unfold entryOf
  rw [hd]
  simp only [ht, true_and, if_pos]

theorem witness_LumenDue (st : List SEntry) : LumenDue (dom (lumenM st)) .a 0 (env0 st) (cycle0 st) :=
  ⟨cycle0 st, rfl, rfl, part_unblocked st (cycle0 st) 0 _ 2⟩

/-- The hypotheses of the statements on Lumen code beside LumenDue: the stack, its types, and the entries a point instruction names. -/
theorem witness_LumenStack : (cycle0 [i32 1, i32 2, i32 3]).stack.length < 64 ∧ OnTop (cycle0 [i32 1, i32 2, i32 3]) [i32 1, i32 2, i32 3] []
    ∧ OnTop (cycle0 [i32 1, i32 2, i32 3]) [i32 1, i32 2] [i32 3] ∧ OnTop (cycle0 [i32 1, i32 2, i32 3]) [i32 1] [i32 2, i32 3]
    ∧ (i32 1).ty = .int32 ∧ 8 * 0 < le (env0 []).code 12 4 ∧ (topFrame (cycle0 [])).isSome = true
    ∧ (∀ f, topFrame (cycle0 []) = some f → f.locals[0]? = some (i32 0)) := by
  refine ⟨by decide, by unfold OnTop; decide, by unfold OnTop; decide, by unfold OnTop; decide, rfl, by decide, rfl, ?_⟩
  intro f h
  cases h
  rfl

theorem witness_LumenIntegerArithmetic : OnTop (cycle0 [i32 0, i32 7]) [i32 0, i32 7] [] ∧ (i32 0).ty = .int32 ∧ (i32 7).ty = .int32
    ∧ iVal .int32 (i32 0).val = 0 ∧ iVal .int32 (i32 7).val ≠ 0 := by unfold OnTop; decide

theorem witness_LumenRealArithmetic : OnTop (cycle0 [r64 0x7FF8000000000000, r64 0]) [r64 0x7FF8000000000000, r64 0] []
    ∧ (r64 0).ty = .real64 ∧ fIsNaN true (r64 0x7FF8000000000000).val = true
    ∧ OnTop (cycle0 [{ ty := .int64, val := 1, q := 0 }, { ty := .time64, val := 1, q := 0 }])
        [{ ty := .int64, val := 1, q := 0 }, { ty := .time64, val := 1, q := 0 }] [] := by unfold OnTop; decide

theorem witness_LumenCompare : OnTop (cycle0 [bl 1, bl 0]) [bl 1, bl 0] [] ∧ (bl 0).ty = (bl 1).ty ∧ (bl 1).ty = .bool
    ∧ fCmp true (r64 0).val (r64 0).val = some .eq ∧ fCmp true (r64 0x7FF8000000000000).val (r64 0).val = none := by unfold OnTop; decide

theorem witness_LumenBitsConvert : OnTop (cycle0 [i32 31, i32 7]) [i32 31, i32 7] [] ∧ (i32 31).ty = .int32
    ∧ (0 ≤ iVal .int32 (i32 31).val ∧ iVal .int32 (i32 31).val < iBits .int32) ∧ iBits .int32 ≤ iVal .int32 (i32 32).val
    ∧ iVal .int32 (i32 0xFFFFFFFF).val < 0 ∧ LType.int64 ≠ (i32 31).ty ∧ LType.real64 ≠ (i32 31).ty := by unfold OnTop; decide

theorem witness_LumenMath : OnTop (cycle0 [r64 0, r64 0]) [r64 0] [r64 0] ∧ (r64 0).ty = .real64 ∧ baseOf (cycle0 [r64 0, r64 0]) ≤ ([] : List SEntry).length
    ∧ fIsNaN true (r64 0x7FF8000000000000).val = true ∧ fCmp true (r64 0xBFF0000000000000).val 0 = some .lt := by
  unfold OnTop; decide +kernel

theorem witness_EntryOk (st : List SEntry) (acc : Nat) (h : acc ≤ 1) : EntryOk (env0 st) (cycle0 st) 0 acc .int32 0 point0 := by
  obtain rfl | rfl : acc = 0 ∨ acc = 1 := by omega
  · exact ⟨entry_of st _ _ _ _ (by decide), part_unblocked st _ 1 _ 0, rfl, point_open st 0 _ (by decide) (by decide)⟩
  · exact ⟨entry_of st _ _ _ _ (by decide), part_unblocked st _ 1 _ 0, rfl, point_open st 1 _ (by decide) (by decide)⟩

theorem witness_LumenPoints : OnTop (cycle0 [i32 1, i32 5]) [i32 1] [i32 5] ∧ iVal .int32 (i32 1).val = 1 ∧ (1 : Nat) < 2
    ∧ (2 : Int) ≤ iVal .int32 (i32 2).val ∧ iVal .int32 (i32 0xFFFFFFFF).val < 0 ∧ baseOf (cycle0 [i32 1, i32 5]) ≤ 0 := by unfold OnTop; decide

theorem witness_LumenControl : (cycle0 []).frames = { block := 0, pc := 0, locals := [i32 0], base := 0 } :: [] ∧ OnTop (cycle0 [bl 1]) [bl 1] []
    ∧ (blockOf (env0 []).code 1).isSome = true ∧ 1 < le (env0 []).code 6 2 ∧ (∀ b, blockOf (env0 []).code 1 = some b → b.params = 0 ∧ b.rtypes = []) := by
  refine ⟨rfl, by unfold OnTop; decide, by decide, by decide, ?_⟩
  intro b h
  have : blockOf (env0 []).code 1 = some { start := 0, words := 0, params := 0, returns := 0, nlocals := 0, ltypes := [], rtypes := [] } := by decide
  rw [this] at h
  cases h
  exact ⟨rfl, rfl⟩

theorem witness_LumenEnd : (blockOf (env0 []).code 0).isSome = true ∧ (cycle0 []).stack = []
    ∧ (retainedOf (lumenM []) 0 (cycle0 []).ws).length ≤ logFree (lumenM []) := by decide

theorem witness_LumenPrimitives (st : List SEntry) :
    (∃ vs, InstanceOk (env0 st) (cycle0 st) 0 [(.int32, 0), (.int32, 0), (.real64, 1)] vs)
    ∧ [r64 0, r64 0].reverse.map (fun e => e.ty) = List.replicate 2 .real64 := by
  have a (acc slot : Nat) (h : acc ≤ 1) (hs : slot ≤ 0x1FFFFFF) := point_open st acc slot h hs
  exact ⟨⟨_, 0, point0, _, ⟨entry_of st _ _ _ _ (by decide), part_unblocked st _ 1 _ 0, rfl, a 0 _ (by decide) (by decide)⟩, a 0 _ (by decide) (by decide), rfl,
    0, point0, _, ⟨entry_of st _ _ _ _ (by decide), part_unblocked st _ 1 _ 0, rfl, a 0 _ (by decide) (by decide)⟩, a 0 _ (by decide) (by decide), rfl,
    1, { ty := some .real64 }, _, ⟨entry_of st _ _ _ _ (by decide), part_unblocked st _ 1 _ 0, rfl, a 1 _ (by decide) (by decide)⟩, a 0 _ (by decide) (by decide), rfl, rfl⟩, rfl⟩

theorem witness_LumenPrimitives_limit : OnTop (cycle0 [i32 5, i32 1, i32 9]) [i32 5, i32 1, i32 9] [] ∧ iVal .int32 (i32 1).val ≤ iVal .int32 (i32 5).val
    ∧ OnTop (cycle0 [r64 0, r64 0]) [r64 0, r64 0] [] := by unfold OnTop; decide

/-! Quondi commands on a lead in RUN. -/

def qp0 : Qp := { st := .opened, sqSize := 64, cqSize := 64, sqTail := 1 }
def hosted (m : Module) : Module := { m with mail := { m.mail with qps := [(0, qp0)] } }
def lead : Module := stored (hosted (mod .run))

theorem witness_QuondiFinalStage : tget lead.mail.qps 0 = some qp0 ∧ qp0.st ≠ .closed := by decide

theorem witness_QuondiRefusals :
    (fw (mod .umbra) = true ∧ heldBack (mod .umbra) (cmd []) = false ∧ behindWork (mod .umbra) 0x0201 (cmd []) = false)
    ∧ (fw lead = true ∧ actPart (cmd [] [] 1) = some 1 ∧ partOf lead 1 = none ∧ isLead lead = true ∧ heldBack lead (cmd [] [] 1) = false)
    ∧ (let m := { lead with store := { lead.store with parts := [(0, { part0 with runLock := true })] } };
      fw m = true ∧ isLead m = true ∧ heldBack m (onPart []) = false ∧ (onPart []).qp < 4 ∧ (onPart []).target ≠ 0xFFFF
        ∧ partOf m (onPart []).target.toNat = some { part0 with runLock := true }) := by decide

theorem witness_QuondiSession :
    (let c := cmd [1, 0, 0, 31, 16, 0, 16, 0];
      qpLive lead 1 = false ∧ runs .loc .sys 0x0101 c lead = true ∧ byteAt c.param 2 = 0 ∧ byteAt c.param 3 = 31
        ∧ sqSizeOk (le c.param 4 2) = true ∧ cqSizeOk (le c.param 6 2) = true
        ∧ aligned4k (w64 (le c.req 0 8)) = true ∧ le c.req 34 2 = 0)
    ∧ (let m := { lead with mail := { lead.mail with qps := [(0, qp0), (1, { st := .opened })] } };
      tget m.mail.qps 1 = some { st := .opened } ∧ runs .loc .sys 0x0102 (cmd [1]) m = true)
    ∧ runs .query .any 0x0103 (cmd []) lead = true ∧ runs .query .part 0x0104 (onPart []) lead = true
    ∧ (runs .work .sys 0x0105 (cmd [1]) lead = true ∧ (leadOf lead (modOf State.reset .b)).mail.journal.all (fun e => e.qp != 1) = true)
    ∧ runs .query .any 0x0106 (cmd []) lead = true ∧ runs .loc .any 0x0107 (cmd [0, 0, 0, 1, 232, 3]) lead = true := by decide

theorem witness_PointElementCommands :
    (runs .work .part 0x0202 (onPart [1]) lead = true ∧ runs .work .part 0x0208 (onPart [1]) lead = true ∧ runs .work .part 0x0209 (onPart [1]) lead = true
      ∧ runs .work .part 0x020A (onPart [1]) lead = true ∧ runs .work .part 0x0204 (onPart [1]) lead = true
      ∧ runs .work .part 0x0203 (onPart [1, 0, 0, 0, 2]) lead = true)
    ∧ hasCap lead (pid (onPart [1])) 0 = true ∧ hasCap lead (pid (onPart [1])) 1 = true ∧ hasCap lead (pid (onPart [1])) 2 = true
    ∧ (match elems (writeElem (onPart [1] (zeros 16)) false) 1 0 lead with | .ok _ => true | .error _ => false) = true
    ∧ (match elems (writeElem (onPart [1] (leBytes 16 5)) false) 1 0 lead with | .ok _ => true | .error e => e == (8, 0)) = true := by decide

theorem witness_PointElements : live lead 0 = some point0 ∧ point0.owner = pid (onPart []) ∧ (point0.writer >>> 14).toNat ≠ 3 ∧ point0.ty = some .int32
    ∧ (({ point0 with writer := 0xC000 } : PointRec).writer >>> 14).toNat = 3 ∧ forcedCount lead < 65536 ∧ retainedCount lead < 1048576
    ∧ tget lead.store.orphans 0 = none ∧ tableRefs lead 0 = 0 ∧ live lead 1 = none ∧ partOf lead 0 = some part0
    ∧ freeFirst (fun x => thas lead.store.orphans x) part0.free = some 1 := by decide

theorem witness_PointReadersPublishers :
    (∀ i, i < 1 → checkRead lead 0 (w32 (le (onPart [1] (zeros 4)).req (0 + 4 * i) 4)) = none)
    ∧ runs .query .part 0x0201 (onPart [1] (zeros 4)) lead = true ∧ runs .query .part 0x0205 (onPart [1] (zeros 4)) lead = true
    ∧ (pow2In (le (onPart [0, 0, 0, 0, 1, 0, 0, 0, 0, 0, 0, 0, 0, 0, 0, 0, 64]).param 16 4) 6 16 = true
      ∧ hasCap lead 0 6 = true ∧ runs .work .part 0x0206 (onPart []) lead = true) := by
  refine ⟨?_, by decide, by decide, by decide⟩
  intro i h
  obtain rfl : i = 0 := by omega
  decide

theorem witness_PartitionGuard :
    (let c := cmd [1, 0, 1, 0, 32, 0, 0, 0, 32];
      le c.param 0 2 = 1 ∧ le c.param 2 2 = 1 ∧ thas lead.store.parts 1 = false ∧ overlaps lead (le c.param 4 4) (le c.param 8 4) = false
        ∧ le c.param 8 4 % 32 = 0 ∧ runs .work .sys 0x0B01 c lead = true)
    ∧ (runs .work .sys 0x0B02 (cmd []) lead = true ∧ partOf lead 0 = some part0 ∧ part0.runLock = false ∧ qpLive lead 4 = false)
    ∧ runs .work .sys 0x0B03 (cmd []) lead = true ∧ runs .work .part 0x0B04 (onPart [1]) lead = true
    ∧ (let m := { lead with mail := { lead.mail with qps := [(4, { st := .opened })] } };
      runs .work .part 0x0B04 { qp := 4, param := pad [1] } m = true ∧ hasCap m (pid { qp := 4, param := pad [1] }) 8 = true)
    ∧ (runs .work .sys 0x0B05 (cmd []) lead = true ∧ ((chunks 16 28 []).map guardDesc).all (fun d => !regionBad d) = true)
    ∧ (let r := (List.replicate 31 (0 : Byte)) ++ [0, 64];
      (r.take 31).all (fun x => decide (x.toNat ≤ 3)) = true ∧ le r 32 4 = 64)
    ∧ runs .query .any 0x0B06 (cmd []) lead = true ∧ runs .work .sys 0x0B07 (cmd []) lead = true := by decide

def task1 : Task :=
  { part := 0, period := 1000, phase := 0, prio := 0, cluster := 0, core := false, frameKiB := 4, halo := false, unchecked := false
    st := .loaded, active := some 0, code0 := { sealed := true }, table0 := { sealed := true } }
def withTask (k : Task) (m : Module := lead) : Module := { m with exec := { m.exec with tasks := [(0, k)] } }
def withGlint (m : Module := lead) : Module := { m with glint := glintM.glint }

theorem witness_TaskCommands :
    (let c := onPart [1, 0, 15, 0, 232, 3, 0, 0, 231, 3, 0, 0, 4];
      le c.param 0 2 ≤ 4095 ∧ byteAt c.param 2 = 15 ∧ le c.param 8 4 < le c.param 4 4 ∧ le c.param 12 4 = 4 ∧ thas lead.exec.tasks 1 = false
        ∧ partOf lead 0 = some part0 ∧ (byteAt c.param 16).testBit 1 = isSplit lead 0 ∧ linked lead (modOf State.reset .b) = false
        ∧ runs .work .part 0x0301 c lead = true)
    ∧ (let m := withTask task1;
      tget m.exec.tasks 0 = some task1 ∧ task1.part = pid (onPart []) ∧ task1.active = some (byteAt (onPart []).param 2) ∧ task1.cycle = none
        ∧ task1.active ≠ some (byteAt (onPart [0, 0, 1]).param 2) ∧ bankUsed m 1 + 16777216 ≤ 536870912 ∧ task1.st = .loaded ∧ taskBound m 0 = false
        ∧ windowOpen task1 (now m) = false ∧ runs .work .part 0x0302 (onPart []) m = true ∧ runs .work .part 0x0304 (onPart []) m = true
        ∧ runs .work .part 0x0305 (onPart []) m = true ∧ runs .work .part 0x0306 (onPart []) m = true ∧ runs .work .part 0x0308 (onPart []) m = true)
    ∧ (let k : Task := { task1 with code1 := { sealed := true }, table1 := { sealed := true } };
      let m := withTask k;
      tget m.exec.tasks (le (onPart [1] [0, 0]).req 0 2) = some k ∧ k.halo = false ∧ (swapTarget k).isSome = true
        ∧ runs .work .part 0x0303 (onPart [1] [0, 0]) m = true ∧ runs .query .part 0x0307 (onPart [1] [0, 0]) m = true) := by decide

theorem witness_GlintDiagCommands :
    (let m := withGlint;
      m.glint.active ≠ some (byteAt (cmd [1, 4]).param 0) ∧ byteAt (cmd [1, 4]).param 1 = 4 ∧ m.glint.active = some (byteAt (cmd [0, 0]).param 0)
        ∧ runs .work .sys 0x0309 (cmd [1, 4]) m = true
        ∧ (gTarget m.glint = some 1 ∧ flagWriteBad (gBank m.glint 1) = none ∧ m.field.drops = [] ∧ runs .work .sys 0x030A (cmd []) m = true))
    ∧ gTarget lead.glint = none ∧ runs .query .any 0x030B (cmd []) lead = true ∧ runs .query .any 0x0C01 (cmd []) lead = true
    ∧ runs .query .any 0x0C02 (cmd []) lead = true ∧ runs .query .any 0x0C03 (cmd []) lead = true ∧ runs .query .any 0x0C04 (cmd []) lead = true
    ∧ runs .loc .sys 0x0C05 (cmd []) lead = true := by decide

theorem witness_SegmentCommands :
    (let c := cmd [0, 7, 2, 0, 0xB5, 0x88, 2, 0];
      byteAt c.param 1 = 7 ∧ byteAt c.param 2 = 2 ∧ 0x0600 ≤ le c.param 4 2 ∧ le c.param 4 2 ∉ [0x0800, 0x0806, 0x8100, 0x86DD, 0x88F7]
        ∧ le c.param 6 2 = 2 ∧ segBusy lead .ring 7 = false ∧ tooFast lead .ring 7 = false ∧ runs .work .sys 0x0401 c lead = true)
    ∧ (let c := cmd [1, 3, 3, 4, 50, 90, 2, 0];
      byteAt c.param 0 = 1 ∧ byteAt c.param 4 = 50 ∧ byteAt c.param 5 = 90 ∧ segBusy lead .bus 3 = false ∧ runs .work .sys 0x0401 c lead = true)
    ∧ (let c := cmd [2, 3, 6, 1, 2, 0, 4];
      byteAt c.param 0 = 2 ∧ le c.param 4 2 = 2 ∧ byteAt c.param 6 = 4 ∧ segBusy lead .line 3 = false ∧ runs .work .sys 0x0401 c lead = true)
    ∧ (let row : List BusSlot := [{ kind := 1, part := 0, node := 0, len := 1000 }];
      let m := { lead with field := { lead.field with buses := [{ nominal := 1, rows := [row] }] } };
      rowForm row = true ∧ rowForm [{ kind := 8, part := 0, node := 0, len := 10 }] = false ∧ scheduleOk m 0 = true
        ∧ runs .work .sys 0x0403 (cmd [0, 1]) m = true)
    ∧ runs .query .any 0x0404 (cmd [2, 3]) lead = true ∧ 3 < lead.field.lines.length ∧ runs .query .any 0x0408 (cmd [1]) lead = true := by decide

def ringDrop : DropCfg := { kind := .ring, segment := 0, position := 1, outLen := 2, inLen := 2, wIn := 1, watchdog := 100, map := [], st := .online }
def withDrop (id : Nat) (d : DropCfg) (m : Module := lead) : Module := { m with field := { m.field with drops := [(id, d)] } }

theorem witness_DropCommands :
    reqMap (cmd [] [0, 0, 0, 0]).req = some []
    ∧ (let c := cmd [0x80, 1, 7, 1, 0xD0, 1, 0, 0, 2, 0, 0, 0, 0, 0, 1, 0, 100] [0, 0, 0, 0];
      le c.param 0 2 = 0x180 ∧ byteAt c.param 2 = 7 ∧ le c.param 4 2 = 464 ∧ le c.param 8 2 = 2 ∧ le c.param 16 4 = 100
        ∧ thas lead.field.drops 0x180 = false ∧ (dropsOn lead .ring 7).length < 464
        ∧ mapFirstBad { ringDrop with segment := 7 } [] [] 0 = none ∧ spliceClear lead { ringDrop with segment := 7 } = true
        ∧ runs .work .sys 0x0405 c lead = true)
    ∧ (let m := withDrop 0x180 ringDrop;
      dropOf m 0x180 = some ringDrop ∧ dropBound ringDrop = false ∧ ringDrop.acyPending = [] ∧ dropOf m 0x181 = none
        ∧ dropBound { ringDrop with task := some 0 } = true ∧ runs .work .sys 0x0406 (cmd [0x80, 1]) m = true
        ∧ hasCap m 0 4 = true ∧ le (onPart [0x80, 1, 0, 0, 1]).param 4 4 ≤ acyLimit ringDrop
        ∧ journalFind m 0 1 = none ∧ runs .work .part 0x0407 (onPart [0x80, 1, 0, 0, 1] [0]) m = true)
    ∧ (let m := withDrop 0x180 ringDrop (withTask task1);
      taskCheck m 0 0 = none ∧ boundTask ringDrop = none ∧ bindElems m 0 ringDrop [] [] 0 = none ∧ bindSegCheck m 0x180 0 ringDrop = none
        ∧ hasCap m 0 5 = true ∧ dropOf m (le (onPart [0, 0, 0x80, 1]).param 2 2) = some ringDrop
        ∧ taskOf m 0 = some task1 ∧ task1.st ≠ .running ∧ runs .work .part 0x0402 (onPart [0, 0, 0x80, 1]) m = true)
    ∧ (let d : DropCfg := { ringDrop with task := some 0 };
      boundTask d = some 0 ∧ runs .work .part 0x0402 (onPart [0xFF, 0xFF, 0x80, 1]) (withDrop 0x180 d (withTask task1)) = true) := by decide +kernel

theorem witness_TimeChronicleCommands :
    runs .query .any 0x0601 (cmd []) lead = true
    ∧ (let c := cmd [2, 3, 2, 0, 127, 0, 0, 0xFC, 3, 5, 10, 127, 0xE8, 3, 0, 0, 1];
      byteAt c.param 0 = 2 ∧ signed 8 (byteAt c.param 7) = -4 ∧ signed 8 (byteAt c.param 9) = 5 ∧ le c.param 12 4 = 1000 ∧ le c.param 16 2 = 1
        ∧ runs .work .sys 0x0602 c lead = true)
    ∧ (isLead lead = true ∧ servoOwns lead = false ∧ lead.alm.sched = none ∧ runs .work .sys 0x0603 (cmd [1, 0, 0, 0, 0, 0, 0, 0, 5]) lead = true
      ∧ w64 (le (cmd [1, 0, 0, 0, 0, 0, 0, 0, 5]).param 8 8) ≠ 0 ∧ lead.alm.source = 0 ∧ runs .work .sys 0x0604 (cmd []) lead = true
      ∧ -adjMax ≤ signed 32 0 ∧ servoOwns { lead with alm := { source := 2, locked := true } } = true)
    ∧ runs .work .sys 0x0605 (cmd [7, 0, 0xF4, 1]) lead = true ∧ le (cmd [7, 0, 0xF4, 1]).param 2 2 = 500
    ∧ runs .query .any 0x0701 (cmd []) lead = true ∧ runs .query .any 0x0702 (cmd [0, 0, 0, 0, 0, 0, 0, 0, 0, 4]) lead = true
    ∧ exemptCode 0x0401 = false ∧ runs .work .sys 0x0703 (cmd [1, 4]) lead = true
    ∧ (0x0D00 ≤ le (onPart [0, 0x0D]).param 0 2 ∧ hasCap lead 0 7 = true ∧ permitted lead (noteEvent lead (onPart [0, 0x0D])) = true
      ∧ runs .work .part 0x0704 (onPart [0, 0x0D]) lead = true) := by decide

def aiM (a : Ai) (m : Module := lead) : Module := { m with lio := { m.lio with ai := [a] } }

/-- The front is wired to module A alone. -/
def front : Module := { lead with hw := { lead.hw with wiring := 1 } }

theorem witness_LocalIoCommands :
    (let c := cmd [1] (pad [0, 0, 0, 0, 0xFF, 0xFF] 32);
      runs .work .sys 0x0801 c front = true ∧ elemCheck front (localElem c 0) = none
        ∧ (match elems (configElem c) 1 0 front with | .ok _ => true | .error _ => false) = true
        ∧ (match elems (configElem c) 1 0 lead with | .ok _ => true | .error _ => false) = false
        ∧ ownElem front (localElem c 0) = true ∧ front.lio.ai[0]? = some ({} : Ai))
    ∧ runs .query .any 0x0802 (cmd []) lead = true
    ∧ (let c := cmd [0, 0, 1, 0, 0x00, 0x24, 0xF4, 0x00];
      byteAt c.param 0 = slotN lead.slot ∧ byteAt c.param 2 = 1 ∧ le c.param 4 4 = 16000000 ∧ (aiM { mode := 1 }).lio.ai[0]? = some { mode := 1 }
        ∧ (aiM { mode := 1 }).lio.trim = none ∧ holdsClass lead 6 0 = false ∧ judge lead (modOf State.reset .b) 6 (.qp 0) = 0
        ∧ runs .work .sys 0x0803 c (aiM { mode := 1 }) = true)
    ∧ runs .work .sys 0x0804 (cmd [1]) lead = true
    ∧ (let m := { lead with lio := { lead.lio with dio := [{ mode := 3 }] } };
      outChOf m 1 0 = some { mode := 3 } ∧ isOutput 1 { mode := 3 } = true ∧ runs .work .sys 0x0805 (cmd [1] [1, 0, 0xE8, 0x83]) m = true
        ∧ le [1, 0, 0xE8, 0x83] 2 2 / 16384 = 2 ∧ le [1, 0, 0xE8, 0x83] 2 2 % 1024 = 1000) := by decide

theorem witness_AnalogEvents :
    (let m := aiM { mode := 1, thermal := true };
      m.lio.ai[0]? = some { mode := 1, thermal := true } ∧ fw m = true ∧ serving m = true ∧ m.lio.trimMode = none ∧ m.lio.trimLock = false
        ∧ judge m (modOf State.reset .b) 6 (frontHolder m) = 0)
    ∧ (aiM { mode := 0 }).lio.ai[0]? = some { mode := 0 }
    ∧ (let t : Trim := { channel := 0, span := true, reference := 20000000, cmd := none };
      let m := { aiM { mode := 1 } with lio := { (aiM { mode := 1 }).lio with trim := some t, trimMode := some 0 } };
      m.lio.trim = some t ∧ serving m = true ∧ t.remote = false ∧ ((20480000 : Int) - t.reference).natAbs ≤ 480000 ∧ (20000 : Nat) ≤ 20000
        ∧ 480000 < ((20480001 : Int) - t.reference).natAbs ∧ m.lio.trimMode = some 0)
    ∧ (let m := { aiM { mode := 1 } with lio := { (aiM { mode := 1 }).lio with trimMode := some 0 } };
      m.lio.trimMode = some 0 ∧ m.lio.trim = none ∧ 0 < m.lio.ai.length ∧ (∀ a, m.lio.ai[0]? = some a → a.mode ≠ 0)) := by
  refine ⟨by decide, by decide, by decide, rfl, rfl, by decide, ?_⟩
  intro a h
  cases h
  decide

theorem witness_DigitalEvents :
    (let o : OutCh := { mode := 3, openWireTest := true, driven := true, latched := true, vigilRunning := true };
      let m := { lead with hw := { lead.hw with wiring := 1 }, lio := { lead.lio with dio := [o], fdo := [{ mode := 1, vigilRunning := false }] } };
      powered m = true ∧ outChOf m 1 0 = some o ∧ o.mode = 3 ∧ sharedWiring m = false ∧ o.latched = true ∧ demandOf m 1 0 o = false
        ∧ o.vigilRunning = true ∧ o.expired = false ∧ fw m = true ∧ isOutput 1 o = true ∧ mayDrive m 1 = true
        ∧ outChOf m 2 0 = some { mode := 1, vigilRunning := false })
    ∧ demandOf { lead with lio := { lead.lio with dio := [{ mode := 3, demand := true, latched := true }] } } 1 0
        { mode := 3, demand := true, latched := true } = true := by decide

def withPair (f : Pair → Pair) (m : Module := leadUp) : Module := { m with pair := f m.pair }
def withBoot (f : Boot → Boot) (m : Module := leadUp) : Module := { m with boot := f m.boot }
def withMail (f : Mailbox → Mailbox) (m : Module := leadUp) : Module := { m with mail := f m.mail }
def withHalo (f : Halo → Halo) (m : Module := lead) : Module := { m with halo := f m.halo }
def withAlm (f : Alm → Alm) (m : Module := lead) : Module := { m with alm := f m.alm }
def holding (cls : Nat) (h : Holder) (m : Module) : Module := { m with maint := { m.maint with entries := [(cls, { holder := h })] } }
def up : Module := hosted leadUp

/-- A parameter set with one connection (drop 0x180, input, one byte) and EDM used on channel 0; and one with none. -/
def haloSet : Bytes := pad [0x48, 0x41, 0x4C, 0x50, 1, 0, 1] 0x20 ++ pad [7, 0, 0, 0, 0x80, 1, 0, 1] 32 ++ pad [3] 128
def haloNone : Bytes := pad [0x48, 0x41, 0x4C, 0x50, 1] 0xA0
def haloM : Module := withHalo (fun h => { h with active := some haloSet, activeConfirmed := true })

theorem witness_HaloCommands :
    (let c := cmd [];
    let m := haloM;
    namedConns m 0 = some [(0, connRec haloSet 0)] ∧ runs .work .sys 0x0901 c m = true ∧ runs .work .sys 0x0902 c m = true
      ∧ namedConns m (le (cmd [9]).param 0 2) = none) := by decide +kernel

theorem witness_HaloCommands_2 :
    (let c := cmd [3, 0, 0, 0, 0, 0, 0, 0, 160] haloNone;
    lead.halo.active = none ∧ setCheck lead (overwrite [] 0 c.req) (le c.param 8 4) = 0
      ∧ setCheck lead (overwrite [] 0 c.req) 161 ≠ 0 ∧ runs .work .sys 0x0903 c lead = true
      ∧ runs .work .sys 0x0903 (cmd [1]) lead = true ∧ haloM.halo.active.isSome = true ∧ holdsClass haloM 5 0 = false
      ∧ holdsClass (holding 5 (.qp 0) haloM) 5 0 = true) := by decide +kernel

theorem witness_HaloCommands_3 :
    (let v := crc32c [1, 2];
    let c := cmd (leBytes 4 v.toNat);
    let m := withHalo (fun h => { h with staged := some [1, 2], stagedSealed := true });
    m.halo.staged = some [1, 2] ∧ m.halo.stagedSealed = true ∧ m.pair.mode ≠ .inStep ∧ w32 (le c.param 0 4) = crc32c [1, 2]
      ∧ runs .work .sys 0x0904 c m = true ∧ m.halo.active = none ∧ w32 (le (cmd []).param 0 4) ≠ crc32c [1, 2]
      ∧ (withHalo (fun h => { h with staged := some [1, 2], stagedSealed := false })).halo.stagedSealed = false) := by decide +kernel

theorem witness_HaloCommands_4 :
    (let m := withHalo (fun h => { h with staged := some [1, 2], stagedSealed := true });
    (withHalo (fun h => { h with active := some haloSet }) (holding 5 (.qp 0) m)).halo.active.isSome = true) := by decide +kernel

theorem witness_HaloCommands_5 :
    (let k : Task := { task1 with halo := true, code1 := { sealed := true }, table1 := { sealed := true } };
    let m := withTask k (holding 4 (.qp 0) (withHalo (fun h => { h with staged := some haloNone, stagedSealed := true, stagedConfirmed := true }) haloM));
    let c := cmd [1] [0, 0];
    holdsClass m 4 c.qp = true ∧ m.pair.mode ≠ .warm ∧ m.halo.stagedConfirmed = true ∧ runs .work .sys 0x0905 c m = true
      ∧ taskOf m (reqTask c 0) = some k ∧ k.halo = true ∧ (swapTarget k).isSome = true ∧ holdsClass haloM 4 0 = false) := by decide +kernel

theorem witness_HaloCommands_6 :
    (let m := withHalo (fun h => { h with conns := [(0, { st := 3 })] }) haloM;
    namedConns m 0 = some [(0, connRec haloSet 0)] ∧ [(0, connRec haloSet 0)].any (connWaits m) = true
      ∧ [(0, connRec haloSet 0)].any (connWaits haloM) = false ∧ runs .work .sys 0x0906 (cmd []) m = true) := by decide +kernel

theorem witness_HaloCommands_7 :
    (let x : So := { locked := true };
    let m := withHalo (fun h => { h with so := [x, { interlock := true }, {}, { locked := true, highOk := false }] });
    let c (i : Byte) := cmd [1, 0, i];
    (∀ i ∈ [(0 : Byte), 1, 2, 3], byteAt (c i).param 0 = 1 ∧ le (c i).param 2 2 < 8 ∧ runs .work .sys 0x0906 (c i) m = true)
      ∧ m.halo.so[0]? = some x ∧ soRecovered m 0 x = true ∧ m.halo.so[1]? = some { interlock := true }
      ∧ m.halo.so[2]? = some ({} : So) ∧ soRecovered m 3 { locked := true, highOk := false } = false
      ∧ runs .query .any 0x0907 (cmd [0, 0, 4]) lead = true) := by decide +kernel

theorem witness_HaloEvents :
    (let x : So := { fallback := true, stuckHigh := true };
    let m := withHalo (fun h => { h with so := [x] });
    m.halo.so[0]? = some x ∧ fw m = true ∧ x.fallback = true ∧ x.stuckHigh = true ∧ m.halo.testSlot = none ∧ powered m = true
      ∧ x.edmDue = false ∧ m.boot.state = .run) := by decide

theorem witness_HaloEvents_2 :
    (let x : So := { fallback := true, stuckHigh := true };
    let m := withHalo (fun h => { h with so := [x] });
    compsGood (regionOf m m.boot.cur 2) = true) := by decide

theorem witness_HaloEvents_3 :
    (let x : So := { test := some (true, true) };
    let m := withHalo (fun h => { h with so := [x], testSlot := some 0 }) haloM;
    m.halo.so[0]? = some x ∧ m.halo.testSlot = some (2 * 0 + if true then 0 else 1) ∧ x.test = some (true, true)
      ∧ x.locked = false ∧ soEdmUsed (soActive m 0) = true ∧ soEdmUsed (soActive lead 0) = false ∧ x.fallback = false) := by decide

theorem witness_HaloEvents_4 :
    (let x : So := { edmDue := true };
    let m := withHalo (fun h => { h with so := [x] });
    m.halo.so[0]? = some x ∧ fw m = true ∧ x.edm ≠ x.energised
      ∧ ({ x with energised := true } : So).edm = ({ x with energised := true } : So).energised
      ∧ powered (withBoot (fun b => { b with state := .off }) m) = false
      ∧ (withBoot (fun b => { b with state := .off }) m).halo.so[0]? = some x) := by decide

def desc (code : W16) (t : W64 := 1) : Desc :=
  { ticket := t, code := code, flags := 0, dver := 1, target := 0xFFFF, reqAddr := 0, reqLen := 0, rspLen := 0, rspAddr := 0, param := pad [] }

def journaled (m : Module) : Module := withMail (fun x => { x with journal := [{ qp := 0, d := desc 0x0502, req := [], accepted := true }] }) m
def upWarm : Module := withPair (fun p => { p with mode := .warm }) up
def image : Region := { closed := true, len := 4096 }
/-- Slots 0 to 2 of both modules hold images. -/
def imaged (m : Module) : Module :=
  { m with boot := { m.boot with slot0 := { control := image, safety := image }, slot1 := { control := image, safety := image }
                                 slot2 := { control := image, safety := image } } }

theorem witness_PairCommands :
    (let c := cmd [0, 1];
    runs .query .any 0x0501 c up = true
      ∧ [0x0502, 0x0503, 0x0504, 0x0505, 0x0506].all (fun k => runs .work .sys k c up && runs .work .sys k c (journaled (hosted shadowUp))) = true
      ∧ isLead up = true ∧ isLead (journaled (hosted shadowUp)) = false ∧ byteAt c.param 0 = slotN up.slot ∧ up.boot.state ≠ .ready
      ∧ (∀ st ∈ [true, false], runs .work .sys 0x0502 c (withPair (fun q => { q with stale := st }) (withBoot (fun b => { b with state := .ready }) up)) = true)
      ∧ bit (byteAt c.param 1) 0 = true) := by decide

theorem witness_PairCommands_2 :
    (let p := shadowUp;
    bit (byteAt (cmd [0]).param 1) 0 = false ∧ linked lead p = false ∧ linked up p = true ∧ leaseHeld up = true
      ∧ up.pair.partnerInSet = true ∧ up.pair.agen ≠ 0xFFFFFFFF ∧ up.boot.state = .run ∧ up.pair.mode = .inStep) := by decide

theorem witness_PairCommands_3 :
    (let c := cmd [0, 1];
    let p := shadowUp;
    leaseHeld upWarm = true ∧ runs .work .sys 0x0503 c upWarm = true ∧ lead.pair.mode = .alone
      ∧ runs .work .sys 0x0503 c lead = true ∧ leaseHeld lead = false ∧ judge up p 2 .pair = 0
      ∧ judge (holding 2 .pair up) p 2 .pair = 2 ∧ runs .work .sys 0x0504 (cmd [0xE8, 3]) (holding 2 .pair up) = true) := by decide

theorem witness_PairCommands_4 :
    runs .work .sys 0x0504 (cmd [0xE9, 3]) up = true := by decide

theorem witness_PairCommands_5 :
    (let m := withPair (fun q => { q with partnerInSet := false, mode := .alone, domain := 5 }) up;
    let p d := withPair (fun q => { q with domain := d }) (withBoot (fun b => { b with state := .splitOff }) shadowUp);
    leaseHeld m = true ∧ linked m (p 0) = true ∧ joinable m (p 0) = true ∧ m.pair.resync = none ∧ foreignDomain m (p 0) = false
      ∧ foreignDomain m (p 7) = true ∧ judge m (p 0) 3 .pair = 0 ∧ runs .work .sys 0x0505 (cmd [1]) m = true) := by decide

theorem witness_PairCommands_6 :
    (let m := withBoot (fun b => { b with state := .ready }) lead;
    w32 (le (cmd [5, 0, 0, 0, 1, 90]).param 0 4) ≠ m.pair.domain ∧ runs .work .sys 0x0506 (cmd [5, 0, 0, 0, 1, 90]) m = true
      ∧ w32 (le (cmd [5, 0, 0, 0, 1, 90]).param 0 4) = (withPair (fun q => { q with domain := 5 }) up).pair.domain) := by decide

theorem witness_ImageMaintCommands :
    (let m := imaged (holding 1 (.qp 0) (withBoot (fun b => { b with windowLen := 60 }) { up with alm := { t := 2000000000 } }));
    let p := imaged shadowUp;
    let c := cmd [0, 0];
    runs .query .any 0x0A01 c m = true ∧ runs .query .any 0x0A08 c m = true
      ∧ [0x0A02, 0x0A03, 0x0A04, 0x0A05].all (fun k => runs .work .sys k c m && runs .work .sys k c (journaled (hosted shadowUp))) = true
      ∧ isLead m = true ∧ activationCheck m p c 0 m.boot.cand = none ∧ activationCheck m p (cmd [1]) 1 p.boot.cand = none
      ∧ activationCheck up p c 0 up.boot.cand = some 8 ∧ activationCheck m p c 0 m.boot.prev = none) := by decide

theorem witness_ImageMaintCommands_2 :
    (let m := imaged (holding 1 (.qp 0) (withBoot (fun b => { b with windowLen := 60 }) { up with alm := { t := 2000000000 } }));
    let p := imaged shadowUp;
    activationCheck m p (cmd [1]) 1 p.boot.prev = none ∧ handoverOk m p = true ∧ handoverOk p m = true ∧ splitClash m m 0 = false
      ∧ leaseHeld m = true ∧ m.pair.agen ≠ 0xFFFFFFFF
      ∧ imgSec (regionOf m m.boot.prev 2) < ({ m with hw := { m.hw with floor := 1 } }).hw.floor
      ∧ (regionOf m m.boot.prev 2).closed = true) := by decide

theorem witness_ImageMaintCommands_3 :
    (let m := imaged (holding 1 (.qp 0) (withBoot (fun b => { b with windowLen := 60 }) { up with alm := { t := 2000000000 } }));
    let p := imaged shadowUp;
    ¬ (imgSec (regionOf m m.boot.prev 2) < m.hw.floor) ∧ linked m p = true ∧ linked lead p = false
      ∧ splitClash (withTask { task1 with cluster := 1 } m) m 2 = true) := by decide

theorem witness_ImageMaintCommands_4 :
    (let m := imaged (holding 1 (.qp 0) (withBoot (fun b => { b with windowLen := 60 }) { up with alm := { t := 2000000000 } }));
    let m' := withBoot (fun b => { b with slot1 := { control := image, safety := { image with len := 8192 } } }) m;
    let p := imaged shadowUp;
    activationCheck m' p (cmd [0, 1]) 0 m'.boot.cand = none ∧ handoverOk m' p = false) := by decide

theorem witness_ImageMaintCommands_5 :
    (let m := imaged up;
    let p := imaged shadowUp;
    let c (sl n : Byte) := cmd [sl, 0, 3] (n :: zeros 3 ++ zeros (18 * n.toNat));
    (match startChain m p (c 0 1) with | .ok (x, _) => x.maint.tx.any (fun t => !relayOver t) | .error _ => false) = true
      ∧ (match startChain m p (c 0 0) with | .ok (x, _) => x.maint.tx.any (fun t => relayOver t) | .error _ => false) = true
      ∧ (match startChain p m (c 1 1) with | .ok (x, _) => x.maint.tx.any (fun t => !relayOver t) | .error _ => false) = true
      ∧ (match startChain up p (c 0 1) with | .ok _ => 0 | .error e => e) = 8
      ∧ (match startChain shadowUp m (c 1 1) with | .ok _ => 0 | .error e => e) = 8
      ∧ (c 0 1).req.length = 4 + 18 * le (c 0 1).req 0 4 ∧ runs .work .sys 0x0A05 (c 0 1) m = true
      ∧ runs .work .sys 0x0A05 (c 1 1) lead = true) := by decide

theorem witness_ImageMaintCommands_6 :
    judge up shadowUp 1 (.qp 0) = 0 ∧ judge (holding 2 .pair up) shadowUp 1 (.qp 0) = 1
      ∧ judge (holding 1 .relay up) shadowUp 1 (.qp 0) = 2 ∧ holdsClass (holding 1 .relay up) 1 0 = false
      ∧ holdsClass (holding 1 (.qp 0) up) 1 0 = true ∧ runs .work .sys 0x0A06 (cmd [1, 0, 0xA0, 5]) (holding 1 (.qp 0) up) = true
      ∧ runs .work .sys 0x0A06 (cmd [1, 0, 0xA0, 5]) (holding 2 .pair up) = true ∧ runs .work .sys 0x0A07 (cmd [1]) up = true := by decide

theorem witness_ImageMaintCommands_7 :
    runs .work .sys 0x0A07 (cmd [6, 1]) (holding 1 .relay up) = true := by decide

def wmsg (flags : Byte := 0) (agen : W32 := 0) : WMsg := { flags := flags, counter := 1, domain := 0, leadEpoch := 0, agen := agen }
def claim0 (order : Nat) : PendClaim := { agen := 0, force := false, counter := 1, order := order }

theorem witness_WitnessMessages :
    (let w : Witness := { holder := some .a, running := true };
    heard w (wmsg) = true ∧ heard w { wmsg with good := false } = false ∧ w.running = true ∧ w.holder = some .a
      ∧ pendOf w (otherSlot .a) = none ∧ pendOf { w with pendB := some (claim0 0) } (otherSlot .a) = some (claim0 0)
      ∧ ¬ (w.running = true ∧ w.holder = some .b) ∧ (wmsg 0x10).flags.getLsbD 4 = true) := by decide

theorem witness_WitnessMessages_2 :
    (let w : Witness := { holder := some .a, running := true };
    (wmsg).flags.getLsbD 4 = false ∧ (wmsg).agen.toNat < ({ w with agen := 1 } : Witness).agen.toNat
      ∧ sync0Of { w with sync0B := true } .b = true ∧ sync0Of w .b = false ∧ grantable { w with running := false } .a = true
      ∧ grantable { w with running := false, reserved := some .a } .b = false
      ∧ heard { w with running := false, reserved := some .a } (wmsg) = true
      ∧ grantable { w with running := false, holder := none, agen := 7 } .b = true) := by decide

theorem witness_WitnessMessages_3 :
    (let w : Witness := { holder := some .a, holdoff := true };
    w.holdoff = true ∧ w.running = false ∧ w.reserved = none ∧ w.agen ≠ 0xFFFFFFFF
      ∧ pendOf { w with pendA := some (claim0 0) } .a = some (claim0 0)
      ∧ pendOf { w with pendA := some (claim0 0) } (otherSlot .a) = none
      ∧ ({ w with pendA := some (claim0 1), pendB := some (claim0 0) } : Witness).pendB = some (claim0 0)
      ∧ (pendOf { w with pendA := some (claim0 0) } .a).isSome = true) := by decide

theorem witness_WitnessMessages_4 :
    (let w : Witness := { holder := some .a, holdoff := true };
    ({ w with reserved := some .b } : Witness).reserved.isSome = true ∧ ({} : Witness).reserved = none
      ∧ ({} : Witness).running = false ∧ ({} : Witness).holdoff = false ∧ ({} : Witness).pendA = none) := by decide

theorem witness_LeaseEvents :
    serving leadUp = true ∧ isLead leadUp = true ∧ leaseHeld leadUp = true ∧ leadUp.pair.claiming = false
      ∧ shadowUp.pair.role = .shadow ∧ shadowUp.pair.linkUp = true ∧ serving shadowUp = true
      ∧ (withPair (fun q => { q with claiming := true })).pair.claiming = true := by decide

theorem witness_LeaseEvents_2 :
    serving (withPair (fun q => { q with claiming := true })) = true
      ∧ (withPair (fun q => { q with leaseEnd := none })).pair.linkUp = true
      ∧ leaseHeld (withPair (fun q => { q with leaseEnd := none })) = false
      ∧ (withPair (fun q => { q with leaseEnd := none })).pair.witnessLost = false ∧ lead.pair.linkUp = false
      ∧ lead.boot.state = .run ∧ leaseHeld lead = false ∧ serving lead = true := by decide

theorem witness_LeaseEvents_3 :
    isLead lead = true ∧ serving (withBoot (fun b => { b with state := .ready }) lead) = true
      ∧ lonelyShadow (withPair (fun q => { q with linkUp := false, claiming := true }) shadowUp) = true
      ∧ validReply (withPair (fun q => { q with linkUp := false, claiming := true }) shadowUp) (wmsg) = true
      ∧ ((withPair (fun q => { q with linkUp := false, claiming := true, w1Seen := true }) shadowUp)).pair.w1Seen = true
      ∧ lonelyShadow (withPair (fun q => { q with linkUp := false, claiming := true, w1Seen := true }) shadowUp) = true
      ∧ (mod .ready .none).boot.state = .ready ∧ serving (mod .ready .none) = true := by decide

theorem witness_LeaseEvents_4 :
    (let p := shadowUp;
    mayClaim (mod .ready .none) = true ∧ linked (mod .ready .none) p = false ∧ linked shadowUp leadUp = true
      ∧ validReply leadUp { wmsg with good := false } = false ∧ validReply leadUp (wmsg) = true ∧ lonelyShadow leadUp = false
      ∧ validReply shadowUp (wmsg) = true ∧ lonelyShadow shadowUp = false) := by decide

theorem witness_LeaseEvents_5 :
    isLead shadowUp = false ∧ shadowUp.pair.claiming = false ∧ leadUp.pair.agen.toNat ≤ (wmsg).agen.toNat
      ∧ (wmsg).agen.toNat < (withPair (fun q => { q with agen := 3 })).pair.agen.toNat
      ∧ (withPair (fun q => { q with claiming := true }) shadowUp).pair.handover = none ∧ leadUp.pair.handover = none
      ∧ shadowUp.pair.forcedRun = none ∧ leadUp.pair.forcedRun = none := by decide

theorem witness_LeaseEvents_6 :
    serving leadUp = true ∧ hasPower leadUp = true ∧ laneUp leadUp 0 = true ∧ laneUp leadUp (1 - 0) = true
      ∧ laneUp (withPair (fun q => { q with lane1 := false })) 0 = true
      ∧ laneUp (withPair (fun q => { q with lane1 := false })) (1 - 0) = false ∧ drivesLink leadUp = true
      ∧ drivesLink (withBoot (fun b => { b with state := .off })) = false := by decide

theorem witness_LeaseEvents_7 :
    laneUp (withPair (fun q => { q with lane1 := false, linkUp := false })) 1 = false ∧ drivesLink shadowUp = true
      ∧ laneUp lead 0 = false := by decide

def hand : Handover := { qp := 0, cmd := cmd [], code := 0x0504, limitMs := 100 }
def rs (phase : Nat) (warm : Bool := false) : Resync := { phase := phase, cmd := none, warmShadow := warm }

theorem witness_HandoverResyncEvents :
    (let m := withPair (fun q => { q with handover := some hand });
    m.pair.handover = some hand ∧ hand.released = false ∧ isLead m = true ∧ serving m = true ∧ linked m shadowUp = true
      ∧ drained m hand = true
      ∧ drained { m with mail := { m.mail with journal := [{ qp := 1, d := desc 0x0202, req := [], accepted := true }] } } hand = false
      ∧ hand.code ≠ 0) := by decide

theorem witness_HandoverResyncEvents_2 :
    (let r := withPair (fun q => { q with handover := some { hand with released := true }, role := .shadow });
    r.pair.handover = some { hand with released := true } ∧ isLead r = false ∧ inRun r = true ∧ isLead shadowUp = false
      ∧ inRun shadowUp = true ∧ linked shadowUp r = true ∧ mayClaim shadowUp = true ∧ shadowUp.pair.handover = none) := by decide

theorem witness_HandoverResyncEvents_3 :
    (let m t := withPair (fun q => { q with reminderDays := 1, lastSwap := 0 }) { leadUp with alm := { t := t } };
    serving (m 0) = true ∧ (m 0).pair.reminderDays ≠ 0
      ∧ ((m 0).pair.reminderDays * 86400000000000 : Int) ≤ almDiff (now (m 86400000000000)) (m 0).pair.lastSwap
      ∧ almDiff (now (m 0)) (m 0).pair.lastSwap < ((m 0).pair.reminderDays * 86400000000000 : Int)) := by decide

theorem witness_HandoverResyncEvents_4 :
    (let m a := withPair (fun q => { q with autoResync := a });
    let p := withBoot (fun b => { b with state := .ready }) shadowUp;
    inRun (m true) = true ∧ isLead (m false) = true ∧ joinable (m true) p = true ∧ foreignDomain (m true) p = false
      ∧ leaseHeld (m true) = true ∧ judge (m true) p 3 .pair = 0 ∧ p.boot.state ≠ .run) := by decide

theorem witness_HandoverResyncEvents_5 :
    (let m k w := withPair (fun q => { q with resync := some (rs k w) });
    let p := { withBoot (fun b => { b with state := .ready }) shadowUp with alm := { source := 1 } };
    (m 1 false).pair.resync = some (rs 1) ∧ linked (m 1 true) p = true ∧ serving p = true ∧ compatible (m 3 false) p = true
      ∧ compatible (imaged (m 3 false)) p = true ∧ almGe 200000 (now (m 3 false) + 100000) = true ∧ steady p = true
      ∧ (∀ w, (rs 1 w).phase = 1 ∧ (rs 3 w).phase ≠ 1)) := by decide

theorem witness_HandoverResyncEvents_6 :
    leadUp.pair.resync = none := by decide

theorem witness_HandoverResyncEvents_7 :
    (let p := withPair (fun q => { q with joining := some 1 }) shadowUp;
    follower p leadUp = true ∧ follower shadowUp leadUp = false) := by decide

theorem witness_HandoverResyncEvents_8 :
    (let m := withPair (fun q => { q with catchup := true });
    inRun m = true ∧ m.pair.catchup = true ∧ leadUp.pair.catchup = false
      ∧ tget (holding 1 (.qp 0) leadUp).maint.entries 1 = some { holder := .qp 0 } ∧ holderCode (.qp 0) = 1 ∧ holderCode .pair ≠ 1
      ∧ fw leadUp = true) := by decide

theorem witness_HandoverResyncEvents_9 :
    (let m := { leadUp with maint := { leadUp.maint with waits := [(0, 0x0A06, cmd [])] } };
    m.maint.waits.find? (fun x => x.1 == 0 && x.2.2.ticket == 1) = some (0, 0x0A06, cmd [])
      ∧ m.maint.waits.find? (fun x => x.1 == 0 && x.2.2.ticket == 2) = none) := by decide

def atT (t : W64) (m : Module := lead) : Module := { m with alm := { m.alm with t := t } }
def withExec (f : Exec → Exec) (m : Module := leadUp) : Module := { m with exec := f m.exec }
def cyc (f : Cycle → Cycle := id) : Task := { task1 with st := .running, cycle := some (f { start := 100000, bank := 0, snap := [] }) }
def xunits (x : XUnit) (m : Module) : Module := withExec (fun e => { e with units := [x] }) m

theorem witness_StepEvents :
    stepDue lead 0 = false ∧ stepDue (atT 200000) 200000 = true ∧ (atT 200000).pair.cutover = none
      ∧ dueTasks (goOnline (atT 200000) 200000) 200000 = [] ∧ (atT 200000).maint.waits = [] ∧ dueEntries (atT 200000) 200000 = []
      ∧ (atT 200000).exec.agreeing = none := by decide +kernel

theorem witness_StepEvents_2 :
    (let k := cyc (fun c => { c with sealedAt := some 150000 });
    let m := withTask k;
    taskOf m 0 = some k ∧ cycling m = true
      ∧ passes m shadowUp 0 200000 { start := 100000, bank := 0, snap := [], sealedAt := some 150000 } = true
      ∧ passes (withTask (cyc)) shadowUp 0 200000 { start := 100000, bank := 0, snap := [] } = false
      ∧ (cyc (fun c => { c with fails := 3 })).cycle = some { start := 100000, bank := 0, snap := [], fails := 3 }
      ∧ passes (withTask (cyc (fun c => { c with fails := 3 }))) shadowUp 0 200000 { start := 100000, bank := 0, snap := [], fails := 3 } = false) := by decide +kernel

theorem witness_StepEvents_3 :
    (let e : WEnt := { handle := 0, value := 5, quality := 0xC000 };
    ([e].map (fun e : WEnt => hIdx e.handle)).Nodup ∧ live lead e.handle = some point0 ∧ point0.ty = some .int32
      ∧ dropOf (withDrop 0x180 ringDrop) 0x180 = some ringDrop ∧ powered lead = true
      ∧ powered (withBoot (fun b => { b with state := .off })) = false
      ∧ ({ lead with store := { lead.store with arb := { newClasses := some ([1], 4) } } }).store.arb.newClasses = some ([1], 4)) := by decide +kernel

theorem witness_StepEvents_4 :
    (let x : Subscription := { qp := 0, ring := 0, entries := 4, interval := 0, handles := [0], heldStates := [(0, 0xC000, 5, 0)] };
    let m := { lead with store := { lead.store with subs := [(1, x)] } };
    tget m.store.subs 1 = some x ∧ x.heldStates.find? (fun y => y.1 == 0) = some (0, 0xC000, 5, 0) ∧ isLead m = true
      ∧ serving m = true ∧ m.pair.window = false ∧ tget lead.store.subs 1 = none) := by decide +kernel

theorem witness_StepEvents_5 :
    (let m := withAlm (fun a => { a with icalRise := some 5000 });
    (almDiff 5999 5000).natAbs < 1000 ∧ m.alm.icalRise = some 5000 ∧ 1000 ≤ (almDiff 6000 5000).natAbs ∧ fw m = true
      ∧ isLead m = true ∧ isLead shadowUp = false ∧ m.exec.tasks = []) := by decide +kernel

theorem witness_StepEvents_6 :
    (let m h := withTask { cyc with icalSource := 1, icalHit := h };
    taskOf (m true) 0 = some { cyc with icalSource := 1, icalHit := true } ∧ (cyc).st = .running ∧ fw (m false) = true) := by decide +kernel

theorem witness_StepEvents_7 :
    (let m := withTask cyc (xunits { mismatches := [0, 0] } leadUp);
    m.exec.units[2 * 0]? = some { mismatches := [0, 0] } ∧ serving m = true ∧ isSplit m 0 = false
      ∧ (recentTimes m [0, 0] 1000000000).length + 1 = 3 ∧ (recentTimes m [] 1000000000).length + 1 ≤ 2 ∧ m.boot.state = .run
      ∧ unsealedOn m (2 * 0) = [0] ∧ isSplit (withBoot (fun b => { b with split := 1 }) m) 0 = true) := by decide +kernel

theorem witness_StepEvents_8 :
    (xunits { resetting := true } leadUp).exec.units[2 * 0]? = some { resetting := true } := by decide +kernel

def openStep : OpenStep := { instant := 200000 }
def agreeing : Module := withExec (fun e => { e with agreeing := some openStep })
def wsFollow : Module := withTask (cyc (fun c => { c with restarting := true, follows := true })) leadUp
def warmB : Module := withPair (fun q => { q with mode := .warm }) shadowUp
def datagram : PubDgram :=
  { source := zeros 16, crcGood := true, stale := false, domain := 0, pubId := 1, frag := 0, frags := 1, seq := 1, time := 0, first := 0, entries := [] }
def import0 : Import := { part := 0, task := 0, source := zeros 16, domain := 0, pubId := 1, wIn := 1, handles := [] }
def trim0 : Trim := { channel := 0, span := false, reference := 4000000, cmd := none, remote := true }
def ringUp (m : Module) : Module := { m with field := { m.field with rings := [{ rate := 1 }] } }

theorem witness_SyncEvents :
    serving (withBoot (fun b => { b with state := .umbra })) = false ∧ inStepWith lead shadowUp = false ∧ serving leadUp = true
      ∧ inStepWith leadUp shadowUp = true ∧ leadUp.exec.agreeing = none ∧ 0 < almDiff 200000 leadUp.exec.lastStep
      ∧ agreeing.exec.agreeing = some openStep ∧ serving agreeing = true := by decide

theorem witness_SyncEvents_2 :
    inStepWith agreeing shadowUp = true
      ∧ agreed (takeSummary agreeing openStep [{ source := 0x180, key := 1, crc := 0 }]).1 (takeSummary agreeing openStep [{ source := 0x180, key := 1, crc := 0 }]).2 = false
      ∧ agreed agreeing openStep = false
      ∧ agreed agreeing { openStep with partner := some [], got := [{ source := 0x180, key := 1, time := 0, data := [] }] } = true
      ∧ linked leadUp shadowUp = true ∧ taskOf wsFollow 0 = some (cyc (fun c => { c with restarting := true, follows := true }))
      ∧ inStepWith wsFollow shadowUp = true ∧ serving wsFollow = true := by decide

theorem witness_SyncEvents_3 :
    (withTask cyc leadUp).exec.tasks = [(0, cyc)] ∧ warmShadow warmB = true ∧ isLead warmB = false ∧ serving warmB = true
      ∧ linked warmB leadUp = true ∧ taskOf (withTask task1 warmB) 0 = some task1 ∧ warmShadow leadUp = false ∧ fw shadowUp = true := by decide

theorem witness_SyncEvents_4 :
    linked shadowUp leadUp = true ∧ isLead shadowUp = false ∧ shadowUp.pair.inSet = true
      ∧ journalHas shadowUp 0 (desc 0x0502).ticket = false ∧ sends shadowUp = true ∧ ringRuns (ringUp shadowUp) 0 = true
      ∧ sends (mod .ready) = false ∧ ({ leadUp with lio := { leadUp.lio with trim := some trim0 } }).lio.trim = some trim0 := by decide

theorem witness_SyncEvents_5 :
    trim0.remote = true ∧ trim0.channel = 0 ∧ leadUp.lio.trim = none ∧ isLead leadUp = true
      ∧ (withAlm (fun a => { a with alignDue := true }) shadowUp).alm.alignDue = true ∧ shadowUp.alm.alignDue = false := by decide

theorem witness_SyncEvents_6 :
    (let m := { leadUp with store := { leadUp.store with imports := [(1, import0)] } };
    importOf m datagram = some (1, import0) ∧ restartsSeq import0 datagram = false ∧ datagram.crcGood = true ∧ hasPower m = true
      ∧ m.exec.tasks = [] ∧ isLead (mod .ready .none) = false) := by decide

def macB : Bytes := [2, 0, 0, 0, 0, 1]
/-- Drop 0x180 on segment 0, version 2, and the module with its ring running. -/
def dropA (st : DropState := .online) : DropCfg :=
  { kind := .ring, segment := 0, position := 1, ceiling := 2, outLen := 2, inLen := 2, wIn := 1, watchdog := 100, map := [], st := st, version := 2, mac := macNat macB }
def ringM (st : DropState := .online) (m : Module := leadUp) : Module := withDrop 0x180 (dropA st) (ringUp m)
def frame (ty flags : Nat) (seq : W32) (data : Bytes) (src : Bytes := macB) (drop : Nat := 0x180) (ety : Nat := 0x88B5) : Frame :=
  { bytes := frameV2 (ringDst 0) src ety ty flags 0 drop seq 0 data }
def hello : Frame := { bytes := frameV1 (ringDst 0) macB 0x88B5 6 0x10 0x180 0 (pad [3, 0, 0, 64] 24) }

theorem witness_RingEvents :
    (let m := ringM;
    let f := frame 2 0x10 5 [0, 0, 1, 2];
    let rf := parseFrame f.bytes;
    ringOf m 0 = some { rate := 1 } ∧ ringRuns m 0 = true ∧ ringRuns leadUp 0 = false ∧ rf.ety = 0x88B5 ∧ rf.ty = 2 ∧ rf.ver = 2
      ∧ ownFrame m 0 rf = false ∧ ownFrame m 0 (parseFrame (frame 2 0x50 5 []).bytes) = true) := by decide +kernel

theorem witness_RingEvents_2 :
    (let m := ringM;
    let f := frame 2 0x10 5 [0, 0, 1, 2];
    let rf := parseFrame f.bytes;
    (parseFrame (frame 9 0x10 5 []).bytes).ty = 9 ∧ spliceMatch m 0 (parseFrame (setPass m.slot f.bytes)) true = []
      ∧ ringOf ({ m with field := { m.field with rings := [{ rate := 1, launching := true }] } }) 0 = some { rate := 1, launching := true }
      ∧ (parseFrame (frame 2 0x10 5 [] macB 0x180 0x0800).bytes).ety = 0x0800
      ∧ (parseFrame (frame 2 0x10 5 [] macB 0x180 0x88F7).bytes).ety = 0x88F7
      ∧ isPdelay (frame 2 0x10 5 [] macB 0x180 0x88F7).bytes = true ∧ (dropA).held = none
      ∧ newer32 rf.seq ({ key := 4, time := 0, data := [] } : Held).key = true) := by decide +kernel

theorem witness_RingEvents_3 :
    (let m := ringM;
    let f := frame 2 0x10 5 [0, 0, 1, 2];
    let rf := parseFrame f.bytes;
    newer32 rf.seq ({ key := 6, time := 0, data := [] } : Held).key = false
      ∧ dropOf m (parseFrame (frame 2 0x10 5 [] macB 0x181).bytes).drop = none ∧ dropOf m rf.drop = some (dropA)
      ∧ rf.ver ≠ (withDrop 0x180 { (dropA) with version := 1 }).field.drops[0].2.version ∧ rf.ver = (dropA).version
      ∧ macNat (parseFrame (frame 2 0x10 5 [] (zeros 6)).bytes).src ≠ (dropA).mac ∧ isLead m = true
      ∧ isLead (ringM .online shadowUp) = false) := by decide +kernel

theorem witness_RingEvents_4 :
    (let m := ringM;
    linked (ringM .online shadowUp) leadUp = true ∧ icalNamed m 0x180 = false
      ∧ icalNamed (withTask { task1 with icalSource := 2, icalDrop := 0x180 } m) 0x180 = true ∧ dist32 5 4 = 1 ∧ 65536 < dist32 5 6) := by decide +kernel

theorem witness_RingEvents_5 :
    (let m := ringM .absent;
    let rf := parseFrame hello.bytes;
    rf.ty = 6 ∧ rf.ver = 1 ∧ 24 ≤ rf.data.length ∧ rf.drop = 0x180 ∧ dropOf m rf.drop = some (dropA .absent)
      ∧ bit (byteAt rf.data 0) 0 = true ∧ bit (byteAt rf.data 0) 1 = true ∧ (dropA .online).st = .online) := by decide +kernel

theorem witness_RingEvents_6 :
    macNat (zeros 6) ≠ (dropA).mac ∧ isLead (ringM .absent shadowUp) = false := by decide +kernel

theorem witness_RingEvents_7 :
    (let a : AcyMsg := { seq := 1, cls := 0, payload := [], cmd := some (0, cmd []), sent := true };
    let d : DropCfg := { dropA with assigning := true, acyPending := [a] };
    let m := withDrop 0x180 d (ringUp leadUp);
    dropOf m 0x180 = some d ∧ ringOf m d.segment = some { rate := 1 } ∧ isLead m = true ∧ m.pair.window = false ∧ sends m = true
      ∧ warmShadow m = false ∧ m.pair.mode = .inStep ∧ d.acyPending.find? (fun a => a.seq == 1 && a.cmd.isSome && a.sent) = some a) := by decide +kernel

theorem witness_RingEvents_8 :
    (let a : AcyMsg := { seq := 1, cls := 0, payload := [], cmd := some (0, cmd []), sent := true };
    let d : DropCfg := { dropA with assigning := true, acyPending := [a] };
    let m := withDrop 0x180 d (ringUp leadUp);
    d.acyPending.find? (fun a => a.seq == 2 && a.cmd.isSome && a.sent) = none ∧ (dropA).assigning = false
      ∧ (dropA .offline).st ≠ .online ∧ ringRuns m 0 = true ∧ sends (mod .ready) = false
      ∧ (withPair (fun q => { q with window := true })).pair.window = true) := by decide +kernel

theorem witness_RingEvents_9 :
    (let m := ringM;
    let rf := parseFrame (frame 8 0x20 0 [] (moduleMac .a 0)).bytes;
    rf.ty = 8 ∧ rf.src = moduleMac m.slot 0 ∧ rf.flags &&& passBit (otherSlot m.slot) ≠ 0
      ∧ (parseFrame (frame 8 0 0 [] (moduleMac .a 0)).bytes).flags &&& passBit (otherSlot m.slot) = 0
      ∧ m.field.lanes[0]? = some ({} : Lane) ∧ m.field.lanes[1]? = some ({} : Lane) ∧ ringOf m (1 / 2) = some { rate := 1 }
      ∧ powered m = true) := by decide +kernel

theorem witness_RingEvents_10 :
    (let m := ringM;
    fw m = true ∧ fw (mod .loader) = false ∧ powered (mod .off) = false) := by decide +kernel

theorem witness_RingEvents_11 :
    glintRuns (glintG (fun g => { g with bank0 := { emptyBank with p4 := { bytes := [0, 0, 0, 0x80, 1, 0, 0, 0, 0, 0, 0xFF, 0xFF], sealed := true } } })) = true
      ∧ (spliceMap (activePart (glintG (fun g => { g with bank0 := { emptyBank with p4 := { bytes := pad [0, 0, 1, 0x80, 1, 0, 0, 0, 0, 0, 5, 0] 4096, sealed := true } } })).glint 4)).length = 1
      ∧ (spliceMap (activePart (glintG (fun g => { g with bank0 := { emptyBank with p4 := { bytes := pad [0, 0, 1, 0xA0, 1, 0, 0, 0, 0, 0, 0xFF, 0xFF] 4096, sealed := true } } })).glint 4)).all (fun x => x.1 == 0 && !x.2.output && x.2.clr && x.2.vbit == 0xFFFF) = true := by decide +kernel

theorem witness_RingEvents_taken :
    (let m := ringM;
    let f := frame 2 0x10 5 [0, 0, 1, 2];
    TakenUp m 0 2 f (dropA) ∧ TakenUp m 0 4 (frame 4 0x10 5 [0, 0]) (dropA) ∧ TakenUp m 0 5 (frame 5 0x10 5 [0, 0]) (dropA)
      ∧ TakenUp (withDrop 0x180 { (dropA) with held := some { key := 5, time := 0, data := [] } } (ringUp leadUp)) 0 2 f { (dropA) with held := some { key := 5, time := 0, data := [] } }) := by unfold TakenUp; decide +kernel

/-- Stations: a ring drop, a bus drop and a line drop, all powered. -/
def ringX : Station := { mac := macNat macB, powered := true, assigned := true, version := 2, linkUp := true, linkDown := true, inSafe := false }
def busX : Station := { kind := .bus, position := 3, powered := true, assigned := true, rowStart := some 5 }
def lineX : Station := { kind := .line, position := 3, powered := true, unassigned := false }
def field1 (x : Station) : State := { State.reset with stations := [(0x180, x)] }
def outFrame (seq : W32) (time : W64) : Frame := { bytes := frameV2 (ringDst 0) (moduleMac .a 0) 0x88B5 1 0 0 0x180 seq time [1, 2] }
def assignData : Bytes := beBytes 6 (macNat macB) ++ [2, 0] ++ beBytes 4 1 ++ zeros 8 ++ beBytes 4 1000 ++ zeros 4
def assignFrame : Frame := { bytes := frameV1 (ringDst 0) (moduleMac .a 0) 0x88B5 7 0 0x180 0 assignData }

theorem witness_DropBehaviour :
    (let s := field1 ringX;
    tsorted s.stations = true ∧ tget s.stations 0x180 = some ringX ∧ ringX.powered = true ∧ ringX.kind = .ring
      ∧ ringX.linkUp = true ∧ ringX.assigned = true ∧ macNat (parseFrame hello.bytes).src = ringX.mac
      ∧ macNat (parseFrame (outFrame 5 0).bytes).src ≠ ringX.mac) := by decide +kernel

theorem witness_DropBehaviour_2 :
    (parseFrame (outFrame 5 0).bytes).ety ≠ 0x88F7 ∧ (outFrame 5 0).fcs = .good := by decide +kernel

theorem witness_DropBehaviour_3 :
    (let rf := parseFrame (outFrame 5 0).bytes;
    rf.ty = 1 ∧ rf.ver = ringX.version ∧ rf.drop = 0x180 ∧ lenFits rf = true ∧ dist32 rf.seq ringX.lastOut = 5
      ∧ dist32 rf.seq ({ ringX with lastOut := 5 } : Station).lastOut = 0
      ∧ 65536 < dist32 rf.seq ({ ringX with lastOut := 6 } : Station).lastOut ∧ (parseFrame (outFrame 5 9).bytes).time ≠ 0) := by decide +kernel

theorem witness_DropBehaviour_4 :
    (let rf := parseFrame (outFrame 5 0).bytes;
    almDiff 3 (parseFrame (outFrame 5 9).bytes).time < 0 ∧ 0 ≤ almDiff 9 (parseFrame (outFrame 5 9).bytes).time
      ∧ bit rf.flags 7 = false
      ∧ bit (parseFrame (frameV2 (ringDst 0) (moduleMac .a 0) 0x88B5 1 128 0 0x180 5 0 [1])).flags 7 = true
      ∧ ({ ringX with waitingOut := [(0, [1], false)] } : Station).waitingOut = (0, [1], false) :: [] ∧ ringX.waitingOut = []
      ∧ ringX.inSafe = false ∧ ({ ringX with inSafe := true } : Station).inSafe = true) := by decide +kernel

theorem witness_DropBehaviour_5 :
    busX.powered = true ∧ busX.assigned = true ∧ busX.kind = .bus ∧ busX.rowStart = some 5
      ∧ tget (field1 busX).stations 0x180 = some busX ∧ ({ ringX with powered := false } : Station).powered = false := by decide +kernel

theorem witness_DropBehaviour_6 :
    (let rf := parseFrame assignFrame.bytes;
    rf.ty = 7 ∧ rf.ver = 1 ∧ rf.drop = 0x180 ∧ 28 ≤ rf.data.length ∧ be rf.data 0 6 = ringX.mac ∧ byteAt rf.data 6 = 2
      ∧ bit ringX.versions (2 - 1) = true ∧ ({ ringX with assign := rf.data } : Station).assign = rf.data) := by decide +kernel

theorem witness_DropBehaviour_7 :
    (let rf := parseFrame assignFrame.bytes;
    ringX.assign ≠ rf.data ∧ be rf.data 0 6 ≠ ({ ringX with mac := 1 } : Station).mac
      ∧ ({ ringX with version := 1 } : Station).version = 1 ∧ ({ ringX with wrapUp := true } : Station).wrapUp = true
      ∧ (CanFrame.mk 0 (zeros 8) false).foreign = false ∧ 8 ≤ (CanFrame.mk 0 (zeros 8) false).data.length
      ∧ (CanFrame.mk 0 (zeros 8) false).id = 0 ∧ (CanFrame.mk 1 (zeros 8) false).id ≠ 0) := by decide +kernel

theorem witness_LineDropBehaviour :
    (let s := field1 lineX;
    let req (a f : Nat) (d : Bytes) := lineCrc (beBytes 1 a ++ beBytes 1 f ++ beBytes 1 d.length ++ d);
    tsorted s.stations = true ∧ tget s.stations 0x180 = some lineX ∧ lineX.powered = true ∧ lineX.kind = .line
      ∧ lineParse (req 3 0x10 [0, 5, 0, 7]) = some (3, 0x10, [0, 5, 0, 7])
      ∧ lineParse (req 4 0x10 [0, 5, 0]) = some (4, 0x10, [0, 5, 0]) ∧ 4 % 32 ≠ lineX.position % 32
      ∧ lineParse (req 131 0x10 []) = some (131, 0x10, [])) := by decide +kernel

theorem witness_LineDropBehaviour_2 :
    (let req (a f : Nat) (d : Bytes) := lineCrc (beBytes 1 a ++ beBytes 1 f ++ beBytes 1 d.length ++ d);
    lineParse (req 3 0x16 [0, 5, 0, 7]) = some (3, 0x16, [0, 5, 0, 7])
      ∧ lineParse (req 3 0x12 [1, 5, 0, 7]) = some (3, 0x12, [1, 5, 0, 7]) ∧ lineParse (req 3 0x14 []) = some (3, 0x14, [])
      ∧ lineParse (req 3 0x15 []) = some (3, 0x15, []) ∧ (be [0, 5, 0, 7] 0 2 + 65536 - lineX.lastOut.toNat % 65536) % 65536 = 5
      ∧ (be [0, 5, 0, 7] 0 2 + 65536 - ({ lineX with lastOut := 6 } : Station).lastOut.toNat % 65536) % 65536 = 65535
      ∧ bit (be [0, 5, 0, 7] 2 1) 7 = false ∧ ({ lineX with unassigned := true } : Station).unassigned = true) := by decide +kernel

theorem witness_LineDropBehaviour_3 :
    lineX.unassigned = false ∧ (be [1, 5, 0, 7] 0 1 + 256 - lineX.lastAcy.toNat % 256) % 256 = 1
      ∧ (be [1, 5, 0, 7] 0 1 + 256 - ({ lineX with lastAcy := 1 } : Station).lastAcy.toNat % 256) % 256 ≠ 1 := by decide +kernel

/-- Bus 0 in a row of all kinds of slot, at its first slot, and a drop on its node 1. -/
def slotOf (kind : Nat) : BusSlot := { kind := kind, part := 0, node := 1, len := 10 }
def bus0 (i : Nat) : Bus := { nominal := 1, rows := [[slotOf 1, slotOf 2, slotOf 3, slotOf 4, slotOf 5, slotOf 6, slotOf 7]], slot := i, cycling := true }
def busD : DropCfg :=
  { kind := .bus, segment := 0, position := 1, outLen := 2, inLen := 2, wIn := 1, watchdog := 100, map := [], st := .online, task := some 0 }
def busM (b : Bus) (d : DropCfg := busD) (m : Module := leadUp) : Module :=
  { m with field := { m.field with buses := [b], drops := [(0x81, d)] }, exec := { tasks := [(0, { task1 with st := .running })] } }

theorem witness_BusEvents :
    (let b := bus0 0;
    let m := busM b;
    busOf lead 0 = none ∧ busOf m 0 = some b ∧ sends m = true ∧ b.cycling = true
      ∧ ({ b with cycling := false } : Bus).cycling = false ∧ (rowSlots (b.rows.getD b.row []))[b.slot]? = some (slotOf 1)
      ∧ (rowSlots ((bus0 1).rows.getD (bus0 1).row []))[(bus0 1).slot]? = some (slotOf 2)
      ∧ (rowSlots ((bus0 6).rows.getD (bus0 6).row []))[(bus0 6).slot]? = some (slotOf 7)) := by decide +kernel

theorem witness_BusEvents_2 :
    (let b := bus0 0;
    let m := busM b;
    b.busOff = false ∧ m.pair.mode = .inStep ∧ m.slot = .a ∧ nodeDrop m 0 (slotOf 2).node = some busD ∧ busD.st = .online
      ∧ busD.task.isSome = true ∧ (slotOf 2).part < busD.parts ∧ sendsFor m busD = true) := by decide +kernel

theorem witness_BusEvents_3 :
    (let b := bus0 0;
    let m := busM b;
    sendsFor (busM { (bus0 1) with busOff := true }) busD = true ∧ warmShadow m = false ∧ isLead m = true ∧ m.pair.window = false) := by decide +kernel

theorem witness_BusEvents_4 :
    (let a : AcyMsg := { seq := 1, cls := 0, payload := [], cmd := none };
    let m := busM (bus0 4) { busD with acyPending := [a] };
    acyPick (acyCandidates m .bus 0) = some (0x81, a) ∧ dropOf m 0x81 = some { busD with acyPending := [a] }
      ∧ (rowSlots ((bus0 4).rows.getD (bus0 4).row []))[(bus0 4).slot]? = some (slotOf 5)) := by decide +kernel

theorem witness_BusEvents_5 :
    (let b : Bus := { bus0 0 with assignNodes := [1], txNow := some (1, 0, 5, true, [1, 2]), failed := [(1, 0, 4)] };
    let m := busM b;
    busOf m 0 = some b ∧ b.assignNodes = 1 :: [] ∧ nodeDrop m 0 1 = some busD ∧ b.txNow = some (1, 0, 5, true, [1, 2])
      ∧ (bus0 0).txNow = none ∧ fw m = true ∧ canAssigned 0x0C0 = false ∧ busD.kind = .bus) := by decide +kernel

theorem witness_BusEvents_6 :
    (let b : Bus := { bus0 0 with assignNodes := [1], txNow := some (1, 0, 5, true, [1, 2]), failed := [(1, 0, 4)] };
    busD.segment = 0 ∧ 6 + busD.inLen ≤ (CanFrame.mk 0x201 (zeros 8) false).data.length ∧ 6 + perPart busD ≤ 8
      ∧ busD.acyPending = [] ∧ busD.held = none ∧ busD.st = .online ∧ ({ busD with st := .absent } : DropCfg).st = .absent
      ∧ nodeDrop (busM b { busD with st := .absent, lastEvent := some 4 } shadowUp) 0 1 = some { busD with st := .absent, lastEvent := some 4 }) := by decide +kernel

theorem witness_BusEvents_7 :
    (let b : Bus := { bus0 0 with assignNodes := [1], txNow := some (1, 0, 5, true, [1, 2]), failed := [(1, 0, 4)] };
    let m := busM b;
    isLead (busM b busD shadowUp) = false ∧ (be [0, 5, 0, 0, 0, 0, 0, 0] 0 2 + 65536 - (4 : W32).toNat % 65536) % 65536 = 1
      ∧ 32767 < (be [0, 3, 0, 0, 0, 0, 0, 0] 0 2 + 65536 - (4 : W32).toNat % 65536) % 65536 ∧ icalNamed m 0x81 = false
      ∧ icalNamed { m with exec := { tasks := [(0, { task1 with icalSource := 2, icalDrop := 0x81 })] } } 0x81 = true
      ∧ (b.failed.filter (fun x => match tget b.shadowRx (x.1 * 4 + x.2.1) with | some y => y.1 != x.2.2 | none => true)) = [(1, 0, 4)]
      ∧ m.field.buses[0]? = some b
      ∧ ((bus0 0).failed.filter (fun x => match tget (bus0 0).shadowRx (x.1 * 4 + x.2.1) with | some y => y.1 != x.2.2 | none => true)) = []) := by decide +kernel

def lineD : DropCfg := { kind := .line, segment := 0, position := 3, outLen := 2, inLen := 1, wIn := 1, watchdog := 1000, map := [], st := .online, lastSeq := 5 }
def line0 : Line := { rate := 1, slots := [(0, 3)], awaiting := some (0x10, 3), request := [3, 0x10, 0, 5, 0] }
def lineM (l : Line := line0) (m : Module := leadUp) : Module := { m with field := { m.field with lines := [l], drops := [(3, lineD)] } }

theorem witness_LineEvents :
    (let m := lineM;
    lineOf lead 0 = none ∧ lineOf m 0 = some line0 ∧ line0.slots = (0, 3) :: [] ∧ sends m = true
      ∧ (lineRequest m 0 0 3).isSome = true ∧ (lineRequest m 0 0 4).isNone = true ∧ isLead m = true ∧ m.pair.window = false) := by decide +kernel

theorem witness_LineEvents_2 :
    (let m := lineM;
    let p := lineM line0 shadowUp;
    isLead p = false ∧ p.pair.mode = .inStep ∧ leadOnlyDrop p lineD = false ∧ sends p = true ∧ lineDrop m 0 3 = some lineD
      ∧ lineD.st = .online ∧ lineD.acyPending = [] ∧ lineD.held = none) := by decide +kernel

theorem witness_LineEvents_3 :
    (let m := lineM;
    let req (a f : Nat) (d : Bytes) := lineCrc (beBytes 1 a ++ beBytes 1 f ++ beBytes 1 d.length ++ d);
    line0.request ≠ [] ∧ line0.startSeen = false ∧ fw m = true ∧ lineParse [] = none
      ∧ lineParse (req 131 0x11 [0, 5, 0, 0, 9]) = some (131, 0x11, [0, 5, 0, 0, 9])
      ∧ lineParse (req 131 0x11 [0, 5, 0x20, 0, 9]) = some (131, 0x11, [0, 5, 0x20, 0, 9]) ∧ line0.awaiting = some (0x10, 131 % 32)
      ∧ 4 + lineD.inLen ≤ 5) := by decide +kernel

theorem witness_LineEvents_4 :
    (let m := lineM;
    bit (be [0, 5, 0, 0, 9] 2 1) 5 = false ∧ bit (be [0, 5, 0x20, 0, 9] 2 1) 5 = true ∧ m.field.lines[0]? = some line0
      ∧ ({ line0 with awaiting := none } : Line).awaiting.isSome = false) := by decide +kernel

theorem witness_TimeEvents :
    (let sch (a : W64) := withAlm (fun x => { x with sched := some (a, 7, 1) }) (atT 1000);
    powered lead = true ∧ fw lead = true ∧ isLead lead = true ∧ (sch 1000).alm.sched = some (1000, 7, 1)
      ∧ almGe (now (sch 1000)) 1000 = true ∧ almGe (now (sch 2000)) 2000 = false
      ∧ taskOf (withTask task1 (sch 1000)) 0 = some task1 ∧ lead.alm.sched = none) := by decide +kernel

theorem witness_TimeEvents_2 :
    lead.alm.bar0Step = none ∧ bar0Up lead = true ∧ bar0Up (mod .off) = false ∧ field (0xA1A50001 : W32).toNat 31 16 = 0xA1A5
      ∧ (0xA1A50001 : W32).getLsbD 0 = true ∧ field (1 : W32).toNat 31 16 ≠ 0xA1A5 ∧ mayBar0Step (mod .loader) = true
      ∧ bar0Up (mod .loader) = true := by decide +kernel

theorem witness_TimeEvents_3 :
    mayBar0Step lead = false ∧ (withAlm (fun x => { x with bar0Step := some (true, 5) })).alm.bar0Step = some (true, 5) := by decide +kernel

theorem witness_TimeEvents_4 :
    (let m (src : Nat) := withAlm (fun x => { x with ppsInOn := true, cfgSource := src, ppsLast := some 0 });
    (m 2).alm.ppsInOn = true ∧ lead.alm.ppsInOn = false ∧ (almDiff 499999999 0).natAbs < 500000000
      ∧ ¬ (almDiff 1000000000 0).natAbs < 500000000 ∧ (m 1).alm.cfgSource ≠ 2 ∧ (m 2).alm.cfgSource = 2 ∧ (m 2).pair.window = false
      ∧ (m 2).alm.stepLimit = 1000000) := by decide +kernel

theorem witness_TimeEvents_5 :
    (let m (src : Nat) := withAlm (fun x => { x with ppsInOn := true, cfgSource := src, ppsLast := some 0 });
    (m 2).alm.sched = none ∧ 1000000 < (1500000000 : W64).toNat % 1000000000 ∧ (1500000000 : W64).toNat % 1000000000 < 999000000
      ∧ (1001000000 : W64).toNat % 1000000000 ≤ 1000000
      ∧ (withAlm (fun x => { x with stepLimit := 1000 }) (m 2)).alm.stepLimit < (1001000000 : W64).toNat % 1000000000
      ∧ (now (m 2)).toNat < 2 ^ 63 ∧ (withAlm (fun x => { x with source := 3 }) (m 2)).alm.source = 3 ∧ (m 2).alm.source ≠ 3) := by decide +kernel

theorem witness_TimeEvents_6 :
    (let m (t : W64) := withAlm (fun x => { x with ppsOutOn := true }) (atT t);
    (m 1000000004).alm.ppsOutOn = true ∧ (m 1000000004).alm.ppsOut = false ∧ (now (m 1000000004)).toNat % 1000000000 < 5
      ∧ 5 ≤ (now (m 1000000005)).toNat % 1000000000 ∧ (withAlm (fun x => { x with ppsOut := true }) (m 5)).alm.ppsOut = true) := by decide +kernel

theorem witness_TimeEvents_7 :
    (let m (role p1 p2 src : Nat) := withAlm (fun x => { x with role := role, port1 := p1, port2 := p2, source := src, cfgSource := 1 });
    lead.alm.role = 0 ∧ (m 1 6 8 0).alm.role = 1 ∧ (m 1 6 8 0).alm.port1 ≠ 9 ∧ (m 1 6 8 0).alm.port2 = 8
      ∧ (m 1 6 8 0).pair.window = false ∧ portState (m 1 8 9 2) 1 = 8 ∧ portState (m 1 8 9 2) 2 = 9 ∧ (m 1 8 9 2).alm.source = 2) := by decide +kernel

theorem witness_TimeEvents_8 :
    (let m (role p1 p2 src : Nat) := withAlm (fun x => { x with role := role, port1 := p1, port2 := p2, source := src, cfgSource := 1 });
    lead.alm.cfgSource ≠ 1 ∧ portState lead 1 ≠ 8 ∧ portState lead 1 ≠ 9 ∧ hostMaster lead 1 = false
      ∧ hostMaster (m 1 6 8 0) 1 = true ∧ (m 1 6 8 0).alm.twoStep = false
      ∧ (withAlm (fun x => { x with twoStep := true }) (m 1 6 8 0)).alm.twoStep = true
      ∧ (withPair (fun q => { q with window := true }) lead).pair.window = true) := by decide +kernel

theorem witness_TimeEvents_9 :
    lead.pair.window = false ∧ isLead shadowUp = false ∧ fw (mod .loader) = false := by decide +kernel

/-- Nothing has been stamped on the port, so the stamp is kept whatever the firmware has read. -/
theorem witness_TimeEvents_stamp : (txStamp lead 16).2 = true := by
  have h : (tget lead.alm.txTs 16).getD [] = [] := by decide
  simp only [txStamp, h, List.drop_nil, List.length_nil, Nat.zero_lt_succ, if_true]

theorem witness_AlmanacResetRule :
    (let m := { mod .off with power := { phase := .ramping } };
    m.power.phase = .ramping ∧ hasPower lead = true ∧ powered lead = true ∧ bar0Writes lead = true ∧ fw (mod .loader) = false) := by decide

theorem witness_AlmanacResetRule_2 :
    (let m := withAlm (fun x => { x with ppsInOn := true, cfgSource := 2, stepLimit := 0, ppsLast := some 0 });
    fw m = true ∧ isLead m = true ∧ m.pair.window = false ∧ m.alm.ppsInOn = true ∧ m.alm.cfgSource = 2 ∧ m.alm.stepLimit = 0
      ∧ m.alm.ppsLast = some 0 ∧ 500000000 ≤ (almDiff 1000000000 0).natAbs) := by decide

theorem witness_AlmanacResetRule_3 :
    (1000000000 : W64).toNat % 1000000000 ≤ 1000000 := by decide

def ev (code : Nat) : ChronEvent := { code := code, time := 0, source := 0, partition := 0xFFFF, severity := 0, data := zeros 24 }
def rec0 (seq : Nat) : ChronRec := { seq := seq, ev := ev 0x0401, localFlag := false, imported := false, leadEpoch := 0, origSeq := 0 }
def chronM (m : Module) : Module := { m with chron := { recs := [rec0 1], lastSeq := 524288, pendingRecs := [ev 0x0401] } }

theorem witness_ChronicleEvents :
    fw (mod .loader) = false ∧ lead.chron.pendingRecs = [] ∧ fw (chronM leadUp) = true
      ∧ (chronM leadUp).chron.pendingRecs = ev 0x0401 :: [] ∧ isLead (chronM leadUp) = true ∧ mirrors (chronM leadUp) = true
      ∧ mirrors (chronM lead) = false ∧ (rec0 1) ∈ (chronM leadUp).chron.recs := by decide

theorem witness_ChronicleEvents_2 :
    (rec0 1).seq + 524288 = (chronM leadUp).chron.lastSeq + 1 ∧ isLead (chronM shadowUp) = false
      ∧ writesLocal (chronM shadowUp) = false ∧ fw (chronM shadowUp) = true ∧ writesLocal (mod .ready .none) = true := by decide

theorem witness_ChronicleEvents_3 :
    (let m := { lead with chron := { lead.chron with runs := [(0x0401, { count := 3, firstT := 1, lastT := 2 })] } };
    tget lead.chron.runs 0x0401 = none ∧ tsorted m.chron.runs = true
      ∧ tget m.chron.runs 0x0401 = some { count := 3, firstT := 1, lastT := 2 } ∧ exemptCode 1 = true
      ∧ permitted ({ lead with chron := { lead.chron with buckets := [(0x0401, { rate := 0, burst := 1, tokens := 0, atNs := 0 })] } }) (ev 0x0401) = false) := by decide

def page : AnchorPage := { hostTag := 9, sqBase := 4096, sqSize := 64, cqBase := 8192, cqSize := 64, vec := 1 }
/-- A descriptor of SESSION.STATUS, which is a query, and one of CHRONICLE.LIMIT, which is work. -/
def qry : Desc := { desc 0x0103 with rspLen := 65536 }
def wrk : Desc := { desc 0x0605 with rspLen := 65536 }

theorem witness_MailboxEvents :
    fw (mod .loader) = false ∧ fw lead = true ∧ attached lead = true ∧ attached (mod .run) = false ∧ fw (mod .run) = true
      ∧ anchorCode (some page) = 1 ∧ anchorCode none ≠ 1 ∧ sqSizeOk 63 = false := by decide +kernel

theorem witness_MailboxEvents_2 :
    sqSizeOk page.sqSize = true ∧ cqSizeOk page.cqSize = true ∧ (4097 : W64).toNat % 4096 ≠ 0 ∧ bar0Writes lead = true
      ∧ tget lead.mail.qps 0 = some qp0 ∧ qp0.udp = false
      ∧ ({ lead with mail := { lead.mail with journal := [{ qp := 0, d := wrk, req := [], accepted := true }] } }).mail.journal ≠ []
      ∧ mayFetch lead 0 wrk = true := by decide +kernel

theorem witness_MailboxEvents_3 :
    mayFetch lead 1 wrk = false ∧ wrk.flags.getLsbD 0 = false ∧ fetchCheck lead 0 false wrk = none
      ∧ catalog wrk.code.toNat = some (.work, .sys) ∧ fetchCheck lead 0 false qry = none
      ∧ catalog qry.code.toNat = some (.query, .any) ∧ mayFetch lead 0 qry = true ∧ ticketFind lead 0 wrk.ticket = none := by decide +kernel

theorem witness_MailboxEvents_4 :
    journalFind lead 0 wrk.ticket = none ∧ tget lead.mail.highest 0 = none ∧ linked up shadowUp = true
      ∧ up.pair.partnerInSet = true ∧ mayFetch up 0 wrk = true := by decide +kernel

theorem witness_MailboxEvents_5 :
    (let r : TicketRec := { ticket := 1, stage := 3, time := 0 };
    let m := withMail (fun q => { q with tickets := [(0, [r])], highest := [(0, 1)] }) lead;
    ticketFind m 0 wrk.ticket = some r ∧ r.stage ≠ 2 ∧ r.status ≠ 5 ∧ mayFetch m 0 wrk = true ∧ fetchCheck m 0 false wrk = none) := by decide +kernel

theorem witness_MailboxEvents_6 :
    (let c : Cpl := { ticket := 1, code := 0x0605, stage := 3, time := 0, work := true };
    let q : Qp := { qp0 with held := [c] };
    let m (q : Qp) := withMail (fun x => { x with qps := [(0, q)] }) lead;
    tget (m q).mail.qps 0 = some q ∧ q.held = c :: [] ∧ fw (m q) = true ∧ (m q).boot.handover = false ∧ q.st ≠ .closed
      ∧ qp0.held = [] ∧ cqFull q = false ∧ c.waitsRecord = false) := by decide +kernel

theorem witness_MailboxEvents_7 :
    (let c : Cpl := { ticket := 1, code := 0x0605, stage := 3, time := 0, work := true };
    let q : Qp := { qp0 with held := [c] };
    let m (q : Qp) := withMail (fun x => { x with qps := [(0, q)] }) lead;
    q.closer = none ∧ c.work = true ∧ isLead (m q) = true ∧ 3 ≤ c.stage ∧ cqFull { q with cqHead := 1 } = true
      ∧ cqFull { q with udp := true } = false ∧ isLead (withMail (fun x => { x with qps := [(0, q)] }) shadowUp) = false
      ∧ qp0.unsignalled = 0) := by decide +kernel

theorem witness_MailboxEvents_8 :
    0 < ({ qp0 with unsignalled := 1 } : Qp).unsignalled ∧ lead.boot.msiCount ≠ 0 := by decide +kernel

theorem witness_MailboxEvents_9 :
    (let e : JEntry := { qp := 0, d := wrk, req := [], accepted := true, inherited := true, final := true, stage := 3 };
    let m := withMail (fun x => { x with journal := [e] }) lead;
    m.mail.journal = [e] ∧ e.inherited = true ∧ e.final = true ∧ e.posted = false ∧ m.pair.window = false
      ∧ tget m.mail.qps e.qp = some qp0) := by decide +kernel

def udpQp : Qp := { qp0 with udp := true, peer := zeros 16, peerPort := 7, dseqIn := 5, unacked := [3, 4] }
def udpM : Module := withMail (fun x => { x with qps := [(1, udpQp)] }) lead
def dgram (dseq : W32) (good : Bool := true) (epoch : W32 := 0) : UdpDgram :=
  { qp := 1, peer := zeros 16, port := 7, dseq := dseq, leadEpoch := epoch, crcGood := good, entries := [(wrk, [])] }

theorem witness_UdpEvents :
    fw (mod .loader) = false ∧ fw udpM = true ∧ tget lead.mail.qps 1 = none ∧ tget udpM.mail.qps 1 = some udpQp
      ∧ (dgram 5 false).crcGood = false ∧ udpQp.st = .opened ∧ udpQp.udp = true ∧ udpQp.peer = (dgram 5).peer := by decide

theorem witness_UdpEvents_2 :
    udpQp.peerPort = (dgram 5).port ∧ (dgram 5).crcGood = true
      ∧ newer32 udpM.pair.leadEpoch (dgram 5 true 0xFFFFFFFF).leadEpoch = true ∧ newer32 (dgram 6).dseq udpQp.dseqIn = true
      ∧ newer32 udpM.pair.leadEpoch (dgram 5).leadEpoch = false ∧ udpM.boot.handover = false ∧ udpM.mail.paused = false
      ∧ udpM.mail.stalled = false := by decide

theorem witness_UdpEvents_3 :
    cqFull udpQp = false ∧ udpQp.inFlight + (dgram 5).entries.length ≤ 256 ∧ udpM.mail.inFlight < 4096
      ∧ (∀ e ∈ (dgram 5).entries, awaitsAccept udpM 1 e.1.ticket = false) ∧ (dgram 5).dseq = udpQp.dseqIn
      ∧ newer32 udpQp.dseqIn (dgram 4).dseq = true ∧ udpQp.peerPort ≠ 8 ∧ udpQp.unacked ≠ [] := by decide

theorem witness_UdpEvents_4 :
    ({ udpQp with unacked := [] } : Qp).unacked = [] := by decide

/-- In LOADER with the control region of the load slot open. -/
def opened (f : Region → Region := id) (g : Boot → Boot := id) : Module :=
  withBoot (fun b => g { b with slot0 := { control := f { isOpen := true, owner := 1 } } }) (mod .loader)
def pulls (f : Boot → Boot := id) : Module := opened id (fun b => f { b with pulling := true, pullOut := [0], pullNext := 4096, pullEnd := 4096, pullLen := 1 })

theorem witness_BootRegisterEvents :
    (let m := opened;
    bar0Writes (mod .off) = false ∧ bar0Writes m = true ∧ m.boot.state = .loader ∧ lead.boot.state ≠ .loader
      ∧ bar0Writes lead = true ∧ ((regionOf m (loadSlot m.boot) 1).closed && (regionOf m (loadSlot m.boot) 2).closed) = false
      ∧ ((regionOf (imaged m) (loadSlot m.boot) 1).closed && (regionOf (imaged m) (loadSlot m.boot) 2).closed) = true
      ∧ (withBoot (fun b => { b with relaying := true }) m).boot.relaying = true) := by decide

theorem witness_BootRegisterEvents_2 :
    (let m := opened;
    (withBoot (fun b => { b with relayEn := false }) m).boot.relayEn = false ∧ clsOf 1 = some 1 ∧ clsOf 2 = some 2
      ∧ clsOf m.boot.cls = some 1 ∧ apertureSlot m = some 0 ∧ apertureSlot lead = some 1 ∧ (regionOf m 0 1).owner < 2
      ∧ m.boot.relaying = false) := by decide

theorem witness_BootRegisterEvents_3 :
    (let m := opened;
    (regionOf m 0 1).isOpen = true ∧ (regionOf m 0 2).isOpen = false ∧ hostMayUpdate (holding 1 (.qp 0) lead) = true
      ∧ hostMayUpdate lead = false ∧ ¬ ((regionOf (opened (fun r => { r with owner := 2 })) 0 1).owner < 2)) := by decide

theorem witness_BootRegisterEvents_4 :
    (let m (f : Boot → Boot) := opened id f;
    (m id).boot.pulling = false ∧ (m (fun b => { b with bme := false })).boot.bme = false ∧ (m id).boot.bme = true
      ∧ regionSize 1 < 4096 * (m (fun b => { b with pullLen := 16383 })).boot.pullLen.toNat
      ∧ 0 < 4096 * (m (fun b => { b with pullLen := 1 })).boot.pullLen.toNat
      ∧ 4096 * (m (fun b => { b with pullLen := 1 })).boot.pullLen.toNat ≤ regionSize 1 ∧ pulls.boot.pulling = true
      ∧ pulls.boot.pullSlot = 0) := by decide

theorem witness_BootRegisterEvents_5 :
    (let m (f : Boot → Boot) := opened id f;
    pulls.boot.pullSafety = false ∧ (regionOf pulls 0 1).isOpen = true ∧ (regionOf (m id) 0 1).hdrBad = false
      ∧ (regionOf (opened (fun r => { r with hdrBad := true })) 0 1).hdrBad = true
      ∧ (regionOf (opened (fun r => { r with hdrBad := true })) 0 1).isOpen = true) := by decide

theorem witness_BootRegisterEvents_6 :
    (let m (w : BitVec 11) := opened id (fun b => { b with win := w });
    regionSize 1 < (m 1536).boot.win.toNat * 32768 + 0 + [(0 : Byte)].length
      ∧ (m 1535).boot.win.toNat * 32768 + 32767 + [(0 : Byte)].length ≤ regionSize 1 ∧ powered (mod .off) = false
      ∧ powered pulls = true ∧ 0 ∈ pulls.boot.pullOut ∧ pulls.boot.pullAborted = false ∧ pulls.boot.pullOut = [0]
      ∧ pulls.boot.pullEnd ≤ pulls.boot.pullNext) := by decide

theorem witness_BootRegisterEvents_7 :
    pulls.boot.closePending = false ∧ hdrDueAt lead = none ∧ hdrDueAt (opened (fun r => { r with hdrDue := true })) = some (0, 1)
      ∧ hasPower pulls = true ∧ bar0Up (mod .off) = false ∧ bar0Up pulls = true ∧ (5 : W32).getLsbD 0 = true
      ∧ (4 : W32).getLsbD 2 ≠ pulls.boot.hdrFirst := by decide

theorem witness_BootRegisterEvents_8 :
    (2 : W32).getLsbD 2 = pulls.boot.hdrFirst ∧ (0x40C / 4 = 0x103) ∧ (0x10C / 4 = 0x43) ∧ (0x4028 / 4 = 0x100A) := by decide

def relayM (fails : Nat := 0) (stop : Bool := false) : Module :=
  withPair (fun q => { q with role := .none }) (withBoot (fun b => { b with state := .loader, relaying := true, relayFails := fails, relayStop := stop }))
def twoBlocks : Region := { closed := true, len := 2097152 }
def sender (r : Region) : Module :=
  withBoot (fun b => { b with slot0 := { control := r, safety := r }, sending := some (1, 0, 0), sendClasses := [1] }) shadowUp

theorem witness_LoaderEvents :
    (let m := withPair (fun q => { q with role := .none }) (withBoot (fun b => { b with state := .loader }));
    hasPower m = true ∧ m.boot.state = .loader ∧ m.boot.relayEn = true ∧ m.boot.relaying = false ∧ m.boot.relayWithdrawn = false
      ∧ partnerOffers m shadowUp = true ∧ partnerOffers m (mod .loader) = false
      ∧ (regionOf (opened id (fun b => { b with state := .loader })) 0 1).isOpen = true) := by decide +kernel

theorem witness_LoaderEvents_2 :
    (let m := withPair (fun q => { q with role := .none }) (withBoot (fun b => { b with state := .loader }));
    (regionOf m 0 1).isOpen = false ∧ (regionOf m 0 2).isOpen = false ∧ (relayM).boot.relaying = true
      ∧ linked (relayM) (sender twoBlocks) = true ∧ (relayM).boot.relayCls = 1 ∧ (relayM).boot.relayBlock = 0 ∧ crc32c [1, 2] ≠ 0
      ∧ crc32c [] = 0) := by decide +kernel

theorem witness_LoaderEvents_3 :
    (relayM 2).boot.relayFails = 2 ∧ (relayM).boot.relayFails ≠ 2 ∧ (relayM 0 true).boot.relayStop = true
      ∧ nextBlock (sender twoBlocks) 1 0 = some (1, 1) ∧ nextBlock (sender image) 1 0 = none
      ∧ (sender image).boot.sending = some (1, 0, 0) ∧ shadowUp.boot.sending = none ∧ (relayM).boot.relaying = true := by decide +kernel

theorem witness_LoaderEvents_4 :
    (sender image).maint.tx = none
      ∧ (withBoot (fun b => { b with sending := some (1, 0, 2) }) (sender image)).boot.sending = some (1, 0, 2) := by decide +kernel

theorem witness_LoaderEvents_5 :
    (let m (f : VerifyFrom) := withBoot (fun b => { b with state := .verify, verifyFrom := f });
    hasPower (m .activate) = true ∧ (m .activate).boot.state = .verify
      ∧ verifyCode (m .activate) (verifySlot (m .activate).boot) true ≠ 0 ∧ lead.boot.state ≠ .verify
      ∧ lead.boot.verifyingHandover = false ∧ hasPower (mod .starting) = true ∧ (mod .starting).boot.state = .starting
      ∧ lead.boot.state ≠ .starting) := by decide +kernel

def powerM (f : Power → Power) (m : Module := lead) : Module := { m with power := f m.power }

theorem witness_PowerEvents :
    (let off := powerM (fun p => { p with phase := .off }) (mod .off);
    mayPowerUp off = true ∧ mayPowerUp lead = false ∧ (powerM (fun p => { p with phase := .ramping }) off).power.phase = .ramping
      ∧ lead.power.phase ≠ .ramping ∧ (powerM (fun p => { p with phase := .bringUp })).power.phase = .bringUp
      ∧ lead.boot.mresetHeld = false
      ∧ (withBoot (fun b => { b with mresetHeld := true, perstHeld := true, pcie := .retry })).boot.mresetHeld = true
      ∧ hasPower lead = true) := by decide

theorem witness_PowerEvents_2 :
    (let off := powerM (fun p => { p with phase := .off }) (mod .off);
    powered lead = true ∧ hasPower off = false ∧ lead.boot.perstHeld = false
      ∧ (withBoot (fun b => { b with pcie := .retry })).boot.pcie = .retry ∧ lead.boot.pcie ≠ .retry
      ∧ (powerM (fun p => { p with logic2 := false })).power.logic2 = false
      ∧ (powerM (fun p => { p with phase := .goingDown })).power.phase = .goingDown ∧ off.power.phase = .off) := by decide

theorem witness_PowerEvents_3 :
    (let off := powerM (fun p => { p with phase := .off }) (mod .off);
    off.power.logic1 = true ∧ off.power.tooHot = false ∧ inRun lead = true ∧ lead.power.hotOnce = false
      ∧ (powerM (fun p => { p with hotOnce := true })).power.hotOnce = true ∧ lead.power.throttled = false
      ∧ (powerM (fun p => { p with throttled := true })).power.throttled = true) := by decide

theorem witness_MemoryErrors :
    powered lead = true ∧ powered (mod .off) = false ∧ hasPower lead = true
      ∧ hasPower (powerM (fun p => { p with phase := .off })) = false ∧ 1 ≠ lead.boot.cur ∧ serving lead = true
      ∧ lead.boot.state ≠ .verify ∧ (recentTimes lead lead.diag.recent 3600000000000).length < 16 := by decide

theorem witness_MemoryErrors_2 :
    (let m : Module := { lead with diag := { recent := List.replicate 16 0 } };
    16 ≤ (recentTimes m m.diag.recent 3600000000000).length ∧ inStepWith lead shadowUp = false
      ∧ taskOf (withTask cyc) 0 = some cyc ∧ (cyc).st = .running) := by decide

theorem witness_MemoryErrors_3 :
    (let m := journaled leadUp;
    journalHas m 0 1 = true ∧ journalHas shadowUp 0 1 = false ∧ journalHas (journaled shadowUp) 0 1 = true
      ∧ linked m (journaled shadowUp) = true ∧ m.pair.inSet = true ∧ m.pair.partnerInSet = true) := by decide

def windowM (handover : Bool) (m : Module := leadUp) : Module :=
  imaged (withBoot (fun b => { b with windowRunning := true, windowHandover := handover, confirm := 1, selfChecked := true }) m)

theorem witness_UpdateEvents :
    (let m := withBoot (fun b => { b with handover := true });
    fw m = true ∧ m.boot.handover = true ∧ leadUp.boot.handover = false) := by decide +kernel

theorem witness_UpdateEvents_2 :
    (let m := withBoot (fun b => { b with portsDue := [3], windowDue := true, windowHandover := true });
    3 ∈ m.boot.portsDue ∧ m.boot.handover = false ∧ m.boot.portsDue.filter (fun x => x != 3) = [] ∧ m.boot.windowDue = true
      ∧ 4 ∉ m.boot.portsDue ∧ confirmable (windowM false) shadowUp = true ∧ confirmable leadUp shadowUp = false
      ∧ inRun (windowM false) = true) := by decide +kernel

theorem witness_UpdateEvents_3 :
    (windowM false).boot.windowRunning = true ∧ inRun (mod .ready) = false
      ∧ slotSound (windowM false) (windowM false).boot.prev = true
      ∧ slotSound (withBoot (fun b => { b with windowRunning := true })) 2 = false ∧ (windowM true).boot.windowHandover = true
      ∧ isLead (windowM false) = true ∧ (windowM false).pair.mode = .inStep ∧ leaseHeld (windowM false) = true := by decide +kernel

theorem witness_UpdateEvents_4 :
    isLead (windowM false (withPair (fun q => { q with linkUp := false }) shadowUp)) = false
      ∧ linked (windowM false (withPair (fun q => { q with linkUp := false }) shadowUp)) leadUp = false
      ∧ (windowM false).boot.cand ≠ (windowM false).boot.cur
      ∧ inRun (windowM false (withPair (fun q => { q with linkUp := false }) shadowUp)) = true
      ∧ slotSound (windowM false (withPair (fun q => { q with linkUp := false }) shadowUp)) 2 = true
      ∧ (withBoot (fun b => { b with floorTarget := 2 })).boot.floorTarget ≠ 0 ∧ 80 ≤ leadUp.power.reserve
      ∧ leadUp.boot.floorTarget = 0 := by decide +kernel

theorem witness_UpdateEvents_5 :
    (withBoot (fun b => { b with floorTarget := 2 })).hw.floor + 1 < 2
      ∧ (withBoot (fun b => { b with floorTarget := 1 })).boot.floorTarget ≤ leadUp.hw.floor + 1 := by decide +kernel

theorem witness_UpdateEvents_6 :
    (let m := { leadUp with maint := { leadUp.maint with verdict := some (0, 0x0A02, cmd []) } };
    fw m = true ∧ linked m shadowUp = true ∧ isLead m = true ∧ m.maint.verdict = some (0, 0x0A02, cmd [])
      ∧ holdsClass m 1 0 = false) := by decide +kernel

theorem witness_UpdateEvents_7 :
    (let m := { windowM false with boot := { (windowM false).boot with slot0 := { safety := { closed := true, bytes := [(7, 1), (0x14, 3)] } } } };
    floorWanted m = some 3 ∧ confirmable m shadowUp = true) := by decide +kernel

def hop0 : RelayHop := { addr := zeros 16, port := 9641 }
def tx0 (cmd0 : Option (Nat × Cmd) := none) (own : Nat := 1) : RelayTx :=
  { tid := 7, hops := [hop0, hop0, hop0, hop0], index := 2, cls := 1, classes := [1], headerFirst := false, source := 0, own := own, cmd := cmd0 }
def offer0 : RelayOffer :=
  { tid := 7, cls := 1, regionLen := 4, headerFirst := false, crcs := [crc32c [1, 2, 3, 4]], hops := [hop0, hop0], index := 1, domain := 0 }
def maintM (f : Maint → Maint) (m : Module := imaged leadUp) : Module := { m with maint := f m.maint }

theorem witness_RelayEvents :
    (let m := maintM (fun x => { x with rx := some { offer := { offer0 with regionLen := 8 }, block := 0 } });
    fw leadUp = true ∧ fw (mod .loader) = false ∧ offerAnswer leadUp offer0 = 0 ∧ leadUp.maint.rx = none
      ∧ offerAnswer leadUp { offer0 with regionLen := 0 } ≠ 0
      ∧ m.maint.rx = some { offer := { offer0 with regionLen := 8 }, block := 0 } ∧ fw m = true) := by decide +kernel

theorem witness_RelayEvents_2 :
    (let x : RelayRx := { offer := offer0, block := 0 };
    let data := ((tset x.frags 0 ([1, 2, 3, 4] : Bytes)).flatMap (fun f => f.2)).take 4;
    (Min.min 1048576 (x.offer.regionLen - 0 * 1048576) + 1023) / 1024 = 1 ∧ 0 < (4 + 1023) / 1024
      ∧ 1 ≤ (tset x.frags 0 ([1, 2, 3, 4] : Bytes)).length ∧ data.length = 4 ∧ crc32c data = x.offer.crcs.getD 0 0
      ∧ crc32c ([1, 2, 3, 5] : Bytes) ≠ x.offer.crcs.getD 0 0 ∧ (tset x.frags 0 ([1] : Bytes)).length < (2000 + 1023) / 1024) := by decide +kernel

theorem witness_RelayEvents_3 :
    (let m := maintM (fun x => { x with tx := some tx0 });
    m.maint.tx = some tx0 ∧ fw m = true ∧ tx0.served = false ∧ tx0.cmd = none ∧ tx0.accepted = false ∧ tx0.own ≠ 0
      ∧ tx0.index + 1 < tx0.hops.length ∧ sendingTid m 7 = true) := by decide +kernel

theorem witness_RelayEvents_4 :
    (let m := maintM (fun x => { x with tx := some tx0 });
    sendingTid m 8 = false ∧ leadUp.maint.tx = none ∧ tx0.offers < 3
      ∧ ({ tx0 with accepted := true, sent := true } : RelayTx).sent = true ∧ tx0.fails < 2 ∧ txBlocks m tx0 ≤ tx0.block + 1
      ∧ nextClass tx0 = none) := by decide +kernel

theorem witness_RelayEvents_5 :
    (let big : Module := { leadUp with boot := { leadUp.boot with slot0 := { control := twoBlocks, safety := twoBlocks } } };
    txBlocks big tx0 = 2) := by decide +kernel

theorem witness_RelayEvents_6 :
    (let t := tx0 (some (0, cmd [])) 0;
    relayOver t = false ∧ t.cmd = some (0, cmd []) ∧ t.own = 0
      ∧ relayOver { t with hops := [hop0, hop0], results := [{ index := 1, cls := 1, result := 0, code := 0, stored := 1 }] } = true
      ∧ (maintM (fun x => { x with tx := some t })).maint.tx = some t ∧ isLead (imaged leadUp) = true ∧ fw (imaged leadUp) = true) := by decide +kernel

theorem witness_DropAcyclicRule :
    (let s := field1 ringX;
    tsorted s.stations = true ∧ tget s.stations 0x180 = some ringX ∧ ringX.kind = .ring ∧ ringX.powered = true
      ∧ dist32 1 ringX.lastAcy = 1 ∧ dist32 0 ringX.lastAcy = 0 ∧ 0x80000000 ≤ dist32 0xFFFFFFFF ringX.lastAcy
      ∧ 2 ≤ dist32 2 ringX.lastAcy) := by decide

theorem witness_DropAcyclicRule_2 :
    dist32 0x7FFFFFFF ringX.lastAcy < 0x80000000 := by decide

theorem witness_FetchRefusals :
    mayFetch lead 0 wrk = true ∧ tget lead.mail.qps 0 = some qp0 ∧ fetchCheck lead 0 false { wrk with code := 0 } = some 1
      ∧ mayFetch lead 0 { wrk with code := 0 } = true ∧ fetchCheck lead 0 false wrk = none := by decide

theorem witness_FetchRefusals_2 :
    (let m := withMail (fun q => { q with tickets := [(0, [{ ticket := 5, stage := 3, time := 0 }])], highest := [(0, 5)] }) lead;
    mayFetch m 0 wrk = true ∧ fetchCheck m 0 false wrk = none ∧ catalog wrk.code.toNat = some (.work, .sys)
      ∧ ticketFind m 0 wrk.ticket = none ∧ journalFind m 0 wrk.ticket = none ∧ tget m.mail.highest 0 = some 5
      ∧ wrk.ticket.toNat ≤ (5 : W64).toNat ∧ ticketLow m 0 = some 5) := by decide

theorem witness_FetchRefusals_3 :
    wrk.ticket.toNat < 5 := by decide

theorem witness_ApertureMemory :
    (let m := opened;
    bar0Writes m = true ∧ clsOf m.boot.cls = some 1 ∧ apertureSlot m = some 0 ∧ memWf (regionOf m 0 1).bytes = true
      ∧ (regionOf m 0 1).isOpen = true ∧ m.boot.pulling = false ∧ (regionOf m 0 1).hdrBad = false
      ∧ m.boot.win.toNat * 32768 + 0 + [(1 : Byte), 2].length ≤ regionSize 1) := by decide

theorem witness_ApertureMemory_2 :
    regionSize 1 < (opened id (fun b => { b with win := 1536 })).boot.win.toNat * 32768 + 0 + [(1 : Byte)].length
      ∧ (regionOf lead 1 1).isOpen = false := by decide

theorem witness_StepRunsFront :
    ({ State.reset with pending := [.witnessLeaseEnd, .witnessHoldoffEnd] } : State).pending = .witnessLeaseEnd :: [.witnessHoldoffEnd]
      ∧ State.reset.pending = [] := by decide

theorem witness_DomainInvariant : DomainOk State.reset ∧ ∃ t, step State.reset = .next t := by
  refine ⟨⟨⟨by decide, ?_⟩, by decide⟩, _, rfl⟩
  intro sl h
  exact absurd h (by decide)

/-- The witness with a lease of A running, and with none, and a command waiting. -/
def leased (i : Instr) : State := { State.reset with witness := { holder := some .a, running := true }, pending := [i] }
def unleased (i : Instr) : State := { State.reset with pending := [i] }
def answersNext (s : State) : Bool := match step s with | .next _ => true | _ => false

theorem witness_NoSecondLease : WitnessOk (leased .witnessLeaseEnd).witness ∧ WitnessOk (unleased (.claim .a (wmsg))).witness
    ∧ answersNext (leased (.release .a (wmsg))) = true ∧ (leased .witnessLeaseEnd).witness.running = true
    ∧ heard (leased .witnessLeaseEnd).witness (wmsg) = true
    ∧ (match step (unleased (.claim .a (wmsg))) with
        | .next t => t.witness.running && t.witness.holder == some .a
        | _ => false) = true
    ∧ (unleased .witnessLeaseEnd).witness.holder ≠ some .a ∧ (unleased .witnessLeaseEnd).witness.reserved ≠ some .a := by
  refine ⟨⟨by decide, ?_⟩, ⟨by decide, ?_⟩, by decide, by decide, by decide, by decide, by decide, by decide⟩
  · intro sl h1 h2
    cases sl <;> rfl
  · intro sl h
    exact absurd h (by decide)

/-! ### Steps and figures that the manual states, and published answers of SHA-384 and ECDSA P-384 -/

/-- The worked example under R117: 18 cycles rotate through class 0, the sync link takes 30 more, then 16 clusters get one grant each. -/
def resyncLoad (k : Nat) : Option (List Nat) := some ((if k < 18 then [17, 18, 19] else [17]) ++ List.range 17)

theorem test_arbiter_window : (grantAll {} ((List.range 64).map resyncLoad)).2.drop 15
    = [some 17, some 18, some 19] ++ List.replicate 30 (some 17) ++ (List.range 16).map some := by decide +kernel

/-- The worked example under R253: ROW 59 µs, OUT of 30 bytes 108 µs, IN of 22 bytes 92 µs, ACY 172 µs at 1 and 5 Mbit/s. -/
theorem test_bus_slots : [8, 30, 22, 64].map (fun n => ceilDiv (frameNs { nominal := 3, dataRate := 4 } true n + 2000) 1000) = [59, 108, 92, 172] := by decide

/-- The worked example under R313: the 40 events, 25 ms apart, of DROP_OFFLINE. -/
def offline (k : Nat) (m : Module) : Module :=
  (List.range k).foldl (fun a i => queueEvent { a with phys := i * 25000000 } { ev 0x0402 with time := w64 (i * 25000000), severity := 1 }) m

theorem test_chronicle_limit : ((offline 40 lead).chron.pendingRecs.filter (fun e => e.code == 0x0402)).length = 29
    ∧ ((offline 40 lead).chron.pendingRecs.filter (fun e => e.code == 1)).map (fun e => le e.data 4 4) = [2, 3, 3] := by decide +kernel

theorem test_crc32c : crc32c [0x31, 0x32, 0x33, 0x34, 0x35, 0x36, 0x37, 0x38, 0x39] = 0xE3069283 := by decide +kernel

theorem test_sha384 : beVal (sha384 [0x61, 0x62, 0x63])
    = 0xcb00753f45a35e8bb5a03d699ac65007272c32ab0eded1631a8b605a43ff5bed8086072ba1e7cc2358baeca134c825a7 := by decide +kernel

def sampleKey : Bytes :=
  beBytes 48 0xEC3A4E415B4E19A4568618029F427FA5DA9A8BC4AE92E02E06AAE5286B300C64DEF8F0EA9055866064A254515480BC13
    ++ beBytes 48 0x8015D9B72D7D57244EA8EF9AC0C621896708A59367F9DFB9F54CA84B3F1C9DB1288B231C3AE0D4FE7344FD2533264720
def sampleSig (s : Nat) : Bytes :=
  beBytes 48 0x94EDBB92A5ECB8AAD4736E56C691916B3F88140666CE9FA73D64C4EA95AD133C81A648152E44ACF96E36DD1E80FABE46 ++ beBytes 48 s
/-- The digest of "sample". -/
def sampleDigest : Bytes := beBytes 48 0x9a9083505bc92276aec4be312696ef7bf3bf603f4bbd381196a029f340585312313bca4a9b5b890efee42c77b1ee25fe

theorem test_ecdsa : ecdsaVerify sampleKey (sampleSig 0x99EF4AEB15F178CEA1FE40DB2603138F130E740A19624526203B6351D0A3A94FA329C145786E679E7B82C71A38628AC8)
    sampleDigest = true := by decide +kernel

theorem test_sample_digest : sha384 [0x73, 0x61, 0x6D, 0x70, 0x6C, 0x65] = sampleDigest := by decide +kernel

/-! A slot whose two images pass every check of R48 (the key is the base point, the payload empty). -/

def signedHdr (cls : Byte) (s : Nat) : Bytes :=
  [0x44, 0x4B, 0x49, 0x4D, 2, 0, cls] ++ zeros 15 ++ [1] ++ zeros 41 ++ [1] ++ zeros 127 ++ sha384 [] ++ zeros 3664 ++ beBytes 48 p384gx
    ++ beBytes 48 p384gy ++ beBytes 48 0x8d999057ba3d2d969260045c55b97f089025959a6f434d651d207d19fb96e9e4fe0e86ebe0e64f85b96a9c75295df61
    ++ beBytes 48 s
def hdrC : Bytes := signedHdr 1 0x1f0f6389d2c31a408716fc02ca6fa46cb9377bd49a9b77a8a7c80e0913229e2c145413a80772ec93f72b3d60ea63f4b
def hdrS : Bytes := signedHdr 2 0xea512aa09859378e847599a39cae33ec3b00ddecbdc1000aec129989c90007d612696445bbdcae058fe6662bf2cc3f7d
def digestC : Bytes := beBytes 48 0xfb08536bbeb4906ea7bcdf3a93f25c9d0e249620ec5f3a1e8a8a477176e213068ac3a7b88b90a015103ad74f977bc8a8
def digestS : Bytes := beBytes 48 0xcbc8bc3bb50e9c439fc533017400cfe7ecff627fd48dcb3fbeefddbffe0f732e7cd7d26a70fa4f97d74a0925c63d7626
def signed (hdr : Bytes) : Region := { closed := true, len := 4096, bytes := memWrite [] 0 hdr }
def signedHw : HwId := { keyHash := sha384 (beBytes 48 p384gx ++ beBytes 48 p384gy) }
def signedSlot : ImgSlot := { control := signed hdrC, safety := signed hdrS }
def signedM (f : VerifyFrom) : Module :=
  { mod .verify with hw := signedHw, boot := { state := .verify, verifyFrom := f, slot0 := signedSlot, slot1 := signedSlot, slot2 := signedSlot } }

theorem hdrC_length : hdrC.length = 4096 := by decide +kernel
theorem hdrS_length : hdrS.length = 4096 := by decide +kernel

theorem memRead_signed (hdr : Bytes) (i n : Nat) (h : hdr.length = 4096) (hi : i + n ≤ 4096) :
    memRead (signed hdr).bytes i n = (hdr.drop i).take n := by
  have hb : (signed hdr).bytes = memWrite [] 0 hdr := by simp only [signed]
  rw [hb, ← memRead_memWrite [] 0 i n hdr (Nat.le_trans hi (Nat.le_of_eq h.symm)), Nat.zero_add]

theorem hdrOf_signed (hdr : Bytes) (h : hdr.length = 4096) : hdrOf (signed hdr) = hdr := by
  rw [hdrOf, memRead_signed hdr 0 4096 h (Nat.le_refl _), List.drop_zero, ← h, List.take_length]

theorem digest_hdrC : sha384 (hdrC.take 0xFA0) = digestC := by decide +kernel
theorem digest_hdrS : sha384 (hdrS.take 0xFA0) = digestS := by decide +kernel
theorem signature_hdrC : ecdsaVerify ((hdrC.drop 0xF40).take 96) ((hdrC.drop 0xFA0).take 96) digestC = true := by decide +kernel
theorem signature_hdrS : ecdsaVerify ((hdrS.drop 0xF40).take 96) ((hdrS.drop 0xFA0).take 96) digestS = true := by decide +kernel
theorem key_hdrC : sha384 ((hdrC.drop 0xF40).take 96) = signedHw.keyHash := by decide +kernel
theorem key_hdrS : sha384 ((hdrS.drop 0xF40).take 96) = signedHw.keyHash := by decide +kernel

theorem regionCode_hdrC (m : Module) (hm : m.hw = signedHw) : regionCode m 1 (signed hdrC) = 0 := by
  have h := hdrOf_signed hdrC hdrC_length
  have hh : headerCode m 1 (signed hdrC) = 0 := by
    unfold headerCode
    simp only [h, digest_hdrC, signature_hdrC, key_hdrC, hm]
    decide +kernel
  have hp : imgPayload (signed hdrC) = 0 := by
    rw [imgPayload, regionBytes, memRead_signed hdrC _ _ hdrC_length (by decide)]
    decide +kernel
  have hc : compsGood (signed hdrC) = true := by
    rw [compsGood, h]
    decide +kernel
  unfold regionCode
  rw [hh, hp, h, hc]
  decide +kernel

theorem regionCode_hdrS (m : Module) (hm : m.hw = signedHw) : regionCode m 2 (signed hdrS) = 0 := by
  have h := hdrOf_signed hdrS hdrS_length
  have hh : headerCode m 2 (signed hdrS) = 0 := by
    unfold headerCode
    simp only [h, digest_hdrS, signature_hdrS, key_hdrS, hm]
    decide +kernel
  have hp : imgPayload (signed hdrS) = 0 := by
    rw [imgPayload, regionBytes, memRead_signed hdrS _ _ hdrS_length (by decide)]
    decide +kernel
  have hc : compsGood (signed hdrS) = true := by
    rw [compsGood, h]
    decide +kernel
  unfold regionCode
  rw [hh, hp, h, hc]
  decide +kernel

theorem slotCode_zero (m : Module) (i : Nat) (c t : Region) (hc : regionOf m i 1 = c) (ht : regionOf m i 2 = t)
    (h1 : regionCode m 1 c = 0) (h2 : regionCode m 2 t = 0) : slotCode m i = 0 := by
  rw [slotCode, hc, h1, ht]
  exact h2

theorem regionOf_slots (m : Module) (sl : ImgSlot) (i : Nat) (h : m.boot.slot0 = sl ∧ m.boot.slot1 = sl ∧ m.boot.slot2 = sl) (hi : i < 3) :
    regionOf m i 1 = sl.control ∧ regionOf m i 2 = sl.safety := by
  obtain ⟨h0, h1, h2⟩ := h
  obtain rfl | rfl | rfl : i = 0 ∨ i = 1 ∨ i = 2 := by omega
  all_goals simp [regionOf, regionIn, slotAt, h0, h1, h2]

theorem verifySlot_signedM (f : VerifyFrom) : verifySlot (signedM f).boot < 3 := by cases f <;> decide

theorem witness_LoaderEvents_verified (f : VerifyFrom) : hasPower (signedM f) = true ∧ (signedM f).boot.state = .verify
    ∧ (signedM f).boot.verifyFrom = f ∧ verifyCode (signedM f) (verifySlot (signedM f).boot) false = 0 := by
  refine ⟨by cases f <;> decide, by simp only [signedM], by simp only [signedM], ?_⟩
  have hw : (signedM f).hw = signedHw := by simp only [signedM]
  have hb : (signedM f).boot.slot0 = signedSlot ∧ (signedM f).boot.slot1 = signedSlot ∧ (signedM f).boot.slot2 = signedSlot := by
    simp only [signedM, and_self]
  have hr := regionOf_slots _ _ _ hb (verifySlot_signedM f)
  simp only [verifyCode, Bool.false_eq_true, if_false]
  exact slotCode_zero _ _ _ _ hr.1 hr.2 (by simp only [signedSlot]; exact regionCode_hdrC _ hw)
    (by simp only [signedSlot]; exact regionCode_hdrS _ hw)

end Sys2Proof.Tests
end

/-! PROOF. The refusals at fetch (R74): what a fetch posts on its QP, and what it leaves of the journal and the ticket windows. -/

namespace Sys2Proof.Machine
open Sys2Proof Sys2Proof.Bits

/-! ### What an operation posts on a QP -/

/-- A QP that is not closed holds the completions `l` behind those it held before, and is otherwise as it was. -/
def Posts (qp : Nat) (m n : Module) (l : List Cpl) : Prop :=
  ∀ q, tget m.mail.qps qp = some q → q.st ≠ .closed → tget n.mail.qps qp = some { q with held := q.held ++ l }

theorem Posts.of_qps {qp : Nat} {m n : Module} (h : n.mail.qps = m.mail.qps) : Posts qp m n [] := by
  intro q hq _
  simpa [h] using hq

theorem Posts.trans {qp : Nat} {m n o : Module} {l k : List Cpl} (h : Posts qp m n l) (h' : Posts qp n o k) : Posts qp m o (l ++ k) := by
  intro q hq hst
  simpa using h' _ (h q hq hst) hst

/-- On a QP that is not closed, what was posted is determined. -/
theorem Posts.unique {qp : Nat} {m n : Module} {l k : List Cpl} {q : Qp} (h : Posts qp m n l) (h' : Posts qp m n k)
    (hq : tget m.mail.qps qp = some q) (hst : q.st ≠ .closed) : l = k := by
  have hqs := (h q hq hst).symm.trans (h' q hq hst)
  exact List.append_cancel_left (congrArg Qp.held (Option.some.inj hqs))

theorem pushCpl_posts (m : Module) (qp : Nat) (c : Cpl) : Posts qp m (pushCpl m qp c) [c] := by
  intro q hq hst
  have hlive : qpLive m qp = true := by simp [qpLive, hq, hst]
  simp [pushCpl, hlive, qpMod, hq]

theorem pushCpl_posts_other (m : Module) {qp qp' : Nat} (c : Cpl) (h : qp ≠ qp') : Posts qp m (pushCpl m qp' c) [] := by
  intro q hq _
  unfold pushCpl
  split
  · simpa [qpMod, h] using hq
  · simpa using hq

/-- All that is posted on the QP satisfies `P`. -/
def PostsAll (P : Cpl → Prop) (qp : Nat) (m n : Module) : Prop := ∃ l, Posts qp m n l ∧ ∀ c ∈ l, P c

section
variable {P : Cpl → Prop} {qp : Nat} {m n o : Module}

theorem PostsAll.of_qps (h : n.mail.qps = m.mail.qps) : PostsAll P qp m n := ⟨[], .of_qps h, by simp⟩

theorem PostsAll.trans (h : PostsAll P qp m n) (h' : PostsAll P qp n o) : PostsAll P qp m o := by
  obtain ⟨l, hl, hP⟩ := h
  obtain ⟨k, hk, hP'⟩ := h'
  exact ⟨l ++ k, hl.trans hk, fun c hc => (List.mem_append.1 hc).elim (hP c) (hP' c)⟩

theorem PostsAll.pushCpl (m : Module) (qp qp' : Nat) (c : Cpl) (hc : P c) : PostsAll P qp m (pushCpl m qp' c) := by
  by_cases h : qp = qp'
  · subst h
    exact ⟨[c], pushCpl_posts m qp c, by simpa using hc⟩
  · exact ⟨[], pushCpl_posts_other m c h, by simp⟩

theorem PostsAll.foldl {α : Type} (f : Module → α → Module) (h : ∀ m x, PostsAll P qp m (f m x)) (l : List α) (m : Module) :
    PostsAll P qp m (l.foldl f m) := by
  induction l generalizing m with
  | nil => exact .of_qps rfl
  | cons x xs ih => exact (h m x).trans (ih _)

end

/-! ### What an operation records -/

/-- The journal, the ticket windows and the highest tickets are the same. -/
structure SameRecords (m n : Module) : Prop where
  journal : n.mail.journal = m.mail.journal
  tickets : n.mail.tickets = m.mail.tickets
  highest : n.mail.highest = m.mail.highest

theorem SameRecords.trans {m n o : Module} (h : SameRecords m n) (h' : SameRecords n o) : SameRecords m o :=
  ⟨h'.journal.trans h.journal, h'.tickets.trans h.tickets, h'.highest.trans h.highest⟩

theorem pushCpl_sameRecords (m : Module) (qp : Nat) (c : Cpl) : SameRecords m (pushCpl m qp c) := by
  unfold pushCpl
  split <;> exact ⟨rfl, rfl, rfl⟩

theorem received_sameRecords (m : Module) (qp : Nat) (d : Desc) : SameRecords m (received m qp d) := by
  unfold received
  split
  · exact pushCpl_sameRecords ..
  · exact ⟨rfl, rfl, rfl⟩

theorem SameRecords.ticketFind {m n : Module} (h : SameRecords m n) (qp : Nat) (t : W64) : ticketFind n qp t = ticketFind m qp t := by
  simp only [Machine.ticketFind, windowOf, h.tickets]

theorem SameRecords.ticketLow {m n : Module} (h : SameRecords m n) (qp : Nat) : ticketLow n qp = ticketLow m qp := by
  simp only [Machine.ticketLow, windowOf, h.tickets]

theorem SameRecords.journalFind {m n : Module} (h : SameRecords m n) (qp : Nat) (t : W64) : journalFind n qp t = journalFind m qp t := by
  simp only [Machine.journalFind, h.journal]

/-! ### The two kinds of outcome of a fetch -/

/-- No refusal is posted on the QP. -/
abbrev NoRefusal (qp : Nat) (m n : Module) : Prop := PostsAll (·.stage ≠ 4) qp m n

/-- Nothing is recorded, and what is posted on the QP is about the ticket. -/
def Unrecorded (qp : Nat) (t : W64) (m n : Module) : Prop := SameRecords m n ∧ PostsAll (·.ticket = t) qp m n

/-- R74: what posts a refusal records nothing. -/
def FetchOutcome (qp : Nat) (t : W64) (m n : Module) : Prop := NoRefusal qp m n ∨ Unrecorded qp t m n

theorem FetchOutcome.ite {qp : Nat} {t : W64} {m n o : Module} {p : Prop} [Decidable p] (h : FetchOutcome qp t m n)
    (k : FetchOutcome qp t m o) : FetchOutcome qp t m (if p then n else o) := by
  split
  · exact h
  · exact k

theorem Unrecorded.trans {qp : Nat} {t : W64} {m n o : Module} (h : Unrecorded qp t m n) (h' : Unrecorded qp t n o) : Unrecorded qp t m o :=
  ⟨h.1.trans h'.1, h.2.trans h'.2⟩

theorem pushCpl_unrecorded (m : Module) (qp : Nat) (c : Cpl) : Unrecorded qp c.ticket m (pushCpl m qp c) :=
  ⟨pushCpl_sameRecords m qp c, .pushCpl m qp qp c rfl⟩

/-- RECEIVED is about the descriptor's ticket and refuses nothing. -/
theorem received_postsAll {P : Cpl → Prop} (m : Module) (qp : Nat) (d : Desc) (h : ∀ c : Cpl, c.ticket = d.ticket → c.stage = 1 → P c) :
    PostsAll P qp m (received m qp d) := by
  unfold received
  split
  · exact .pushCpl _ _ _ _ (h _ rfl rfl)
  · exact .of_qps rfl

theorem received_unrecorded (m : Module) (qp : Nat) (d : Desc) : Unrecorded qp d.ticket m (received m qp d) :=
  ⟨received_sameRecords m qp d, received_postsAll m qp d fun _ ht _ => ht⟩

theorem received_noRefusal (m : Module) (qp : Nat) (d : Desc) : NoRefusal qp m (received m qp d) :=
  received_postsAll m qp d fun c _ hs => by simp [hs]

theorem refuseFetch_received_unrecorded (m : Module) (qp : Nat) (d : Desc) (st : Nat) :
    Unrecorded qp d.ticket m (refuseFetch (received m qp d) qp d st) :=
  (received_unrecorded m qp d).trans (pushCpl_unrecorded _ _ _)

theorem dupReport_unrecorded (m : Module) (qp : Nat) (d : Desc) (stage status detail : Nat) (time : W64) :
    Unrecorded qp d.ticket m (dupReport m qp d stage status detail time) := pushCpl_unrecorded _ _ _

/-! ### Acceptance posts no refusal -/

@[simp] theorem sendJournal_qps (m : Module) (qp : Nat) (d : Desc) (req : Bytes) (due : Option W64) :
    (sendJournal m qp d req due).mail.qps = m.mail.qps := by
  unfold sendJournal
  dsimp only
  split <;> rfl

@[simp] theorem checkStall_qps (m : Module) : (checkStall m).mail.qps = m.mail.qps := by
  unfold checkStall
  dsimp only
  split
  · split <;> rfl
  · split
    · simp
    · rfl

/-- The only completion of an acceptance is ACCEPTED. -/
theorem acceptEntry_noRefusal (m p : Module) (e : JEntry) (qp : Nat) : NoRefusal qp m (acceptEntry m p e) := by
  unfold acceptEntry
  extract_lets due m1 m2 m3 m4
  have h4 : m4.mail.qps = m.mail.qps := by
    simp only [m4]
    split
    · exact sendJournal_qps ..
    · rfl
  split
  · exact (PostsAll.of_qps h4).trans (.pushCpl _ _ _ _ (by simp))
  · exact .of_qps h4

theorem acceptReady_noRefusal (m p : Module) (qp : Nat) : NoRefusal qp m (acceptReady m p) := by
  unfold acceptReady
  split
  · exact .of_qps rfl
  · refine .foldl _ (fun a e => ?_) _ _
    split
    · exact acceptEntry_noRefusal a p e qp
    · exact .of_qps rfl

theorem journalNew_noRefusal (m p : Module) (qp : Nat) (d : Desc) (req : Bytes) : NoRefusal qp m (journalNew m p qp d req) := by
  unfold journalNew
  extract_lets m1 m2
  have h1 : NoRefusal qp m m1 := (received_noRefusal m qp d).trans (.of_qps rfl)
  have h2 : NoRefusal qp m1 m2 := by
    refine .of_qps ?_
    simp only [m2]
    split
    · exact sendJournal_qps ..
    · rfl
  exact ((h1.trans h2).trans (acceptReady_noRefusal m2 p qp)).trans (.of_qps (checkStall_qps _))

theorem dupWait_noRefusal (m : Module) (qp : Nat) (t : W64) : NoRefusal qp m (dupWait m qp t) := by
  refine .of_qps ?_
  unfold dupWait
  split <;> rfl

/-! ### The ticket rules and the fetch -/

theorem gapWork_outcome (m p : Module) (qp : Nat) (d : Desc) (req : Bytes) (gap : Nat) (f : W64) :
    FetchOutcome qp d.ticket m (gapWork m p qp d req gap f) := by
  unfold gapWork
  split
  · exact .inl (journalNew_noRefusal ..)
  · exact .inr (pushCpl_unrecorded _ _ _)
  · split
    · exact .inr (dupReport_unrecorded ..)
    · exact .inl (journalNew_noRefusal ..)

theorem takeWork_outcome (m p : Module) (qp : Nat) (d : Desc) (req : Bytes) (gap : Nat) (f : W64) :
    FetchOutcome qp d.ticket m (takeWork m p qp d req gap f) := by
  unfold takeWork
  split
  case h_1 r _ _ =>
    split
    · exact .inl (dupWait_noRefusal ..)
    · split
      · exact .inr (refuseFetch_received_unrecorded ..)
      · exact .inr (dupReport_unrecorded ..)
  case h_2 e _ _ =>
    split
    · exact .inr (dupReport_unrecorded ..)
    · exact .inl (dupWait_noRefusal ..)
  case h_3 =>
    have hnew := journalNew_noRefusal m p qp d req
    have hexpired := refuseFetch_received_unrecorded m qp d 5
    split
    · exact .inl hnew
    · refine .ite (.inl hnew) (.ite (.inr hexpired) ?_)
      split
      · exact .inr hexpired
      · exact .ite (.inr hexpired) (gapWork_outcome ..)

/-- Work whose ticket is below the window and not in it has expired (R73, R80). -/
theorem takeWork_of_below_window (m p : Module) (qp : Nat) (d : Desc) (req : Bytes) (gap : Nat) (f : W64) {low : Nat} {h : W64}
    (hfind : ticketFind m qp d.ticket = none) (hjour : journalFind m qp d.ticket = none) (hhigh : tget m.mail.highest qp = some h)
    (hle : d.ticket.toNat ≤ h.toNat) (hlow : ticketLow m qp = some low) (hlt : d.ticket.toNat < low) :
    takeWork m p qp d req gap f = refuseFetch (received m qp d) qp d 5 := by
  simp only [takeWork, hfind, hjour, hhigh, Nat.not_lt.2 hle, hlow, hlt, if_true, if_false, ite_self]

/-- The command in flight, on the module and on its QP. -/
def inFlightUp (m : Module) (qp : Nat) : Module :=
  qpMod (mailMod m (fun q => { q with inFlight := q.inFlight + 1 })) qp (fun q => { q with inFlight := q.inFlight + 1 })

theorem inFlightUp_sameRecords (m : Module) (qp : Nat) : SameRecords m (inFlightUp m qp) := ⟨rfl, rfl, rfl⟩

theorem takeDesc_outcome (m p : Module) (qp : Nat) (udp : Bool) (d : Desc) (req : Option Bytes) (gap : Nat) (f : W64) :
    FetchOutcome qp d.ticket (inFlightUp m qp) (takeDesc m p qp udp d req gap f) := by
  unfold takeDesc
  split
  · exact .inr (refuseFetch_received_unrecorded ..)
  · split
    · exact .inr (refuseFetch_received_unrecorded ..)
    · exact takeWork_outcome ..
    · exact .inl ((received_noRefusal ..).trans (.of_qps rfl))

/-! ### Why a descriptor is refused -/

/-- The causes of a refusal at fetch with a status: a check of the descriptor, request data that are not read, an expired ticket. -/
inductive RefusalCause (m : Module) (qp : Nat) (udp : Bool) (d : Desc) (req : Option Bytes) : Nat → Prop
  | check {st : Nat} (hchk : fetchCheck m qp udp d = some st) : RefusalCause m qp udp d req st
  | noData (hchk : fetchCheck m qp udp d = none) (hreq : req = none) : RefusalCause m qp udp d req 6
  | expired {data : Bytes} {sc : Scope} {low : Nat} {h : W64} (hchk : fetchCheck m qp udp d = none) (hreq : req = some data)
      (hcat : catalog d.code.toNat = some (.work, sc)) (hfind : ticketFind m qp d.ticket = none)
      (hjour : journalFind m qp d.ticket = none) (hhigh : tget m.mail.highest qp = some h) (hle : d.ticket.toNat ≤ h.toNat)
      (hlow : ticketLow m qp = some low) (hlt : d.ticket.toNat < low) : RefusalCause m qp udp d req 5

/-- The checks of a descriptor read nothing of the module but its role. -/
theorem fetchCheck_congr {m n : Module} (h : n.pair = m.pair) (qp : Nat) (udp : Bool) (d : Desc) :
    fetchCheck n qp udp d = fetchCheck m qp udp d := by
  have hlead : isLead n = isLead m := by rw [isLead, isLead, h]
  unfold fetchCheck
  rw [hlead]

theorem RefusalCause.congr {m n : Module} {qp : Nat} {udp : Bool} {d : Desc} {req : Option Bytes} {st : Nat} (hp : n.pair = m.pair)
    (hr : SameRecords m n) (h : RefusalCause m qp udp d req st) : RefusalCause n qp udp d req st := by
  have hc := fetchCheck_congr hp qp udp d
  cases h with
  | check hchk => exact .check (hc.trans hchk)
  | noData hchk hreq => exact .noData (hc.trans hchk) hreq
  | expired hchk hreq hcat hfind hjour hhigh hle hlow hlt =>
    exact .expired (hc.trans hchk) hreq hcat ((hr.ticketFind ..).trans hfind) ((hr.journalFind ..).trans hjour)
      (hr.highest ▸ hhigh) hle ((hr.ticketLow qp).trans hlow) hlt

theorem RefusalCause.takeDesc_eq {m : Module} {qp : Nat} {udp : Bool} {d : Desc} {req : Option Bytes} {st : Nat}
    (h : RefusalCause m qp udp d req st) (p : Module) (gap : Nat) (f : W64) :
    takeDesc m p qp udp d req gap f = refuseFetch (received (inFlightUp m qp) qp d) qp d st := by
  cases h with
  | check hchk => simp only [takeDesc, hchk]; rfl
  | noData hchk hreq => simp only [takeDesc, hchk, hreq]; rfl
  | expired hchk hreq hcat hfind hjour hhigh hle hlow hlt =>
    simp only [takeDesc, hchk, hreq, hcat]
    exact takeWork_of_below_window (inFlightUp m qp) p qp d _ gap f hfind hjour hhigh hle hlow hlt

/-- Whatever a refused descriptor posts, the refusal is among it. -/
theorem RefusalCause.mem_posts {m : Module} {qp : Nat} {udp : Bool} {d : Desc} {req : Option Bytes} {st : Nat}
    (h : RefusalCause m qp udp d req st) {p : Module} {gap : Nat} {f : W64} {l : List Cpl} {q : Qp}
    (hl : Posts qp (inFlightUp m qp) (takeDesc m p qp udp d req gap f) l)
    (hq : tget (inFlightUp m qp).mail.qps qp = some q) (hst : q.st ≠ .closed) :
    ∃ c ∈ l, c.stage = 4 ∧ c.dup = false ∧ c.status = st := by
  rw [h.takeDesc_eq] at hl
  obtain ⟨k, hk, _⟩ := (received_unrecorded (inFlightUp m qp) qp d).2
  obtain rfl := hl.unique (hk.trans (pushCpl_posts _ qp _)) hq hst
  exact ⟨_, List.mem_append_right _ (List.mem_singleton_self _), rfl, rfl, rfl⟩

/-! ### The fetch from a submission queue -/

theorem fetched_sameRecords (m : Module) (qp : Nat) : SameRecords m (fetched m qp) := by
  unfold fetched
  dsimp only
  split
  · exact ⟨rfl, rfl, rfl⟩
  · constructor <;> (rw [mailMod_mail]; split <;> rfl)

theorem fetched_pair (m : Module) (qp : Nat) : (fetched m qp).pair = m.pair := by
  unfold fetched
  dsimp only
  split <;> rfl

theorem fetched_qps (m : Module) (qp : Nat) :
    (fetched m qp).mail.qps = tmod m.mail.qps qp (fun q => { q with sqHead := (q.sqHead + 1) % max q.sqSize 1 }) := by
  unfold fetched
  dsimp only
  split
  · rfl
  · rw [mailMod_mail]
    split <;> rfl

theorem inFlightUp_fetched_qp {m : Module} {qp : Nat} {q : Qp} (hq : tget m.mail.qps qp = some q) :
    tget (inFlightUp (fetched m qp) qp).mail.qps qp
      = some { q with sqHead := (q.sqHead + 1) % max q.sqSize 1, inFlight := q.inFlight + 1 } := by
  simp [inFlightUp, qpMod, fetched_qps, hq]

/-- A descriptor is fetched from an open QP only. -/
theorem opened_of_mayFetch {m : Module} {qp : Nat} {d : Desc} {q : Qp} (h : mayFetch m qp d = true) (hq : tget m.mail.qps qp = some q) :
    q.st = .opened := by
  simp only [mayFetch, hq, fetchable, mayTake, Bool.and_eq_true, beq_iff_eq] at h
  tauto

theorem exec_descriptorFetch_of_mayFetch {s : State} {sl : Slot} {qp : Nat} {d : Desc} (req : Option Bytes)
    (h : mayFetch (modOf s sl) qp d = true) :
    exec (.descriptorFetch sl qp d req) s = .next { withMod s sl (takeDesc (fetched (modOf s sl) qp) (modOf s (otherSlot sl)) qp false d req
      (Config.ticketGap s.fresh) (Config.freeValue s.fresh)) with fresh := s.fresh + 1 } := by
  rw [exec_descriptorFetch, execDescriptorFetch, fetchDesc, if_pos h]

theorem exec_requestDmaTimeout_eq_descriptorFetch (s : State) (sl : Slot) (qp : Nat) (d : Desc) :
    exec (.requestDmaTimeout sl qp d) s = exec (.descriptorFetch sl qp d none) s := by
  rw [exec_requestDmaTimeout, exec_descriptorFetch, execRequestDmaTimeout, execDescriptorFetch]

theorem FetchOutcome.posts {qp : Nat} {t : W64} {m n : Module} (h : FetchOutcome qp t m n) :
    ∃ l, Posts qp m n l ∧ ∀ c ∈ l, c.stage = 4 → SameRecords m n ∧ c.ticket = t := by
  obtain ⟨l, hl, hno⟩ | ⟨hrec, l, hl, ht⟩ := h
  · exact ⟨l, hl, fun c hc h4 => absurd h4 (hno c hc)⟩
  · exact ⟨l, hl, fun c hc _ => ⟨hrec, ht c hc⟩⟩

/-- Settles O55: a fetch that posts a refusal keeps the records, and each cause of a refusal posts its status. -/
theorem fetchRefusals : Obligations.FetchRefusals := by
  unfold Obligations.FetchRefusals
  intro s sl qp d req q m hmay hq
  have hq' := inFlightUp_fetched_qp hq
  have hopen : q.st ≠ .closed := by simp [opened_of_mayFetch hmay hq]
  have hrec : SameRecords m (fetched m qp) := fetched_sameRecords m qp
  obtain ⟨l, hl, hkeep⟩ := (takeDesc_outcome (fetched m qp) (modOf s (otherSlot sl)) qp false d req (Config.ticketGap s.fresh)
    (Config.freeValue s.fresh)).posts
  have hrefused {st : Nat} (hc : RefusalCause m qp false d req st) : ∃ c ∈ l, c.stage = 4 ∧ c.dup = false ∧ c.status = st :=
    (hc.congr (fetched_pair m qp) hrec).mem_posts hl hq' hopen
  refine ⟨_, _, l, exec_descriptorFetch_of_mayFetch req hmay, hl _ hq' hopen, rfl, rfl, rfl, ?_, ⟨?_, ?_, ?_⟩,
    exec_requestDmaTimeout_eq_descriptorFetch s sl qp d⟩
  · intro c hc h4 _ _
    obtain ⟨hsame, ht⟩ := hkeep c hc h4
    have hall := (hrec.trans (inFlightUp_sameRecords _ qp)).trans hsame
    exact ⟨hall.journal, hall.tickets, hall.highest, ht⟩
  · exact fun st hchk => hrefused (.check hchk)
  · exact fun hchk hreq => hrefused (.noData hchk hreq)
  · exact fun data sc low h hchk hreq hcat hfind hjour hhigh hle hlow hlt =>
      hrefused (.expired hchk hreq hcat hfind hjour hhigh hle hlow hlt)

end Sys2Proof.Machine

/-! PROOF. Acyclic messages at a ring drop (R231): what the drop applies and acknowledges, and what outlives its power. -/

namespace Sys2Proof.Bits
open Sys2Proof

/-! ### An entry of a sorted table -/

theorem tmod_above {α : Type} {t : Table α} {i n : Nat} (f : α → α) (h : Above n t) (hi : i ≤ n) : tmod t i f = t := by
  refine (List.map_congr_left fun p hp => ?_).trans (List.map_id t)
  have hp' : n < p.1 := h p hp
  rw [if_neg (by omega), id]

/-- Changing the entry that stands at a key is entering the changed value. -/
theorem tmod_eq_tset {α : Type} {t : Table α} {i : Nat} {a : α} (f : α → α) (hs : tsorted t = true) (ha : tget t i = some a) :
    tmod t i f = tset t i (f a) := by
  induction t with
  | nil => cases ha
  | cons p t ih =>
    obtain ⟨k, v⟩ := p
    obtain ⟨hk, ht⟩ := (tsorted_cons _ _).1 hs
    rw [tget] at ha
    rw [tmod, List.map_cons, ← tmod, tset]
    split at ha
    · next hki =>
      obtain rfl := hki
      obtain rfl := Option.some.inj ha
      simp [tmod_above f hk]
    · next hki =>
      have hlt : ¬ i < k := fun h => by simp [tget_above t i k hk (by omega)] at ha
      rw [if_neg hki, if_neg hlt, if_neg (Ne.symm hki), ih ht ha]

/-! ### Big-endian fields -/

theorem beVal_beBytes (n v : Nat) : beVal (beBytes n v) = v % 256 ^ n := by
  rw [beVal, beBytes, List.reverse_reverse, leVal_leBytes]

/-- The field at the front of a run is the number written there. -/
theorem be_front (n v : Nat) (rest : Bytes) : be (beBytes n v ++ rest) 0 n = v % 256 ^ n := by
  simp [be, beVal_beBytes]

/-- A field past the first octets is a field of what follows them. -/
theorem be_skip (front rest : Bytes) {o : Nat} (n : Nat) (h : front.length ≤ o) :
    be (front ++ rest) o n = be rest (o - front.length) n := by
  simp [be, List.drop_append, List.drop_eq_nil_of_le h]

end Sys2Proof.Bits

namespace Sys2Proof.Machine
open Sys2Proof Sys2Proof.Bits

/-! ### The type and SEQ of a frame (R214, R215) -/

@[simp] theorem ringDst_length (k : Nat) : (ringDst k).length = 6 := rfl

@[simp] theorem w32_toNat (x : W32) : w32 x.toNat = x := by simp [w32]

section
variable {dst src : Bytes} (ety ty flags fid drop : Nat) (seq : W32) (time : W64) (data : Bytes)

theorem parseFrame_frameV1 (hd : dst.length = 6) (hs : src.length = 6) (hty : ty < 16) :
    (parseFrame (frameV1 dst src ety ty flags drop seq data)).ty = ty
      ∧ (parseFrame (frameV1 dst src ety ty flags drop seq data)).seq = seq := by
  have hver : be (frameV1 dst src ety ty flags drop seq data) 14 1 = 0x10 + ty := by
    simp [frameV1, padFrame, be_skip, be_front, hd, hs]
    omega
  have hseq : be (frameV1 dst src ety ty flags drop seq data) 18 4 = seq.toNat := by
    simp [frameV1, padFrame, be_skip, be_front, hd, hs]
    omega
  have hv1 : (0x10 + ty) / 16 = 1 := by omega
  constructor
  · simp only [parseFrame, hver]
    omega
  · simp [parseFrame, hver, hv1, hseq]

theorem parseFrame_frameV2 (hd : dst.length = 6) (hs : src.length = 6) (hty : ty < 16) :
    (parseFrame (frameV2 dst src ety ty flags fid drop seq time data)).ty = ty
      ∧ (parseFrame (frameV2 dst src ety ty flags fid drop seq time data)).seq = seq := by
  have hver : be (frameV2 dst src ety ty flags fid drop seq time data) 14 1 = 0x20 + ty := by
    simp [frameV2, padFrame, be_skip, be_front, hd, hs]
    omega
  have hseq : be (frameV2 dst src ety ty flags fid drop seq time data) 20 4 = seq.toNat := by
    simp [frameV2, padFrame, be_skip, be_front, hd, hs]
    omega
  have hv2 : (0x20 + ty) / 16 = 2 := by omega
  constructor
  · simp only [parseFrame, hver]
    omega
  · simp [parseFrame, hver, hv2, hseq]

end

/-- In either version, a frame of a drop reads back with its type and SEQ. -/
theorem parseFrame_dropFrame (x : Station) (id ver fid : Nat) {ty : Nat} (seq : W32) (time : W64) (data : Bytes) (hty : ty < 16) :
    (parseFrame (dropFrame x id ver ty fid seq time data).bytes).ty = ty
      ∧ (parseFrame (dropFrame x id ver ty fid seq time data).bytes).seq = seq := by
  unfold dropFrame
  dsimp only
  split
  · exact parseFrame_frameV1 _ _ _ _ _ _ (ringDst_length _) (beBytes_length _ _) hty
  · exact parseFrame_frameV2 _ _ _ _ _ _ _ _ (ringDst_length _) (beBytes_length _ _) hty

/-! ### An event at a drop that is there -/

section
variable {s : State} {id : Nat} {x : Station}

theorem onStation_of_tget (hs : tsorted s.stations = true) (hx : tget s.stations id = some x) (f : Station → Station) :
    onStation s id f = .next { s with stations := tset s.stations id (f x) } := by
  rw [onStation, tmod_eq_tset f hs hx]

theorem onStationFree_of_tget (hs : tsorted s.stations = true) (hx : tget s.stations id = some x) (f : Station → Nat → Station) :
    onStationFree s id f = .next { s with stations := tset s.stations id (f x s.fresh), fresh := s.fresh + 1 } := by
  rw [onStationFree, tmod_eq_tset _ hs hx]

end

/-! ### The answer of a ring drop to an acyclic message (R231) -/

/-- A ring drop after an acyclic message, by the distance of its SEQ from the last applied. -/
def ringAcy (x : Station) (id : Nat) (seq : W32) (cls : W16) (payload : Bytes) (t : W64) : Station :=
  if dist32 seq x.lastAcy = 1 then sendAck (applyAcy x cls payload) id t
  else if dist32 seq x.lastAcy = 0 ∨ 0x80000000 ≤ dist32 seq x.lastAcy then sendAck x id t
  else x

theorem exec_dropAcyReceive_of_ring {s : State} {id : Nat} {x : Station} (seq : W32) (cls : W16) (payload : Bytes)
    (hs : tsorted s.stations = true) (hx : tget s.stations id = some x) (hring : x.kind = .ring) (hpow : x.powered = true) :
    exec (.dropAcyReceive id seq cls payload) s = .next { s with
      stations := tset s.stations id (ringAcy x id seq cls payload (Config.freeValue s.fresh)), fresh := s.fresh + 1 } := by
  rw [exec_dropAcyReceive, execDropAcyReceive, onStationFree_of_tget hs hx]
  simp only [hring, hpow, ringAcy, Bool.not_true, Bool.false_eq_true, if_false]

section
variable {x : Station} {id : Nat} {seq : W32} {cls : W16} {payload : Bytes} {t : W64}

theorem ringAcy_of_next (h : dist32 seq x.lastAcy = 1) : ringAcy x id seq cls payload t = sendAck (applyAcy x cls payload) id t := by
  rw [ringAcy, if_pos h]

theorem ringAcy_of_applied (h : dist32 seq x.lastAcy = 0 ∨ 0x80000000 ≤ dist32 seq x.lastAcy) :
    ringAcy x id seq cls payload t = sendAck x id t := by
  rw [ringAcy, if_neg (by omega), if_pos h]

theorem ringAcy_of_gap (h : 2 ≤ dist32 seq x.lastAcy) (h' : dist32 seq x.lastAcy < 0x80000000) : ringAcy x id seq cls payload t = x := by
  rw [ringAcy, if_neg (by omega), if_neg (by omega)]

end

@[simp] theorem sendAck_lastAcy (x : Station) (id : Nat) (t : W64) : (sendAck x id t).lastAcy = x.lastAcy := rfl

@[simp] theorem sendAck_applied (x : Station) (id : Nat) (t : W64) : (sendAck x id t).applied = x.applied := rfl

/-- The ACK goes out on both ports and carries the last applied SEQ. -/
theorem sendAck_out (x : Station) (id : Nat) (t : W64) :
    ∃ fr, (sendAck x id t).out = x.out ++ [.dropRing 3 fr] ∧ (parseFrame fr.bytes).ty = 4 ∧ (parseFrame fr.bytes).seq = x.lastAcy :=
  ⟨_, rfl, parseFrame_dropFrame _ _ _ _ _ _ _ (by decide)⟩

/-! ### The drop's own power -/

/-- R231: the last applied acyclic SEQ is still there after a loss of power. -/
theorem exec_dropPowerLoss_keeps_lastAcy {s : State} {id : Nat} {x : Station} (hs : tsorted s.stations = true)
    (hx : tget s.stations id = some x) :
    ∃ y, exec (.dropPowerLoss id) s = .next { s with stations := tset s.stations id y } ∧ y.powered = false ∧ y.lastAcy = x.lastAcy := by
  rw [exec_dropPowerLoss, execDropPowerLoss, onStation_of_tget hs hx]
  exact ⟨_, rfl, rfl, rfl⟩

/-- R231: the next power-up finds it as it was. -/
theorem exec_dropPowerUp_keeps_lastAcy {s : State} {id : Nat} {x : Station} (up down : Bool) (hx : tget s.stations id = some x) :
    ∃ y, exec (.dropPowerUp id up down) s = .next { s with stations := tset s.stations id y, fresh := s.fresh + 1 }
      ∧ y.powered = true ∧ y.lastAcy = x.lastAcy := by
  rw [exec_dropPowerUp, execDropPowerUp, hx, Option.getD_some]
  exact ⟨_, rfl, rfl, rfl⟩

/-- Settles O54: one case for each row of R231's table, then the loss of power and the power-up. -/
theorem dropAcyclicRule : Obligations.DropAcyclicRule := by
  unfold Obligations.DropAcyclicRule
  intro s id x hs hx hring
  refine ⟨fun seq cls payload hpow => ?_, exec_dropPowerLoss_keeps_lastAcy hs hx, fun up down => exec_dropPowerUp_keeps_lastAcy up down hx⟩
  refine ⟨_, exec_dropAcyReceive_of_ring seq cls payload hs hx hring hpow, fun hnext => ?_, fun happlied => ?_, ringAcy_of_gap⟩
  · rw [ringAcy_of_next hnext]
    exact ⟨rfl, rfl, sendAck_out (applyAcy x cls payload) id _⟩
  · rw [ringAcy_of_applied happlied]
    exact ⟨rfl, rfl, sendAck_out x id _⟩

end Sys2Proof.Machine

/-! PROOF. The lease at the witness and the list of drops (R218, R276): what each command can do to them, and the invariant of the
domain. -/

namespace Sys2Proof.Machine
open Sys2Proof Sys2Proof.Bits

/-! ### The parts of the witness that a reply or a CLAIM leaves -/

@[simp] theorem reply_running (w : Witness) (sl : Slot) (k : Nat) (c : W16) : (reply w sl k c).running = w.running := rfl
@[simp] theorem reply_holder (w : Witness) (sl : Slot) (k : Nat) (c : W16) : (reply w sl k c).holder = w.holder := rfl
@[simp] theorem reply_holdoff (w : Witness) (sl : Slot) (k : Nat) (c : W16) : (reply w sl k c).holdoff = w.holdoff := rfl
@[simp] theorem reply_reserved (w : Witness) (sl : Slot) (k : Nat) (c : W16) : (reply w sl k c).reserved = w.reserved := rfl
@[simp] theorem reply_agen (w : Witness) (sl : Slot) (k : Nat) (c : W16) : (reply w sl k c).agen = w.agen := rfl
@[simp] theorem pendOf_reply (w : Witness) (sl x : Slot) (k : Nat) (c : W16) : pendOf (reply w sl k c) x = pendOf w x := by cases x <;> rfl

@[simp] theorem setRun_running (w : Witness) (sl : Slot) (r : Bool) : (setRun w sl r).running = w.running := by cases sl <;> rfl
@[simp] theorem setRun_holder (w : Witness) (sl : Slot) (r : Bool) : (setRun w sl r).holder = w.holder := by cases sl <;> rfl
@[simp] theorem setRun_holdoff (w : Witness) (sl : Slot) (r : Bool) : (setRun w sl r).holdoff = w.holdoff := by cases sl <;> rfl
@[simp] theorem setRun_reserved (w : Witness) (sl : Slot) (r : Bool) : (setRun w sl r).reserved = w.reserved := by cases sl <;> rfl
@[simp] theorem setRun_agen (w : Witness) (sl : Slot) (r : Bool) : (setRun w sl r).agen = w.agen := by cases sl <;> rfl
@[simp] theorem pendOf_setRun (w : Witness) (sl x : Slot) (r : Bool) : pendOf (setRun w sl r) x = pendOf w x := by
  cases sl <;> cases x <;> rfl

@[simp] theorem setPend_running (w : Witness) (sl : Slot) (x : Option PendClaim) : (setPend w sl x).running = w.running := by cases sl <;> rfl
@[simp] theorem setPend_holder (w : Witness) (sl : Slot) (x : Option PendClaim) : (setPend w sl x).holder = w.holder := by cases sl <;> rfl
@[simp] theorem setPend_holdoff (w : Witness) (sl : Slot) (x : Option PendClaim) : (setPend w sl x).holdoff = w.holdoff := by cases sl <;> rfl
@[simp] theorem setPend_reserved (w : Witness) (sl : Slot) (x : Option PendClaim) : (setPend w sl x).reserved = w.reserved := by
  cases sl <;> rfl
@[simp] theorem setPend_agen (w : Witness) (sl : Slot) (x : Option PendClaim) : (setPend w sl x).agen = w.agen := by cases sl <;> rfl
theorem pendOf_setPend (w : Witness) (sl y : Slot) (x : Option PendClaim) : pendOf (setPend w sl x) y = if y = sl then x else pendOf w y := by
  cases sl <;> cases y <;> rfl

/-! ### A lease that stays, and one that is granted -/

/-- The lease is as it was, and no CLAIM of the holder of a running lease begins to wait. -/
structure KeepsLease (w v : Witness) : Prop where
  running : v.running = w.running
  holder : v.holder = w.holder
  holdoff : v.holdoff = w.holdoff
  reserved : v.reserved = w.reserved
  pend : ∀ sl, w.running = true → w.holder = some sl → pendOf w sl = none → pendOf v sl = none

theorem KeepsLease.refl (w : Witness) : KeepsLease w w := ⟨rfl, rfl, rfl, rfl, fun _ _ _ h => h⟩

theorem KeepsLease.reply {w v : Witness} (h : KeepsLease w v) (sl : Slot) (k : Nat) (c : W16) : KeepsLease w (reply v sl k c) :=
  ⟨h.running, h.holder, h.holdoff, h.reserved, fun x hr hh hp => by rw [pendOf_reply]; exact h.pend x hr hh hp⟩

theorem KeepsLease.ok {w v : Witness} (h : KeepsLease w v) (hw : Safety.WitnessOk w) : Safety.WitnessOk v := by
  obtain ⟨hone, hpend⟩ := hw
  refine ⟨fun hr => ?_, fun sl hr hh => ?_⟩
  · rw [h.holder, h.holdoff, h.reserved]; exact hone (h.running ▸ hr)
  · rw [h.running] at hr; rw [h.holder] at hh; exact h.pend sl hr hh (hpend sl hr hh)

theorem endClaims_keepsLease (w : Witness) (sl : Slot) : KeepsLease w (endClaims w sl) := by
  refine ⟨by simp [endClaims], by simp [endClaims], by simp [endClaims], by simp [endClaims], fun x _ _ hp => ?_⟩
  simp [endClaims, pendOf_setPend, hp]

/-- The CLAIM that waits is not one of the holder of the running lease. -/
theorem pendClaim_keepsLease (w : Witness) (sl : Slot) (f : Bool) (msg : WMsg) (h : (w.running && w.holder == some sl) = false) :
    KeepsLease w (pendClaim w sl f msg) := by
  have hne : ∀ x, w.running = true → w.holder = some x → x ≠ sl := by
    rintro x hr hh rfl
    simp [hr, hh] at h
  unfold pendClaim
  refine KeepsLease.reply ?_ sl 10 msg.counter
  split
  · exact ⟨by simp, by simp, by simp, by simp, fun x hr hh hp => by
      rw [pendOf_setPend, if_neg (hne x hr hh)]; cases x <;> exact hp⟩
  · exact ⟨by simp, by simp, by simp, by simp, fun x hr hh hp => by
      rw [pendOf_setRun, pendOf_setPend, if_neg (hne x hr hh)]; cases x <;> exact hp⟩

theorem grantTo_running (w : Witness) (sl : Slot) (a : W32) (c : W16) : (grantTo w sl a c).running = true := by simp [grantTo, endClaims]

theorem grantTo_holder (w : Witness) (sl : Slot) (a : W32) (c : W16) : (grantTo w sl a c).holder = some sl := by simp [grantTo, endClaims]

theorem grantTo_ok (w : Witness) (sl : Slot) (a : W32) (c : W16) : Safety.WitnessOk (grantTo w sl a c) := by
  refine ⟨fun _ => ⟨by simp [grantTo_holder], by simp [grantTo, endClaims], by simp [grantTo, endClaims]⟩, fun x _ hx => ?_⟩
  rw [grantTo_holder, Option.some.injEq] at hx
  subst hx
  simp [grantTo, endClaims, pendOf_setPend]

/-- R276: a new holder to whom the lease was not released raises AGEN, which is below its end or nothing would have been granted. -/
theorem grantTo_raises_agen {w : Witness} {sl : Slot} (a : W32) (c : W16) (hg : grantable w sl = true) (hh : w.holder ≠ some sl)
    (hres : w.reserved ≠ some sl) : w.agen.toNat < (grantTo w sl a c).agen.toNat := by
  have hend : w.agen ≠ 0xFFFFFFFF := by
    simp only [grantable, Bool.and_eq_true] at hg
    simpa [hh, hres] using hg.2
  have hmax : ∀ x : W32, w.agen.toNat ≤ x.toNat → w.agen.toNat < (incAgen x).toNat := by
    intro x hx
    unfold incAgen
    split <;> bv_omega
  have hle : w.agen.toNat ≤ (maxAgen w.agen a).toNat := by
    unfold maxAgen
    split <;> omega
  simpa [grantTo, endClaims, hh, hres] using hmax _ hle

theorem grantable_not_running {w : Witness} {sl : Slot} (h : grantable w sl = true) : w.running = false := by
  simp only [grantable, Bool.and_eq_true, Bool.not_eq_true'] at h
  exact h.1.1.1

/-- What waits is granted if nothing forbids it, else nothing changes. -/
theorem grantPending_cases (w : Witness) :
    grantPending w = w ∨ ∃ sl a c, grantable w sl = true ∧ grantPending w = grantTo w sl a c := by
  have ready : ∀ {sl x}, (if grantable w sl = true then pendOf w sl else none) = some x → grantable w sl = true := by
    intro sl x h
    by_contra hn
    simp [hn] at h
  unfold grantPending
  dsimp only
  split
  · next a b ha hb =>
    split
    · exact .inr ⟨.a, _, _, ready ha, rfl⟩
    · exact .inr ⟨.b, _, _, ready hb, rfl⟩
  · next a ha _ => exact .inr ⟨.a, _, _, ready ha, rfl⟩
  · next b _ hb => exact .inr ⟨.b, _, _, ready hb, rfl⟩
  · exact .inl rfl

/-! ### What each event does to the lease -/

/-- The command is a RELEASE that the witness takes from the holder. -/
def ReleasedBy (i : Instr) (w : Witness) : Prop := ∃ sl msg, i = .release sl msg ∧ heard w msg = true ∧ w.running = true ∧ w.holder = some sl

/-- All that an event at the witness can do to the lease (R276). -/
inductive LeaseMove (i : Instr) (w v : Witness) : Prop where
  /-- The lease is as it was. -/
  | keeps (h : KeepsLease w v)
  /-- The lease is granted where none runs, or the holder has released it. -/
  | grants (u : Witness) (sl : Slot) (a : W32) (c : W16) (grantable : grantable u sl = true) (granted : v = grantTo u sl a c)
      (free : ReleasedBy i w ∨ w.running = false ∧ u.holder = w.holder ∧ u.agen = w.agen ∧ (u.reserved = w.reserved ∨ u.reserved = none))
  /-- No lease runs afterwards. -/
  | ends (stopped : v.running = false) (why : ReleasedBy i w ∨ i = .witnessLeaseEnd ∨ w.running = false)

theorem LeaseMove.ok {i : Instr} {w v : Witness} (h : LeaseMove i w v) (hw : Safety.WitnessOk w) : Safety.WitnessOk v := by
  cases h with
  | keeps h => exact h.ok hw
  | grants u sl a c _ granted _ => exact granted ▸ grantTo_ok u sl a c
  | ends stopped _ => exact ⟨fun hr => by simp [stopped] at hr, fun _ hr => by simp [stopped] at hr⟩

/-- Granting what waits, from a record `u` without a running lease. -/
theorem grantPending_move {i : Instr} {w : Witness} (u : Witness) (stopped : u.running = false)
    (free : ReleasedBy i w ∨ w.running = false ∧ u.holder = w.holder ∧ u.agen = w.agen ∧ (u.reserved = w.reserved ∨ u.reserved = none)) :
    LeaseMove i w (grantPending u) := by
  rcases grantPending_cases u with h | ⟨sl, a, c, hg, h⟩
  · exact .ends (h.symm ▸ stopped) (free.imp_right fun h => .inr h.1)
  · exact .grants u sl a c hg h free

theorem claimAt_move (i : Instr) (w : Witness) (sl : Slot) (f : Bool) (msg : WMsg) : LeaseMove i w (claimAt w sl f msg) := by
  have ended : ∀ k c, KeepsLease w (reply (endClaims w sl) sl k c) := fun k c => (endClaims_keepsLease w sl).reply sl k c
  unfold claimAt
  split
  · next h =>
    rw [Bool.and_eq_true] at h
    have he := endClaims_keepsLease w sl
    have hv : KeepsLease w { endClaims w sl with running := true } :=
      ⟨h.1.symm, he.holder, he.holdoff, he.reserved, fun x hr hh hp => by cases x <;> exact he.pend _ hr hh hp⟩
    exact .keeps (hv.reply sl 8 _)
  · next h =>
    have waits := pendClaim_keepsLease w sl f msg (by simpa using h)
    split
    · exact .keeps (ended _ _)
    · split
      · split
        · exact .keeps (ended _ _)
        · exact .keeps waits
      · next hfree =>
        split
        · next hg => exact .grants w sl _ _ hg rfl (.inr ⟨grantable_not_running hg, rfl, rfl, .inl rfl⟩)
        · exact .keeps waits

theorem renewAt_move (i : Instr) (w : Witness) (sl : Slot) (msg : WMsg) : LeaseMove i w (renewAt w sl msg) := by
  unfold renewAt
  split
  · exact .keeps (.refl w)
  · split
    · refine .keeps (KeepsLease.reply ?_ sl 9 _)
      dsimp only
      split
      · exact ⟨rfl, rfl, rfl, rfl, fun x _ _ hp => by cases x <;> exact hp⟩
      · split <;> exact ⟨rfl, rfl, rfl, rfl, fun x _ _ hp => by cases x <;> exact hp⟩
    · exact claimAt_move i w sl false msg

theorem releaseAt_move (w : Witness) (sl : Slot) (msg : WMsg) : LeaseMove (.release sl msg) w (releaseAt w sl msg) := by
  unfold releaseAt
  split
  · exact .keeps (.refl w)
  · next hheard =>
    split
    · next h =>
      rw [Bool.and_eq_true, beq_iff_eq] at h
      exact grantPending_move _ rfl (.inl ⟨sl, msg, rfl, by simpa using hheard, h⟩)
    · exact .keeps ((KeepsLease.refl w).reply sl 11 _)

theorem presentAt_keepsLease (w : Witness) (sl : Slot) (msg : WMsg) : KeepsLease w (presentAt w sl msg) := by
  unfold presentAt
  split
  · exact .refl w
  · refine KeepsLease.reply ?_ sl 13 _
    cases sl <;> exact ⟨rfl, rfl, rfl, rfl, fun x _ _ hp => by cases x <;> exact hp⟩

/-! ### What a command does to the queue, the drops and the lease -/

/-- All that a command can do besides what it does to the modules. -/
structure Ran (i : Instr) (s t : State) : Prop where
  pending : t.pending = s.pending
  sorted : tsorted s.stations = true → tsorted t.stations = true
  lease : Safety.WitnessOk s.witness → LeaseMove i s.witness t.witness

theorem Quiet.ran {i : Instr} {s t : State} (h : Quiet s t) : Ran i s t :=
  ⟨h.pending, fun hs => h.stations ▸ hs, fun _ => .keeps (by
    rw [h.witness]; exact ⟨rfl, rfl, rfl, rfl, fun sl _ _ hp => by cases sl <;> exact hp⟩)⟩

theorem Keeps.ran {i : Instr} {s t : State} (h : Keeps s t) : Ran i s t := h.quiet.ran

theorem onStation_ran {i : Instr} {s t : State} {id : Nat} {f : Station → Station} (h : onStation s id f = .next t) : Ran i s t := by
  rw [onStation_next h]
  exact ⟨rfl, tmod_sorted _ _ _, fun _ => .keeps (.refl _)⟩

theorem onStationFree_ran {i : Instr} {s t : State} {id : Nat} {f : Station → Nat → Station} (h : onStationFree s id f = .next t) :
    Ran i s t := by
  injection h with h
  subst h
  exact ⟨rfl, fun hs => tmod_sorted s.stations id (fun x => f x s.fresh) hs, fun _ => .keeps (.refl _)⟩

theorem dropPowerUp_ran {i : Instr} {s t : State} {id : Nat} {up down : Bool} (h : execDropPowerUp id up down s = .next t) : Ran i s t := by
  injection h with h
  subst h
  exact ⟨rfl, tset_sorted _ _ _, fun _ => .keeps (.refl _)⟩

theorem onWitness_ran {i : Instr} {s t : State} {f : Witness → Witness} (h : onWitness s f = .next t)
    (move : Safety.WitnessOk s.witness → LeaseMove i s.witness (f s.witness)) : Ran i s t := by
  rw [onWitness_next h]
  exact ⟨rfl, fun h => h, move⟩

theorem quondiPair_ran {f : Module → Module → Witness → Cmd → PRes} (mild : Mild f) {k : Kind} {sc : Scope} {code : Nat} {i : Instr}
    {s t : State} {sl : Slot} {c : Cmd} (h : quondiPair f k sc code s sl c = .next t) : Ran i s t := (quondiPair_quiet mild h).ran

theorem claim_ran {s t : State} {sl : Slot} {msg : WMsg} (h : execClaim sl msg s = .next t) : Ran (.claim sl msg) s t :=
  onWitness_ran h fun _ => by
    split
    · exact claimAt_move _ _ sl _ msg
    · exact .keeps (.refl _)

theorem witnessLeaseEnd_ran {s t : State} (h : execWitnessLeaseEnd s = .next t) : Ran .witnessLeaseEnd s t :=
  onWitness_ran h fun _ => by
    split
    · exact .ends rfl (.inr (.inl rfl))
    · exact .keeps (.refl _)

/-- While a lease runs there is no hold-off. -/
theorem witnessHoldoffEnd_ran {i : Instr} {s t : State} (h : execWitnessHoldoffEnd s = .next t) : Ran i s t :=
  onWitness_ran h fun ok => by
    split
    · next hoff =>
      have stopped : s.witness.running = false := by
        by_contra hr
        have := (ok.1 (by simpa using hr)).2.1
        simp [this] at hoff
      exact grantPending_move _ stopped (.inr ⟨stopped, rfl, rfl, .inl rfl⟩)
    · exact .keeps (.refl _)

/-- While a lease runs nothing is reserved. -/
theorem releaseReservationEnd_ran {i : Instr} {s t : State} (h : execReleaseReservationEnd s = .next t) : Ran i s t :=
  onWitness_ran h fun ok => by
    split
    · next hres =>
      have stopped : s.witness.running = false := by
        by_contra hr
        have := (ok.1 (by simpa using hr)).2.2
        simp [this] at hres
      exact grantPending_move _ stopped (.inr ⟨stopped, rfl, rfl, .inr rfl⟩)
    · exact .keeps (.refl _)

theorem claimPendingExpiry_ran {i : Instr} {s t : State} {sl : Slot} (h : execClaimPendingExpiry sl s = .next t) : Ran i s t :=
  onWitness_ran h fun _ => by
    split
    · exact .keeps (endClaims_keepsLease _ sl)
    · exact .keeps (.refl _)

theorem registerWrite_keeps {s t : State} {sl : Slot} {o : Nat} {v : W32} {narrow : Bool} (h : execRegisterWrite sl o v narrow s = .next t) :
    Keeps s t := by
  unfold execRegisterWrite at h
  split at h
  · exact onModFree_keeps h
  · exact onMod_keeps h

theorem fetchDesc_keeps {s t : State} {sl : Slot} {qp : Nat} {d : Desc} {req : Option Bytes} (h : fetchDesc s sl qp d req = .next t) :
    Keeps s t := by
  injection h with h
  subst h
  exact ⟨by simp, by simp, by simp⟩

theorem udpDatagramReceive_keeps {s t : State} {sl : Slot} {dg : UdpDgram} (h : execUdpDatagramReceive sl dg s = .next t) : Keeps s t := by
  injection h with h
  subst h
  exact ⟨by simp, by simp, by simp⟩

theorem diagSelftest_keeps {s t : State} {sl : Slot} {c : Cmd} (h : execDiagSelftest sl c s = .next t) : Keeps s t := by
  injection h with h
  subst h
  exact ⟨by simp, by simp, by simp⟩

theorem next_quiet {s t u : State} (h : (Host.Outcome.next u : Res) = .next t) (k : Quiet s u) : Quiet s t := by
  injection h with h
  exact h ▸ k

/-- Every command, by the shape of its meaning. -/
theorem exec_ran {i : Instr} {s t : State} (h : exec i s = .next t) : Ran i s t := by
  cases i with dsimp only [exec] at h
  | powerUpStart | powerGood | loaderReady | mreset | perst | lanternWatchdogExpiry | lockstepFault | bootGo | relayEnWrite
  | bootReset | imgOpen | imgPull | imgAbort | imgClose | apertureWrite | pullReadCompletion | pullReadTimeout
  | headerFirstCheck | verifyDone | patrolPassEnd | attach | detach | doorbellSqTail | doorbellCqHead | anchorHeartbeat
  | completionPost | coalesceAgeExpiry | dupFinalReport | udpSequenceStatusReceive | udpResendTimer | arbiterWindowEnd
  | subscriptionReportDeferred | clusterResetDone | icalWindowClose | glintSweepEnd | glintTimerExpiry | glintBankSwitch
  | gleamValue | ringFrameForward | spliceFieldTimeout | heldFrameRelease | inFrameReceive | acyDeliveryTimeout
  | checkFrameLaunch | checkFrameReturn | ringClosedTimeout | ringLaneLockLoss | ringPtpSyncSend | pdelayMeasure | busSlotStart
  | canTxResult | canPartnerOutReceive | busRowEnd | busOffRecovery | lineSlotStart | lineTakeover | lineReplyTimeout
  | renewTimer | presentTimer | claimTimer | leaseCheck | claimReplyTimeout | wait | denied | stale | witnessAck
  | equinoxDueTimer | timeStepApply | almCapture | almStep | bar0StepLand | ppsInMissing | ppsOutRise | ppsOutFall
  | ptpAnnounceTimeout | hostPtpSyncSend | holdoverEnd | chronicleRecordWrite | summaryTimeout | loopSupplyUpdate
  | loopSupplyThermal | loopSupplyRestart | cicOutput | buttonPress | dioInputChange | diFilterPass | doOverload | doGroupLimit
  | doOvertemp | doOpenWire | doLatchRearm | doDiagClear | fdoOverload | vigilExpiry | soTestSlot | soTestEnd | soReleaseTimeout
  | edmInputChange | edmTimeExpiry | fallbackLimitExpiry | haloSelfCheck | handoverPortSwitch | fuseStepDone | maintWaitTimeout
  | logicFeedLost | logicFeedRestored | fieldFeedLost | fieldFeedRestored | holdupReserveUpdate | logicInputLowTimeout
  | powerDownComplete | ejectorLeverOpen | ejectorLeverClosed | junctionRead | coldPlateRead | mresetRelease | perstRelease
  | pcieLinkTrained | ringLaneLinkUp | ptpAnnounceSend | ptpDelayReqSend =>
    exact (onMod_keeps h).ran
  | registerWrite =>
    exact (registerWrite_keeps h).ran
  | partnerRelayStart | selftestDone | dramUncorrectable | syncChronicleMirrorReceive | syncResyncDataReceive
  | importDatagramReceive | clusterMismatch | syncLaneUp | grant | renewed | equinoxDrainTimeout | equinoxGrantTimeout
  | autoResyncStart | resyncCopyDone | resyncFollowDone | resyncTimeout | trimMeasureDone | buttonHeld | trimModeTimeout
  | confirmWindowClose | relayOfferReceive | relayAcceptReceive | relayDataReceive | relayBlockAckReceive | relayReportReceive
  | relayOfferTimeout | relayBlockAckTimeout | relayProgressTimeout | maintLeaseExpiry | syncRelayBlockAckReceive =>
    exact (onBoth_keeps h).ran
  | syncRelayBlockReceive | mramUncorrectable | syncSealReceive | syncCheckpointReceive | syncWriteSetReceive
  | syncJournalEntryReceive | syncJournalAckReceive | syncFinalReportReceive | syncShadowEventReceive | syncIcalAnnounceReceive
  | syncOnlineAnnounceReceive | syncRelayFrameReceive | syncAcyAckRelayReceive | syncTrimReportReceive | syncStepAnnounceReceive
  | partnerTimeSend | retainedApply | icalEdge | acyAckReceive | syncFrameReceive | helloReceive | assignRetransmit
  | acyRetransmit | canInReceive | canHelloReceive | canSyncReceive | lineReplyReceive | readyClaimTimer | warmCatchupLaunch
  | equinoxDrainDone | equinoxNoticeReceive | handoverLanternResume | imageConfirm | imageVerdictReceive =>
    exact (onPair_keeps h).ran
  | descriptorFetch | requestDmaTimeout =>
    exact (fetchDesc_keeps h).ran
  | udpDatagramReceive =>
    exact (udpDatagramReceive_keeps h).ran
  | sessionOpen | sessionClose | sessionStatus | sessionTickets | sessionReticket | sessionNop | sessionCoalesce | pointRead
  | pointWrite | pointAlloc | pointFree | pointDescribe | pointSubscribe | pointUnsubscribe | pointForce | pointUnforce
  | pointRetain | pointPublish | pointImport | taskDefine | taskLoad | taskSwap | taskStart | taskStop | taskDelete | taskStatus
  | taskIcal | glintLoad | glintSwap | glintStatus | segmentConfig | segmentBind | segmentSchedule | segmentStatus | dropAdd
  | dropRemove | dropSend | dropStatus | pairStatus | timeStatus | timeConfig | timeStep | timeRate | timePps | chronicleBounds
  | chronicleRead | chronicleLimit | chronicleNote | localioConfig | localioStatus | localioTrim | localioTrimLock
  | localioVigil | haloConnect | haloRelease | haloParamLoad | haloParamConfirm | haloChange | haloAck | haloStatus
  | imageStatus | maintTake | maintGive | maintStatus | partitionCreate | partitionDelete | partitionCaps | partitionRunlock
  | guardRegions | guardViolation | guardClear | diagCounters | diagThermal | diagMemory | diagLanes =>
    exact (quondi_keeps h).ran
  | pairRun =>
    exact quondiPair_ran mild_run h
  | pairWithdraw =>
    exact quondiPair_ran mild_withdraw h
  | pairEquinox =>
    exact quondiPair_ran mild_equinox h
  | pairResync =>
    exact quondiPair_ran mild_resync h
  | pairWitness =>
    exact quondiPair_ran mild_witness h
  | imageActivate =>
    exact quondiPair_ran mild_activate h
  | imageRevert =>
    exact quondiPair_ran mild_revert h
  | imageDiscard =>
    exact quondiPair_ran mild_discard h
  | imageRelay =>
    exact quondiPair_ran mild_relay h
  | diagSelftest =>
    exact (diagSelftest_keeps h).ran
  | step =>
    exact (next_quiet h (takeStep_quiet _ _ s)).ran
  | syncSummaryReceive =>
    exact (next_quiet h (takePartnerSummary_quiet _ _ _ s)).ran
  | syncContentReceive =>
    exact (next_quiet h (takePartnerContent_quiet _ _ _ s)).ran
  | syncTimeReceive | ppsInEdge | ptpMessageReceive =>
    exact (onPairFree_keeps h).ran
  | glintLd | glintLdn | glintAnd | glintAndn | glintOr | glintOrn | glintXor | glintSt | glintStn | glintSet | glintRst
  | glintAndp | glintOrp | glintPop | glintTon | glintTof | glintTp | glintCtu | glintCtd | glintCrst | glintCld | glintSkipf
  | glintSkipt | glintNop =>
    exact (glintIns_keeps h).ran
  | dropFrameForward | dropOutputWatchdogExpiry | dropOutAbsenceTimeout | dropAssignReceive | dropHelloTimer | dropSyncEvent
  | dropLinkLoss | dropLinkStable | dropPowerLoss | dropRowReceive =>
    exact onStation_ran h
  | dropOutAccept | dropApplyTime | dropAcyReceive | dropInSlotTime | lineDropRequestReceive =>
    exact onStationFree_ran h
  | syncLaneDown =>
    exact (next_quiet h (laneLost_quiet _ _ s)).ran
  | renew =>
    exact onWitness_ran h fun _ => renewAt_move _ _ _ _
  | claim =>
    exact claim_ran h
  | release =>
    exact onWitness_ran h fun _ => releaseAt_move _ _ _
  | present =>
    exact onWitness_ran h fun _ => .keeps (presentAt_keepsLease _ _ _)
  | witnessLeaseEnd =>
    exact witnessLeaseEnd_ran h
  | claimPendingExpiry =>
    exact claimPendingExpiry_ran h
  | releaseReservationEnd =>
    exact releaseReservationEnd_ran h
  | dropPowerUp =>
    exact dropPowerUp_ran h
  | witnessHoldoffEnd =>
    exact witnessHoldoffEnd_ran h
  -- The words of Lumen; the last pattern is OVER, whose name Mathlib keeps as a token.
  | lNop | pushi | pushb | pushc | ldp | stp | ldq | ldtm | ldx | stx | ldl | stl | dup | lDrop | lSwap | rot | add | sub
  | mul | div | mod | neg | abs | min | max | eq | ne | lt | le | gt | ge | and | or | xor | not | band | bor | bxor | bnot
  | shl | shr | shru | cvt | sqrt | exp | ln | sin | cos | atan2 | qget | qset | endCycle | br | brt | brf | call | ret | now
  | dt | first | exc | pid | ramp | leadlag | total | timer | select | limit | deadband | _ =>
    exact (lumen_keeps h).ran

/-- The same for a step, which runs the front of the queue or, with nothing waiting, lets time pass. -/
theorem step_cases {s t : State} (h : step s = .next t) :
    (s.pending = [] ∧ t = idle s) ∨ ∃ i rest, s.pending = i :: rest ∧ Ran i { s with pending := rest } t := by
  unfold step at h
  split at h
  · next hp =>
    injection h with h
    exact .inl ⟨hp, h.symm⟩
  · next i rest hp => exact .inr ⟨i, rest, hp, exec_ran h⟩

/-- Settles O59: what a command does to the lease keeps the record of the witness, and a drop is changed or entered at its ID. -/
theorem domainInvariant : Obligations.DomainInvariant := by
  unfold Obligations.DomainInvariant
  rintro s t ⟨hw, hs⟩ h
  rcases step_cases h with ⟨hp, rfl⟩ | ⟨i, rest, hp, ran⟩
  · exact ⟨⟨hw, hs⟩, by simp [idle, hp]⟩
  · exact ⟨⟨(ran.lease hw).ok hw, ran.sorted hs⟩, by simp [ran.pending, hp]⟩

/-- Settles O60, by what the command at the front does to the lease. -/
theorem noSecondLease : Obligations.NoSecondLease := by
  unfold Obligations.NoSecondLease
  intro s t hw h
  rcases step_cases h with ⟨_, rfl⟩ | ⟨i, rest, hp, ran⟩
  · exact ⟨fun hr => .inl ⟨hr, rfl⟩, fun hr hr' => by simp [idle, hr] at hr'⟩
  have byRelease : ReleasedBy i s.witness →
      ∃ sl msg rest, s.pending = .release sl msg :: rest ∧ heard s.witness msg = true ∧ s.witness.holder = some sl := by
    rintro ⟨sl, msg, rfl, hheard, _, hholder⟩
    exact ⟨sl, msg, rest, hp, hheard, hholder⟩
  cases ran.lease hw with
  | keeps k => exact ⟨fun hr => .inl ⟨k.running.trans hr, k.holder⟩, fun _ _ hne => absurd k.holder hne⟩
  | grants u sl a c hg granted free =>
    have holder : t.witness.holder = some sl := granted ▸ grantTo_holder u sl a c
    refine ⟨fun hr => ?_, fun hr _ hne hres => ?_⟩
    · rcases free with release | ⟨stopped, _⟩
      · exact .inr (.inl (byRelease release))
      · simp [hr] at stopped
    · rcases free with ⟨_, _, _, _, running, _⟩ | ⟨_, hholder, hagen, hreserved⟩
      · simp [hr] at running
      · rw [holder] at hne hres
        rw [granted, ← hagen]
        refine grantTo_raises_agen a c hg (hholder ▸ hne.symm) ?_
        rcases hreserved with e | e
        · rw [e]; exact hres
        · simp [e]
  | ends stopped why =>
    refine ⟨fun hr => ?_, fun _ hr' => by simp [stopped] at hr'⟩
    rcases why with release | rfl | hstopped
    · exact .inr (.inl (byRelease release))
    · exact .inr (.inr ⟨rest, hp, stopped⟩)
    · simp [hr] at hstopped

end Sys2Proof.Machine

/-! PROOF. The Glint engine (R191 to R195, R209): one word of the sweep, the timers and counters, and the events of the engine. -/

namespace Sys2Proof.Machine
open Sys2Proof Sys2Proof.Bits Sys2Proof.Safety

/-! ### One word of the sweep -/

section
variable {i : Instr} {s : State} {sl : Slot} {f f' : Module → Glint → Glint}

/-- A word that is due and not skipped does what its instruction says. -/
theorem glintIns_runs (e : exec i s = glintIns f s sl) (due : GlintDue (modOf s sl)) (hskip : (modOf s sl).glint.skip = 0)
    {h : Glint → Glint} (hf : gState (f (modOf s sl) (modOf s sl).glint) = gState (h (modOf s sl).glint)) : GlintStep i s sl h :=
  glintIns_step e due h (by rw [hskip]; exact hf)

/-- A word that is skipped counts the skip down and does nothing else. -/
theorem glintIns_skips (e : exec i s = glintIns f s sl) (due : GlintDue (modOf s sl)) (hskip : 0 < (modOf s sl).glint.skip) :
    GlintStep i s sl (fun g => { g with skip := g.skip - 1 }) :=
  glintIns_step e due _ (by rw [if_pos hskip])

/-- A Glint cycle depends on its instruction only by what that makes of the engine as it stands. -/
theorem glintIns_congr (hskip : (modOf s sl).glint.skip = 0)
    (h : f (modOf s sl) (modOf s sl).glint = f' (modOf s sl) (modOf s sl).glint) : glintIns f s sl = glintIns f' s sl := by
  simp only [glintIns, onMod, glintCycle, hskip, h]

/-- A bit that the program may write stands after the cycle as the instruction left it. -/
theorem glintIns_bit (e : exec i s = glintIns f s sl) (due : GlintDue (modOf s sl)) (hskip : (modOf s sl).glint.skip = 0) {a : Nat}
    (hw : gWritable (modOf s sl).glint a = true) :
    ∃ t, exec i s = .next t ∧ (modOf t sl).glint.lits.getLsbD a = (f (modOf s sl) (modOf s sl).glint).lits.getLsbD a := by
  rw [e, glintIns, onMod, if_neg (by simp [due.1, due.2])]
  exact ⟨_, rfl, by rw [withMod_same, glintCycle_bit _ _ a hw]; simp [hskip]⟩

end

/-! ### A bit that is written -/

theorem litSet_bit (l : BitVec 1024) (i j : Nat) (b : Bool) (hj : j < 1024) :
    (litSet l i b).getLsbD j = if j = i then b else l.getLsbD j := by
  rw [litSet, litField_bit _ _ _ _ _ hj]
  by_cases h : j = i
  · subst h; cases b <;> simp [b2n]
  · rw [if_neg (by omega), if_neg h]

theorem gWritable_lt {g : Glint} {a : Nat} (h : gWritable g a = true) : a < 1024 := by
  simp only [gWritable, Bool.or_eq_true, Bool.and_eq_true, decide_eq_true_eq] at h
  omega

theorem gState_gWrite (g : Glint) (a : Nat) (b : Bool) : gState (gWrite g a b) = gState g := by
  unfold gWrite
  split <;> rfl

theorem gWrite_bit {g : Glint} {a : Nat} (b : Bool) (h : gWritable g a = true) : (gWrite g a b).lits.getLsbD a = b := by
  rw [gWrite, if_pos h, litSet_bit _ _ _ _ (gWritable_lt h), if_pos rfl]

theorem gWrite_of_driven {g : Glint} {a : Nat} (b : Bool) (h : gWritable g a = false) : gWrite g a b = g := by
  rw [gWrite, h]; rfl

/-- Settles O1: each word by its instruction, then the writes by what `gWrite` leaves. -/
theorem glintBitProgram : Obligations.GlintBitProgram := by
  unfold Obligations.GlintBitProgram
  refine ⟨fun s sl a n due => ⟨fun hskip => ?_, fun hskip => ?_⟩, fun s sl a due hskip => ⟨fun hw => ?_, fun hw => ?_⟩⟩
  · refine ⟨glintIns_runs (exec_glintLd sl a s) due hskip rfl, glintIns_runs (exec_glintLdn sl a s) due hskip rfl,
      glintIns_runs (exec_glintAnd sl a s) due hskip rfl, glintIns_runs (exec_glintAndn sl a s) due hskip rfl,
      glintIns_runs (exec_glintOr sl a s) due hskip rfl, glintIns_runs (exec_glintOrn sl a s) due hskip rfl,
      glintIns_runs (exec_glintXor sl a s) due hskip rfl, glintIns_runs (exec_glintAndp sl a s) due hskip rfl,
      glintIns_runs (exec_glintOrp sl a s) due hskip rfl, fun v op rest hb => glintIns_runs (exec_glintPop sl s) due hskip ?_,
      glintIns_runs (exec_glintSkipf sl n s) due hskip ?_, glintIns_runs (exec_glintSkipt sl n s) due hskip ?_,
      glintIns_runs (exec_glintNop sl s) due hskip rfl⟩
    · simp [gPop, hb]
    · cases hacc : (modOf s sl).glint.acc <;> simp [gState, hskip, hacc]
    · cases hacc : (modOf s sl).glint.acc <;> simp [gState, hskip, hacc]
  · exact ⟨glintIns_skips (exec_glintLd sl a s) due hskip, glintIns_skips (exec_glintSt sl a s) due hskip,
      glintIns_skips (exec_glintTon sl n s) due hskip, glintIns_skips (exec_glintCtu sl n s) due hskip,
      glintIns_skips (exec_glintSkipf sl n s) due hskip, glintIns_skips (exec_glintNop sl s) due hskip⟩
  · have gives {i : Instr} {f : Module → Glint → Glint} {v : Bool} (e : exec i s = glintIns f s sl)
        (hstate : gState (f (modOf s sl) (modOf s sl).glint) = gState (modOf s sl).glint)
        (hbit : (f (modOf s sl) (modOf s sl).glint).lits.getLsbD a.toNat = v) :
        GlintStep i s sl id ∧ ∃ t, exec i s = .next t ∧ (modOf t sl).glint.lits.getLsbD a.toNat = v :=
      ⟨glintIns_runs e due hskip hstate, hbit ▸ glintIns_bit e due hskip hw⟩
    refine ⟨gives (exec_glintSt sl a s) (gState_gWrite _ _ _) (gWrite_bit _ hw),
      gives (exec_glintStn sl a s) (gState_gWrite _ _ _) (gWrite_bit _ hw), gives (exec_glintSet sl a s) ?_ ?_,
      gives (exec_glintRst sl a s) ?_ ?_⟩
    all_goals cases (modOf s sl).glint.acc <;> simp [gState_gWrite, gWrite_bit, hw]
  · have idles {i : Instr} {f : Module → Glint → Glint} (e : exec i s = glintIns f s sl)
        (h : f (modOf s sl) (modOf s sl).glint = (modOf s sl).glint) : exec i s = exec (.glintNop sl) s := by
      rw [e, exec_glintNop, execGlintNop]
      exact glintIns_congr hskip h
    refine ⟨idles (exec_glintSt sl a s) (gWrite_of_driven _ hw), idles (exec_glintStn sl a s) (gWrite_of_driven _ hw),
      idles (exec_glintSet sl a s) ?_, idles (exec_glintRst sl a s) ?_⟩
    all_goals simp only [gWrite_of_driven _ hw, ite_self]

/-! ### Timers and counters -/

/-- R193: one execution of TON, of TOF and of TP on the input `b`. -/
theorem timerExec_ton (b : Bool) (x : GTimer) : timerExec 0 b x =
    if b = false then { x with input := false, counting := false, expired := false, q := false }
    else if x.input = false then { x with input := true, counting := true, expired := false, q := false }
    else { x with q := x.counting && x.expired } := by
  cases b <;> cases h : x.input <;> simp [timerExec, h]

theorem timerExec_tof (b : Bool) (x : GTimer) : timerExec 1 b x =
    if b = true then { x with input := true, counting := false, expired := false, q := true }
    else if x.input = true then { x with input := false, counting := true, expired := false, q := true }
    else { x with q := x.counting && !x.expired } := rfl

theorem timerExec_tp (b : Bool) (x : GTimer) : timerExec 2 b x =
    if x.counting = true ∧ x.expired = false then { x with input := b, q := true }
    else if b = true ∧ x.input = false then { x with input := true, counting := true, expired := false, q := true }
    else { x with input := b, counting := false, q := false } := by
  simp only [timerExec, Bool.and_eq_true, Bool.not_eq_true']

/-- R192: a counting instruction moves CV on a rising ACC, which the edge memory of its word shows. -/
theorem gCount_eq (n : Nat) (f : Nat → Nat) (q : Nat → Bool) (g : Glint) : gCount n f q g =
    let cv := if g.acc = true ∧ (tget g.edges g.pc).getD false = false then f (counterCv g n) else counterCv g n
    { g with edges := tset g.edges g.pc g.acc, counters := tset g.counters n cv, counterQ := tset g.counterQ n (q cv), acc := q cv } := by
  simp only [gCount, Bool.and_eq_true, Bool.not_eq_true']

/-- Settles O2: a timer by its mode, a counter by what `gCount` does. -/
theorem glintTimersCounters : Obligations.GlintTimersCounters := by
  unfold Obligations.GlintTimersCounters
  intro s sl n due hskip
  refine ⟨glintIns_runs (exec_glintTon sl n s) due hskip ?_, glintIns_runs (exec_glintTof sl n s) due hskip ?_,
    glintIns_runs (exec_glintTp sl n s) due hskip ?_, glintIns_runs (exec_glintCtu sl n s) due hskip ?_,
    glintIns_runs (exec_glintCtd sl n s) due hskip ?_, glintIns_runs (exec_glintCrst sl n s) due hskip rfl,
    glintIns_runs (exec_glintCld sl n s) due hskip rfl⟩
  · rw [gTimer, timerExec_ton]
  · rw [gTimer, timerExec_tof]
  · rw [gTimer, timerExec_tp]
  · rw [gCount_eq]
  · rw [gCount_eq]

/-! ### Events of the engine -/

section
variable {s : State} {sl : Slot}

theorem exec_glintSweepEnd_of_end (h : glintRuns (modOf s sl) = true) (hn : sweepLen (modOf s sl).glint ≠ 0)
    (hpc : sweepLen (modOf s sl).glint ≤ (modOf s sl).glint.pc) :
    exec (.glintSweepEnd sl) s = .next (withMod s sl (vigilSweep (gMod (modOf s sl) (fun g =>
      { g with pc := 0, acc := false, branch := [], skip := 0, sweeps := g.sweeps + 1, lits := litSet g.lits 0x7D false })))) := by
  rw [exec_glintSweepEnd, execGlintSweepEnd, onMod, if_neg (by simp [h, hn, hpc])]

theorem exec_glintTimerExpiry_of_runs (h : glintRuns (modOf s sl) = true) (n : Nat) :
    exec (.glintTimerExpiry sl n) s = .next (withMod s sl (gMod (modOf s sl) (fun g =>
      { g with timers := tmod g.timers n (fun t => if t.counting then { t with expired := true } else t) }))) := by
  rw [exec_glintTimerExpiry, execGlintTimerExpiry, onMod, if_pos h]

theorem exec_glintBankSwitch_of_target {b : Nat} (h : glintRuns (modOf s sl) = true) (ho : (modOf s sl).glint.swapOrdered = true)
    (hpc : (modOf s sl).glint.pc = 0) (hb : gTarget (modOf s sl).glint = some b) :
    exec (.glintBankSwitch sl) s = .next (withMod s sl (gMod (modOf s sl) (fun g =>
      { g with active := some b, swapOrdered := false, lits := litSet (litField (litField g.lits 0x200 512 0) 0x40 8 0) 0x7D true
               pc := 0, acc := false, branch := [], skip := 0, edges := [], lastSwap := now (modOf s sl) }))) := by
  rw [exec_glintBankSwitch, execGlintBankSwitch, onMod, if_neg (by simp [h, ho, hpc]), hb]

end

/-- R195: each of the two comparators on a channel is evaluated on its own state. -/
theorem gleam_comparators (part : Bytes) (v ch k : Nat) (g : Glint) (hch : ch < 4) (hk : k < 2) (hp : activePart g 3 = part) :
    (([2 * ch, 2 * ch + 1].foldl (fun g i => { g with
        lits := litSet g.lits (0x40 + i) (comparator (le (activePart g 3) (1280 + 4 * i) 4) (g.lits.getLsbD (0x40 + i)) v) }) g).lits).getLsbD
      (0x40 + (2 * ch + k)) = comparator (le part (1280 + 4 * (2 * ch + k)) 4) (g.lits.getLsbD (0x40 + (2 * ch + k))) v := by
  subst hp
  have hsame : ∀ l, activePart { g with lits := l } 3 = activePart g 3 := fun _ => rfl
  simp only [List.foldl_cons, List.foldl_nil, hsame]
  obtain rfl | rfl : k = 0 ∨ k = 1 := by omega
  · simp only [Nat.add_zero]
    rw [litSet_bit _ _ _ _ (by omega), if_neg (by omega), litSet_bit _ _ _ _ (by omega), if_pos rfl]
  · rw [litSet_bit _ _ _ _ (by omega), if_pos rfl, litSet_bit _ _ _ _ (by omega), if_neg (by omega)]

/-- Settles O3, one event after the other. -/
theorem glintEvents : Obligations.GlintEvents := by
  unfold Obligations.GlintEvents
  intro s sl h
  refine ⟨fun hn hpc => ⟨_, exec_glintSweepEnd_of_end h hn hpc, ?_⟩, fun n x hx hc => ⟨_, exec_glintTimerExpiry_of_runs h n, ?_⟩,
    fun b ho hpc hb => ⟨_, exec_glintBankSwitch_of_target h ho hpc hb, ?_⟩, fun ch v k hch hk => ?_⟩
  · rw [withMod_same, vigilSweep_glint, gMod_glint]
  · simp [hx, hc]
  · rw [withMod_same]
    refine ⟨rfl, rfl, ?_, fun i hi => ?_, rfl, rfl, rfl⟩
    · simp only [gMod_glint]
      rw [litSet_bit _ _ _ _ (by decide), if_pos rfl]
    · simp only [gMod_glint]
      rw [litSet_bit _ _ _ _ (by omega), if_neg (by omega), litField_bit _ _ _ _ _ (by omega), if_neg (by omega),
        litField_bit _ _ _ _ _ (by omega), if_pos (by omega), Nat.zero_testBit]
  · rw [exec_gleamValue, execGleamValue, onMod, if_neg (by simpa [glintRuns, hch] using h)]
    refine ⟨_, rfl, ?_⟩
    rw [withMod_same]
    exact gleam_comparators _ _ ch k _ hch hk rfl

end Sys2Proof.Machine

/-! PROOF. A step of the domain and the state it starts from (log entries 1, 2, 7). -/

namespace Sys2Proof.Machine
open Sys2Proof Sys2Proof.Bits Sys2Proof.Safety

/-- Settles O57: the two cases of the queue. -/
theorem stepRunsFront : Obligations.StepRunsFront := by
  unfold Obligations.StepRunsFront
  refine ⟨fun s c rest h => by rw [step, h], fun s h => ?_⟩
  simp only [step, h, idle]

/-- A slot of images holds nothing at reset. -/
theorem regionOf_reset (sl : Slot) (i c : Nat) : regionOf (modOf State.reset sl) i c = {} := by
  have hslot : slotAt (modOf State.reset sl).boot i = {} := by
    cases sl <;> (unfold slotAt; split <;> rfl)
  rw [regionOf, hslot, regionIn]
  split <;> rfl

/-- Settles O58: the fields of the state at reset. -/
theorem resetState : Obligations.ResetState := by
  unfold Obligations.ResetState
  have hwitness : WitnessOk State.reset.witness := ⟨fun h => Bool.noConfusion h, fun _ h => Bool.noConfusion h⟩
  refine ⟨⟨hwitness, rfl⟩, rfl, rfl, fun sl => ?_⟩
  have hregions := regionOf_reset sl
  cases sl <;> exact ⟨rfl, rfl, rfl, rfl, rfl, rfl, hregions, rfl, rfl, rfl, rfl, rfl⟩

end Sys2Proof.Machine

/-! PROOF. Lumen code (R156 to R170): one instruction on the cycle that runs, and what the stack, the locals and the constants give. -/

namespace Sys2Proof.Machine
open Sys2Proof Sys2Proof.Bits Sys2Proof.Safety

/-! ### The cycle past an instruction -/

section
variable (len cost : Nat) (c : Cycle)

theorem modFrame_only (f : LFrame → LFrame) : modFrame c f = { c with frames := (modFrame c f).frames } := by
  unfold modFrame; split <;> rfl

theorem past_only : past len cost c = { c with cost := c.cost + cost, frames := (past len cost c).frames } := by
  rw [past, modFrame_only]

@[simp] theorem past_stack : (past len cost c).stack = c.stack := by rw [past_only]
@[simp] theorem past_bank : (past len cost c).bank = c.bank := by rw [past_only]
@[simp] theorem past_snap : (past len cost c).snap = c.snap := by rw [past_only]
@[simp] theorem past_ws : (past len cost c).ws = c.ws := by rw [past_only]
@[simp] theorem past_exc : (past len cost c).exc = c.exc := by rw [past_only]
@[simp] theorem past_start : (past len cost c).start = c.start := by rw [past_only]
@[simp] theorem past_first : (past len cost c).first = c.first := by rw [past_only]
@[simp] theorem past_dt : (past len cost c).dt = c.dt := by rw [past_only]
@[simp] theorem past_outs : (past len cost c).outs = c.outs := by rw [past_only]
@[simp] theorem past_cost : (past len cost c).cost = c.cost + cost := by rw [past_only]

theorem past_frames : (past len cost c).frames = match c.frames with
    | [] => []
    | f :: fs => { f with pc := f.pc + len } :: fs := by
  unfold past modFrame
  split <;> simp_all

@[simp] theorem past_baseOf : baseOf (past len cost c) = baseOf c := by
  unfold baseOf topFrame
  rw [past_frames]
  cases c.frames <;> rfl

theorem past_topFrame {f : LFrame} (h : topFrame c = some f) : topFrame (past len cost c) = some { f with pc := f.pc + len } := by
  unfold topFrame at h ⊢
  rw [past_frames]
  cases hc : c.frames with
  | nil => simp [hc] at h
  | cons g gs => simp [hc] at h; simp [h]

end

/-- An instruction that raises no flag leaves the exception word. -/
theorem after_zero (cost : Nat) (c : Cycle) (st : List SEntry) (len : Nat) :
    after cost c st 0 len = { past len cost c with stack := st } := by
  simp [after]

/-! ### One instruction -/

section
variable {i : Instr} {s : State} {sl : Slot} {u : Nat} {env : LEnv} {c c' : Cycle} {len cost : Nat} {f : LEnv → Cycle → LRes}

/-- The cycle that is due goes on as its instruction says. -/
theorem lumenStep_of (e : exec i s = lumen len cost f s sl u) (due : LumenDue s sl u env c) (h : f env (past len cost c) = .go c') :
    LumenStep i s sl env c' := by
  obtain ⟨c0, hrun, rfl, hfetch⟩ := due
  unfold LumenStep
  rw [e, lumen]
  simp only [hrun, hfetch]
  rw [show modFrame _ _ = past len cost (beginCycle env c0) from rfl, h]
  rfl

end

/-! ### The stack -/

section
variable {c : Cycle} {e : SEntry} {es rest : List SEntry}

theorem pop_cons (h : c.stack = e :: es) (hb : baseOf c ≤ es.length) : pop c = some (e, { c with stack := es }) := by
  rw [pop, h]
  exact if_neg (by omega)

theorem popT_cons (h : c.stack = e :: es) (hb : baseOf c ≤ es.length) : popT e.ty c = some (e, { c with stack := es }) := by
  rw [popT, pop_cons h hb]
  exact if_pos rfl

theorem push_of_room (h : c.stack.length < 64) : push e c = .go { c with stack := e :: c.stack } := if_pos h

/-- Popping entries that the running block pushed. -/
theorem popN_append (c : Cycle) (es rest : List SEntry) (h : c.stack = es ++ rest) (hb : baseOf c ≤ rest.length) :
    popN es.length c = some (es, { c with stack := rest }) := by
  induction es generalizing c with
  | nil => rw [List.nil_append] at h; subst h; rfl
  | cons e es ih =>
    have hpop : pop c = some (e, { c with stack := es ++ rest }) := pop_cons h (by simp; omega)
    simp only [List.length_cons, popN, hpop, ih { c with stack := es ++ rest } rfl hb]

/-- Pushing entries for which there is room. -/
theorem pushAll_of_room (es : List SEntry) (c : Cycle) (h : c.stack.length + es.length ≤ 64) :
    pushAll es c = .go { c with stack := es.reverse ++ c.stack } := by
  induction es generalizing c with
  | nil => rfl
  | cons e es ih =>
    simp only [List.length_cons] at h
    rw [pushAll, if_pos (by omega), ih { c with stack := e :: c.stack } (by simp; omega)]
    simp

/-- A rearrangement of the top entries. -/
theorem shuffle_of_onTop {f : List SEntry → List SEntry} (len cost : Nat) (h : OnTop c es rest)
    (room : rest.length + (f es).length ≤ 64) :
    shuffle es.length f (past len cost c) = .go (after cost c ((f es).reverse ++ rest) 0 len) := by
  obtain ⟨hst, hb, _⟩ := h
  rw [shuffle, popN_append (past len cost c) es rest (by rw [past_stack, hst]) (by rw [past_baseOf]; exact hb), after_zero]
  exact pushAll_of_room (f es) _ room

end

theorem onTop_pop1 {c : Cycle} {e : SEntry} {rest : List SEntry} (h : OnTop c [e] rest) (len cost : Nat) :
    pop (past len cost c) = some (e, { past len cost c with stack := rest }) :=
  pop_cons (by rw [past_stack]; exact h.1) (by rw [past_baseOf]; exact h.2.1)

theorem onTop_popT1 {c : Cycle} {e : SEntry} {rest : List SEntry} {t : LType} (h : OnTop c [e] rest) (ht : e.ty = t) (len cost : Nat) :
    popT t (past len cost c) = some (e, { past len cost c with stack := rest }) := by
  subst ht
  exact popT_cons (by rw [past_stack]; exact h.1) (by rw [past_baseOf]; exact h.2.1)

theorem onTop_popT2 {c : Cycle} {a b : SEntry} {rest : List SEntry} {t : LType} (h : OnTop c [b, a] rest) (ht : b.ty = t) (len cost : Nat) :
    popT t (past len cost c) = some (b, { past len cost c with stack := a :: rest }) := by
  subst ht
  obtain ⟨hst, hb, _⟩ := h
  exact popT_cons (by rw [past_stack]; exact hst) (by rw [past_baseOf]; simp; omega)

/-- Under the entry popped first stands the next one. -/
theorem onTop_popT_under {c : Cycle} {es : List SEntry} {a : SEntry} {rest : List SEntry} {t : LType} (h : OnTop c (es ++ [a]) rest)
    (ht : a.ty = t) (len cost : Nat) :
    popT t { past len cost c with stack := a :: rest } = some (a, { past len cost c with stack := rest }) := by
  subst ht
  exact popT_cons rfl (show baseOf (past len cost c) ≤ _ by rw [past_baseOf]; exact h.2.1)

theorem onTop_room {c : Cycle} {es rest : List SEntry} (h : OnTop c es rest) : es.length + rest.length ≤ 64 := by
  obtain ⟨hst, _, hlen⟩ := h
  rw [hst, List.length_append] at hlen
  exact hlen

theorem pushAr_after {c : Cycle} {st : List SEntry} (t : LType) (q : W16) (r : Ar) (len cost : Nat) (room : st.length < 64) :
    pushAr t q r { past len cost c with stack := st } =
      .go (after cost c ({ ty := t, val := maskVal t r.val, q := qLower q r.qual } :: st) (w32 r.flags) len) := by
  rw [pushAr, raise, push_of_room room, after]
  simp only [past_exc]

/-- A one-operand operation on the entry on top. -/
theorem unary_of_onTop {c : Cycle} {b : SEntry} {rest : List SEntry} {ta : LType} (tr : LType) (f : W64 → Ar) (h : OnTop c [b] rest)
    (hb : b.ty = ta) (len cost : Nat) :
    unary ta tr f (past len cost c) = .go (after cost c
      ({ ty := tr, val := maskVal tr (f b.val).val, q := qLower (qJoinAll [b.q]) (f b.val).qual } :: rest) (w32 (f b.val).flags) len) := by
  have := onTop_room h
  simp only [unary, onTop_popT1 h hb]
  exact pushAr_after tr _ _ len cost (by simp at this; omega)

/-- A two-operand operation on the two entries on top. -/
theorem binary_of_onTop {c : Cycle} {a b : SEntry} {rest : List SEntry} {ta tb : LType} (tr : LType) (f : W64 → W64 → Ar)
    (h : OnTop c [b, a] rest) (ha : a.ty = ta) (hb : b.ty = tb) (len cost : Nat) :
    binary ta tb tr f (past len cost c) = .go (after cost c
      ({ ty := tr, val := maskVal tr (f a.val b.val).val, q := qLower (qJoin a.q b.q) (f a.val b.val).qual } :: rest)
      (w32 (f a.val b.val).flags) len) := by
  have := onTop_room h
  simp only [binary, onTop_popT2 h hb, onTop_popT_under (es := [b]) h ha]
  exact pushAr_after tr _ _ len cost (by simp at this; omega)

/-- Of two entries on top, the upper one alone is on top of the other and the rest. -/
theorem onTop_upper {c : Cycle} {a b : SEntry} {rest : List SEntry} (h : OnTop c [b, a] rest) : OnTop c [b] (a :: rest) := by
  obtain ⟨hst, hb, hlen⟩ := h
  exact ⟨hst, by simp; omega, hlen⟩

end Sys2Proof.Machine

/-! PROOF. Lumen code: the constants, the locals, the stack and control (R164, R167 to R169). -/

namespace Sys2Proof.Machine
open Sys2Proof Sys2Proof.Bits Sys2Proof.Safety

theorem push_past {c : Cycle} (e : SEntry) (len cost : Nat) (room : c.stack.length < 64) :
    push e (past len cost c) = .go (after cost c (e :: c.stack) 0 len) := by
  rw [push_of_room (by rw [past_stack]; exact room), after_zero, past_stack]

/-! ### Integers of a type -/

theorem unsigned_lt (w : Nat) (z : Int) : unsigned w z < 2 ^ w := by
  have hpos : (0 : Int) < 2 ^ w := by positivity
  have := Int.emod_lt_of_pos z hpos
  have := Int.emod_nonneg z hpos.ne'
  unfold unsigned
  zify
  omega

/-- A number in the range of a width is what its low bits spell. -/
theorem signed_unsigned {w : Nat} {z : Int} (hw : 0 < w) (h1 : -(2 ^ (w - 1)) ≤ z) (h2 : z ≤ 2 ^ (w - 1) - 1) :
    signed w (unsigned w z) = z := by
  obtain ⟨k, rfl⟩ : ∃ k, w = k + 1 := ⟨w - 1, by omega⟩
  have hk : (0 : Int) < 2 ^ k := by positivity
  have hdouble : (2 : Int) ^ (k + 1) = 2 * 2 ^ k := pow_succ' 2 k
  have hnat : ((2 ^ (k + 1) : Nat) : Int) = 2 * 2 ^ k := by push_cast; exact hdouble
  simp only [Nat.add_sub_cancel] at h1 h2
  unfold signed unsigned
  rw [hdouble]
  rcases Int.lt_or_le z 0 with hz | hz
  · have hmod : z % (2 * 2 ^ k) = z + 2 * 2 ^ k := by
      rw [← Int.add_emod_right, Int.emod_eq_of_lt (by omega) (by omega)]
    rw [hmod, if_neg (by zify; omega)]
    omega
  · rw [Int.emod_eq_of_lt hz (by omega), if_pos (by zify; omega)]
    omega

theorem iBits_cases (t : LType) : iBits t = 32 ∨ iBits t = 64 := by cases t <;> simp [iBits]

theorem iWord_toNat (t : LType) (z : Int) : (iWord t z).toNat = unsigned (iBits t) z := by
  have := unsigned_lt (iBits t) z
  rw [iWord, w64, BitVec.toNat_ofNat, Nat.mod_eq_of_lt]
  rcases iBits_cases t with h | h <;> rw [h] at this ⊢ <;> omega

theorem iVal_iWord {t : LType} {z : Int} (h1 : iMin t ≤ z) (h2 : z ≤ iMax t) : iVal t (iWord t z) = z := by
  rw [iVal, iWord_toNat, Nat.mod_eq_of_lt (unsigned_lt _ _)]
  exact signed_unsigned (by rcases iBits_cases t with h | h <;> omega) h1 h2

/-! ### The quality of QSET -/

theorem qRw_low (q : W16) : qRw q &&& 0x3FFF = q &&& 0x7C := by
  unfold qRw
  dsimp only
  split
  · simp [BitVec.and_assoc]
  · apply BitVec.eq_of_getLsbD_eq
    intro i hi
    simp only [BitVec.getLsbD_and, BitVec.getLsbD_or]
    interval_cases i <;> simp

theorem qRw_class (q : W16) : qClass (qRw q) = if qClass q = 2 then 0 else qClass q := by
  have hlow : (q &&& 124#16) >>> 14 = 0#16 := by
    apply BitVec.eq_of_getLsbD_eq
    intro i hi
    interval_cases i <;> simp
  have hhigh : (q &&& 49152#16) >>> 14 = q >>> 14 := by
    apply BitVec.eq_of_getLsbD_eq
    intro i hi
    interval_cases i <;> simp
  have hshift : qRw q >>> 14 = if qClass q = 2 then 0#16 else q >>> 14 := by
    unfold qRw
    dsimp only
    split
    · simp [hlow]
    · simp [BitVec.ushiftRight_or_distrib, hhigh, hlow]
  rw [qClass, hshift]
  split
  · rfl
  · rw [qClass]

/-! ### One lemma for each shape of operand -/

section
variable {s : State} {sl : Slot} {u : Nat} {env : LEnv} {c : Cycle}

theorem pushi_value (imm : BitVec 24) : iVal .int32 (iWord .int32 imm.toInt) = imm.toInt := by
  have h1 := imm.le_toInt
  have h2 := imm.toInt_lt
  refine iVal_iWord ?_ ?_
  · simp [iMin, iBits]; omega
  · simp [iMax, iBits]; omega

theorem withConst_past {k : Nat} (f : W64 → LRes) (len cost : Nat) (hk : 8 * k < le env.code 12 4)
    (hg : partBlocked env (unitAt env c 0 (le env.code 8 4 + 8 * k)) 0 = none) :
    withConst env (past len cost c) k f = f (w64 (le env.code (le env.code 8 4 + 8 * k) 8)) := by
  have hu : unitAt env (past len cost c) 0 (le env.code 8 4 + 8 * k) = unitAt env c 0 (le env.code 8 4 + 8 * k) := by
    simp only [unitAt, partUnit, past_bank]
  rw [withConst, if_neg (by omega), hu, hg]

end

/-- Settles O4, one instruction after the other. -/
theorem lumenStack : Obligations.LumenStack := by
  unfold Obligations.LumenStack
  intro s sl u env c due
  dsimp only
  refine ⟨lumenStep_of (exec_lNop sl u s) due rfl, fun room => ?_, fun a rest h => ?_, fun a b rest h => ?_, fun x y z rest h => ?_⟩
  · refine ⟨fun imm => ⟨_, lumenStep_of (exec_pushi sl u imm s) due (push_past _ _ _ room), pushi_value imm⟩,
      fun b => lumenStep_of (exec_pushb sl u b s) due (push_past _ _ _ room),
      fun t k hk hg => lumenStep_of (exec_pushc sl u t k s) due (by rw [withConst_past _ _ _ hk hg]; exact push_past _ _ _ room),
      fun l f e hf hl => lumenStep_of (exec_ldl sl u l s) due ?_, lumenStep_of (exec_now sl u s) due ?_,
      lumenStep_of (exec_dt sl u s) due ?_, lumenStep_of (exec_first sl u s) due ?_, lumenStep_of (exec_exc sl u s) due ?_⟩
    · simp only [past_topFrame _ _ _ hf, hl]
      exact push_past _ _ _ room
    · rw [push_past _ _ _ room, past_start]
    · rw [push_past _ _ _ room, past_dt]
    · rw [push_past _ _ _ room, past_first]; rfl
    · rw [push_of_room (by simpa using room)]
      simp only [past_stack, past_exc]
  · have hroom := onTop_room h
    simp only [List.length_cons, List.length_nil] at hroom
    have hlen : c.stack.length < 64 → rest.length + 2 ≤ 64 := by
      rw [h.1]; simp; omega
    refine ⟨lumenStep_of (exec_lDrop sl u s) due (shuffle_of_onTop 1 1 h (by simp; omega)),
      fun room => lumenStep_of (exec_dup sl u s) due (shuffle_of_onTop 1 1 h (hlen room)),
      fun room => lumenStep_of (exec_qget sl u s) due (shuffle_of_onTop 1 1 h (hlen room)),
      fun l f o hf hl hty => lumenStep_of (exec_stl sl u l s) due ?_⟩
    have hf' : topFrame { past 1 1 c with stack := rest } = some { f with pc := f.pc + 1 } := past_topFrame 1 1 c hf
    simp only [onTop_pop1 h, hf', hl, hty, if_true, after_zero]
  · have hroom := onTop_room h
    simp only [List.length_cons, List.length_nil] at hroom
    refine ⟨lumenStep_of (exec_lSwap sl u s) due (shuffle_of_onTop 1 1 h (by simp; omega)),
      fun room => lumenStep_of (exec_over sl u s) due (shuffle_of_onTop 1 1 h ?_),
      fun hb => ⟨_, lumenStep_of (exec_qset sl u s) due ?_, qRw_low _, qRw_class _⟩⟩
    · rw [h.1] at room; simp at room ⊢; omega
    · have ha : pop { past 1 1 c with stack := a :: rest } = some (a, { past 1 1 c with stack := rest }) :=
        pop_cons rfl (show baseOf (past 1 1 c) ≤ _ by rw [past_baseOf]; exact h.2.1)
      simp only [onTop_popT2 h hb, ha]
      rw [push_of_room (show rest.length < 64 by omega), after_zero]
  · have hroom := onTop_room h
    exact lumenStep_of (exec_rot sl u s) due (shuffle_of_onTop 1 1 h (by simp at hroom ⊢; omega))

/-! ### Control -/

section
variable {s : State} {sl : Slot} {u : Nat} {env : LEnv} {c : Cycle} {f : LFrame} {fs : List LFrame}

/-- The cycle past an instruction, by its frames. -/
theorem past_of_frames (len cost : Nat) (hc : c.frames = f :: fs) :
    past len cost c = { c with cost := c.cost + cost, frames := { f with pc := f.pc + len } :: fs } := by
  rw [past_only, past_frames, hc]

/-- A branch with the stack `st`. -/
theorem branchBy_past (cost : Nat) (st : List SEntry) (off : BitVec 24) (hc : c.frames = f :: fs) :
    branchBy off { past 1 cost c with stack := st } =
      .go { c with cost := c.cost + cost, stack := st, frames := { f with pc := ((f.pc : Int) + 1 + off.toInt).toNat } :: fs } := by
  rw [past_of_frames 1 cost hc]
  rfl

theorem branchIf_past (want : Bool) (off : BitVec 24) {x : SEntry} {rest : List SEntry} (hc : c.frames = f :: fs) (h : OnTop c [x] rest)
    (hx : x.ty = .bool) : branchIf want off (past 1 2 c) =
      .go { c with
        cost := c.cost + 2, stack := rest
        frames := { f with pc := ((f.pc : Int) + 1 + if x.val.getLsbD 0 = want then off.toInt else 0).toNat } :: fs } := by
  simp only [branchIf, onTop_popT1 h hx]
  split
  · exact branchBy_past 2 rest off hc
  · rw [past_of_frames 1 2 hc, Int.add_zero]; rfl

theorem callBlock_past {block : Nat} {b : Blk} {es rest : List SEntry} (hb : blockOf env.code block = some b) (hblock : block < le env.code 6 2)
    (hc : c.frames = f :: fs) (hfs : fs.length < 31) (h : OnTop c es rest) (hlen : es.length = b.params)
    (hty : es.reverse.map (fun e => e.ty) = b.ltypes.take b.params) : callBlock env block (past 1 8 c) =
      .go { c with
        cost := c.cost + 8 + b.nlocals
        stack := rest
        frames := { block := block, pc := b.start, base := rest.length
                    locals := es.reverse ++ (b.ltypes.drop b.params).map (fun t => { ty := t, val := 0, q := 0xC000 }) }
          :: { f with pc := f.pc + 1 } :: fs } := by
  have hpop := popN_append (past 1 8 c) es rest (by rw [past_stack]; exact h.1) (by rw [past_baseOf]; exact h.2.1)
  rw [hlen] at hpop
  have hfit : typesFit es.reverse (b.ltypes.take b.params) = true := decide_eq_true hty
  have hframes : (past 1 8 c).frames = { f with pc := f.pc + 1 } :: fs := by rw [past_of_frames 1 8 hc]
  simp only [callBlock, hb, hpop]
  rw [if_neg (by rw [hframes, hfit]; simp; omega), past_of_frames 1 8 hc]
  rfl

theorem retBlock_past {b : Blk} {es rest : List SEntry} (hb : blockOf env.code f.block = some b) (hc : c.frames = f :: fs) (hfs : fs ≠ [])
    (hst : c.stack = es ++ rest) (hbase : rest.length = f.base) (hty : es.reverse.map (fun e => e.ty) = b.rtypes) :
    retBlock env (past 1 4 c) = .go { c with cost := c.cost + 4, frames := fs } := by
  have hown : (es ++ rest).take ((es ++ rest).length - f.base) = es := by
    rw [List.length_append, hbase, Nat.add_sub_cancel, List.take_left]
  have hfit : typesFit es.reverse b.rtypes = true := decide_eq_true hty
  rw [past_of_frames 1 4 hc]
  simp only [retBlock, hb, hst, hown, hfit, if_true, List.isEmpty_iff, hfs, if_false]

end

/-- Settles O11. -/
theorem lumenControl : Obligations.LumenControl := by
  unfold Obligations.LumenControl
  intro s sl u env c f fs due hc
  dsimp only
  refine ⟨fun off => lumenStep_of (exec_br sl u off s) due ?_, fun off x rest h hx => ⟨?_, ?_⟩,
    fun block b es rest hb hblock hfs h hlen hty => lumenStep_of (exec_call sl u block s) due
      (callBlock_past hb hblock hc hfs h hlen hty),
    fun b es rest hb hfs hst hbase hty => lumenStep_of (exec_ret sl u s) due (retBlock_past hb hc hfs hst hbase hty)⟩
  · rw [← branchBy_past 2 c.stack off hc, ← past_stack 1 2 c]
  · exact lumenStep_of (exec_brt sl u off s) due (branchIf_past true off hc h hx)
  · refine lumenStep_of (exec_brf sl u off s) due ((branchIf_past false off hc h hx).trans ?_)
    cases x.val.getLsbD 0 <;> rfl

end Sys2Proof.Machine

/-! PROOF. Lumen code: arithmetic, compares, logic, bits, conversions and mathematics (R162, R163, R165, R166). -/

namespace Sys2Proof.Machine
open Sys2Proof Sys2Proof.Bits Sys2Proof.Safety

/-! ### Operands by their type -/

/-- A real type and its format. -/
def RealFmt (t : LType) (d : Dbl) : Prop := (t = .real32 ∧ d = false) ∨ (t = .real64 ∧ d = true)

section
variable {t : LType} {d : Dbl}

theorem costOf_int (ht : t = .int32 ∨ t = .int64) (x y : Nat) : costOf t x y = x := by rcases ht with rfl | rfl <;> rfl

theorem costOf_real (ht : RealFmt t d) (x y : Nat) : costOf t x y = y := by rcases ht with ⟨rfl, rfl⟩ | ⟨rfl, rfl⟩ <;> rfl

theorem realFmt_of (ht : RealFmt t d) : realFmt t = some d := by rcases ht with ⟨rfl, rfl⟩ | ⟨rfl, rfl⟩ <;> rfl

theorem arith_int (ht : t = .int32 ∨ t = .int64) (fi : Int → Int → Ar) (fr : Dbl → W64 → W64 → Ar) (c : Cycle) :
    arith t fi fr c = binary t t t (fun a b => fi (iVal t a) (iVal t b)) c := by rcases ht with rfl | rfl <;> rfl

theorem arith_real (ht : RealFmt t d) (fi : Int → Int → Ar) (fr : Dbl → W64 → W64 → Ar) (c : Cycle) :
    arith t fi fr c = binary t t t (fr d) c := by rcases ht with ⟨rfl, rfl⟩ | ⟨rfl, rfl⟩ <;> rfl

theorem arith1_int (ht : t = .int32 ∨ t = .int64) (fi : Int → Ar) (fr : Dbl → W64 → Ar) (c : Cycle) :
    arith1 t fi fr c = unary t t (fun a => fi (iVal t a)) c := by rcases ht with rfl | rfl <;> rfl

theorem arith1_real (ht : RealFmt t d) (fi : Int → Ar) (fr : Dbl → W64 → Ar) (c : Cycle) : arith1 t fi fr c = unary t t (fr d) c := by
  rcases ht with ⟨rfl, rfl⟩ | ⟨rfl, rfl⟩ <;> rfl

end

/-! ### An instruction on one or two operands -/

section
variable {i : Instr} {s : State} {sl : Slot} {u : Nat} {env : LEnv} {c : Cycle} {a b : SEntry} {rest : List SEntry} {ta tb tr : LType}
  {k cost : Nat} {f : LEnv → Cycle → LRes}

theorem unary_step {g : W64 → Ar} (e : exec i s = lumen 1 k f s sl u) (due : LumenDue s sl u env c) (hk : k = cost) (h : OnTop c [b] rest)
    (hb : b.ty = tb) (hf : ∀ x, f env x = unary tb tr g x) :
    LumenStep i s sl env (after cost c
      ({ ty := tr, val := maskVal tr (g b.val).val, q := qLower (qJoinAll [b.q]) (g b.val).qual } :: rest) (w32 (g b.val).flags)) := by
  subst hk
  exact lumenStep_of e due ((hf _).trans (unary_of_onTop tr g h hb 1 k))

theorem binary_step {g : W64 → W64 → Ar} (e : exec i s = lumen 1 k f s sl u) (due : LumenDue s sl u env c) (hk : k = cost)
    (h : OnTop c [b, a] rest) (ha : a.ty = ta) (hb : b.ty = tb) (hf : ∀ x, f env x = binary ta tb tr g x) :
    LumenStep i s sl env (after cost c
      ({ ty := tr, val := maskVal tr (g a.val b.val).val, q := qLower (qJoin a.q b.q) (g a.val b.val).qual } :: rest)
      (w32 (g a.val b.val).flags)) := by
  subst hk
  exact lumenStep_of e due ((hf _).trans (binary_of_onTop tr g h ha hb 1 k))

end

/-! ### Integer results (R163) -/

theorem iMin_le_iMax (t : LType) : iMin t ≤ iMax t := by rcases iBits_cases t with h | h <;> simp [iMin, iMax, h]

theorem zero_in_range (t : LType) : iMin t ≤ 0 ∧ 0 ≤ iMax t := by rcases iBits_cases t with h | h <;> simp [iMin, iMax, h]

theorem iVal_range (t : LType) (v : W64) : iMin t ≤ iVal t v ∧ iVal t v ≤ iMax t := by
  have hlt : v.toNat % 2 ^ iBits t < 2 ^ iBits t := Nat.mod_lt _ (by positivity)
  unfold iVal signed iMin iMax
  rcases iBits_cases t with h | h <;> rw [h] at hlt ⊢ <;> norm_num at hlt ⊢ <;> split <;> omega

theorem iVal_maskVal {t : LType} (ht : t = .int32 ∨ t = .int64) (v : W64) : iVal t (maskVal t v) = iVal t v := by
  rcases ht with rfl | rfl
  · simp only [iVal, maskVal, iBits, BitVec.toNat_setWidth]
    rw [Nat.mod_mod_of_dvd _ (by norm_num), Nat.mod_mod]
  · rfl

/-- An integer result of the type `t`: its value, and its flag, which lowers the quality to CLASS at most 0b01 with RANGE. -/
structure IntResult (t : LType) (r : Ar) (z : Int) (flag : W32) : Prop where
  value : iVal t (maskVal t r.val) = z
  flags_eq : w32 r.flags = flag
  quality : ∀ q, qLower q r.qual = if flag = 0 then q else qUncertain q ||| qRange

section
variable {t : LType}

theorem intResult_iWord (ht : t = .int32 ∨ t = .int64) {z : Int} (h1 : iMin t ≤ z) (h2 : z ≤ iMax t) :
    IntResult t { val := iWord t z } z 0 :=
  ⟨by rw [iVal_maskVal ht, iVal_iWord h1 h2], rfl, fun _ => rfl⟩

theorem intResult_iSat (ht : t = .int32 ∨ t = .int64) (z : Int) :
    IntResult t (iSat t z) (max (iMin t) (min z (iMax t))) (if iMin t ≤ z ∧ z ≤ iMax t then 0 else 1) := by
  have hle := iMin_le_iMax t
  unfold iSat
  split
  · next h =>
    rw [if_neg (by omega), show max (iMin t) (min z (iMax t)) = iMin t by omega]
    exact ⟨by rw [iVal_maskVal ht, iVal_iWord (le_refl _) hle], rfl, fun _ => rfl⟩
  · split
    · next h =>
      rw [if_neg (by omega), show max (iMin t) (min z (iMax t)) = iMax t by omega]
      exact ⟨by rw [iVal_maskVal ht, iVal_iWord hle (le_refl _)], rfl, fun _ => rfl⟩
    · rw [if_pos (by omega), show max (iMin t) (min z (iMax t)) = z by omega]
      exact intResult_iWord ht (by omega) (by omega)

theorem intResult_iDiv_zero (ht : t = .int32 ∨ t = .int64) (x : Int) {y : Int} (hy : y = 0) :
    IntResult t (iDiv t x y) (if 0 < x then iMax t else if x < 0 then iMin t else 0) 2 := by
  subst hy
  have hle := iMin_le_iMax t
  have hz := zero_in_range t
  refine ⟨?_, rfl, fun _ => rfl⟩
  rw [iVal_maskVal ht, iDiv, if_pos rfl]
  refine iVal_iWord ?_ ?_ <;> split_ifs <;> omega

theorem intResult_iMod_zero (ht : t = .int32 ∨ t = .int64) (x : Int) {y : Int} (hy : y = 0) : IntResult t (iMod t x y) 0 2 := by
  subst hy
  exact ⟨by rcases ht with rfl | rfl <;> rfl, rfl, fun _ => rfl⟩

/-- The remainder is as small as its divisor and has the sign of the dividend. -/
theorem intResult_iMod (ht : t = .int32 ∨ t = .int64) {x y : Int} (hx : iMin t ≤ x ∧ x ≤ iMax t) (hy : y ≠ 0) :
    IntResult t (iMod t x y) (x - y * x.tdiv y) 0 := by
  have hrem : x.tmod y = x - y * x.tdiv y := Int.tmod_def x y
  rw [iMod, if_neg hy, ← hrem]
  have hz := zero_in_range t
  refine intResult_iWord ht ?_ ?_
  · rcases Int.lt_or_le x 0 with h | h
    · have := Int.natAbs_tmod x y
      have := Nat.mod_le x.natAbs y.natAbs
      omega
    · have := Int.tmod_nonneg y h
      omega
  · rcases Int.lt_or_le x 0 with h | h
    · have := Int.tmod_nonneg y (show 0 ≤ -x by omega)
      rw [Int.neg_tmod] at this
      omega
    · have := Int.natAbs_tmod x y
      have := Nat.mod_le x.natAbs y.natAbs
      omega

end

section
variable {i : Instr} {s : State} {sl : Slot} {u : Nat} {env : LEnv} {c : Cycle} {a b : SEntry} {rest : List SEntry} {t : LType}
  {k cost : Nat} {f : LEnv → Cycle → LRes} {z : Int} {flag : W32}

theorem intUnary_gives {g : W64 → Ar} (r : IntResult t (g b.val) z flag) (e : exec i s = lumen 1 k f s sl u) (due : LumenDue s sl u env c)
    (hk : k = cost) (h : OnTop c [b] rest) (hb : b.ty = t) (hf : ∀ x, f env x = unary t t g x) :
    ∃ v, iVal t v = z ∧ LumenStep i s sl env (after cost c
      ({ ty := t, val := v, q := if flag = 0 then qJoinAll [b.q] else qUncertain (qJoinAll [b.q]) ||| qRange } :: rest) flag) := by
  have step := unary_step e due hk h hb hf
  rw [r.flags_eq, r.quality] at step
  exact ⟨_, r.value, step⟩

theorem intBinary_gives {g : W64 → W64 → Ar} (r : IntResult t (g a.val b.val) z flag) (e : exec i s = lumen 1 k f s sl u)
    (due : LumenDue s sl u env c) (hk : k = cost) (h : OnTop c [b, a] rest) (ha : a.ty = t) (hb : b.ty = t)
    (hf : ∀ x, f env x = binary t t t g x) :
    ∃ v, iVal t v = z ∧ LumenStep i s sl env (after cost c
      ({ ty := t, val := v, q := if flag = 0 then qJoin a.q b.q else qUncertain (qJoin a.q b.q) ||| qRange } :: rest) flag) := by
  have step := binary_step e due hk h ha hb hf
  rw [r.flags_eq, r.quality] at step
  exact ⟨_, r.value, step⟩

end

/-- Settles O5: each operation by its integer result. -/
theorem lumenIntegerArithmetic : Obligations.LumenIntegerArithmetic := by
  unfold Obligations.LumenIntegerArithmetic
  intro s sl u env c t a b rest due ht h hb
  have hx := iVal_range t a.val
  have hy := iVal_range t b.val
  have hdiv : (match t with | .real32 => 12 | .real64 => 18 | _ => 20) = 20 := by rcases ht with rfl | rfl <;> rfl
  refine ⟨?_, ?_, fun ha => ⟨?_, ?_, ?_, ?_, ?_, fun hy0 => ⟨?_, ?_⟩, fun hy0 => ⟨?_, ?_⟩⟩⟩
  · exact intUnary_gives (g := fun x => iSat t (-iVal t x)) (intResult_iSat ht _) (exec_neg sl u t s) due rfl (onTop_upper h) hb
      (fun x => arith1_int ht _ _ x)
  · exact intUnary_gives (g := fun x => iSat t (iVal t x).natAbs) (intResult_iSat ht _) (exec_abs sl u t s) due rfl (onTop_upper h) hb
      (fun x => arith1_int ht _ _ x)
  · exact intBinary_gives (g := fun x y => iSat t (iVal t x + iVal t y)) (intResult_iSat ht _)
      (exec_add sl u t s) due (costOf_int ht 1 3) h ha hb (fun x => by rcases ht with rfl | rfl <;> rfl)
  · exact intBinary_gives (g := fun x y => iSat t (iVal t x - iVal t y)) (intResult_iSat ht _)
      (exec_sub sl u t s) due (costOf_int ht 1 3) h ha hb (fun x => by rcases ht with rfl | rfl <;> rfl)
  · exact intBinary_gives (g := fun x y => iSat t (iVal t x * iVal t y)) (intResult_iSat ht _)
      (exec_mul sl u t s) due (costOf_int ht 3 4) h ha hb (fun x => arith_int ht _ _ x)
  · exact intBinary_gives (g := fun x y => { val := iWord t (min (iVal t x) (iVal t y)) }) (intResult_iWord ht (by omega) (by omega))
      (exec_min sl u t s) due (costOf_int ht 1 2) h ha hb (fun x => arith_int ht _ _ x)
  · exact intBinary_gives (g := fun x y => { val := iWord t (max (iVal t x) (iVal t y)) }) (intResult_iWord ht (by omega) (by omega))
      (exec_max sl u t s) due (costOf_int ht 1 2) h ha hb (fun x => arith_int ht _ _ x)
  · have r := intResult_iSat ht ((iVal t a.val).tdiv (iVal t b.val))
    rw [show iSat t _ = iDiv t (iVal t a.val) (iVal t b.val) by rw [iDiv, if_neg hy0]] at r
    exact intBinary_gives (g := fun x y => iDiv t (iVal t x) (iVal t y)) r (exec_div sl u t s) due hdiv h ha hb
      (fun x => arith_int ht _ _ x)
  · exact intBinary_gives (g := fun x y => iMod t (iVal t x) (iVal t y)) (intResult_iMod ht hx hy0)
      (exec_mod sl u t s) due rfl h ha hb (fun x => by rcases ht with rfl | rfl <;> rfl)
  · exact intBinary_gives (g := fun x y => iDiv t (iVal t x) (iVal t y)) (intResult_iDiv_zero ht _ hy0) (exec_div sl u t s)
      due hdiv h ha hb (fun x => arith_int ht _ _ x)
  · exact intBinary_gives (g := fun x y => iMod t (iVal t x) (iVal t y)) (intResult_iMod_zero ht _ hy0) (exec_mod sl u t s) due rfl h ha hb
      (fun x => by rcases ht with rfl | rfl <;> rfl)

end Sys2Proof.Machine

/-! PROOF. Lumen code: real arithmetic, mathematics and compares (R162, R163, R165, R166). -/

namespace Sys2Proof.Machine
open Sys2Proof Sys2Proof.Bits Sys2Proof.Safety

/-! ### NaN operands (R162, R163) -/

section
variable {d : Dbl} {a b : W64}

theorem fIsNaN_iff : fIsNaN d a = true ↔ fDec d a = .nan := by
  unfold fIsNaN
  split <;> simp_all

theorem fNeg_nan (h : fIsNaN d a = true) : fNeg d a = arNaN d := by rw [fNeg, if_pos h]

theorem fAbs_nan (h : fIsNaN d a = true) : fAbs d a = arNaN d := by rw [fAbs, if_pos h]

theorem fAdd_nan (h : fIsNaN d a = true ∨ fIsNaN d b = true) : fAdd d a b = arNaN d := by
  unfold fAdd
  rcases h with h | h <;> rw [fIsNaN_iff] at h <;> rw [h]
  split <;> simp_all

theorem fSub_nan (h : fIsNaN d a = true ∨ fIsNaN d b = true) : fSub d a b = arNaN d := by
  unfold fSub
  split
  · rfl
  · next hb => exact fAdd_nan (.inl (h.resolve_right hb))

theorem fMul_nan (h : fIsNaN d a = true ∨ fIsNaN d b = true) : fMul d a b = arNaN d := by
  unfold fMul
  rcases h with h | h <;> rw [fIsNaN_iff] at h <;> rw [h]
  split <;> simp_all

theorem fDiv_nan (h : fIsNaN d a = true ∨ fIsNaN d b = true) : fDiv d a b = arNaN d := by
  unfold fDiv
  rcases h with h | h <;> rw [fIsNaN_iff] at h <;> rw [h]
  split <;> simp_all

theorem fCmp_nan (h : fIsNaN d a = true ∨ fIsNaN d b = true) : fCmp d a b = none := by
  unfold fCmp
  rcases h with h | h <;> rw [fIsNaN_iff] at h <;> rw [h]
  split <;> simp_all

theorem fMin_nan (h : fIsNaN d a = true ∨ fIsNaN d b = true) : fMin d a b = arNaN d := by rw [fMin, fCmp_nan h]

theorem fMax_nan (h : fIsNaN d a = true ∨ fIsNaN d b = true) : fMax d a b = arNaN d := by rw [fMax, fCmp_nan h]

end

/-- The entry that an invalid real operation leaves: the canonical NaN with CLASS 0b00 and RANGE, and INVALID (R163). -/
theorem after_arNaN {t : LType} {d : Dbl} (ht : RealFmt t d) (cost : Nat) (c : Cycle) (q : W16) (under : List SEntry) {r : Ar} (hr : r = arNaN d) :
    after cost c ({ ty := t, val := maskVal t r.val, q := qLower q r.qual } :: under) (w32 r.flags) =
      after cost c ({ ty := t, val := if d then 0x7FF8000000000000 else 0x7FC00000, q := withClass q 0 ||| qRange } :: under) 4 := by
  subst hr
  rcases ht with ⟨rfl, rfl⟩ | ⟨rfl, rfl⟩ <;> rfl

/-- Settles O6: each operation by its real function, a NaN by what that makes of it. -/
theorem lumenRealArithmetic : Obligations.LumenRealArithmetic := by
  unfold Obligations.LumenRealArithmetic
  intro s sl u env c a b rest due h
  refine ⟨fun t d ht hb => ?_, fun ha => ⟨fun hb => ?_, fun hb => ?_⟩⟩
  · have hdiv : (match t with | .real32 => 12 | .real64 => 18 | _ => 20) = if d then 18 else 12 := by
      rcases ht with ⟨rfl, rfl⟩ | ⟨rfl, rfl⟩ <;> rfl
    have neg := unary_step (g := fNeg d) (exec_neg sl u t s) due rfl (onTop_upper h) hb (arith1_real ht _ _)
    have abs := unary_step (g := fAbs d) (exec_abs sl u t s) due rfl (onTop_upper h) hb (arith1_real ht _ _)
    refine ⟨neg, abs, fun hnan => ⟨?_, ?_⟩, fun ha => ?_⟩
    · rw [after_arNaN ht 1 c _ _ (fNeg_nan hnan)] at neg; exact neg
    · rw [after_arNaN ht 1 c _ _ (fAbs_nan hnan)] at abs; exact abs
    · have add := binary_step (tr := t) (g := fAdd d) (exec_add sl u t s) due (costOf_real ht 1 3) h ha hb
        (fun x => by rcases ht with ⟨rfl, rfl⟩ | ⟨rfl, rfl⟩ <;> rfl)
      have sub := binary_step (tr := t) (g := fSub d) (exec_sub sl u t s) due (costOf_real ht 1 3) h ha hb
        (fun x => by rcases ht with ⟨rfl, rfl⟩ | ⟨rfl, rfl⟩ <;> rfl)
      have mul := binary_step (g := fMul d) (exec_mul sl u t s) due (costOf_real ht 3 4) h ha hb (arith_real ht _ _)
      have div := binary_step (g := fDiv d) (exec_div sl u t s) due hdiv h ha hb (arith_real ht _ _)
      have min := binary_step (g := fMin d) (exec_min sl u t s) due (costOf_real ht 1 2) h ha hb (arith_real ht _ _)
      have max := binary_step (g := fMax d) (exec_max sl u t s) due (costOf_real ht 1 2) h ha hb (arith_real ht _ _)
      refine ⟨add, sub, mul, div, min, max, fun hnan => ?_⟩
      rw [after_arNaN ht 3 c _ _ (fAdd_nan hnan)] at add
      rw [after_arNaN ht 3 c _ _ (fSub_nan hnan)] at sub
      rw [after_arNaN ht 4 c _ _ (fMul_nan hnan)] at mul
      rw [after_arNaN ht _ c _ _ (fDiv_nan hnan)] at div
      rw [after_arNaN ht 2 c _ _ (fMin_nan hnan)] at min
      rw [after_arNaN ht 2 c _ _ (fMax_nan hnan)] at max
      exact ⟨add, sub, mul, div, min, max⟩
  · exact binary_step (g := fun x y => { val := x + y }) (exec_add sl u .time64 s) due rfl h ha hb (fun _ => rfl)
  · exact binary_step (g := fun x y => { val := x - y }) (exec_sub sl u .time64 s) due rfl h ha hb (fun _ => rfl)

/-! ### Mathematics (R166) -/

section
variable {d : Dbl} {a : W64} (version : W32)

theorem fSqrt_nan (h : fIsNaN d a = true) : fSqrt d a version = arNaN d := by rw [fSqrt, fIsNaN_iff.1 h]
theorem fExp_nan (h : fIsNaN d a = true) : fExp d a version = arNaN d := by rw [fExp, fIsNaN_iff.1 h]
theorem fLn_nan (h : fIsNaN d a = true) : fLn d a version = arNaN d := by rw [fLn, fIsNaN_iff.1 h]
theorem fSin_nan (h : fIsNaN d a = true) : fSin d a version = arNaN d := by rw [fSin, fIsNaN_iff.1 h]
theorem fCos_nan (h : fIsNaN d a = true) : fCos d a version = arNaN d := by rw [fCos, fIsNaN_iff.1 h]

theorem fDec_zero (d : Dbl) : fDec d 0 = .fin false 0 (fQmin d) := by cases d <;> rfl

/-- A value below 0 is −infinity or a finite value with its sign set. -/
theorem fDec_of_neg (h : fCmp d a 0 = some .lt) : fDec d a = .inf true ∨ ∃ m e, m ≠ 0 ∧ fDec d a = .fin true m e := by
  rw [fCmp, fDec_zero] at h
  cases hx : fDec d a with
  | nan => simp [hx] at h
  | inf x => cases x <;> simp [hx] at h ⊢
  | fin n m e =>
    refine .inr ⟨m, e, ?_, ?_⟩
    · rintro rfl; simp [hx, fSum] at h
    · cases n with
      | true => rfl
      | false => simp [hx, fSum] at h

theorem fSqrt_neg (h : fCmp d a 0 = some .lt) : fSqrt d a version = arNaN d := by
  rcases fDec_of_neg h with e | ⟨m, k, hm, e⟩
  · rw [fSqrt, e]
  · rw [fSqrt, e]; exact (if_neg hm).trans (if_pos rfl)

theorem fLn_neg (h : fCmp d a 0 = some .lt) : fLn d a version = arNaN d := by
  rcases fDec_of_neg h with e | ⟨m, k, hm, e⟩
  · rw [fLn, e]; rfl
  · rw [fLn, e]; exact (if_neg hm).trans (if_pos rfl)

end

theorem real1_of {t : LType} {d : Dbl} (ht : RealFmt t d) (f : Dbl → W64 → Ar) (c : Cycle) : real1 t f c = unary t t (f d) c := by
  rw [real1, realFmt_of ht]

/-- The module of the cycle that runs. -/
theorem lumenDue_mod {s : State} {sl : Slot} {u : Nat} {env : LEnv} {c : Cycle} (due : LumenDue s sl u env c) : env.m = modOf s sl := by
  obtain ⟨c0, hrun, -, -⟩ := due
  unfold running at hrun
  split at hrun
  · cases hrun
  · repeat' split at hrun
    all_goals cases hrun
    rfl

/-- Settles O9: each function by its value, a NaN or a negative operand by what that makes of it. -/
theorem lumenMath : Obligations.LumenMath := by
  unfold Obligations.LumenMath
  intro s sl u env c t d b rest due ht h hb
  have hm := lumenDue_mod due
  have sqrt := unary_step (g := fun x => fSqrt d x (imageVersion env.m)) (exec_sqrt sl u t s) due rfl h hb (real1_of ht _)
  have exp := unary_step (g := fun x => fExp d x (imageVersion env.m)) (exec_exp sl u t s) due rfl h hb (real1_of ht _)
  have ln := unary_step (g := fun x => fLn d x (imageVersion env.m)) (exec_ln sl u t s) due rfl h hb (real1_of ht _)
  have sin := unary_step (g := fun x => fSin d x (imageVersion env.m)) (exec_sin sl u t s) due rfl h hb (real1_of ht _)
  have cos := unary_step (g := fun x => fCos d x (imageVersion env.m)) (exec_cos sl u t s) due rfl h hb (real1_of ht _)
  dsimp only
  rw [← hm]
  refine ⟨sqrt, exp, ln, sin, cos, ?_, fun hnan => ?_, fun hneg => ?_⟩
  · rintro y under rfl hbase hy
    have h2 : OnTop c [b, y] under := ⟨h.1, hbase, h.2.2⟩
    exact binary_step (g := fun y x => fAtan2 d y x (imageVersion env.m)) (exec_atan2 sl u t s) due rfl h2 hy hb
      (fun x => by simp only [realFmt_of ht])
  · rw [after_arNaN ht _ c _ _ (fSqrt_nan _ hnan)] at sqrt
    rw [after_arNaN ht _ c _ _ (fExp_nan _ hnan)] at exp
    rw [after_arNaN ht _ c _ _ (fLn_nan _ hnan)] at ln
    rw [after_arNaN ht _ c _ _ (fSin_nan _ hnan)] at sin
    rw [after_arNaN ht _ c _ _ (fCos_nan _ hnan)] at cos
    exact ⟨sqrt, exp, ln, sin, cos⟩
  · rw [after_arNaN ht _ c _ _ (fSqrt_neg _ hneg)] at sqrt
    rw [after_arNaN ht _ c _ _ (fLn_neg _ hneg)] at ln
    exact ⟨sqrt, ln⟩

end Sys2Proof.Machine

/-! PROOF. Lumen code: compares, logic, bits, shifts and conversions (R163, R165, R166). -/

namespace Sys2Proof.Machine
open Sys2Proof Sys2Proof.Bits Sys2Proof.Safety

/-! ### Truth values -/

/-- The instruction replaces the operands on top by a BOOL that is 1 exactly where `r` holds. -/
def BoolStep (i : Instr) (s : State) (sl : Slot) (env : LEnv) (c : Cycle) (cost : Nat) (q : W16) (rest : List SEntry) (r : Prop) : Prop :=
  ∃ v : W64, LumenStep i s sl env (after cost c ({ ty := .bool, val := v, q := q } :: rest)) ∧ (v = 1 ∨ v = 0) ∧ (v = 1 ↔ r)

theorem maskVal_bWord (p : Bool) : maskVal .bool (bWord p) = bWord p := by cases p <;> rfl

theorem bWord_cases (p : Bool) : bWord p = 1 ∨ bWord p = 0 := by cases p <;> simp [bWord]

theorem bWord_eq_one (p : Bool) : bWord p = 1 ↔ p = true := by cases p <;> simp [bWord]

section
variable {i : Instr} {s : State} {sl : Slot} {u : Nat} {env : LEnv} {c : Cycle} {a b : SEntry} {rest : List SEntry} {ta tb t : LType}
  {k cost : Nat} {f : LEnv → Cycle → LRes}

/-- A two-operand operation with a truth value as its result. -/
theorem boolStep_of_binary {g : W64 → W64 → Ar} {p : Bool} {r : Prop} (hg : g a.val b.val = { val := bWord p }) (hp : p = true ↔ r)
    (e : exec i s = lumen 1 k f s sl u) (due : LumenDue s sl u env c) (hk : k = cost) (h : OnTop c [b, a] rest) (ha : a.ty = ta)
    (hb : b.ty = tb) (hf : ∀ x, f env x = binary ta tb .bool g x) : BoolStep i s sl env c cost (qJoin a.q b.q) rest r := by
  have step := binary_step e due hk h ha hb hf
  rw [hg, maskVal_bWord] at step
  exact ⟨_, step, bWord_cases p, (bWord_eq_one p).trans hp⟩

/-! ### Compares -/

theorem ordered_eq (ht : t ≠ .bool) (p : Ordering → Bool) (c : Cycle) : ordered t p c = binary t t .bool (ordAr t p) c := if_neg ht

theorem ordAr_of_some {x y : W64} {o : Ordering} (p : Ordering → Bool) (h : cmpVals t x y = some o) : ordAr t p x y = { val := bWord (p o) } := by
  rw [ordAr, h]

theorem ordAr_of_none {x y : W64} (p : Ordering → Bool) (h : cmpVals t x y = none) : ordAr t p x y = { val := 0, flags := fINVALID, qual := 3 } := by
  rw [ordAr, h]

variable {sl : Slot} {o : Ordering} {lt eq : Prop}

theorem eq_step (due : LumenDue s sl u env c) (hk : costOf t 1 2 = cost) (h : OnTop c [b, a] rest) (ha : a.ty = t) (hb : b.ty = t) :
    BoolStep (.eq sl u t) s sl env c cost (qJoin a.q b.q) rest (cmpVals t a.val b.val = some .eq) :=
  boolStep_of_binary rfl (by simp) (exec_eq sl u t s) due hk h ha hb (fun _ => rfl)

theorem ne_step (due : LumenDue s sl u env c) (hk : costOf t 1 2 = cost) (h : OnTop c [b, a] rest) (ha : a.ty = t) (hb : b.ty = t) :
    BoolStep (.ne sl u t) s sl env c cost (qJoin a.q b.q) rest (cmpVals t a.val b.val ≠ some .eq) :=
  boolStep_of_binary rfl (by simp) (exec_ne sl u t s) due hk h ha hb (fun _ => rfl)

/-- The six compares of two operands that have an order, by that order. -/
theorem compares_of_order (due : LumenDue s sl u env c) (hk : costOf t 1 2 = cost) (h : OnTop c [b, a] rest) (ha : a.ty = t) (hb : b.ty = t)
    (ht : t ≠ .bool) (hcmp : cmpVals t a.val b.val = some o) (hlt : lt ↔ o = .lt) (heq : eq ↔ o = .eq) :
    BoolStep (.eq sl u t) s sl env c cost (qJoin a.q b.q) rest eq ∧ BoolStep (.ne sl u t) s sl env c cost (qJoin a.q b.q) rest (¬ eq)
    ∧ BoolStep (.lt sl u t) s sl env c cost (qJoin a.q b.q) rest lt ∧ BoolStep (.le sl u t) s sl env c cost (qJoin a.q b.q) rest (lt ∨ eq)
    ∧ BoolStep (.gt sl u t) s sl env c cost (qJoin a.q b.q) rest (¬ lt ∧ ¬ eq)
    ∧ BoolStep (.ge sl u t) s sl env c cost (qJoin a.q b.q) rest (¬ lt) := by
  have hsome : cmpVals t a.val b.val = some .eq ↔ eq := by rw [hcmp, heq, Option.some.injEq]
  refine ⟨?_, ?_, ?_, ?_, ?_, ?_⟩
  · rw [← hsome]; exact eq_step due hk h ha hb
  · rw [← hsome]; exact ne_step due hk h ha hb
  · exact boolStep_of_binary (ordAr_of_some _ hcmp) (by rw [hlt]; cases o <;> decide) (exec_lt sl u t s) due hk h ha hb (ordered_eq ht _)
  · exact boolStep_of_binary (ordAr_of_some _ hcmp) (by rw [hlt, heq]; cases o <;> decide) (exec_le sl u t s) due hk h ha hb (ordered_eq ht _)
  · exact boolStep_of_binary (ordAr_of_some _ hcmp) (by rw [hlt, heq]; cases o <;> decide) (exec_gt sl u t s) due hk h ha hb (ordered_eq ht _)
  · exact boolStep_of_binary (ordAr_of_some _ hcmp) (by rw [hlt]; cases o <;> decide) (exec_ge sl u t s) due hk h ha hb (ordered_eq ht _)

/-- An ordered compare of operands without an order gives 0 with INVALID and CLASS 0b00 (R163). -/
theorem unordered_step {p : Ordering → Bool} (hcmp : cmpVals t a.val b.val = none) (ht : t ≠ .bool) (e : exec i s = lumen 1 k f s sl u)
    (due : LumenDue s sl u env c) (hk : k = cost) (h : OnTop c [b, a] rest) (ha : a.ty = t) (hb : b.ty = t)
    (hf : ∀ x, f env x = ordered t p x) :
    LumenStep i s sl env (after cost c ({ ty := .bool, val := 0, q := withClass (qJoin a.q b.q) 0 } :: rest) 4) := by
  have step := binary_step e due hk h ha hb (fun x => (hf x).trans (ordered_eq ht p x))
  rw [ordAr_of_none p hcmp] at step
  exact step

end

theorem cmpVals_int {t : LType} (ht : t = .int32 ∨ t = .int64) (x y : W64) : cmpVals t x y = some (compare (iVal t x) (iVal t y)) := by
  rcases ht with rfl | rfl <;> rfl

theorem cmpVals_real {t : LType} {d : Dbl} (ht : RealFmt t d) (x y : W64) : cmpVals t x y = fCmp d x y := by
  rcases ht with ⟨rfl, rfl⟩ | ⟨rfl, rfl⟩ <;> rfl

theorem sub_toInt_eq_zero (x y : W64) : (x - y).toInt = 0 ↔ x = y := by
  constructor
  · intro h
    have hz : x - y = 0 := BitVec.eq_of_toInt_eq (by rw [h]; rfl)
    bv_omega
  · rintro rfl; simp

theorem bool_eq_iff (x y : W64) : cmpVals .bool x y = some .eq ↔ x.getLsbD 0 = y.getLsbD 0 := by
  simp only [cmpVals, Option.some.injEq, Nat.compare_eq_eq, BitVec.getLsbD, Nat.testBit_zero]
  have := Nat.mod_lt x.toNat (show 0 < 2 by omega)
  have := Nat.mod_lt y.toNat (show 0 < 2 by omega)
  rw [decide_eq_decide]
  omega

/-- Settles O7: the logic, then the compares of each type by the order of their operands. -/
theorem lumenCompare : Obligations.LumenCompare := by
  unfold Obligations.LumenCompare
  intro s sl u env c a b rest due h
  refine ⟨fun hty => ⟨fun hb => ⟨?_, ?_, ?_, ?_, ?_⟩, fun t ht hb => ?_, fun hb => ?_, fun t d ht hb => ⟨fun o ho => ?_, fun hnone => ⟨?_, ?_, ?_⟩⟩⟩,
    fun hb => ?_⟩
  · have step := eq_step due (t := .bool) rfl h (hty.trans hb) hb
    rw [bool_eq_iff] at step
    exact step
  · have step := ne_step due (t := .bool) rfl h (hty.trans hb) hb
    rw [Ne, bool_eq_iff] at step
    exact step
  · exact boolStep_of_binary rfl (Bool.and_eq_true _ _ ▸ Iff.rfl) (exec_and sl u s) due rfl h (hty.trans hb) hb (fun _ => rfl)
  · exact boolStep_of_binary rfl (Bool.or_eq_true _ _ ▸ Iff.rfl) (exec_or sl u s) due rfl h (hty.trans hb) hb (fun _ => rfl)
  · exact boolStep_of_binary rfl bne_iff_ne (exec_xor sl u s) due rfl h (hty.trans hb) hb (fun _ => rfl)
  · have hnb : t ≠ .bool := by rcases ht with rfl | rfl <;> decide
    exact compares_of_order due (costOf_int ht 1 2) h (hty.trans hb) hb hnb (cmpVals_int ht _ _) Int.compare_eq_lt.symm Int.compare_eq_eq.symm
  · exact compares_of_order due (t := .time64) rfl h (hty.trans hb) hb (by decide) rfl Int.compare_eq_lt.symm
      ((sub_toInt_eq_zero _ _).symm.trans Int.compare_eq_eq.symm)
  · have hnb : t ≠ .bool := by rcases ht with ⟨rfl, -⟩ | ⟨rfl, -⟩ <;> decide
    exact compares_of_order due (costOf_real ht 1 2) h (hty.trans hb) hb hnb ((cmpVals_real ht _ _).trans ho) Iff.rfl Iff.rfl
  · have step := eq_step due (costOf_real ht 1 2) h (hty.trans hb) hb
    rw [cmpVals_real ht, hnone] at step
    simp only [reduceCtorEq] at step
    exact step
  · have step := ne_step due (costOf_real ht 1 2) h (hty.trans hb) hb
    rw [cmpVals_real ht, hnone] at step
    simp only [ne_eq, reduceCtorEq, not_false_eq_true] at step
    exact step
  · have hnb : t ≠ .bool := by rcases ht with ⟨rfl, -⟩ | ⟨rfl, -⟩ <;> decide
    have hcmp := (cmpVals_real ht _ _).trans hnone
    have cost := costOf_real ht 1 2
    have ha := hty.trans hb
    intro i hi
    simp only [List.mem_cons, List.not_mem_nil, or_false] at hi
    rcases hi with rfl | rfl | rfl | rfl
    · exact unordered_step hcmp hnb (exec_lt sl u t s) due cost h ha hb (fun _ => rfl)
    · exact unordered_step hcmp hnb (exec_le sl u t s) due cost h ha hb (fun _ => rfl)
    · exact unordered_step hcmp hnb (exec_gt sl u t s) due cost h ha hb (fun _ => rfl)
    · exact unordered_step hcmp hnb (exec_ge sl u t s) due cost h ha hb (fun _ => rfl)
  · have step := unary_step (exec_not sl u s) due rfl (onTop_upper h) hb (fun _ => rfl)
    rw [maskVal_bWord] at step
    cases hbit : b.val.getLsbD 0 <;> (rw [hbit] at step; exact step)

/-! ### Bits and shifts -/

/-- A shift to the right that fills with the sign is a division that rounds down. -/
theorem iVal_sarOf (t : LType) (v : W64) (n : Nat) : iVal t (sarOf t v n) = iVal t v / 2 ^ n := by
  have hx := iVal_range t v
  have hz := zero_in_range t
  have hpos : (0 : Int) < 2 ^ n := by positivity
  refine iVal_iWord ?_ ?_
  · rw [Int.le_ediv_iff_mul_le hpos]
    nlinarith
  · refine (Int.ediv_le_ediv hpos hx.2).trans ?_
    exact Int.ediv_le_self _ hz.2

section
variable {t : LType} (ht : t = .int32 ∨ t = .int64)
include ht

theorem bits2_int (f : W64 → W64 → W64) (c : Cycle) : bits2 t f c = binary t t t (fun a b => { val := f a b }) c := by
  rcases ht with rfl | rfl <;> rfl

theorem maskVal_maskVal (v : W64) : maskVal t (maskVal t v) = maskVal t v := by
  rcases ht with rfl | rfl
  · simp [maskVal]
  · rfl

theorem maskVal_maskVal_shift (v : W64) (n : Nat) : maskVal t (maskVal t v >>> n) = maskVal t v >>> n := by
  rcases ht with rfl | rfl
  · apply BitVec.eq_of_toNat_eq
    have hlt : v.toNat % 2 ^ 32 / 2 ^ n ≤ v.toNat % 2 ^ 32 := Nat.div_le_self _ _
    have := Nat.mod_lt v.toNat (show 0 < 2 ^ 32 by norm_num)
    have h64 : v.toNat % 2 ^ 32 % 2 ^ 64 = v.toNat % 2 ^ 32 := Nat.mod_eq_of_lt (by omega)
    simp only [maskVal, BitVec.toNat_setWidth, BitVec.toNat_ushiftRight, Nat.shiftRight_eq_div_pow, h64]
    rw [Nat.mod_eq_of_lt (by omega), Nat.mod_eq_of_lt (by omega)]
  · rfl

/-- The result of a shift, by its count. -/
theorem shift_int (f : W64 → Nat → W64) (out : W64 → W64) (c : Cycle) : shift t f out c = binary t .int32 t (fun a n =>
    { val := maskVal t (if iVal .int32 n < 0 ∨ (iBits t : Int) ≤ iVal .int32 n then out a else f a (iVal .int32 n).toNat) }) c := by
  rcases ht with rfl | rfl <;> rfl

theorem iVal_sarOf_out (v : W64) : iVal t (sarOf t v 63) = if iVal t v < 0 then -1 else 0 := by
  have hx := iVal_range t v
  rw [iVal_sarOf]
  rcases ht with rfl | rfl <;> simp only [iMin, iMax, iBits] at hx <;> split <;> omega

end

/-! ### Conversions -/

/-- Whether a conversion exists does not depend on the value. -/
theorem cvtVal_isNone (target source : LType) (v w : W64) : (cvtVal target source v).isNone = (cvtVal target source w).isNone := by
  cases target <;> cases source <;> simp only [cvtVal, Option.isNone_some, Option.isNone_none]

theorem cvt_step {s : State} {sl : Slot} {u : Nat} {env : LEnv} {c : Cycle} {b : SEntry} {rest : List SEntry} {target : LType} {r : Ar}
    (hr : cvtVal target b.ty b.val = some r) (hne : target ≠ b.ty) (due : LumenDue s sl u env c) (h : OnTop c [b] rest) :
    LumenStep (.cvt sl u target b.ty) s sl env
      (after 2 c ({ ty := target, val := maskVal target r.val, q := qLower (qJoinAll [b.q]) r.qual } :: rest) (w32 r.flags)) := by
  have hnone : (cvtVal target b.ty 0).isNone = false := by rw [cvtVal_isNone _ _ 0 b.val, hr]; rfl
  have step := unary_step (exec_cvt sl u target b.ty s) due rfl h rfl
    (fun x => (if_neg hne).trans (if_neg (by rw [hnone]; exact Bool.false_ne_true)))
  simp only [hr, Option.getD_some] at step
  exact step

theorem iSat_of_range {t : LType} {z : Int} (h1 : iMin t ≤ z) (h2 : z ≤ iMax t) : iSat t z = { val := iWord t z } := by
  rw [iSat, if_neg (by omega), if_neg (by omega)]

/-- Settles O8: bits and shifts by their operands, a conversion by its two types. -/
theorem lumenBitsConvert : Obligations.LumenBitsConvert := by
  unfold Obligations.LumenBitsConvert
  intro s sl u env c a b rest due h
  refine ⟨fun t ht ha => ⟨fun hb => ⟨?_, ?_, ?_, ?_⟩, fun hb => ⟨fun hn => ⟨?_, ?_, ?_⟩, fun hn => ⟨?_, ?_, ?_⟩⟩⟩, fun target hne => ?_⟩
  · exact binary_step (g := fun a b => { val := a &&& b }) (exec_band sl u t s) due rfl h ha hb (bits2_int ht _)
  · exact binary_step (g := fun a b => { val := a ||| b }) (exec_bor sl u t s) due rfl h ha hb (bits2_int ht _)
  · exact binary_step (g := fun a b => { val := a ^^^ b }) (exec_bxor sl u t s) due rfl h ha hb (bits2_int ht _)
  · have step := unary_step (g := fun a => { val := maskVal t (~~~a) }) (tr := t) (exec_bnot sl u t s) due rfl (onTop_upper h) hb
      (fun x => by rcases ht with rfl | rfl <;> rfl)
    rw [maskVal_maskVal ht] at step
    exact step
  · have step := binary_step (exec_shl sl u t s) due rfl h ha hb (shift_int ht _ _)
    rw [if_neg (by omega), maskVal_maskVal ht] at step
    exact step
  · have step := binary_step (exec_shru sl u t s) due rfl h ha hb (shift_int ht _ _)
    rw [if_neg (by omega), maskVal_maskVal ht, maskVal_maskVal_shift ht] at step
    exact step
  · have step := binary_step (exec_shr sl u t s) due rfl h ha hb (shift_int ht _ _)
    rw [if_neg (by omega), maskVal_maskVal ht] at step
    exact ⟨_, step, by rw [iVal_maskVal ht, iVal_sarOf t]⟩
  · have step := binary_step (exec_shl sl u t s) due rfl h ha hb (shift_int ht _ _)
    rw [if_pos hn] at step
    rcases ht with rfl | rfl <;> exact step
  · have step := binary_step (exec_shru sl u t s) due rfl h ha hb (shift_int ht _ _)
    rw [if_pos hn] at step
    rcases ht with rfl | rfl <;> exact step
  · have step := binary_step (exec_shr sl u t s) due rfl h ha hb (shift_int ht _ _)
    rw [if_pos hn, maskVal_maskVal ht] at step
    exact ⟨_, step, by rw [iVal_maskVal ht, iVal_sarOf_out ht]⟩
  · have gives {r : Ar} (hr : cvtVal target b.ty b.val = some r) := cvt_step hr hne due (onTop_upper h)
    refine ⟨fun hb ht => gives ?_, fun hb ht => gives ?_, fun hbt => gives ?_, fun ht hb => gives ?_, fun hb ht => gives ?_,
      fun d ht => ⟨fun hb => gives ?_, fun hb => gives ?_, fun hb => gives ?_⟩, fun d hb ht => gives ?_⟩
    · rw [hb, ht]; rfl
    · have hr := iVal_range .int32 b.val
      have hwide : iMin .int64 ≤ iMin .int32 ∧ iMax .int32 ≤ iMax .int64 := by decide
      rw [hb, ht, ← iSat_of_range (hwide.1.trans hr.1) (hr.2.trans hwide.2)]; rfl
    · rcases hbt with ⟨hb, ht⟩ | ⟨hb, ht⟩ <;> rw [hb, ht] <;> rfl
    · rw [ht]
      generalize b.ty = source at hb
      cases source with
      | time64 => exact absurd rfl hb
      | _ => rfl
    · rw [hb]; rcases ht with rfl | rfl <;> rfl
    · rcases hb with hb | hb <;> rw [hb] <;> rcases ht with ⟨rfl, rfl⟩ | ⟨rfl, rfl⟩ <;> rfl
    · rw [hb]
      rcases ht with ⟨rfl, rfl⟩ | ⟨rfl, rfl⟩ <;> simp only [cvtVal] <;> cases b.val.getLsbD 0 <;> rfl
    · rcases hb with hb | hb <;> rw [hb] at hne ⊢ <;> rcases ht with ⟨rfl, rfl⟩ | ⟨rfl, rfl⟩
      · exact absurd rfl hne
      · rfl
      · rfl
      · exact absurd rfl hne
    · rcases hb with ⟨hb, rfl⟩ | ⟨hb, rfl⟩ <;> rw [hb] <;> rcases ht with rfl | rfl <;> rfl

end Sys2Proof.Machine

/-! PROOF. Lumen code: the cycle's view of the points and its write set (R130, R160, R161), and the primitives (R173 to R183). -/

namespace Sys2Proof.Machine
open Sys2Proof Sys2Proof.Bits Sys2Proof.Safety

/-! ### Points under the guard -/

/-- Two cycles of one bank that see the same snapshot reach the same points. -/
structure SamePoints (c d : Cycle) : Prop where
  bank : d.bank = c.bank
  snap : d.snap = c.snap

theorem past_samePoints (len cost : Nat) (c : Cycle) (st : List SEntry) : SamePoints c { past len cost c with stack := st } :=
  ⟨past_bank len cost c, past_snap len cost c⟩

theorem wsPut_samePoints (c : Cycle) (h : W32) (t : LType) (v : W64) (q : W16) : SamePoints c (wsPut c h t v q) := ⟨rfl, rfl⟩

theorem SamePoints.trans {c d e : Cycle} (h : SamePoints c d) (k : SamePoints d e) : SamePoints c e :=
  ⟨k.bank.trans h.bank, k.snap.trans h.snap⟩

section
variable {env : LEnv} {c d : Cycle} {i : Nat} {t : LType} {h : W32} {r : PointRec}

theorem SamePoints.entryOk {acc : Nat} (same : SamePoints c d) (ok : EntryOk env c i acc t h r) : EntryOk env d i acc t h r := by
  obtain ⟨hentry, htable, hsnap, hpoint⟩ := ok
  exact ⟨hentry, by rw [unitAt, partUnit, same.bank]; exact htable, by rw [snapOf, same.snap]; exact hsnap, hpoint⟩

theorem withEntry_ok (ok : EntryOk env c i 0 t h r) (f : W32 → PointRec → LRes) : withEntry env c i t f = f h r := by
  obtain ⟨hentry, htable, hsnap, hpoint⟩ := ok
  simp only [withEntry, hentry, htable, hsnap, hpoint]

theorem storeEntry_ok (ok : EntryOk env c i 1 t h r) (v : W64) (q : W16) (f : Cycle → LRes) :
    storeEntry env c i t v q f = f (wsPut c h t v q) := by
  obtain ⟨hentry, htable, hsnap, hpoint⟩ := ok
  simp only [storeEntry, hentry, htable, hsnap, hpoint]

theorem viewVal_past (len cost : Nat) (c : Cycle) (st : List SEntry) (h : W32) (r : PointRec) :
    viewVal { past len cost c with stack := st } h r = viewVal c h r := by
  simp only [viewVal, wsOf, past_ws]

theorem viewQ_past (len cost : Nat) (c : Cycle) (st : List SEntry) (h : W32) (r : PointRec) :
    viewQ { past len cost c with stack := st } h r = viewQ c h r := by
  simp only [viewQ, wsOf, past_ws]

theorem loadEntry_past (len cost : Nat) (c : Cycle) (st : List SEntry) (t : LType) (h : W32) (r : PointRec) :
    loadEntry { past len cost c with stack := st } t h r = loadEntry c t h r := by
  simp only [loadEntry, viewVal_past, viewQ_past]

/-- LDTM gives the starting boundary for a point that the cycle wrote. -/
theorem viewTime_past (len cost : Nat) (c : Cycle) (h : W32) (r : PointRec) :
    viewTime (past len cost c) h r = if (tget c.ws (hIdx h)).isSome then c.start else r.time := by
  simp only [viewTime, wsOf, past_ws, past_start]
  cases tget c.ws (hIdx h) <;> rfl

end

/-- The cycle past an instruction, with the stack it finds. -/
theorem past_self (len cost : Nat) (c : Cycle) : past len cost c = { past len cost c with stack := c.stack } := by
  rw [← past_stack len cost c]

theorem push_after {c : Cycle} (e : SEntry) (st : List SEntry) (len cost : Nat) (room : st.length < 64) :
    push e { past len cost c with stack := st } = .go (after cost c (e :: st) 0 len) := by
  rw [push_of_room room, after_zero]

theorem raise_after {c : Cycle} (n : Nat) (st : List SEntry) (len cost : Nat) :
    raise n { past len cost c with stack := st } = after cost c st (w32 n) len := by
  rw [raise, after]
  simp only [past_exc]

section
variable {s : State} {sl : Slot} {u : Nat} {env : LEnv} {c : Cycle} {t : LType}

/-- LDX on an index inside its range and outside it. -/
theorem ldx_steps (due : LumenDue s sl u env c) (base count : Nat) {j : SEntry} {rest : List SEntry} (h : OnTop c [j] rest) (hj : j.ty = .int32) :
    (iVal .int32 j.val < 0 ∨ (count : Int) ≤ iVal .int32 j.val →
      LumenStep (.ldx sl u t base count) s sl env (after 8 c ({ ty := t, val := 0, q := 0x0004 } :: rest) 8 2))
    ∧ (∀ n hd r, iVal .int32 j.val = (n : Nat) → n < count → EntryOk env c (base + n) 0 t hd r →
      LumenStep (.ldx sl u t base count) s sl env (after 8 c (loadEntry c t hd r :: rest) 0 2)) := by
  have room : rest.length < 64 := by have := onTop_room h; simp at this; omega
  refine ⟨fun hout => lumenStep_of (exec_ldx sl u t base count s) due ?_,
    fun n hd r hn hlt ok => lumenStep_of (exec_ldx sl u t base count s) due ?_⟩
  · simp only [onTop_popT1 h hj, if_pos hout, raise_after]
    exact push_of_room room
  · have ok' := (past_samePoints 2 8 c rest).entryOk ok
    rw [show n = (iVal .int32 j.val).toNat by omega] at ok'
    simp only [onTop_popT1 h hj]
    rw [if_neg (by omega), withEntry_ok ok', loadEntry_past]
    exact push_after _ rest 2 8 room

/-- STX on an index inside its range and outside it. -/
theorem stx_steps (due : LumenDue s sl u env c) (base count : Nat) {j v : SEntry} {under : List SEntry} (h : OnTop c [j, v] under)
    (hj : j.ty = .int32) (hv : v.ty = t) :
    (iVal .int32 j.val < 0 ∨ (count : Int) ≤ iVal .int32 j.val →
      LumenStep (.stx sl u t base count) s sl env (after 6 c under 8 2))
    ∧ (∀ n hd r, iVal .int32 j.val = (n : Nat) → n < count → EntryOk env c (base + n) 1 t hd r →
      LumenStep (.stx sl u t base count) s sl env
        { after 6 c under 0 2 with
          ws := tset c.ws (hIdx hd) { handle := hd, value := maskVal t v.val, quality := v.q &&& 0xC07C } }) := by
  have hpop := onTop_popT_under (es := [j]) h hv 2 6
  refine ⟨fun hout => lumenStep_of (exec_stx sl u t base count s) due ?_,
    fun n hd r hn hlt ok => lumenStep_of (exec_stx sl u t base count s) due ?_⟩
  · simp only [onTop_popT2 h hj, hpop, if_pos hout, raise_after]
    rfl
  · have ok' := (past_samePoints 2 6 c under).entryOk ok
    rw [show n = (iVal .int32 j.val).toNat by omega] at ok'
    simp only [onTop_popT2 h hj, hpop]
    rw [if_neg (by omega), storeEntry_ok ok', after_zero, wsPut, past_ws]

end

/-- Settles O10: the loads, then STP, then LDX and STX. -/
theorem lumenPoints : Obligations.LumenPoints := by
  unfold Obligations.LumenPoints
  intro s sl u env c t due
  refine ⟨fun i h r ok room => ⟨lumenStep_of (exec_ldp sl u t i s) due ?_, lumenStep_of (exec_ldq sl u t i s) due ?_,
    lumenStep_of (exec_ldtm sl u t i s) due ?_⟩, fun i h r v rest ok hv hty => lumenStep_of (exec_stp sl u t i s) due ?_,
    fun base count j rest hj hty => ?_⟩
  · rw [withEntry_ok ((past_self 1 6 c ▸ past_samePoints 1 6 c c.stack).entryOk ok), push_past _ _ _ room, past_self, loadEntry_past]
    rfl
  · rw [withEntry_ok ((past_self 1 6 c ▸ past_samePoints 1 6 c c.stack).entryOk ok), push_past _ _ _ room, past_self, viewQ_past]
    rfl
  · rw [withEntry_ok ((past_self 1 6 c ▸ past_samePoints 1 6 c c.stack).entryOk ok), push_past _ _ _ room, viewTime_past]
  · simp only [onTop_popT1 hv hty]
    rw [storeEntry_ok ((past_samePoints 1 4 c rest).entryOk ok), after_zero, wsPut, past_ws]
  · obtain ⟨hout, hin⟩ := ldx_steps (t := t) due base count hj hty
    refine ⟨hout, hin, fun v under hrest hbase hv => ?_⟩
    subst hrest
    exact stx_steps due base count ⟨hj.1, hbase, hj.2.2⟩ hty hv

/-! ### The kept state of a primitive (R173, R174) -/

section
variable {env : LEnv} {c d : Cycle}

theorem SamePoints.instanceOk (same : SamePoints c d) (hws : d.ws = c.ws) {i : Nat} {inst : List (LType × Nat)} {vs : List (W64 × Bool)}
    (ok : InstanceOk env c i inst vs) : InstanceOk env d i inst vs := by
  induction inst generalizing i vs with
  | nil => exact ok
  | cons e inst ih =>
    obtain ⟨h, r, rest, hentry, hread, hvs, hrest⟩ := ok
    refine ⟨h, r, rest, same.entryOk hentry, hread, ?_, ih hrest⟩
    rw [hvs]
    simp only [viewVal, viewQ, wsOf, hws]

theorem readInst_ok {i : Nat} {inst : List (LType × Nat)} {vs : List (W64 × Bool)} (ok : InstanceOk env c i inst vs)
    (f : List (W64 × Bool) → LRes) : readInst env c i inst f = f vs := by
  induction inst generalizing i vs f with
  | nil => rw [readInst, show vs = [] from ok]
  | cons e inst ih =>
    obtain ⟨h, r, rest, ⟨hentry, htable, hsnap, _⟩, hread, rfl, hrest⟩ := ok
    simp only [readInst, hentry, htable, hsnap, hread]
    rw [ih hrest]

/-- An entry of its state that the primitive keeps may be written. -/
theorem instanceOk_kept {base i : Nat} {t : LType} {inst : List (LType × Nat)} {vs : List (W64 × Bool)} (ok : InstanceOk env c base inst vs)
    (hi : inst[i]? = some (t, 1)) : ∃ h r, EntryOk env c (base + i) 1 t h r := by
  induction inst generalizing base i vs with
  | nil => simp at hi
  | cons e inst ih =>
    obtain ⟨h, r, rest, hentry, _, _, hrest⟩ := ok
    cases i with
    | zero =>
      rw [List.getElem?_cons_zero, Option.some.injEq] at hi
      subst hi
      exact ⟨h, r, hentry⟩
    | succ i =>
      rw [List.getElem?_cons_succ] at hi
      rw [show base + (i + 1) = base + 1 + i by omega]
      exact ih hrest hi

/-- The state of a primitive enters the write set, entry after entry. -/
theorem writeInst_ok (base : Nat) (q : W16) (l : List (Nat × LType × W64)) (f : Cycle → LRes)
    (ok : ∀ x ∈ l, ∃ h r, EntryOk env c (base + x.1) 1 x.2.1 h r) (same : SamePoints c d) :
    writeInst env (l.map (fun x => (base + x.1, x.2))) q d f = f { d with ws := stateWritten env base q d.ws l } := by
  induction l generalizing d with
  | nil => rfl
  | cons x l ih =>
    obtain ⟨h, r, hx⟩ := ok x List.mem_cons_self
    have hh : (tableEntry env.table (base + x.1)).1 = h := by
      have hentry := hx.1
      unfold entryOf at hentry
      dsimp only at hentry
      split at hentry
      · exact Option.some.inj hentry
      · cases hentry
    rw [List.map_cons, writeInst, storeEntry_ok (same.entryOk hx),
      ih (fun y hy => ok y (List.mem_cons_of_mem _ hy)) (same.trans (wsPut_samePoints _ _ _ _ _))]
    simp only [stateWritten, List.foldl_cons, hh, wsPut]

end

/-- The primitive `run` keeps only entries of its state that it may write. -/
def KeepsInstance (inst : List (LType × Nat)) (r : POut) : Prop := ∀ x ∈ r.state, inst[x.1]? = some (x.2.1, 1)

section
variable {i : Instr} {s : State} {sl : Slot} {u base : Nat} {env : LEnv} {c : Cycle} {cost : Nat} {ts : List LType} {inst : List (LType × Nat)}
  {f : LEnv → Cycle → LRes}

/-- Finishing a primitive leaves its state in the write set and its output on the stack. -/
theorem primDone_ok {vs : List (W64 × Bool)} (ok : InstanceOk env c base inst vs) (r : POut) (hkeeps : KeepsInstance inst r) (qj : W16)
    (rest : List SEntry) (room : rest.length < 64) :
    let q := r.qual.foldl qLower (r.q.getD qj)
    primDone env base qj { past 1 cost c with stack := rest } r =
      .go { after cost c ({ ty := r.ty, val := r.out, q := q } :: rest) (w32 r.flags) with
        ws := stateWritten env base q c.ws r.state
        outs := match r.pidOut with
          | some o => tset c.outs (hIdx (tableEntry env.table (base + 6)).1) o
          | none => c.outs } := by
  have hstate : ∀ x ∈ r.state, ∃ h p, EntryOk env c (base + x.1) 1 x.2.1 h p := fun x hx => instanceOk_kept ok (hkeeps x hx)
  unfold primDone
  cases r.pidOut <;> dsimp only
  all_goals
    rw [writeInst_ok (c := c) base _ _ _ hstate]
    · rw [push_of_room room]
      simp only [raise, after, past_ws, past_outs, past_exc]
    · exact ⟨past_bank 1 cost c, past_snap 1 cost c⟩

/-- A primitive whose operands stand on the stack and whose state the guard lets it reach. -/
theorem primStep_of {run : List SEntry → List (W64 × Bool) → POut} {g : Cycle → List SEntry → List (W64 × Bool) → POut}
    (e : exec i s = lumen 1 cost f s sl u) (due : LumenDue s sl u env c) (hts : ts ≠ [])
    (hf : ∀ x, f env x = match popN ts.length x with
      | none => .typing
      | some (es, x1) => if typesFit es.reverse ts then
          readInst env x1 base inst (fun vs => primDone env base (qJoinAll (es.reverse.map (fun e => e.q))) x1 (g x1 es.reverse vs))
        else .typing)
    (hrun : ∀ x es vs, x.dt = c.dt → x.outs = c.outs → g x es vs = run es vs) (hkeeps : ∀ es vs, KeepsInstance inst (run es vs)) :
    PrimStep i s sl env c cost base ts inst run := by
  intro es rest vs h hty ok
  have hlen : es.length = ts.length := by rw [← hty, List.length_map, List.length_reverse]
  have room : rest.length < 64 := by
    have := onTop_room h
    have : ts.length ≠ 0 := by simpa using hts
    omega
  have hpop := popN_append (past 1 cost c) es rest (by rw [past_stack]; exact h.1) (by rw [past_baseOf]; exact h.2.1)
  have hfit : typesFit es.reverse ts = true := decide_eq_true hty
  refine lumenStep_of e due ?_
  rw [hf, ← hlen, hpop]
  simp only [hfit, if_true]
  rw [readInst_ok ((past_samePoints 1 cost c rest).instanceOk (past_ws 1 cost c) ok),
    hrun { past 1 cost c with stack := rest } es.reverse vs (past_dt 1 cost c) (past_outs 1 cost c)]
  exact primDone_ok ok _ (hkeeps _ _) _ rest room

end

end Sys2Proof.Machine

/-! PROOF. Lumen code: the eight primitives (R173 to R183). -/

namespace Sys2Proof.Machine
open Sys2Proof Sys2Proof.Bits Sys2Proof.Safety

/-! ### What a primitive takes of the cycle -/

section
variable {env : LEnv} {c d : Cycle} (hdt : d.dt = c.dt)
include hdt

theorem pDt_congr : pDt d = pDt c := by rw [pDt, hdt, pDt]

theorem pidRun_congr (houts : d.outs = c.outs) (base : Nat) (ops : List W64) (vs : List (W64 × Bool)) :
    pidRun env d base ops vs = pidRun env c base ops vs := by
  have hheld : pidHeld env d = pidHeld env c := by funext slot iInit p i' d' lo hi; rw [pidHeld, houts, pidHeld]
  rw [pidRun, pDt_congr hdt, hheld, pidRun]

theorem rampRun_congr (ops : List W64) (vs : List (W64 × Bool)) : rampRun env d ops vs = rampRun env c ops vs := by
  rw [rampRun, pDt_congr hdt, rampRun]

theorem leadlagRun_congr (ops : List W64) (vs : List (W64 × Bool)) : leadlagRun env d ops vs = leadlagRun env c ops vs := by
  rw [leadlagRun, pDt_congr hdt, leadlagRun]

theorem totalRun_congr (ops : List W64) (vs : List (W64 × Bool)) : totalRun env d ops vs = totalRun env c ops vs := by
  rw [totalRun, pDt_congr hdt, totalRun]

theorem timerRun_congr (variant : Nat) (ops : List W64) (vs : List (W64 × Bool)) :
    timerRun variant env d ops vs = timerRun variant env c ops vs := by
  rw [timerRun, hdt, timerRun]

end

/-! ### What a primitive keeps -/

section
variable (env : LEnv) (c : Cycle) (base variant : Nat) (ops : List W64) (vs : List (W64 × Bool)) (es : List SEntry)

theorem keepsInstance_nil {inst : List (LType × Nat)} {r : POut} (h : r.state = []) : KeepsInstance inst r := by
  intro x hx
  simp [h] at hx

theorem keepsInstance_ite {inst : List (LType × Nat)} {p : Prop} [Decidable p] {a b : POut} (ha : KeepsInstance inst a)
    (hb : KeepsInstance inst b) : KeepsInstance inst (if p then a else b) := by
  split
  · exact ha
  · exact hb

theorem pidRun_keeps : KeepsInstance pidInst (pidRun env c base ops vs) := by
  unfold pidRun
  refine keepsInstance_ite (keepsInstance_nil rfl) (keepsInstance_ite (keepsInstance_nil rfl) (keepsInstance_ite ?_ ?_))
  all_goals simp [KeepsInstance, pidInst]

theorem rampRun_keeps : KeepsInstance [(.real64, 0), (.real64, 0), (.real64, 1), (.real64, 1)] (rampRun env c ops vs) := by
  unfold rampRun
  refine keepsInstance_ite ?_ (keepsInstance_ite (keepsInstance_ite ?_ ?_) (keepsInstance_ite ?_ ?_))
  all_goals simp [KeepsInstance]

theorem leadlagRun_keeps : KeepsInstance [(.real64, 0), (.real64, 0), (.real64, 1), (.real64, 1)] (leadlagRun env c ops vs) := by
  unfold leadlagRun
  refine keepsInstance_ite (keepsInstance_nil rfl) (keepsInstance_ite (keepsInstance_nil rfl) ?_)
  simp [KeepsInstance]

theorem totalRun_keeps : KeepsInstance [(.real64, 0), (.real64, 1), (.real64, 1), (.real64, 1)] (totalRun env c ops vs) := by
  unfold totalRun
  refine keepsInstance_ite (keepsInstance_nil rfl) (keepsInstance_ite ?_ (keepsInstance_ite ?_ ?_))
  · cases (ops.getD 1 0).getLsbD 0 <;> simp [KeepsInstance]
  · simp [KeepsInstance]
  · simp [KeepsInstance]

theorem timerRun_keeps : KeepsInstance [(.int64, 0), (.int64, 1), (.bool, 1), (.bool, 1)] (timerRun variant env c ops vs) := by
  unfold timerRun
  refine keepsInstance_ite (keepsInstance_nil rfl) ?_
  simp [KeepsInstance]

theorem deadbandRun_keeps : KeepsInstance [(.real64, 0), (.real64, 1)] (deadbandRun variant env c ops vs) := by
  unfold deadbandRun
  refine keepsInstance_ite (keepsInstance_nil rfl) (keepsInstance_ite (keepsInstance_nil rfl)
    (keepsInstance_ite (keepsInstance_ite ?_ (keepsInstance_nil rfl)) ?_))
  all_goals simp [KeepsInstance]

/-- SELECT keeps its Y. -/
def SelectKeeps (r : POut) : Prop := KeepsInstance [(.int32, 0), (.int32, 0), (.real64, 1)] r

theorem selectKeeps_held {r : POut} (h : r.state = []) : SelectKeeps r := keepsInstance_nil h

theorem selOut_keeps (r : Ar) (q : W16) : SelectKeeps (selOut r q) := by
  simp [SelectKeeps, KeepsInstance, selOut]

theorem selectRun_keeps : SelectKeeps (selectRun es vs) := by
  unfold selectRun
  refine keepsInstance_ite (selectKeeps_held rfl) (keepsInstance_ite ?_ (keepsInstance_ite ?_ (keepsInstance_ite ?_ (keepsInstance_ite ?_
    (keepsInstance_ite ?_ ?_)))))
  · refine keepsInstance_ite (selectKeeps_held rfl) ?_
    dsimp only
    split
    · exact selectKeeps_held rfl
    · exact keepsInstance_ite (selectKeeps_held rfl) (selOut_keeps _ _)
  · simp [KeepsInstance]
  · dsimp only
    split
    · exact selOut_keeps _ _
    · exact selectKeeps_held rfl
  · dsimp only
    split
    · exact selOut_keeps _ _
    · exact selectKeeps_held rfl
  · exact keepsInstance_ite (selOut_keeps _ _) (selOut_keeps _ _)
  · dsimp only
    split
    · exact selectKeeps_held rfl
    · exact selOut_keeps _ _

end

/-! ### The primitives on the stack -/

section
variable {i : Instr} {s : State} {sl : Slot} {u base : Nat} {env : LEnv} {c : Cycle} {cost : Nat} {ts : List LType} {inst : List (LType × Nat)}

/-- A primitive of values whose function takes no more of the cycle than DT and the last OUTs. -/
theorem primStep_of_prim {f : LEnv → Cycle → List W64 → List (W64 × Bool) → POut} (e : exec i s = lumen 1 cost (prim ts inst base f) s sl u)
    (due : LumenDue s sl u env c) (hts : ts ≠ []) (hf : ∀ d ops vs, d.dt = c.dt → d.outs = c.outs → f env d ops vs = f env c ops vs)
    (hkeeps : ∀ ops vs, KeepsInstance inst (f env c ops vs)) :
    PrimStep i s sl env c cost base ts inst (fun es vs => f env c (es.map (fun e => e.val)) vs) :=
  primStep_of (g := fun x es vs => f env x (es.map (fun e => e.val)) vs) e due hts (fun _ => rfl)
    (fun d _ vs hdt houts => hf d _ vs hdt houts) (fun _ _ => hkeeps _ _)

theorem selectPrim_step {n : Nat} (due : LumenDue s sl u env c) (h1 : 2 ≤ n) (h2 : n ≤ 8) :
    PrimStep (.select sl u n base) s sl env c (30 + 8 * n) base (List.replicate n .real64) [(.int32, 0), (.int32, 0), (.real64, 1)]
      selectRun := by
  refine primStep_of (g := fun _ => selectRun) (exec_select sl u n base s) due (by simp; omega) (fun x => ?_) (fun _ _ _ _ _ => rfl)
    (fun es vs => selectRun_keeps vs es)
  simp only [selectPrim, List.length_replicate, h1, h2, and_true] <;> rfl

end

/-! ### LIMIT (R182) -/

section
variable {s : State} {sl : Slot} {u : Nat} {env : LEnv} {c : Cycle} {t : LType} {x lo hi : SEntry} {rest : List SEntry}

theorem limit_step (ht : t ≠ .bool ∧ t ≠ .time64) (due : LumenDue s sl u env c) (h : OnTop c [hi, lo, x] rest) (hx : x.ty = t)
    (hlo : lo.ty = t) (hhi : hi.ty = t) :
    let r := limitOp t x.val lo.val hi.val
    LumenStep (.limit sl u t) s sl env
      (after 3 c ({ ty := t, val := maskVal t r.val, q := qLower (qJoinAll [x.q, lo.q, hi.q]) r.qual } :: rest) (w32 r.flags)) := by
  have room : rest.length < 64 := by have := onTop_room h; simp at this; omega
  obtain ⟨hst, hbase, -⟩ := h
  have p1 : popT t (past 1 3 c) = some (hi, { past 1 3 c with stack := lo :: x :: rest }) :=
    hhi ▸ popT_cons (by rw [past_stack]; exact hst) (by rw [past_baseOf]; simp; omega)
  have p2 : popT t { past 1 3 c with stack := lo :: x :: rest } = some (lo, { past 1 3 c with stack := x :: rest }) :=
    hlo ▸ popT_cons rfl (show baseOf (past 1 3 c) ≤ _ by rw [past_baseOf]; simp; omega)
  have p3 : popT t { past 1 3 c with stack := x :: rest } = some (x, { past 1 3 c with stack := rest }) :=
    hx ▸ popT_cons rfl (show baseOf (past 1 3 c) ≤ _ by rw [past_baseOf]; exact hbase)
  refine lumenStep_of (exec_limit sl u t s) due (Eq.trans ?_ (pushAr_after t _ (limitOp t x.val lo.val hi.val) 1 3 room))
  obtain ⟨hnb, hnt⟩ := ht
  clear hx hlo hhi
  cases t
  case bool => exact absurd rfl hnb
  case time64 => exact absurd rfl hnt
  all_goals simp only [limitPrim, p1, p2, p3]

/-- The value of LIMIT on integers, and what crossed limits do to it. -/
theorem intResult_limitInt (ht : t = .int32 ∨ t = .int64) {v l g : Int} (hv : iMin t ≤ v ∧ v ≤ iMax t) (hl : iMin t ≤ l ∧ l ≤ iMax t)
    (hg : iMin t ≤ g ∧ g ≤ iMax t) :
    (l ≤ g → IntResult t (limitInt t v l g) (min (max v l) g) 0) ∧ (g < l → IntResult t (limitInt t v l g) l 16) := by
  refine ⟨fun h => ?_, fun h => ?_⟩
  · rw [limitInt, if_neg (by omega)]
    exact intResult_iWord ht (by omega) (by omega)
  · rw [limitInt, if_pos h]
    exact ⟨by rw [iVal_maskVal ht, iVal_iWord hl.1 hl.2], rfl, fun _ => rfl⟩

end

section
variable {s : State} {sl : Slot} {u : Nat} {env : LEnv} {c : Cycle} (base variant : Nat) (due : LumenDue s sl u env c)
include due

theorem pid_step : PrimStep (.pid sl u base) s sl env c 110 base [.real64, .real64, .bool, .real64] pidInst
    (fun es vs => pidRun env c base (es.map (fun e => e.val)) vs) :=
  primStep_of_prim (f := fun env c => pidRun env c base) (exec_pid sl u base s) due (by simp)
    (fun _ ops vs hdt houts => pidRun_congr hdt houts base ops vs) (fun ops vs => pidRun_keeps env c base ops vs)

theorem ramp_step : PrimStep (.ramp sl u base) s sl env c 80 base [.real64] [(.real64, 0), (.real64, 0), (.real64, 1), (.real64, 1)]
    (fun es vs => rampRun env c (es.map (fun e => e.val)) vs) :=
  primStep_of_prim (f := rampRun) (exec_ramp sl u base s) due (by simp) (fun _ ops vs hdt _ => rampRun_congr hdt ops vs)
    (fun ops vs => rampRun_keeps env c ops vs)

theorem leadlag_step : PrimStep (.leadlag sl u base) s sl env c 50 base [.real64] [(.real64, 0), (.real64, 0), (.real64, 1), (.real64, 1)]
    (fun es vs => leadlagRun env c (es.map (fun e => e.val)) vs) :=
  primStep_of_prim (f := leadlagRun) (exec_leadlag sl u base s) due (by simp) (fun _ ops vs hdt _ => leadlagRun_congr hdt ops vs)
    (fun ops vs => leadlagRun_keeps env c ops vs)

theorem total_step : PrimStep (.total sl u base) s sl env c 40 base [.real64, .bool]
    [(.real64, 0), (.real64, 1), (.real64, 1), (.real64, 1)] (fun es vs => totalRun env c (es.map (fun e => e.val)) vs) :=
  primStep_of_prim (f := totalRun) (exec_total sl u base s) due (by simp) (fun _ ops vs hdt _ => totalRun_congr hdt ops vs)
    (fun ops vs => totalRun_keeps env c ops vs)

theorem timer_step : PrimStep (.timer sl u variant base) s sl env c 30 base [.bool] [(.int64, 0), (.int64, 1), (.bool, 1), (.bool, 1)]
    (fun es vs => timerRun variant env c (es.map (fun e => e.val)) vs) :=
  primStep_of_prim (f := timerRun variant) (exec_timer sl u variant base s) due (by simp)
    (fun _ ops vs hdt _ => timerRun_congr hdt variant ops vs) (fun ops vs => timerRun_keeps env c variant ops vs)

theorem deadband_step : PrimStep (.deadband sl u variant base) s sl env c 20 base [.real64] [(.real64, 0), (.real64, 1)]
    (fun es vs => deadbandRun variant env c (es.map (fun e => e.val)) vs) :=
  primStep_of_prim (f := deadbandRun variant) (exec_deadband sl u variant base s) due (by simp) (fun _ _ _ _ _ => rfl)
    (fun ops vs => deadbandRun_keeps env c variant ops vs)

end

/-- Settles O13: each primitive by its function, then LIMIT by its operands. -/
theorem lumenPrimitives : Obligations.LumenPrimitives := by
  unfold Obligations.LumenPrimitives
  intro s sl u base env c due
  refine ⟨pid_step base due, ramp_step base due, leadlag_step base due, total_step base due, fun variant => timer_step base variant due,
    fun n h1 h2 => selectPrim_step due h1 h2, fun variant => deadband_step base variant due,
    fun t x lo hi rest h hx hlo hhi => ⟨fun ht => ?_, fun d ht => ?_⟩⟩
  · have step := limit_step (by rcases ht with rfl | rfl <;> decide) due h hx hlo hhi
    have hop : limitOp t x.val lo.val hi.val = limitInt t (iVal t x.val) (iVal t lo.val) (iVal t hi.val) := by
      rcases ht with rfl | rfl <;> rfl
    obtain ⟨hle, hlt⟩ := intResult_limitInt ht (iVal_range t x.val) (iVal_range t lo.val) (iVal_range t hi.val)
    dsimp only at step
    rw [hop] at step
    refine ⟨fun h => ⟨_, ?_, (hle h).value⟩, fun h => ⟨_, ?_, (hlt h).value⟩⟩
    · rw [(hle h).flags_eq, (hle h).quality] at step
      exact step
    · rw [(hlt h).flags_eq, (hlt h).quality] at step
      exact step
  · have step := limit_step (by rcases ht with ⟨rfl, -⟩ | ⟨rfl, -⟩ <;> decide) due h hx hlo hhi
    have hop : limitOp t x.val lo.val hi.val = limitReal d x.val lo.val hi.val := by
      rcases ht with ⟨rfl, rfl⟩ | ⟨rfl, rfl⟩ <;> rfl
    dsimp only at step
    rw [hop] at step
    exact step

end Sys2Proof.Machine

/-! PROOF. Lumen code: the end of a cycle and its seal (R133, R170, R414). -/

namespace Sys2Proof.Machine
open Sys2Proof Sys2Proof.Bits Sys2Proof.Safety

/-! ### What the seal and dispatch leave alone -/

section
variable (m p : Module) (t u : Nat) (c : Cycle)

/-- Dispatch changes the units alone. -/
theorem dispatch_only : ∃ us, dispatch m u = { m with exec := { m.exec with units := us } } := by
  unfold dispatch
  repeat' split
  all_goals exact ⟨_, rfl⟩

@[simp] theorem dispatch_store : (dispatch m u).store = m.store := by
  obtain ⟨us, h⟩ := dispatch_only m u
  rw [h]

@[simp] theorem taskOf_dispatch : taskOf (dispatch m u) t = taskOf m t := by
  obtain ⟨us, h⟩ := dispatch_only m u
  rw [h]; rfl

/-- Building PDUs changes the safety connections alone. -/
theorem buildPdus_only : ∃ h, buildPdus m t c = { m with halo := h } := by
  unfold buildPdus
  split
  · exact ⟨m.halo, rfl⟩
  · generalize taskConns m t true = xs
    refine List.foldlRecOn xs _ (motive := fun a => ∃ h, a = { m with halo := h }) ⟨m.halo, rfl⟩ ?_
    rintro a ⟨h, rfl⟩ x _
    exact ⟨_, rfl⟩

@[simp] theorem buildPdus_store : (buildPdus m t c).store = m.store := by
  obtain ⟨h, e⟩ := buildPdus_only m t c
  rw [e]

@[simp] theorem taskOf_buildPdus (n : Nat) : taskOf (buildPdus m t c) n = taskOf m n := by
  obtain ⟨h, e⟩ := buildPdus_only m t c
  rw [e]; rfl

theorem taskOf_taskMod {k : Task} (f : Task → Task) (h : taskOf m t = some k) : taskOf (taskMod m t f) t = some (f k) := by
  rw [taskOf] at h
  rw [taskOf, taskMod, tget_tmod_same, h]
  rfl

/-- What goes out over the sync link at the seal changes no task and no point. -/
theorem taskOf_emit (e : Emit) : taskOf (emit m e) t = taskOf m t := rfl

end

/-! ### The seal -/

/-- The log of retained values after the seal of a cycle whose values `kept` fit (R133). -/
def sealedLog (m : Module) (t : Nat) (start : W64) (kept : List (Nat × RetRec)) : List LogCommit :=
  m.store.log ++ (if kept = [] then [] else [{ task := t, start := start, entries := kept }])

/-- The cycle once its write set is sealed. -/
def sealedCycle (m : Module) (c : Cycle) : Cycle :=
  { c with waitsLog := false, sealedAt := some (now m), digest := digestOf c.ws }

section
variable {m p : Module} {t : Nat} {k : Task} {c : Cycle} (hk : taskOf m t = some k) (hc : k.cycle = some c)
include hk hc

/-- A cycle whose retained values the log has room for is sealed. -/
theorem sealCycle_fits (fits : (retainedOf m (now m) c.ws).length ≤ logFree m) :
    taskOf (sealCycle m p t) t = some { k with cycle := some (sealedCycle m c) }
      ∧ (sealCycle m p t).store.log = sealedLog m t c.start (retainedOf m (now m) c.ws) := by
  have hfree : logFree m ≤ 262144 := Nat.sub_le _ _
  simp only [sealCycle, hk, hc]
  rw [if_neg (by omega), if_neg (by omega)]
  generalize retainedOf m (now m) c.ws = kept
  generalize hn : (if kept.isEmpty then m else _) = n
  have hnk : taskOf n t = some k := by rw [← hn]; split <;> exact hk
  have hnlog : n.store.log = sealedLog m t c.start kept := by rw [← hn]; cases kept <;> simp [sealedLog]
  have htask : taskOf (buildPdus (taskMod n t (fun k => { k with cycle := some (sealedCycle m c) })) t c) t
      = some { k with cycle := some (sealedCycle m c) } := by
    rw [taskOf_buildPdus, taskOf_taskMod n t _ hnk]
  have hlog : (buildPdus (taskMod n t (fun k => { k with cycle := some (sealedCycle m c) })) t c).store.log
      = sealedLog m t c.start kept := by
    rw [buildPdus_store, taskMod_store, hnlog]
  repeat' split
  all_goals exact ⟨htask, hlog⟩

/-- A cycle for whose retained values the log has no room waits for it. -/
theorem sealCycle_waits (full : logFree m < (retainedOf m (now m) c.ws).length) (fit : (retainedOf m (now m) c.ws).length ≤ 262144) :
    sealCycle m p t = taskMod m t (fun k => { k with cycle := some { c with waitsLog := true } }) := by
  simp only [sealCycle, hk, hc]
  rw [if_neg (by omega), if_pos full]

end

section
variable {m p : Module} {t : Nat} {k : Task} {c : Cycle} (hk : taskOf m t = some k)
include hk

theorem endOfCycle_fits (fits : (retainedOf m (now m) c.ws).length ≤ logFree m) :
    taskOf (endOfCycle m p t c) t = some { k with cycle := some (sealedCycle m { c with ended := true, frames := [], stack := [] }) }
      ∧ (endOfCycle m p t c).store.log = sealedLog m t c.start (retainedOf m (now m) c.ws) := by
  obtain ⟨htask, hlog⟩ := sealCycle_fits (p := p)
    (taskOf_taskMod m t (fun k => { k with cycle := some { c with ended := true, frames := [], stack := [] } }) hk) rfl fits
  simp only [endOfCycle, hk, taskOf_dispatch, dispatch_store]
  exact ⟨htask, hlog⟩

theorem endOfCycle_waits (full : logFree m < (retainedOf m (now m) c.ws).length) (fit : (retainedOf m (now m) c.ws).length ≤ 262144) :
    taskOf (endOfCycle m p t c) t = some { k with cycle := some { c with ended := true, frames := [], stack := [], waitsLog := true } }
      ∧ (endOfCycle m p t c).store.log = m.store.log := by
  have hended := taskOf_taskMod m t (fun k => { k with cycle := some { c with ended := true, frames := [], stack := [] } }) hk
  have hseal := sealCycle_waits (p := p) hended rfl full fit
  simp only [endOfCycle, hk, taskOf_dispatch, dispatch_store]
  rw [hseal]
  exact ⟨by rw [taskOf_taskMod _ t _ hended], rfl⟩

end

/-! ### The instructions that end a cycle -/

section
variable {s : State} {sl : Slot} {u : Nat} {env : LEnv} {c : Cycle} {i : Instr} {cost : Nat} {f : LEnv → Cycle → LRes}

/-- The task whose cycle is due. -/
theorem lumenDue_task (due : LumenDue s sl u env c) : ∃ k, taskOf (modOf s sl) env.t = some k := by
  obtain ⟨c0, hrun, -, -⟩ := due
  simp only [running] at hrun
  repeat' split at hrun
  all_goals cases hrun
  exact ⟨_, by assumption⟩

/-- The cycle that is due ends. -/
theorem lumenEnd_of (e : exec i s = lumen 1 cost f s sl u) (due : LumenDue s sl u env c) (h : f env (past 1 cost c) = .ended (past 1 cost c)) :
    exec i s = .next (withMod s sl (endOfCycle (modOf s sl) (modOf s (otherSlot sl)) env.t (past 1 cost c))) := by
  obtain ⟨c0, hrun, rfl, hfetch⟩ := due
  rw [e, lumen]
  simp only [hrun, hfetch]
  rw [show modFrame _ _ = past 1 cost (beginCycle env c0) from rfl, h]
  rfl

theorem retBlock_outermost {g : LFrame} {b : Blk} (hc : c.frames = [g]) (hb : blockOf env.code g.block = some b) (hbase : g.base = 0)
    (hty : c.stack.reverse.map (fun e => e.ty) = b.rtypes) : retBlock env (past 1 4 c) = .ended (past 1 4 c) := by
  have hfit : typesFit c.stack.reverse b.rtypes = true := decide_eq_true hty
  simp only [retBlock, past_of_frames 1 4 hc, hb, hbase, Nat.sub_zero, List.take_length, hfit, if_true, List.isEmpty_nil]

end

/-- Settles O12: END, and RET of the outermost block, end the cycle, whose seal the log's room decides. -/
theorem lumenEnd : Obligations.LumenEnd := by
  unfold Obligations.LumenEnd
  intro s sl u env c i cost due hi
  dsimp only
  have hexec : exec i s = .next (withMod s sl (endOfCycle (modOf s sl) (modOf s (otherSlot sl)) env.t (past 1 cost c))) := by
    rcases hi with ⟨rfl, rfl⟩ | ⟨rfl, rfl, g, b, hc, hb, hbase, hty⟩
    · exact lumenEnd_of (exec_endCycle sl u s) due rfl
    · exact lumenEnd_of (exec_ret sl u s) due (retBlock_outermost hc hb hbase hty)
  obtain ⟨k, hk⟩ := lumenDue_task due
  refine ⟨fun fits => ?_, fun full fit => ?_⟩
  · obtain ⟨htask, hlog⟩ := endOfCycle_fits (p := modOf s (otherSlot sl)) (c := past 1 cost c) hk (by rwa [past_ws])
    rw [← withMod_same s sl (endOfCycle _ _ _ _)] at htask
    refine ⟨_, _, _, hexec, htask, rfl, rfl, rfl, rfl, past_ws 1 cost c, past_exc 1 cost c, past_cost 1 cost c, rfl,
      congrArg digestOf (past_ws 1 cost c), ?_⟩
    rw [withMod_same, hlog, past_ws, past_start]
    rfl
  · obtain ⟨htask, hlog⟩ := endOfCycle_waits (p := modOf s (otherSlot sl)) (c := past 1 cost c) hk (by rwa [past_ws]) (by rwa [past_ws])
    rw [← withMod_same s sl (endOfCycle _ _ _ _)] at htask
    exact ⟨_, _, _, hexec, htask, rfl, rfl, rfl, by rw [past_only], by rw [withMod_same, hlog]⟩

end Sys2Proof.Machine

/-! PROOF. Quondi commands: what turns a command away before its handler, and the answer of a handler that runs (R56, R72, R98, R109). -/

namespace Sys2Proof.Machine
open Sys2Proof Sys2Proof.Bits Sys2Proof.Safety

section
variable {h : Module → Module → Cmd → QRes} {k : Kind} {sc : Scope} {code : Nat} {c : Cmd} {s : State} {sl : Slot} {i : Instr} {r : QRes}

/-- A command that runs gives the answer of its handler. -/
theorem answers_of (e : exec i s = quondi h k sc code s sl c) (hruns : runs k sc code c (modOf s sl) = true)
    (hr : h (modOf s sl) (modOf s (otherSlot sl)) c = r) : Answers i s sl k code c r := by
  rw [Answers, e, quondi_runs hruns, hr]

/-- The answer that a command gets before its handler. -/
theorem answers_of_runCmd (e : exec i s = quondi h k sc code s sl c)
    (hr : runCmd h k sc code c (modOf s sl) (modOf s (otherSlot sl)) = settle (modOf s sl) k code c r) : Answers i s sl k code c r := by
  rw [Answers, e, quondi, onPair, hr]

variable {m : Module} (p : Module) (hfw : fw m = true)

/-- Nothing that would make the module leave the command where it is. -/
def Takes (m : Module) (k : Kind) (code : Nat) (c : Cmd) : Prop :=
  (if k = .work then heldBack m c else behindWork m code c) = false

include hfw in
/-- The checks of a command that the module takes up. -/
theorem runCmd_takes (ht : Takes m k code c) : runCmd h k sc code c m p =
    if !serves m k code then settle m k code c (.refused 0x000B 0)
    else if k == .work && !isLead m && !journalHas m c.qp c.ticket then
      pushCpl m c.qp { ticket := c.ticket, code := code, stage := 4, status := 4, time := now m, noIrq := noIrq c.flags }
    else if noPart m sc c then settle m k code c (.refused 0x0008 0)
    else if k == .work && runLocked m code c then settle m k code c (.refused 0x000D 0)
    else settle m k code c (h m p c) := by
  rw [runCmd, if_neg]
  · rfl
  · cases k <;> simp_all [Takes]

include hfw in
theorem runCmd_badState (ht : Takes m k code c) (hserves : serves m k code = false) :
    runCmd h k sc code c m p = settle m k code c (.refused 0x000B 0) := by
  simp [runCmd_takes p hfw ht, hserves]

include hfw in
theorem runCmd_noTarget (ht : Takes m k code c) (hserves : serves m k code = true) (hlead : k = .work → isLead m = true)
    (hpart : noPart m sc c = true) : runCmd h k sc code c m p = settle m k code c (.refused 0x0008 0) := by
  rw [runCmd_takes p hfw ht, if_neg (by simp [hserves]), if_neg (by cases k <;> simp_all), if_pos hpart]

include hfw in
theorem runCmd_runLocked (ht : Takes m .work code c) (hserves : serves m .work code = true) (hlead : isLead m = true)
    (hpart : noPart m sc c = false) (hlock : runLocked m code c = true) :
    runCmd h .work sc code c m p = settle m .work code c (.refused 0x000D 0) := by
  rw [runCmd_takes p hfw ht, if_neg (by simp [hserves]), if_neg (by simp [hlead]), if_neg (by simp [hpart]), if_pos (by simp [hlock])]

end

theorem noPart_of_none {m : Module} {c : Cmd} (h : ∃ p, actPart c = some p ∧ partOf m p = none) : noPart m .part c = true := by
  obtain ⟨p, hp, hnone⟩ := h
  simp [noPart, hp, hnone]

theorem serves_of_up {m : Module} {k : Kind} {code : Nat} (h : m.boot.state = .ready ∨ m.boot.state = .run) : serves m k code = true := by
  rcases h with h | h <;> simp [serves, h]

theorem serves_work_umbra {m : Module} {code : Nat} (h : m.boot.state = .umbra ∨ m.boot.state = .splitOff) : serves m .work code = false := by
  rcases h with h | h <;> simp [serves, h]

/-- Settles O15: the checks of `runCmd` in their order. -/
theorem quondiRefusals : Obligations.QuondiRefusals := by
  unfold Obligations.QuondiRefusals
  intro s sl c
  dsimp only
  intro hfw
  refine ⟨fun hup hheld hbehind => ?_, fun hup hnone => ⟨fun hbehind => ?_, fun hlead hheld => ?_⟩,
    fun hup hlead hheld hqp htarget hlock => ?_⟩
  · have bad {h sc code} := runCmd_badState (h := h) (sc := sc) (modOf s (otherSlot sl)) hfw (k := .work) (code := code) (c := c)
      hheld (serves_work_umbra hup)
    exact ⟨answers_of_runCmd (exec_pointWrite sl c s) bad, answers_of_runCmd (exec_taskStart sl c s) bad,
      answers_of_runCmd (exec_partitionCreate sl c s) bad, answers_of_runCmd (exec_pointRead sl c s)
        (runCmd_badState _ hfw hbehind (by rcases hup with h | h <;> simp [serves, h]))⟩
  · exact answers_of_runCmd (exec_pointRead sl c s) (runCmd_noTarget _ hfw hbehind (serves_of_up hup) (by simp) (noPart_of_none hnone))
  · have gone {h code} := runCmd_noTarget (h := h) (modOf s (otherSlot sl)) hfw (k := .work) (code := code) (c := c) hheld
      (serves_of_up hup) (fun _ => hlead) (noPart_of_none hnone)
    exact ⟨answers_of_runCmd (exec_pointWrite sl c s) gone, answers_of_runCmd (exec_taskDefine sl c s) gone,
      answers_of_runCmd (exec_dropSend sl c s) gone⟩
  · obtain ⟨q, hq, hrun⟩ := hlock
    have hact : actPart c = some c.target.toNat := by simp [actPart, Nat.not_le.2 hqp, show ¬ c.target = 65535#16 from htarget]
    have hpart (sc) : noPart (modOf s sl) sc c = false := by simp [noPart, hact, hq]
    have locked {h sc code} (hcode : code ≠ 0x0B04) := runCmd_runLocked (h := h) (sc := sc) (modOf s (otherSlot sl)) hfw (code := code)
      hheld (serves_of_up hup) hlead (hpart sc) (by simp [runLocked, hqp, show ¬ c.target = 65535#16 from htarget, hcode, hq, hrun])
    exact ⟨answers_of_runCmd (exec_pointWrite sl c s) (locked (by decide)), answers_of_runCmd (exec_pointForce sl c s) (locked (by decide)),
      answers_of_runCmd (exec_taskStop sl c s) (locked (by decide)), answers_of_runCmd (exec_chronicleNote sl c s) (locked (by decide))⟩

end Sys2Proof.Machine

/-! PROOF. The SESSION commands (R75, R89, R90). -/

namespace Sys2Proof.Machine
open Sys2Proof Sys2Proof.Bits Sys2Proof.Safety

section
variable {m p : Module} {c : Cmd}

/-- SESSION.OPEN of a QP that nothing keeps closed. -/
theorem hSessionOpen_opens {q : Qp} (h1 : 1 ≤ le c.param 0 2) (h2 : le c.param 0 2 ≤ 1027) (hkind : byteAt c.param 2 ≤ 1)
    (hpart : 4 ≤ le c.param 0 2 → ∃ p, partOf m (le c.param 0 2 - 4) = some p ∧
      (p.cred.any (fun b => b != 0) = false ∨ p.cred = (c.param.drop 8).take 16))
    (hlive : qpLive m (le c.param 0 2) = false) (hport : le c.req 34 2 = 0 ∨ c.qp = 0)
    (hpcie : byteAt c.param 2 = 0 → (1 ≤ byteAt c.param 3 ∧ byteAt c.param 3 ≤ 31) ∧ sqSizeOk (le c.param 4 2) = true
      ∧ cqSizeOk (le c.param 6 2) = true ∧ aligned4k (w64 (le c.req 0 8)) = true ∧ aligned4k (w64 (le c.req 8 8)) = true)
    (hudp : byteAt c.param 2 = 1 → ((c.req.drop 16).take 16).all (fun b => b == 0) = false)
    (hq : (if byteAt c.param 2 == 1 then { st := .opened, udp := true, peer := (c.req.drop 16).take 16, peerPort := le c.req 32 2 }
      else { st := .opened, vector := byteAt c.param 3, sqBase := w64 (le c.req 0 8), cqBase := w64 (le c.req 8 8),
             sqSize := le c.param 4 2, cqSize := le c.param 6 2 }) = q) :
    hSessionOpen m p c = .done 0 0 [] { m with mail := { m.mail with
      qps := tset m.mail.qps (le c.param 0 2) q, udpPort := if le c.req 34 2 = 0 then m.mail.udpPort else le c.req 34 2 } } := by
  have hcred : (match partOf m (le c.param 0 2 - 4) with
      | some q => decide (4 ≤ le c.param 0 2) && q.cred.any (fun b => b != 0) && q.cred != (c.param.drop 8).take 16
      | none => false) = false := by
    by_cases h4 : 4 ≤ le c.param 0 2
    · obtain ⟨q, hq, h | h⟩ := hpart h4
      · simp only [hq, h, Bool.and_false, Bool.false_and]
      · simp [hq, h]
    · split <;> simp [h4]
  have hfound : ¬ (4 ≤ le c.param 0 2 ∧ (partOf m (le c.param 0 2 - 4)).isNone = true) := by
    rintro ⟨h4, hnone⟩
    obtain ⟨q, hq, -⟩ := hpart h4
    simp [hq] at hnone
  subst hq
  unfold hSessionOpen prm prmB
  rw [if_neg (by omega), if_neg hfound, if_neg (by simp [hlive]), if_neg, if_neg, if_neg (by omega), if_neg]
  · rfl
  · exact fun h => Bool.false_ne_true (hcred.symm.trans h)
  · rintro hbad
    simp only [Bool.and_eq_true, beq_iff_eq] at hbad
    rw [hudp hbad.1] at hbad
    exact absurd hbad.2 (by decide)
  · by_cases h : byteAt c.param 2 = 1
    · simp [h]
    · obtain ⟨hvec, hsq, hcq, hb, hcb⟩ := hpcie (by omega)
      simp [hvec, hsq, hcq, hb, hcb]

/-- The answer of SESSION.STATUS as one list of fields. -/
def statusFields (m : Module) (c : Cmd) : Bytes := match hSessionStatus m m c with
  | .done _ _ rsp _ => rsp
  | _ => []

theorem hSessionStatus_answers (hn : namedQp c ≤ 1027) : hSessionStatus m p c = .done 0 0 (statusFields m c) m := by
  unfold statusFields hSessionStatus
  rw [if_neg (by omega)]
  rfl

theorem byteAt_eq_le (bs : Bytes) (o : Nat) : byteAt bs o = le bs o 1 := by
  unfold byteAt le
  induction bs generalizing o with
  | nil => simp [leVal]
  | cons b bs ih => cases o with
    | zero => simp [leVal]
    | succ o => simpa using ih o

theorem statusFields_spec (hn : namedQp c ≤ 1027) :
    le (statusFields m c) 0 1 = stateCode m.boot.state ∧ le (statusFields m c) 1 1 = roleCode m.pair.role
      ∧ le (statusFields m c) 2 1 = modeCode m.pair.mode ∧ le (statusFields m c) 3 1 = slotN m.slot
      ∧ le (statusFields m c) 4 4 = m.pair.leadEpoch.toNat ∧ (statusFields m c).length = 64 := by
  have hstate : stateCode m.boot.state < 256 := by cases m.boot.state <;> decide
  have hrole : roleCode m.pair.role < 256 := by cases m.pair.role <;> decide
  have hmode : modeCode m.pair.mode < 256 := by cases m.pair.mode <;> decide
  have hslot : slotN m.slot < 256 := by cases m.slot <;> decide
  have hepoch := m.pair.leadEpoch.isLt
  unfold statusFields hSessionStatus
  rw [if_neg (by omega)]
  simp only [okRsp, List.append_assoc]
  refine ⟨?_, ?_, ?_, ?_, ?_, ?_⟩
  · rw [le_front]; omega
  · rw [le_skip _ _ _ _ 1 (by simp) (by omega), le_front]; omega
  · rw [le_skip _ _ _ _ 1 (by simp) (by omega), le_skip _ _ _ _ 1 (by simp) (by omega), le_front]; omega
  · rw [le_skip _ _ _ _ 1 (by simp) (by omega), le_skip _ _ _ _ 1 (by simp) (by omega), le_skip _ _ _ _ 1 (by simp) (by omega), le_front]
    omega
  · rw [le_skip _ _ _ _ 1 (by simp) (by omega), le_skip _ _ _ _ 1 (by simp) (by omega), le_skip _ _ _ _ 1 (by simp) (by omega),
      le_skip _ _ _ _ 1 (by simp) (by omega), le_front]
    omega
  · simp [zeros]

end

/-- The QP whose window SESSION.TICKETS asks for. -/
def windowQp (c : Cmd) : Nat :=
  if le c.param 0 2 = 0xFFFF then (match actPart c with | some p => p + 4 | none => c.qp) else le c.param 0 2

/-- The header of the answer of SESSION.TICKETS. -/
def ticketsHeader (m : Module) (q : Nat) : Bytes :=
  leBytes 2 q ++ zeros 2 ++ leBytes 4 (windowOf m q).length
    ++ leBytes 8 (if (windowOf m q).isEmpty then 0 else ((tget m.mail.highest q).getD 0).toNat) ++ leBytes 8 ((ticketLow m q).getD 0) ++ zeros 8

theorem ticketsHeader_length (m : Module) (q : Nat) : (ticketsHeader m q).length = 32 := by
  simp [ticketsHeader, zeros]

/-- Settles O16. -/
theorem quondiSession : Obligations.QuondiSession := by
  unfold Obligations.QuondiSession
  intro s sl c
  dsimp only
  refine ⟨fun h1 h2 hpart hlive hport => ⟨fun hkind hv1 hv2 hsq hcq hb hcb hruns => ?_, fun hkind hpeer hruns => ?_⟩,
    fun q h1 h2 hown hq hst hruns => ?_, fun hn hruns => ?_, fun hq hcount hruns => ?_, fun hn hown hjournal hruns => ?_, fun hruns => ?_,
    fun q hn hq hst hcount hage hruns => ?_⟩
  · exact answers_of (exec_sessionOpen sl c s) hruns (hSessionOpen_opens h1 h2 (by omega) hpart hlive hport
      (fun _ => ⟨⟨hv1, hv2⟩, hsq, hcq, hb, hcb⟩) (fun h => absurd h (by omega)) (by rw [hkind]; rfl))
  · exact answers_of (exec_sessionOpen sl c s) hruns (hSessionOpen_opens h1 h2 (by omega) hpart hlive hport
      (fun h => absurd h (by omega)) (fun _ => hpeer) (by rw [hkind]; rfl))
  · refine answers_of (exec_sessionClose sl c s) hruns ?_
    unfold hSessionClose prm
    rw [if_neg (by omega), if_neg (by omega), hq]
    simp [hst]
  · obtain ⟨hstate, hrole, hmode, hslot, hepoch, hlen⟩ := statusFields_spec (m := modOf s sl) (c := c) hn
    simp only [← byteAt_eq_le] at hstate hrole hmode hslot
    exact ⟨_, answers_of (exec_sessionStatus sl c s) hruns (hSessionStatus_answers hn), hstate, hrole, hmode, hslot, hepoch, hlen⟩
  · refine ⟨ticketsHeader (modOf s sl) (windowQp c), ticketsHeader_length _ _, answers_of (exec_sessionTickets sl c s) hruns ?_⟩
    unfold hSessionTickets prm
    rw [if_neg, if_neg (by omega)]
    · rfl
    · cases hp : actPart c with
      | none =>
        rw [hp] at hq
        simp only [Bool.and_eq_true, bne_iff_ne, decide_eq_true_eq]
        omega
      | some p =>
        rw [hp] at hq
        simp only [Bool.and_eq_true, bne_iff_ne]
        omega
  · refine answers_of (exec_sessionReticket sl c s) hruns ?_
    unfold hSessionReticket prm
    rw [if_neg (by omega), if_neg (by omega), if_neg]
    · rfl
    · simpa using hjournal
  · exact answers_of (exec_sessionNop sl c s) hruns rfl
  · change namedQp c ≤ 1027 at hn
    change tget _ (namedQp c) = _ at hq
    refine answers_of (exec_sessionCoalesce sl c s) hruns ?_
    unfold hSessionCoalesce prm
    rw [if_neg (by omega), hq]
    exact if_neg (not_not_intro hst)

end Sys2Proof.Machine

/-! PROOF. Points: what one element of a POINT command does to its point and to no other (R95, R98, R99, R101 to R104). -/

namespace Sys2Proof.Machine
open Sys2Proof Sys2Proof.Bits Sys2Proof.Safety

/-! ### Quality of a written point -/

theorem qRw_getLsbD (q : W16) {i : Nat} (hi : i = 0 ∨ i = 1 ∨ i = 7) : (qRw q).getLsbD i = false := by
  have h := congrArg (fun x => x.getLsbD i) (qRw_low q)
  rcases hi with rfl | rfl | rfl <;> simpa using h

/-- A written point keeps bit 1 of its quality; bits 0 and 7 clear (R95). -/
theorem written_bits (q own : W16) : (qRw q ||| (own &&& 2)).getLsbD 0 = false ∧ (qRw q ||| (own &&& 2)).getLsbD 7 = false
    ∧ (qRw q ||| (own &&& 2)).getLsbD 1 = own.getLsbD 1 := by
  simp only [BitVec.getLsbD_or, BitVec.getLsbD_and, qRw_getLsbD, true_or, or_true, Bool.false_or]
  simp

theorem written_class (q own : W16) : qClass (qRw q ||| (own &&& 2)) = if qClass q = 2 then 0 else qClass q := by
  have hown : (own &&& 2#16) >>> 14 = 0#16 := by
    apply BitVec.eq_of_getLsbD_eq
    intro i hi
    interval_cases i <;> simp
  rw [← qRw_class, qClass, BitVec.ushiftRight_or_distrib, show (2 : W16) = 2#16 from rfl, hown, BitVec.or_zero, qClass]

/-! ### Elements -/

section
variable {m : Module} {c : Cmd} {i : Nat} {r : PointRec} {t : LType} {h : W32}

/-- The element gives its point the record `r'` and touches no other slot. -/
def Gives (m : Module) (res : Except Nat Module) (h : W32) (r' : PointRec) : Prop := ∃ m', res = .ok m'
  ∧ tget m'.store.points (hIdx h) = some r' ∧ ∀ j, j ≠ hIdx h → tget m'.store.points j = tget m.store.points j

theorem gives_pointSet (r' : PointRec) : Gives m (.ok (pointSet m (hIdx h) r')) h r' :=
  ⟨_, rfl, tget_tset_same _ _ _, fun _ hj => tget_tset_other _ _ _ _ hj⟩

theorem tget_of_live (hl : live m h = some r) : tget m.store.points (hIdx h) = some r := by
  unfold live liveAt at hl
  split at hl
  · split at hl
    · cases hl; assumption
    · cases hl
  · cases hl

theorem checkOwn_own {p : Nat} (hl : live m h = some r) (ho : r.owner = p) : checkOwn m p h = none := by
  simp [checkOwn, hl, ho]

theorem checkOwn_foreign {p : Nat} (hl : live m h = some r) (ho : r.owner ≠ p) : checkOwn m p h = some 10 := by
  simp [checkOwn, hl, ho]

theorem checkOwn_gone {p : Nat} (hl : live m h = none) : checkOwn m p h = some 8 := by
  simp [checkOwn, hl]

theorem writeElem_ok (setQ : Bool) (hl : live m (elemHandle c 16 i) = some r) (ho : r.owner = pid c) (hw : (r.writer >>> 14).toNat ≠ 3) :
    writeElem c setQ m i = .ok (pointSet m (hIdx (elemHandle c 16 i)) (writeRec r (w64 (le c.req (16 * i + 8) 8))
      (if setQ then w16 (le c.req (16 * i + 4) 2) else 0xC000) 2 (now m) r.writer)) := by
  simp only [writeElem, checkOwn_own hl ho, hl]
  exact if_neg hw

theorem writeElem_input (setQ : Bool) (hl : live m (elemHandle c 16 i) = some r) (ho : r.owner = pid c) (hw : (r.writer >>> 14).toNat = 3) :
    writeElem c setQ m i = .error 0x0202 := by
  simp only [writeElem, checkOwn_own hl ho, hl]
  exact if_pos hw

theorem forceElem_ok (hl : live m (elemHandle c 16 i) = some r) (ho : r.owner = pid c) (hw : (r.writer >>> 14).toNat ≠ 3)
    (ht : r.ty = some t) (room : r.forced = true ∨ forcedCount m < 65536) :
    forceElem c m i = .ok (pointSet m (hIdx (elemHandle c 16 i))
      { r with forced := true, force := maskVal t (w64 (le c.req (16 * i + 8) 8)) }) := by
  simp only [forceElem, checkOwn_own hl ho, hl]
  rw [if_neg hw, if_neg]
  · simp only [ht]
  · rcases room with h | h <;> simp [h]

theorem forceElem_input (hl : live m (elemHandle c 16 i) = some r) (ho : r.owner = pid c) (hw : (r.writer >>> 14).toNat = 3) :
    forceElem c m i = .error 0x0202 := by
  simp only [forceElem, checkOwn_own hl ho, hl]
  exact if_pos hw

theorem unforceElem_gives (hl : live m (elemHandle c 4 i) = some r) (ho : r.owner = pid c) :
    Gives m (unforceElem c m i) (elemHandle c 4 i) { r with forced := false } := by
  simp only [unforceElem, checkOwn_own hl ho]
  exact ⟨_, rfl, by simp [pointMod, tget_of_live hl],
    fun j hj => tget_tmod_other m.store.points _ j (fun r => { r with forced := false }) hj⟩

theorem retainElem_ok {set : Bool} (hl : live m (elemHandle c 4 i) = some r) (ho : r.owner = pid c)
    (room : set = false ∨ r.retained = true ∨ retainedCount m < 1048576) :
    retainElem c set m i = .ok (pointSet m (hIdx (elemHandle c 4 i)) { r with retained := set }) := by
  simp only [retainElem, checkOwn_own hl ho, hl]
  refine if_neg ?_
  rcases room with h | h | h <;> simp [h]

theorem freeSlot_gives {j : Nat} (hr : tget m.store.points j = some r) :
    tget (freeSlot m j).store.points j = some { gen := r.gen + 1 }
      ∧ ∀ k, k ≠ j → tget (freeSlot m j).store.points k = tget m.store.points k := by
  simp only [freeSlot, hr]
  exact ⟨tget_tset_same _ _ _, fun k hk => tget_tset_other _ _ _ _ hk⟩

theorem freeElem_gives (hl : live m (elemHandle c 4 i) = some r) (ho : r.owner = pid c)
    (horphan : tget m.store.orphans (hIdx (elemHandle c 4 i)) = none) (hrefs : tableRefs m (elemHandle c 4 i) = 0) :
    Gives m (freeElem c m i) (elemHandle c 4 i) { gen := r.gen + 1 } := by
  simp only [freeElem, horphan, checkOwn_own hl ho, hrefs, ne_eq, not_true, if_false]
  exact ⟨_, rfl, freeSlot_gives (tget_of_live hl)⟩

/-- An allocated point takes the first free slot of its partition. -/
theorem allocElem_gives {p k : Nat} {q : Partition} {shared retained : Bool} (hp : partOf m p = some q)
    (hfree : freeFirst (fun x => thas m.store.orphans x) q.free = some k) (room : retained = false ∨ retainedCount m < 1048576) :
    ∃ m', allocElem p t shared retained m i = .ok m'
      ∧ tget m'.store.points k = some { owner := p, gen := slotGen m k, ty := some t, shared, retained }
      ∧ (∀ j, j ≠ k → tget m'.store.points j = tget m.store.points j) ∧ ∃ q', partOf m' p = some q' ∧ q'.free = freeRemove k q.free := by
  simp only [allocElem, hp, hfree]
  rw [if_neg (by rcases room with h | h <;> simp [h])]
  refine ⟨_, rfl, tget_tset_same _ _ _, fun j hj => tget_tset_other _ _ _ _ hj, { q with free := freeRemove k q.free }, ?_, rfl⟩
  have hparts : partOf m p = tget m.store.parts p := rfl
  rw [partOf, pointSet, partMod, tget_tmod_same, ← hparts, hp]
  rfl

end

/-- Settles O18: one lemma for each element. -/
theorem pointElements : Obligations.PointElements := by
  unfold Obligations.PointElements
  intro m c i r t
  dsimp only
  intro ht
  refine ⟨fun hl ho hw => ⟨fun setQ => ?_, fun room => ?_⟩, fun hl ho hw => ⟨fun setQ => writeElem_input setQ hl ho hw,
    forceElem_input hl ho hw⟩, fun hl ho => ⟨unforceElem_gives hl ho, fun set room => ?_, freeElem_gives hl ho, fun horphan hrefs => ?_⟩,
    fun hl horphan => ?_, fun hl ho => ?_, fun p q k shared retained hp hfree room => ?_⟩
  · generalize hq : (if setQ then w16 (le c.req (16 * i + 4) 2) else (0xC000 : W16)) = q
    obtain ⟨h0, h7, h1⟩ := written_bits q r.quality
    refine ⟨qRw q ||| (r.quality &&& 2), ?_, h0, h7, h1, ?_, fun hset => ?_⟩
    · rw [show writeElem c setQ m i = _ from writeElem_ok setQ hl ho hw, hq, writeRec, ht]
      exact gives_pointSet _
    · rw [written_class]
      split
      · decide
      · assumption
    · rw [written_class, ← hq, hset, if_neg Bool.false_ne_true]
      decide
  · rw [show forceElem c m i = _ from forceElem_ok hl ho hw ht room]
    exact gives_pointSet _
  · rw [show retainElem c set m i = _ from retainElem_ok hl ho room]
    exact gives_pointSet _
  · have hown := checkOwn_own hl ho
    simp [freeElem, elemHandle, horphan, hown, hrefs]
  · have hown := checkOwn_gone (p := pid c) hl
    simp [unforceElem, retainElem, freeElem, elemHandle, horphan, hown]
  · have hown := checkOwn_foreign hl ho
    simp [unforceElem, retainElem, elemHandle, hown]
  · obtain ⟨m', hok, hpoint, hothers, hpart⟩ := allocElem_gives (i := i) (t := t) (shared := shared) hp hfree room
    exact ⟨m', _, hok, hpoint, fun x hx => by simp [slotGen, hx], hothers, hpart⟩

end Sys2Proof.Machine

/-! PROOF. POINT.READ, DESCRIBE, SUBSCRIBE, UNSUBSCRIBE, PUBLISH and IMPORT (R98, R100, R105, R118 to R123). -/

namespace Sys2Proof.Machine
open Sys2Proof Sys2Proof.Bits Sys2Proof.Safety

/-- Elements that are only checked change nothing. -/
theorem overElems_checked {f : Module → Nat → Except Nat Module} {fin : Module → QRes} {m : Module} {n : Nat}
    (h : ∀ i, i < n → f m i = .ok m) : overElems m n f fin = fin m := by
  have run (k i : Nat) (hk : i + k ≤ n) : elems f k i m = .ok m := by
    induction k generalizing i with
    | zero => rfl
    | succ k ih => rw [elems, h i (by omega)]; exact ih (i + 1) (by omega)
  rw [overElems, run n 0 (by omega)]

theorem length_flatten_of_all {α : Type} {l : List (List α)} {n : Nat} (h : ∀ x ∈ l, x.length = n) : l.flatten.length = n * l.length := by
  induction l with
  | nil => simp
  | cons x l ih =>
    rw [List.flatten_cons, List.length_append, h x List.mem_cons_self, ih (fun y hy => h y (List.mem_cons_of_mem _ hy)),
      List.length_cons]
    ring

section
variable {m p : Module} {c : Cmd}

theorem hPointDescribe_answers (h1 : 1 ≤ le c.param 0 4) (h2 : le c.param 0 4 ≤ 4096) (hr : ∀ i, i < le c.param 0 4 →
      (match checkRead m (pid c) (elemHandle c 4 i) with | some e => Except.error e | none => .ok m) = .ok m) :
    ∃ rsp, hPointDescribe m p c = .done 0 0 rsp m ∧ rsp.length = 16 * le c.param 0 4 := by
  unfold hPointDescribe prm
  rw [if_neg (by omega), overElems_checked hr]
  refine ⟨_, rfl, ?_⟩
  rw [length_flatten_of_all (n := 16), List.length_map, List.length_range]
  intro x hx
  obtain ⟨i, -, rfl⟩ := List.mem_map.1 hx
  dsimp only
  split <;> simp [zeros]

theorem taskCheck_own {t : Nat} {k : Task} (hk : tget m.exec.tasks t = some k) (hp : k.part = pid c) : taskCheck m (pid c) t = none := by
  simp [taskCheck, hk, hp]

end

/-- Settles O19. -/
theorem pointReadersPublishers : Obligations.PointReadersPublishers := by
  unfold Obligations.PointReadersPublishers
  intro s sl c
  dsimp only
  have readable {n : Nat} (hr : ∀ i, i < n → checkRead (modOf s sl) (pid c) (w32 (le c.req (0 + 4 * i) 4)) = none) (i : Nat) (hi : i < n) :
      (match checkRead (modOf s sl) (pid c) (elemHandle c 4 i) with | some e => Except.error e | none => .ok (modOf s sl))
        = .ok (modOf s sl) := by
    have h := hr i hi
    rw [Nat.zero_add] at h
    rw [show checkRead (modOf s sl) (pid c) (elemHandle c 4 i) = none from h]
  have handles (n : Nat) : (List.range n).map (fun i => w32 (le c.req (0 + 4 * i) 4)) = (List.range n).map (elemHandle c 4) := by
    simp only [Nat.zero_add]; rfl
  refine ⟨fun h1 h2 hr => ⟨fun hruns => ?_, fun hruns => ?_⟩, fun h1 h2 hpow hint hcap hr hroom hruns => ?_, fun hsub hruns => ?_,
    fun k hpub hcap htask h1 h2 hd1 hd2 hk hpart hperiod hown hruns => ?_,
    fun x hid htask hn => ⟨fun hcap hd y hy hpart hruns => ?_, fun hcap hx hpart hruns => ?_⟩,
    fun k hid hcap htask h1 h2 hpub hw hk hpart hcheck hnew hroom hruns => ?_⟩
  · refine answers_of (exec_pointRead sl c s) hruns ?_
    unfold hPointRead prm
    rw [if_neg (by omega), overElems_checked (readable hr)]
    simp only [Nat.zero_add]
    rfl
  · obtain ⟨rsp, hrsp, hlen⟩ := hPointDescribe_answers (p := modOf s (otherSlot sl)) h1 h2 (readable hr)
    exact ⟨rsp, answers_of (exec_pointDescribe sl c s) hruns hrsp, hlen⟩
  · refine answers_of (exec_pointSubscribe sl c s) hruns ?_
    unfold hPointSubscribe prm
    rw [if_neg (by simp [hpow]; omega), if_neg (by simp [hcap]), overElems_checked (readable hr), if_neg, handles]
    · rfl
    · rcases hroom with h | h
      · rw [subKey, h]; simp
      · simp [h]
  · refine answers_of (exec_pointUnsubscribe sl c s) hruns ?_
    unfold hPointUnsubscribe prm
    rw [if_neg (by rw [subKey, hsub]; decide)]
    rfl
  · have helem (i : Nat) (hi : i < le c.param 4 4) :
        (match checkOwn (modOf s sl) (pid c) (elemHandle c 4 i) with
          | some e => Except.error e
          | none => match live (modOf s sl) (elemHandle c 4 i) with
            | some r => if r.shared then .ok (modOf s sl) else .error 10
            | none => .error 8) = .ok (modOf s sl) := by
      obtain ⟨r, hr, howner, hshared⟩ := hown i hi
      rw [Nat.zero_add] at hr
      have hlive : live (modOf s sl) (elemHandle c 4 i) = some r := hr
      rw [checkOwn_own hlive howner, hlive]
      exact if_pos hshared
    refine ⟨fun hnone hroom => answers_of (exec_pointPublish sl c s) hruns ?_,
      fun x hx hpart' => answers_of (exec_pointPublish sl c s) hruns ?_⟩
    all_goals
      unfold hPointPublish prm prmB
      rw [if_neg (by omega), if_neg (by simp [hcap]), if_neg htask, if_neg (by omega), taskCheck_own hk hpart]
      dsimp only
      rw [if_neg (by simp [hk]; omega), overElems_checked (fun i hi => by exact helem i hi)]
    · rw [hnone, handles]
      exact if_neg (by omega)
    · rw [hx, handles]
      exact if_neg (not_not_intro hpart')
  · refine answers_of (exec_pointPublish sl c s) hruns ?_
    unfold hPointPublish prm prmB
    rw [if_neg (by omega), if_neg (by simp [hcap]), if_pos htask, if_neg (by omega), hy]
    exact if_neg (not_not_intro hpart)
  · refine answers_of (exec_pointImport sl c s) hruns ?_
    unfold hPointImport prm prmB
    rw [if_neg (by omega), if_neg (by simp [hcap]), if_pos htask, if_neg (by omega), hx]
    exact if_neg (not_not_intro hpart)
  · refine answers_of (exec_pointImport sl c s) hruns ?_
    unfold hPointImport prm prmB
    rw [if_neg (by omega), if_neg (by simp [hcap]), if_neg htask, if_neg (by omega), taskCheck_own hk hpart]
    dsimp only
    rw [overElems_checked (fun i hi => by rw [hcheck i hi]), hnew]
    exact if_neg (by omega)

end Sys2Proof.Machine

/-! PROOF. The PARTITION and GUARD commands (R105 to R117). -/

namespace Sys2Proof.Machine
open Sys2Proof Sys2Proof.Bits Sys2Proof.Safety

section
variable {m p : Module} {c : Cmd}

theorem namedPart_ok {n : Nat} (hn : n ≤ 1023) (h : ∃ q, partOf m n = some q ∧ q.runLock = false) : namedPart m n = none := by
  obtain ⟨q, hq, hlock⟩ := h
  rw [namedPart, if_neg (by omega), hq]
  simp [hlock]

/-! ### PARTITION.DELETE -/

/-- `n` is `m` with other points, and with the same partitions present. -/
def PointsFreed (m n : Module) : Prop :=
  ∃ pts parts, n = { m with store := { m.store with points := pts, parts := parts } }
    ∧ ∀ k, (tget parts k).isSome = (tget m.store.parts k).isSome

theorem freeSlot_pointsFreed (m : Module) (i : Nat) : PointsFreed m (freeSlot m i) := by
  unfold freeSlot
  split
  · exact ⟨m.store.points, m.store.parts, rfl, fun _ => rfl⟩
  · refine ⟨_, _, rfl, fun k => ?_⟩
    rw [tget_tmod]
    split
    · exact Option.isSome_map
    · rfl

theorem freeSlots_pointsFreed (l : List Nat) (m : Module) : PointsFreed m (l.foldl freeSlot m) := by
  induction l generalizing m with
  | nil => exact ⟨m.store.points, m.store.parts, rfl, fun _ => rfl⟩
  | cons i l ih =>
    obtain ⟨pts, parts, h1, hparts⟩ := freeSlot_pointsFreed m i
    obtain ⟨pts', parts', h2, hparts'⟩ := ih (freeSlot m i)
    refine ⟨pts', parts', ?_, fun k => ?_⟩
    · rw [List.foldl_cons, h2, h1]
    · rw [hparts', h1]; exact hparts k

theorem hPartitionDelete_ok (hn : le c.param 0 2 ≤ 1023) (hq : ∃ q, partOf m (le c.param 0 2) = some q ∧ q.runLock = false)
    (htasks : m.exec.tasks.all (fun x => x.2.part != le c.param 0 2) = true) (hlive : qpLive m (le c.param 0 2 + 4) = false) :
    ∃ m', hPartitionDelete m p c = .done 0 0 [] m' ∧ tget m'.store.parts (le c.param 0 2) = none
      ∧ (∀ k, k ≠ le c.param 0 2 → (tget m'.store.parts k).isSome = (tget m.store.parts k).isSome)
      ∧ m'.store.orphans.all (fun x => x.2.owner != le c.param 0 2) = true ∧ m'.exec = m.exec ∧ m'.mail = m.mail := by
  have hnone : (m.exec.tasks.any (fun x => x.2.part == le c.param 0 2) || qpLive m (le c.param 0 2 + 4)) = false := by
    rw [hlive, Bool.or_false]
    simpa using htasks
  unfold hPartitionDelete prm
  simp only [namedPart_ok hn hq, hnone]
  generalize (m.store.points.filter _).map _ = owned
  obtain ⟨pts, parts, h, hparts⟩ := freeSlots_pointsFreed owned m
  refine ⟨_, rfl, ?_, fun k hk => ?_, ?_, ?_, ?_⟩
  · rw [h]; exact (tget_tdel _ _ _).trans (if_pos rfl)
  · rw [h]
    rw [show tget (tdel _ _) k = _ from (tget_tdel _ _ _).trans (if_neg hk)]
    exact hparts k
  · simp
  · rw [h]
  · rw [h]

/-! ### GUARD -/

theorem latchBytes_length (u : XUnit) : (latchBytes u).length = 32 := by
  unfold latchBytes
  split <;> simp [zeros]

theorem hGuardViolation_answers : ∃ rsp, hGuardViolation m p c = .done 0 0 rsp m ∧ rsp.length = 512 := by
  refine ⟨_, rfl, ?_⟩
  rw [length_flatten_of_all (n := 32), List.length_map, List.length_range]
  intro x hx
  obtain ⟨i, -, rfl⟩ := List.mem_map.1 hx
  repeat' split
  all_goals simp [zeros, latchBytes_length]

end

/-- Settles O20. -/
theorem partitionGuard : Obligations.PartitionGuard := by
  unfold Obligations.PartitionGuard
  intro s sl c
  dsimp only
  refine ⟨fun hp hq1 hq2 hnew hb hc hroom hover hruns => ?_, fun ⟨hp, hq⟩ htasks hlive => ?_, fun ⟨hp, hq⟩ hruns => ?_,
    fun hqp hval hcap hruns => ?_, fun hqp hruns => ?_, fun ⟨hp, hq⟩ hne hds hruns => ?_, fun hp hclasses h1 h2 hruns => ?_,
    fun hruns => ?_, ?_⟩
  · refine answers_of (exec_partitionCreate sl c s) hruns ?_
    unfold hPartitionCreate prm
    rw [if_neg (by omega), if_neg (by simp [hnew]), if_neg (by simp [hb, hc, hover, storeSlots]; omega)]
    rfl
  · obtain ⟨m', hdel, h⟩ := hPartitionDelete_ok (p := modOf s (otherSlot sl)) hp hq htasks hlive
    exact ⟨m', fun hruns => answers_of (exec_partitionDelete sl c s) hruns hdel, h⟩
  · refine answers_of (exec_partitionCaps sl c s) hruns ?_
    unfold hPartitionCaps prm
    dsimp only
    rw [namedPart_ok hp hq]
    rfl
  · refine answers_of (exec_partitionRunlock sl c s) hruns ?_
    unfold hPartitionRunlock prmB
    rw [if_neg (by omega), if_neg (by omega), if_neg (by simp [hcap])]
    rfl
  · exact answers_of (exec_partitionRunlock sl c s) hruns (if_pos hqp)
  · refine answers_of (exec_guardRegions sl c s) hruns ?_
    unfold hGuardRegions prm
    have hgood : ((chunks 16 28 c.req).map guardDesc).findIdx? regionBad = none := by
      rw [List.findIdx?_eq_none_iff]
      simpa using hds
    rw [if_neg hne, namedPart_ok hp hq]
    simp only [hgood]
    rfl
  · refine answers_of (exec_guardRegions sl c s) hruns ?_
    unfold hGuardRegions prm
    rw [if_pos hp, if_neg]
    · rfl
    · simp only [Bool.or_eq_true, decide_eq_true_eq]
      rintro (h | h)
      · obtain ⟨x, hx, hbad⟩ := List.any_eq_true.1 h
        obtain ⟨b, hb, rfl⟩ := List.mem_map.1 hx
        have := List.all_eq_true.1 hclasses b hb
        simp only [decide_eq_true_eq] at this hbad
        omega
      · omega
  · obtain ⟨rsp, hrsp, hlen⟩ := hGuardViolation_answers (m := modOf s sl) (p := modOf s (otherSlot sl)) (c := c)
    exact ⟨rsp, answers_of (exec_guardViolation sl c s) hruns hrsp, hlen⟩
  · refine ⟨_, fun hruns => answers_of (exec_guardClear sl c s) hruns rfl, fun k hk => ?_, rfl⟩
    exact (List.getElem?_mapIdx ..)

end Sys2Proof.Machine

/-! PROOF. TASK.ICAL and a task table that holds a number twice (R140). -/

namespace Sys2Proof.Machine
open Sys2Proof Sys2Proof.Bits Sys2Proof.Safety

/-- A task of partition 0 at a priority. -/
def taskAt (prio : Nat) : Task :=
  { part := 0, period := 1000, phase := 0, prio := prio, cluster := 0, core := false, frameKiB := 4, halo := false, unchecked := false }

/-- A lead in RUN whose table holds two tasks of number 0. -/
def twiceTask : Module :=
  { slot := .a, boot := { state := .run }, pair := { role := .lead }, exec := { tasks := [(0, taskAt 0), (0, taskAt 1)] } }

/-- TASK.ICAL of task 0, source 0, of the domain with that lead. -/
def twiceDomain : State := { State.reset with modA := twiceTask }
def icalOff : Cmd := { qp := 0, ticket := 1, target := 0xFFFF, param := zeros 24 }

theorem icalOff_runs : runs .work .part 0x0308 icalOff twiceTask = true := by decide

theorem icalOff_handled :
    hTaskIcal twiceTask (modOf twiceDomain .b) icalOff = .done 0 0 [] (taskMod twiceTask 0 (fun k =>
      let k1 := { k with icalNext := some (0, false, 0, 0, 0) }
      if windowOpen k (now twiceTask) then k1 else icalNow k1)) := rfl

/-- The priorities of the tasks of module A. -/
def prios (s : State) : List Nat := s.modA.exec.tasks.map (fun x => x.2.prio)

theorem prios_answered (f : Task → Task) (m : Module) (s : State) (c : Cmd) :
    prios (withMod s .a (settle m .work 0x0308 c (.done 0 0 [] (taskMod twiceTask 0 f)))) = [(f (taskAt 0)).prio, (f (taskAt 1)).prio] := by
  simp [prios, withMod, settle, taskMod, tmod, twiceTask]

/-- Refutes O21: TASK.ICAL changes each entry of its number, so with two entries of one number no single task is the outcome of both. -/
theorem not_taskCommands : ¬ Obligations.TaskCommands := by
  unfold Obligations.TaskCommands
  intro h
  obtain ⟨-, hk, -⟩ := h twiceDomain .a icalOff
  obtain ⟨-, -, -, -, -, -, -, -, hical⟩ := hk (taskAt 0) rfl rfl
  obtain ⟨k', hanswer, -⟩ := hical (.inl rfl)
  have hexec := answers_of (exec_taskIcal .a icalOff twiceDomain) icalOff_runs icalOff_handled
  have hstate := Host.Outcome.next.inj (hexec.symm.trans (hanswer icalOff_runs))
  have hprios := congrArg prios hstate
  rw [prios_answered] at hprios
  have hboth : [0, 1] = [k'.prio, k'.prio] := hprios.trans (prios_answered (fun _ => k') _ _ _)
  obtain ⟨h0, h1⟩ : 0 = k'.prio ∧ 1 = k'.prio := by simpa using hboth
  omega

end Sys2Proof.Machine

/-! PROOF. The GLINT and DIAG commands (R18, R29, R208 to R211, R245, R246, R411, R420, R421). -/

namespace Sys2Proof.Machine
open Sys2Proof Sys2Proof.Bits Sys2Proof.Safety

section
variable {m p : Module} {c : Cmd}

/-- DIAG.LANES answers with 32 octets for each lane. -/
theorem hDiagLanes_answers : ∃ rsp, hDiagLanes m p c = .done 0 0 rsp m ∧ rsp.length = 32 * m.field.lanes.length := by
  refine ⟨_, rfl, ?_⟩
  rw [length_flatten_of_all (n := 32), List.length_mapIdx]
  intro x hx
  obtain ⟨i, hi, rfl⟩ := List.mem_mapIdx.1 hx
  simp [zeros]

theorem hGlintLoad_answers (hbank : byteAt c.param 0 ≤ 1) (hpart : byteAt c.param 1 ≤ 4) (hidle : m.glint.active ≠ some (byteAt c.param 0))
    (hroom : le c.param 4 4 + c.req.length ≤ gCap (byteAt c.param 1)) :
    hGlintLoad m p c =
      let bytes := chunkInto (bit (byteAt c.param 2) 0) (le c.param 4 4) c.req (gPart (gBank m.glint (byteAt c.param 0)) (byteAt c.param 1)).bytes
      let last := bit (byteAt c.param 2) 1
      match if last then gLastCheck (byteAt c.param 1) bytes (le c.param 8 4) (le c.param 12 4) else none with
      | some (st, d) => .refused st d
      | none => ok (gMod m (fun g =>
          let b := gSetPart (gBank g (byteAt c.param 0)) (byteAt c.param 1) { bytes := bytes, sealed := last }
          if byteAt c.param 0 = 0 then { g with bank0 := b } else { g with bank1 := b })) := by
  unfold hGlintLoad prm prmB
  exact (if_neg (by omega)).trans ((if_neg hidle).trans (if_neg (by omega)))

/-- The self-test changes counters, the Chronicle and the safety state alone. -/
theorem hDiagSelftest_answers (free : W64) : ∃ rsp m', hDiagSelftest free m p c = .done 0 0 rsp m' ∧ rsp.length = 16
    ∧ m'.boot = m.boot ∧ m'.store = m.store ∧ m'.exec = m.exec ∧ m'.field = m.field := by
  refine ⟨_, _, rfl, by simp [zeros], ?_⟩
  repeat' split
  all_goals simp [memRecord, diagMod]

end

/-- Settles O22. -/
theorem glintDiagCommands : Obligations.GlintDiagCommands := by
  unfold Obligations.GlintDiagCommands
  intro s sl c
  dsimp only
  refine ⟨fun hbank hpart hidle hroom => ⟨fun hlast hruns => ?_, fun hlast hlen hruns => ?_⟩, fun hbank hpart hact hruns => ?_,
    fun b hb hflags hsplice hruns => ?_, fun hnone hruns => ?_, fun hruns => ?_, fun hruns => ?_, fun hruns => ?_, fun hruns => ?_,
    fun hruns => ?_, fun hruns => ?_⟩
  · refine answers_of (exec_glintLoad sl c s) hruns ((hGlintLoad_answers hbank hpart hidle hroom).trans ?_)
    have hnone : (if bit (byteAt c.param 2) 1 then gLastCheck (byteAt c.param 1) (chunkInto (bit (byteAt c.param 2) 0) (le c.param 4 4) c.req
        (gPart (gBank (modOf s sl).glint (byteAt c.param 0)) (byteAt c.param 1)).bytes) (le c.param 8 4) (le c.param 12 4) else none) = none := by
      rcases hlast with h | h
      · exact if_neg (by rw [bit, h]; decide)
      · split
        · exact h
        · rfl
    simp only [hnone]
    rfl
  · refine answers_of (exec_glintLoad sl c s) hruns ((hGlintLoad_answers hbank hpart hidle hroom).trans ?_)
    have hbad : gLastCheck (byteAt c.param 1) (chunkInto (bit (byteAt c.param 2) 0) (le c.param 4 4) c.req
        (gPart (gBank (modOf s sl).glint (byteAt c.param 0)) (byteAt c.param 1)).bytes) (le c.param 8 4) (le c.param 12 4) = some (0x0310, 0) :=
      if_pos (.inl hlen)
    simp only [hbad, show bit (byteAt c.param 2) 1 = true from hlast, if_true]
  · refine answers_of (exec_glintLoad sl c s) hruns ?_
    unfold hGlintLoad prmB
    rw [if_neg (by omega), if_pos hact]
  · refine answers_of (exec_glintSwap sl c s) hruns ?_
    unfold hGlintSwap
    rw [hb]
    simp only [hflags]
    rw [if_neg]
    · rfl
    · simpa using hsplice
  · refine answers_of (exec_glintSwap sl c s) hruns ?_
    unfold hGlintSwap
    rw [hnone]
  · exact ⟨_, answers_of (exec_glintStatus sl c s) hruns rfl, by simp [zeros]⟩
  · exact ⟨_, answers_of (exec_diagCounters sl c s) hruns rfl, by simp [zeros]⟩
  · exact ⟨_, answers_of (exec_diagThermal sl c s) hruns rfl, by simp [zeros]⟩
  · exact ⟨_, answers_of (exec_diagMemory sl c s) hruns rfl, by simp⟩
  · obtain ⟨rsp, hrsp, hlen⟩ := hDiagLanes_answers (m := modOf s sl) (p := modOf s (otherSlot sl)) (c := c)
    exact ⟨rsp, answers_of (exec_diagLanes sl c s) hruns hrsp, hlen⟩
  · obtain ⟨rsp, m', hrsp, hkeeps⟩ := hDiagSelftest_answers (m := modOf s sl) (p := modOf s (otherSlot sl)) (c := c) (Config.freeValue s.fresh)
    refine ⟨.done 0 0 rsp m', ?_, rsp, m', rfl, hkeeps⟩
    rw [exec_diagSelftest, execDiagSelftest, quondi_runs hruns, hrsp]

end Sys2Proof.Machine

/-! PROOF. SEGMENT.CONFIG, SEGMENT.SCHEDULE and the status queries of segments and drops (R243, R252, R254, R268). -/

namespace Sys2Proof.Machine
open Sys2Proof Sys2Proof.Bits Sys2Proof.Safety

section
variable {h : Module → Module → Cmd → QRes} {kind : SegKind} {seg code : Nat} {c : Cmd} {s : State} {sl : Slot} {i : Instr} {m' : Module}

/-- The answers of a command that sets up a segment: while a task is bound to it, with a bound task too fast, and else. -/
def SetsSegment (i : Instr) (s : State) (sl : Slot) (code : Nat) (c : Cmd) (kind : SegKind) (seg : Nat) (m' : Module) : Prop :=
  (segBusy (modOf s sl) kind seg = true → runs .work .sys code c (modOf s sl) = true → Answers i s sl .work code c (.refused 0x0401 0))
  ∧ (segBusy (modOf s sl) kind seg = false → tooFast m' kind seg = true → runs .work .sys code c (modOf s sl) = true →
    Answers i s sl .work code c (.refused 0x0482 0))
  ∧ (segBusy (modOf s sl) kind seg = false → tooFast m' kind seg = false → runs .work .sys code c (modOf s sl) = true →
    Answers i s sl .work code c (.done 0 0 [] m'))

theorem setsSegment_of (e : exec i s = quondi h .work .sys code s sl c)
    (hset : h (modOf s sl) (modOf s (otherSlot sl)) c = configSeg (modOf s sl) kind seg m') : SetsSegment i s sl code c kind seg m' := by
  refine ⟨fun hbusy hruns => answers_of e hruns ?_, fun hfree hfast hruns => answers_of e hruns ?_,
    fun hfree hslow hruns => answers_of e hruns ?_⟩
  · rw [hset, configSeg, if_pos hbusy]
  · rw [hset, configSeg, if_neg (by simp [hfree]), if_pos hfast]
  · rw [hset, configSeg, if_neg (by simp [hfree]), if_neg (by simp [hslow])]
    rfl

end

section
variable {m p : Module} {c : Cmd}

theorem hSegmentSchedule_checks (hbus : byteAt c.param 0 ≤ 3) (hn : byteAt c.param 1 ∈ [1, 2, 4, 8, 16])
    (hfree : segBusy m .bus (byteAt c.param 0) = false) :
    let rows := (chunks 256 (byteAt c.param 1) c.req).map (fun r => (chunks 4 64 r).map (fun x => busSlot (leVal x)))
    let m' := busMod m (byteAt c.param 0) (fun b => { b with rows := rows, nextRow := 0 })
    hSegmentSchedule m p c = if rows.all rowForm && scheduleOk m' (byteAt c.param 0) then configSeg m .bus (byteAt c.param 0) m'
      else .refused 0x0409 0 := by
  unfold hSegmentSchedule prmB configSeg
  rw [if_neg (by simp only [hn, not_true, or_false]; omega), hfree]
  rfl

theorem hSegmentSchedule_busy (hbus : byteAt c.param 0 ≤ 3) (hn : byteAt c.param 1 ∈ [1, 2, 4, 8, 16])
    (hbusy : segBusy m .bus (byteAt c.param 0) = true) : hSegmentSchedule m p c = .refused 0x0401 0 := by
  unfold hSegmentSchedule prmB
  rw [if_neg (by simp only [hn, not_true, or_false]; omega), if_pos hbusy]

theorem hSegmentStatus_answers (hk : byteAt c.param 0 = 0 ∧ byteAt c.param 1 < m.field.rings.length
      ∨ byteAt c.param 0 = 1 ∧ byteAt c.param 1 < m.field.buses.length ∨ byteAt c.param 0 = 2 ∧ byteAt c.param 1 < m.field.lines.length) :
    ∃ rsp, hSegmentStatus m p c = .done 0 0 rsp m ∧ rsp.length = 64 := by
  unfold hSegmentStatus prmB
  rcases hk with ⟨h0, hlt⟩ | ⟨h0, hlt⟩ | ⟨h0, hlt⟩ <;> rw [h0]
  · exact ⟨ringStatusBytes m _ _, by simp only [List.getElem?_eq_getElem hlt]; rfl, by simp [ringStatusBytes, zeros]⟩
  · exact ⟨busStatusBytes m _ _, by simp only [List.getElem?_eq_getElem hlt]; rfl, by simp [busStatusBytes, zeros]⟩
  · exact ⟨lineStatusBytes m _ _, by simp only [List.getElem?_eq_getElem hlt]; rfl, by simp [lineStatusBytes, zeros]⟩

theorem dropStatusBytes_length (d : DropCfg) : (dropStatusBytes d).length = 64 := by
  unfold dropStatusBytes
  split <;> simp [zeros]

theorem hDropStatus_answers (h1 : 1 ≤ le c.param 0 4) (h2 : le c.param 0 4 ≤ 4096) :
    ∃ rsp, hDropStatus m p c = .done 0 0 rsp m ∧ rsp.length = 64 * le c.param 0 4 := by
  unfold hDropStatus prm
  rw [if_neg (by omega)]
  refine ⟨_, rfl, ?_⟩
  rw [length_flatten_of_all (n := 64), List.length_map, List.length_range]
  intro x hx
  obtain ⟨i, -, rfl⟩ := List.mem_map.1 hx
  split
  · exact dropStatusBytes_length _
  · simp [zeros]

end

/-- Settles O23. -/
theorem segmentCommands : Obligations.SegmentCommands := by
  unfold Obligations.SegmentCommands
  intro s sl c
  dsimp only
  refine ⟨fun h0 h1 h2 h4 h4' h6 h6' h8 h12 => ?_, fun h0 h1 h2 h3 h4 h4' h5 h5' h6 h6' => ?_, fun h0 h1 h2 h3 h4 h4' h6 => ?_,
    fun hbad hruns => ?_, fun h0 h1 => ?_, fun hk hruns => ?_, fun h1 h2 hruns => ?_⟩
  · refine setsSegment_of (exec_segmentConfig sl c s) ?_
    unfold hSegmentConfig prm prmB
    rw [h0]
    exact if_neg (by simp only [etherBad, h4', or_false, decide_eq_true_eq]; omega)
  · refine setsSegment_of (exec_segmentConfig sl c s) ?_
    unfold hSegmentConfig prm prmB
    rw [h0]
    exact if_neg (by omega)
  · refine setsSegment_of (exec_segmentConfig sl c s) ?_
    unfold hSegmentConfig prm prmB
    rw [h0]
    exact if_neg (by omega)
  · refine answers_of (exec_segmentConfig sl c s) hruns ?_
    unfold hSegmentConfig prm prmB
    split
    · exact if_pos (by omega)
    · exact if_pos (by omega)
    · exact if_pos (by omega)
    · rfl
  · have hn : byteAt c.param 1 ∈ [1, 2, 4, 8, 16] := by simpa using h1
    refine ⟨fun hform hok => ?_, fun hbad hfree hruns => ?_⟩
    · by_cases hbusy : segBusy (modOf s sl) .bus (byteAt c.param 0) = true
      · refine ⟨fun _ hruns => answers_of (exec_segmentSchedule sl c s) hruns (hSegmentSchedule_busy h0 hn hbusy),
          fun hfree => absurd hbusy (by simp [hfree]), fun hfree => absurd hbusy (by simp [hfree])⟩
      · refine setsSegment_of (exec_segmentSchedule sl c s) ((hSegmentSchedule_checks h0 hn (by simpa using hbusy)).trans ?_)
        exact if_pos (by rw [Bool.and_eq_true]; exact ⟨hform, hok⟩)
    · refine answers_of (exec_segmentSchedule sl c s) hruns ((hSegmentSchedule_checks h0 hn hfree).trans (if_neg ?_))
      rw [Bool.and_eq_true]
      rintro ⟨hform, hok⟩
      rcases hbad with h | h
      · exact Bool.false_ne_true (h.symm.trans hform)
      · exact Bool.false_ne_true (h.symm.trans hok)
  · obtain ⟨rsp, hrsp, hlen⟩ := hSegmentStatus_answers (p := modOf s (otherSlot sl)) hk
    exact ⟨rsp, answers_of (exec_segmentStatus sl c s) hruns hrsp, hlen⟩
  · obtain ⟨rsp, hrsp, hlen⟩ := hDropStatus_answers (m := modOf s sl) (p := modOf s (otherSlot sl)) h1 h2
    exact ⟨rsp, answers_of (exec_dropStatus sl c s) hruns hrsp, hlen⟩

end Sys2Proof.Machine

/-! PROOF. SEGMENT.BIND and the check of its segment (R243, R268). -/

namespace Sys2Proof.Machine
open Sys2Proof Sys2Proof.Bits Sys2Proof.Safety

/-- A drop of line 0 that is bound to a task, or to none. -/
def dropOnLine (task : Option Nat) : DropCfg :=
  { kind := .line, segment := 0, position := 1, outLen := 0, inLen := 0, wIn := 1, watchdog := 1000, map := [], task := task }

/-- A lead with task 0, drop 1 without a task, and drop 2 of the same line bound to task 1. -/
def twoDrops : Module :=
  { slot := .a, boot := { state := .run }, pair := { role := .lead }
    store := { parts := [(0, { quota := 1, base := 0, count := 0, caps := 0x1FF, cred := [] })] }
    exec := { tasks := [(0, taskAt 0)] }, field := { drops := [(1, dropOnLine none), (2, dropOnLine (some 1))] } }

def twoDropsDomain : State := { State.reset with modA := twoDrops }

/-- SEGMENT.BIND of drop 1 to task 0 with no points. -/
def bindOne : Cmd := { qp := 4, ticket := 1, target := 0xFFFF, param := [0, 0, 1, 0] ++ zeros 20 }

theorem bindOne_runs : runs .work .part 0x0402 bindOne twoDrops = true := by decide

/-- Task 0 would share the line with task 1: the command is refused. -/
theorem bindOne_refused (p : Module) : hSegmentBind twoDrops p bindOne = .refused 0x040A 0 := by
  have h : hSegmentBind twoDrops twoDrops bindOne = .refused 0x040A 0 := by decide
  exact h

/-- Refutes O24: the statement takes `bindSegCheck` with drop and task in the other order, and so misses the refusal of a second task on a
line. -/
theorem not_dropCommands : ¬ Obligations.DropCommands := by
  unfold Obligations.DropCommands
  intro h
  obtain ⟨-, -, -, -, hbind⟩ := h twoDropsDomain .a bindOne
  obtain ⟨hentered, -⟩ := hbind (dropOnLine none) (by decide) (by decide) rfl
  obtain ⟨-, hdone⟩ := hentered (by decide) (by decide) (.inl rfl)
  obtain ⟨m', d', hanswer, hd', hidle, -⟩ := hdone rfl (by decide)
  have hexec := answers_of (exec_segmentBind .a bindOne twoDropsDomain) bindOne_runs (bindOne_refused _)
  have hstate := Host.Outcome.next.inj (hexec.symm.trans (hanswer bindOne_runs))
  have hfield : twoDrops.field = m'.field := by
    have hboth := congrArg (fun t : State => t.modA.field) hstate
    simp only [withMod, settle, finish_field] at hboth
    exact hboth
  have hsame : d' = dropOnLine none := by
    have : dropOf twoDrops 1 = some d' := by rw [dropOf, hfield]; exact hd'
    exact Option.some.inj (this.symm.trans rfl)
  obtain ⟨htask, -⟩ := hidle (fun k x hk hx => by
    have hk0 : k = 0 := by
      rcases hk with h | h
      · exact absurd h (by simp [dropOnLine])
      · exact (Option.some.inj h).symm
    subst hk0
    cases Option.some.inj (show some (taskAt 0) = some x from hx)
    decide)
  rw [hsame] at htask
  exact absurd htask (by decide)

end Sys2Proof.Machine

/-! PROOF. The TIME and CHRONICLE commands (R298, R307, R313, R314, R316, R317). -/

namespace Sys2Proof.Machine
open Sys2Proof Sys2Proof.Bits Sys2Proof.Safety

section
variable {m p : Module} {c : Cmd}

theorem leadOf_lead (h : isLead m = true) : leadOf m p = m := if_pos h

/-! ### TIME -/

theorem setPort_only (m : Module) (port v : Nat) : ∃ a b, setPort m port v = { m with alm := { m.alm with port1 := a, port2 := b } } := by
  unfold setPort almMod
  split
  · exact ⟨m.alm.port1, v, rfl⟩
  · exact ⟨v, m.alm.port2, rfl⟩

/-- The settings of TIME.CONFIG. -/
def configured (a : Alm) (c : Cmd) : Alm :=
  { a with
    cfgSource := prmB c 0, role := prmB c 1, transport := prmB c 2, p2p := bit (prmB c 3) 0, twoStep := bit (prmB c 3) 1,
    domainNumber := prmB c 4, priority1 := prmB c 5, priority2 := prmB c 6, logSync := signed 8 (prmB c 7), logAnnounce := prmB c 8,
    logDelayReq := signed 8 (prmB c 9), receiptTimeout := prmB c 10, ringDomain := prmB c 11, stepLimit := prm c 12 4, slewMax := prm c 16 2 }

/-- TIME.CONFIG enters its settings; besides, it sets port states and the source. -/
theorem hTimeConfig_answers (h : ¬ (2 < prmB c 0 ∨ 3 < prmB c 1 ∨ 2 < prmB c 2 ∨ 127 < prmB c 4 ∨ signed 8 (prmB c 7) < -4
      ∨ 1 < signed 8 (prmB c 7) ∨ 3 < prmB c 8 ∨ signed 8 (prmB c 9) < -4 ∨ 5 < signed 8 (prmB c 9) ∨ prmB c 10 < 2 ∨ 10 < prmB c 10
      ∨ 127 < prmB c 11 ∨ (prm c 12 4 ≠ 0 ∧ (prm c 12 4 < 1000 ∨ 1000000000 < prm c 12 4)) ∨ prm c 16 2 < 1 ∨ 1000 < prm c 16 2)) :
    ∃ p1 p2 src l, hTimeConfig m p c = .done 0 0 [] { m with alm := { configured m.alm c with
      port1 := p1, port2 := p2, source := src, locked := l } } := by
  have hports : ∃ p1 p2, (if prmB c 1 = m.alm.role then { m with alm := configured m.alm c } else
      setPort (setPort { m with alm := configured m.alm c } 1 (roleState (prmB c 1))) 2 (roleState (prmB c 1)))
        = { m with alm := { configured m.alm c with port1 := p1, port2 := p2 } } := by
    split
    · exact ⟨(configured m.alm c).port1, (configured m.alm c).port2, rfl⟩
    · obtain ⟨a, b, h1⟩ := setPort_only { m with alm := configured m.alm c } 1 (roleState (prmB c 1))
      obtain ⟨a', b', h2⟩ := setPort_only (setPort { m with alm := configured m.alm c } 1 (roleState (prmB c 1))) 2 (roleState (prmB c 1))
      exact ⟨a', b', by rw [h2, h1]⟩
  obtain ⟨p1, p2, hports⟩ := hports
  have hset : hTimeConfig m p c = if isLead m && !m.pair.window && prmB c 0 != m.alm.cfgSource
      then ok (almMod { m with alm := { configured m.alm c with port1 := p1, port2 := p2 } } (fun x =>
        { x with source := cfgCode { m with alm := { configured m.alm c with port1 := p1, port2 := p2 } }, locked := false }))
      else ok { m with alm := { configured m.alm c with port1 := p1, port2 := p2 } } := by
    rw [← hports]
    exact if_neg h
  rw [hset]
  split
  · exact ⟨_, _, _, _, rfl⟩
  · exact ⟨p1, p2, m.alm.source, m.alm.locked, rfl⟩

theorem setAdj_adj {v : Int} (h1 : -adjMax ≤ v) (h2 : v ≤ adjMax) : (setAdj m v).alm.adj = v := by
  simp only [setAdj, almMod]
  omega

theorem scheduleStep_sched (delta : W64) (trigger : Nat) : (scheduleStep m p delta trigger).alm.sched = some (stepInstant m, delta, trigger) := by
  unfold scheduleStep
  dsimp only
  split <;> rfl

theorem hTimePps_answers (h1 : 1 ≤ le c.param 2 2) (h2 : le c.param 2 2 ≤ 500) : ∃ m', hTimePps m p c = .done 0 0 [] m'
    ∧ m'.alm.ppsOutOn = (byteAt c.param 0).testBit 0 ∧ m'.alm.ppsInOn = (byteAt c.param 0).testBit 1
    ∧ m'.alm.ppsFalling = (byteAt c.param 0).testBit 2 ∧ m'.alm.ppsWidth = le c.param 2 2 ∧ m' = { m with alm := m'.alm, out := m'.out }
    ∧ m'.alm.t = m.alm.t := by
  unfold hTimePps prm prmB
  rw [if_neg (by omega)]
  refine ⟨_, rfl, ?_⟩
  split
  · exact ⟨rfl, rfl, rfl, rfl, rfl, rfl⟩
  · unfold ppsLow
    split <;> exact ⟨rfl, rfl, rfl, rfl, rfl, rfl⟩

/-! ### CHRONICLE -/

/-- The records of a range are records of the Chronicle in that range. -/
theorem mem_recRange {a b : Nat} {r : ChronRec} (h : r ∈ recRange m a b) : r ∈ m.chron.recs ∧ a ≤ r.seq ∧ r.seq ≤ b := by
  obtain ⟨i, hi, hr⟩ := List.mem_filterMap.1 h
  have hseq : r.seq = a + i := by simpa using List.find?_some hr
  have hlt := List.mem_range.1 hi
  exact ⟨List.mem_of_find?_eq_some hr, by omega, by omega⟩

/-- The records that CHRONICLE.READ answers with. -/
def readRecs (m : Module) (c : Cmd) : List ChronRec :=
  if chronLast m < max 1 (le c.param 0 8) then []
  else recRange m (max (max 1 (le c.param 0 8)) (chronFirst (chronLast m)))
    (min (max (max 1 (le c.param 0 8)) (chronFirst (chronLast m)) + le c.param 8 4 - 1) (chronLast m))

theorem mem_readRecs {r : ChronRec} (hn : 1 ≤ le c.param 8 4) (h : r ∈ readRecs m c) : r ∈ m.chron.recs
    ∧ max (max 1 (le c.param 0 8)) (chronFirst (chronLast m)) ≤ r.seq ∧ r.seq ≤ chronLast m
    ∧ r.seq < max (max 1 (le c.param 0 8)) (chronFirst (chronLast m)) + le c.param 8 4 := by
  unfold readRecs at h
  split at h
  · exact absurd h (by simp)
  · obtain ⟨hmem, h1, h2⟩ := mem_recRange h
    exact ⟨hmem, h1, by omega, by omega⟩

/-- The answer of CHRONICLE.READ. -/
def readAnswer (m : Module) (c : Cmd) : Bytes :=
  leBytes 8 (chronFirst (chronLast m)) ++ leBytes 8 (chronLast m) ++ leBytes 4 (readRecs m c).length ++ zeros 4
    ++ ((readRecs m c).map recBytes).flatten

theorem hChronicleRead_answers (h1 : 1 ≤ le c.param 8 4) (h2 : le c.param 8 4 ≤ 1024) :
    hChronicleRead m p c = if max 1 (le c.param 0 8) < chronFirst (chronLast m)
      then .done 0x8701 (sat32 (chronFirst (chronLast m) - max 1 (le c.param 0 8))) (readAnswer m c) m
      else .done 0 0 (readAnswer m c) m := by
  unfold hChronicleRead prm
  exact if_neg (by omega)

end

/-- Settles O25. -/
theorem timeChronicleCommands : Obligations.TimeChronicleCommands := by
  unfold Obligations.TimeChronicleCommands
  intro s sl c
  dsimp only
  refine ⟨fun hruns => ?_, fun h0 h1 h2 h4 h7 h7' h8 h9 h9' h10 h10' h11 h12 h16 h16' => ?_, fun hbad hruns => ?_,
    fun hlead => ⟨fun hservo hforce hruns => ?_, fun hservo => ⟨fun hsched hruns => ?_, fun hsched hzero hruns => ?_,
      fun hsched hzero => ⟨fun hruns => ?_, scheduleStep_sched _ _⟩⟩,
      fun h1 h2 => ⟨fun hservo hruns => ?_, fun hservo hsource => ⟨fun hruns => ?_, setAdj_adj h1 h2⟩⟩, fun hbad hruns => ?_⟩,
    fun h1 h2 => ?_, fun hbad hruns => ?_, fun hruns => ?_, fun h1 h2 hruns => ?_,
    fun hcode hex => ⟨fun hrestore hruns => ?_, fun hset hburst hruns => ?_⟩, fun hex hruns => ?_,
    fun h1 h2 h3 hcap hlead => ⟨fun hperm hruns => ?_, fun hperm hruns => ?_⟩⟩
  · exact ⟨_, answers_of (exec_timeStatus sl c s) hruns rfl, by simp⟩
  · obtain ⟨p1, p2, src, l, hcfg⟩ := hTimeConfig_answers (m := modOf s sl) (p := modOf s (otherSlot sl)) (c := c)
      (by unfold prmB prm; omega)
    exact ⟨_, fun hruns => answers_of (exec_timeConfig sl c s) hruns hcfg, rfl, rfl, rfl, rfl, rfl, rfl, rfl, rfl, rfl, rfl, rfl, rfl, rfl,
      rfl, rfl, rfl, rfl, rfl⟩
  · exact answers_of (exec_timeConfig sl c s) hruns (if_pos (by unfold prmB prm; omega))
  · refine answers_of (exec_timeStep sl c s) hruns ?_
    unfold hTimeStep
    rw [leadOf_lead hlead]
    exact if_pos (by rw [hservo, bit, prmB, hforce]; rfl)
  · refine answers_of (exec_timeStep sl c s) hruns ?_
    unfold hTimeStep
    rw [leadOf_lead hlead]
    refine (if_neg ?_).trans (if_pos (by rw [hlead, hsched]; rfl))
    rcases hservo with h | h <;> simp [h, bit, prmB]
  · refine answers_of (exec_timeStep sl c s) hruns ?_
    unfold hTimeStep
    rw [leadOf_lead hlead]
    refine (if_neg ?_).trans ((if_neg (by simp [hsched])).trans (if_pos (Bool.or_eq_true _ _ ▸ .inl (decide_eq_true hzero))))
    rcases hservo with h | h <;> simp [h, bit, prmB]
  · refine answers_of (exec_timeStep sl c s) hruns ?_
    unfold hTimeStep
    rw [leadOf_lead hlead]
    refine (if_neg ?_).trans ((if_neg (by simp [hsched])).trans (if_neg ?_))
    · rcases hservo with h | h <;> simp [h, bit, prmB]
    · rw [hlead, Bool.not_true, Bool.or_false, decide_eq_true_eq]
      exact hzero
  · refine answers_of (exec_timeRate sl c s) hruns ?_
    unfold hTimeRate prm
    rw [leadOf_lead hlead]
    exact (if_neg (by omega)).trans (if_pos hservo)
  · refine answers_of (exec_timeRate sl c s) hruns ?_
    unfold hTimeRate prm
    rw [leadOf_lead hlead]
    exact (if_neg (by omega)).trans ((if_neg (by simp [hservo])).trans (if_pos hsource))
  · exact answers_of (exec_timeRate sl c s) hruns (if_pos hbad)
  · obtain ⟨m', hm', h⟩ := hTimePps_answers (m := modOf s sl) (p := modOf s (otherSlot sl)) h1 h2
    exact ⟨m', fun hruns => answers_of (exec_timePps sl c s) hruns hm', h⟩
  · exact answers_of (exec_timePps sl c s) hruns (if_pos (by unfold prm; omega))
  · exact answers_of (exec_chronicleBounds sl c s) hruns rfl
  · have hread := hChronicleRead_answers (m := modOf s sl) (p := modOf s (otherSlot sl)) h1 h2
    exact ⟨readAnswer (modOf s sl) c, readRecs (modOf s sl) c,
      fun h => answers_of (exec_chronicleRead sl c s) hruns (hread.trans (if_neg (by omega))),
      fun h => answers_of (exec_chronicleRead sl c s) hruns (hread.trans (if_pos h)), rfl, fun r hr => mem_readRecs h1 hr⟩
  · refine answers_of (exec_chronicleLimit sl c s) hruns ?_
    unfold hChronicleLimit prm prmB
    exact (if_neg (by simp [hex, bit, hrestore]; omega)).trans (if_pos hrestore)
  · refine answers_of (exec_chronicleLimit sl c s) hruns ?_
    unfold hChronicleLimit prm prmB
    exact (if_neg (by simp [hex, bit, hset, hburst]; omega)).trans (if_neg (by simp [bit, hset]))
  · exact answers_of (exec_chronicleLimit sl c s) hruns (if_pos (.inr (.inl hex)))
  · refine answers_of (exec_chronicleNote sl c s) hruns ?_
    unfold hChronicleNote prm prmB
    rw [if_neg (by omega), if_neg (by simp [hcap]), leadOf_lead hlead, if_pos hlead]
    exact if_pos hperm
  · refine answers_of (exec_chronicleNote sl c s) hruns ?_
    unfold hChronicleNote prm prmB
    rw [if_neg (by omega), if_neg (by simp [hcap]), leadOf_lead hlead, if_pos hlead]
    exact if_neg (by simp [hperm])

end Sys2Proof.Machine

/-! PROOF. The LOCALIO commands (R320, R321, R325, R329, R331, R335, R337 to R340). -/

namespace Sys2Proof.Machine
open Sys2Proof Sys2Proof.Bits Sys2Proof.Safety

section
variable {m p : Module} {c : Cmd}

/-! ### Channels -/

theorem outChOf_outChMod {k ch : Nat} {f : OutCh → OutCh} {o : OutCh} (h : outChOf m k ch = some o) :
    outChOf (outChMod m k ch f) k ch = some (f o) := by
  unfold outChOf outChMod at *
  split <;> simp_all [getElem?_modNth]

/-- The mode, the filter and the marks that LOCALIO.CONFIG gives an analog input. -/
theorem applyMode_ai {e : LocalElem} {a : Ai} (hown : ownElem m e = true) (hk : e.kind = 0) (ha : m.lio.ai[e.ch]? = some a) :
    ∃ a', (applyMode m e).lio.ai[e.ch]? = some a' ∧ a'.mode = e.mode ∧ a'.response = e.sel ∧ a'.follow = e.flags.testBit 0 ∧ a'.vtx = e.vtx
      ∧ a'.rw = e.rw ∧ a'.cal = a.cal ∧ ((e.mode ≠ a.mode ∨ e.sel ≠ a.response) → a'.unsettled = cicOrder e.sel)
      ∧ (e.mode ≠ 1 → a'.supply = 0) := by
  unfold applyMode
  rw [hown, hk]
  simp only [Bool.not_true, Bool.false_eq_true, if_false, aiMod, lioMod_lio, getElem?_modNth, if_true, ha, Option.map_some]
  refine ⟨_, rfl, ?_⟩
  by_cases hsame : e.mode = a.mode ∧ e.sel = a.response
  · rw [if_pos hsame]
    have hnot : ¬ (e.mode ≠ a.mode ∨ e.sel ≠ a.response) := by
      obtain ⟨h1, h2⟩ := hsame
      simp [h1, h2]
    split
    · exact ⟨rfl, rfl, rfl, rfl, rfl, rfl, fun h => absurd h hnot, fun h => absurd ‹_› h⟩
    · exact ⟨rfl, rfl, rfl, rfl, rfl, rfl, fun h => absurd h hnot, fun _ => rfl⟩
  · rw [if_neg hsame]
    split
    · exact ⟨rfl, rfl, rfl, rfl, rfl, rfl, fun _ => rfl, fun h => absurd ‹_› h⟩
    · exact ⟨rfl, rfl, rfl, rfl, rfl, rfl, fun _ => rfl, fun _ => rfl⟩

/-! ### LOCALIO.STATUS -/

theorem hLocalioStatus_answers : ∃ rsp, hLocalioStatus m p c = .done 0 0 rsp m
    ∧ rsp.length = 16 + 16 * (m.lio.ai.length + m.lio.dio.length + m.lio.fdo.length) := by
  have hai : (m.lio.ai.mapIdx (aiEntry m)).flatten.length = 16 * m.lio.ai.length := by
    rw [length_flatten_of_all (n := 16), List.length_mapIdx]
    intro x hx
    obtain ⟨i, hi, rfl⟩ := List.mem_mapIdx.1 hx
    simp [aiEntry, zeros]
  have hout (k : Nat) (l : List OutCh) : (l.mapIdx (outEntry m k)).flatten.length = 16 * l.length := by
    rw [length_flatten_of_all (n := 16), List.length_mapIdx]
    intro x hx
    obtain ⟨i, hi, rfl⟩ := List.mem_mapIdx.1 hx
    simp [outEntry, zeros]
  refine ⟨_, rfl, ?_⟩
  simp only [List.length_append, leBytes_length, List.length_map, List.length_range, hai, hout]
  omega

/-! ### LOCALIO.TRIM -/

section
variable {a : Ai} (hslot : byteAt c.param 0 = slotN m.slot) (hch : byteAt c.param 1 ≤ 15)
variable (hspan : byteAt c.param 2 = 0 ∧ 3000000 ≤ le c.param 4 4 ∧ le c.param 4 4 ≤ 6000000
  ∨ byteAt c.param 2 = 1 ∧ 16000000 ≤ le c.param 4 4 ∧ le c.param 4 4 ≤ 22000000) (ha : m.lio.ai[byteAt c.param 1]? = some a)
include hslot hch hspan ha

/-- The trim that the command asks for. -/
def trimOf (c : Cmd) (a : Ai) (own : Bool) : Trim :=
  { channel := byteAt c.param 1, span := byteAt c.param 2 == 1, reference := le c.param 4 4, oldRaw := oldPoint a (byteAt c.param 2 == 1),
    cmd := some (c.qp, c), remote := false, ownClass := own }

theorem hLocalioTrim_own : hLocalioTrim m p c =
    if a.mode = 0 then .refused 11 0
    else if m.lio.trim.isSome then .refused 12 0
    else if !holdsClass m 6 c.qp && judge m p 6 (.qp c.qp) == 1 then .waits
    else if !holdsClass m 6 c.qp && judge m p 6 (.qp c.qp) == 2 then .refused 12 0
    else .later (lioMod (if !holdsClass m 6 c.qp then enterClass m 6 (.qp c.qp) 60 else m)
      (fun l => { l with trim := some (trimOf c a (!holdsClass m 6 c.qp)) })) := by
  have hown : (slotN m.slot == byteAt c.param 0) = true := by simp [hslot]
  have hle : slotN m.slot ≤ 1 := by cases m.slot <;> decide
  unfold hLocalioTrim prm prmB
  rw [if_neg (by rcases hspan with ⟨h, h1, h2⟩ | ⟨h, h1, h2⟩ <;> simp [h, hslot] <;> omega)]
  simp only [hown, if_true, ha]
  rfl

end

/-! ### LOCALIO.TRIMLOCK -/

@[simp] theorem tokenRecord_lio (action cls : Nat) (h : Holder) : (tokenRecord m action cls h).lio = m.lio := by
  simp [tokenRecord]

@[simp] theorem leaveClass_lio (action cls : Nat) : (leaveClass m action cls).lio = m.lio := by
  unfold leaveClass
  split <;> simp [maintMod]

theorem leaveTrimMode_lio : (leaveTrimMode m).lio.trimMode = none ∧ (leaveTrimMode m).lio.trimLock = m.lio.trimLock := by
  unfold leaveTrimMode
  split
  · exact ⟨‹_›, rfl⟩
  · simp

theorem hLocalioTrimLock_answers (h : byteAt c.param 0 ≤ 1) : ∃ m', hLocalioTrimLock m p c = .done 0 0 [] m'
    ∧ m'.lio.trimLock = (byteAt c.param 0 == 1) ∧ (byteAt c.param 0 = 0 → m'.lio = { m.lio with trimLock := false })
    ∧ (byteAt c.param 0 = 1 → m'.lio.trimMode = none) := by
  unfold hLocalioTrimLock prmB
  rw [if_neg (by omega)]
  refine ⟨_, rfl, ?_⟩
  rcases (show byteAt c.param 0 = 0 ∨ byteAt c.param 0 = 1 by omega) with h0 | h1
  · simp [h0]
  · simp only [h1]
    obtain ⟨hmode, hlock⟩ := leaveTrimMode_lio (m := logBoth (lioMod m (fun l => { l with trimLock := 1 == 1 })) 0x0806 5 0 0xFFFF (leBytes 1 1))
    exact ⟨by rw [if_pos (by decide), hlock]; simp, fun h => absurd h (by omega), fun _ => by rw [if_pos (by decide)]; exact hmode⟩

/-! ### LOCALIO.VIGIL -/

/-- The element of LOCALIO.VIGIL: kind, channel and word. -/
def vigilKind (c : Cmd) (i : Nat) : Nat := byteAt ((c.req.drop (4 * i)).take 4) 0
def vigilCh (c : Cmd) (i : Nat) : Nat := byteAt ((c.req.drop (4 * i)).take 4) 1
def vigilWord (c : Cmd) (i : Nat) : Nat := le ((c.req.drop (4 * i)).take 4) 2 2

/-- The channel that the element names is an output of the module. -/
def namesOutput (c : Cmd) (x : Module) (i : Nat) : Bool :=
  match outChOf x (vigilKind c i) (vigilCh c i) with | some o => isOutput (vigilKind c i) o | none => false

/-- What the element sets. -/
def setVigil (c : Cmd) (x : Module) (i : Nat) : Module :=
  outChMod x (vigilKind c i) (vigilCh c i) (fun o => { o with timeout := vigilWord c i % 1024, safe := vigilWord c i / 16384 })

/-- The check and the effect of one element. -/
def vigilElem (c : Cmd) (m p x : Module) (i : Nat) : Except Nat Module :=
  if (vigilKind c i ≠ 1 ∧ vigilKind c i ≠ 2) ∨ vigilWord c i / 16384 = 3 ∨ vigilWord c i % 1024 < 1 ∨ 1000 < vigilWord c i % 1024
      ∨ !(namesOutput c m i || (linked m p && namesOutput c p i)) then .error 7
  else .ok (setVigil c x i)

theorem hLocalioVigil_elems (h1 : 1 ≤ le c.param 0 4) (h2 : le c.param 0 4 ≤ 40) :
    hLocalioVigil m p c = overElems m (le c.param 0 4) (vigilElem c m p) ok := by
  unfold hLocalioVigil prm
  exact if_neg (by omega)

/-- The channel that the element names is there, and is an output. -/
def NamesOutput (c : Cmd) (x : Module) (i : Nat) : Prop :=
  ∃ o, outChOf x (vigilKind c i) (vigilCh c i) = some o ∧ isOutput (vigilKind c i) o = true

theorem namesOutput_iff (x : Module) (i : Nat) : NamesOutput c x i ↔ namesOutput c x i = true := by
  unfold NamesOutput namesOutput
  cases outChOf x (vigilKind c i) (vigilCh c i) <;> simp

/-- An element that LOCALIO.VIGIL takes. -/
def VigilValid (c : Cmd) (m p : Module) (i : Nat) : Prop :=
  (vigilKind c i = 1 ∨ vigilKind c i = 2) ∧ vigilWord c i / 16384 ≤ 2 ∧ 1 ≤ vigilWord c i % 1024 ∧ vigilWord c i % 1024 ≤ 1000
    ∧ (NamesOutput c m i ∨ linked m p = true ∧ NamesOutput c p i)

theorem vigilElem_valid {i : Nat} (h : VigilValid c m p i) (x : Module) : vigilElem c m p x i = .ok (setVigil c x i) := by
  obtain ⟨hk, hw, h1, h2, hout⟩ := h
  simp only [namesOutput_iff] at hout
  refine if_neg ?_
  have hnot : (!(namesOutput c m i || (linked m p && namesOutput c p i))) = false := by
    rcases hout with h | ⟨h, h'⟩ <;> simp [*]
  rw [hnot]
  simp only [Bool.false_eq_true, or_false]
  omega

theorem vigilElem_invalid {i : Nat} (h : ¬ VigilValid c m p i) (hw : vigilWord c i < 65536) (x : Module) : vigilElem c m p x i = .error 7 := by
  refine if_pos ?_
  by_contra hgood
  refine h ?_
  simp only [not_or] at hgood
  obtain ⟨hk, hw3, h1, h2, hout⟩ := hgood
  refine ⟨by omega, by omega, by omega, by omega, ?_⟩
  simp only [namesOutput_iff]
  simpa [or_iff_not_imp_left] using hout

end

/-- Settles O26. -/
theorem localIoCommands : Obligations.LocalIoCommands := by
  unfold Obligations.LocalIoCommands
  intro s sl c
  dsimp only
  refine ⟨fun h1 h2 => ⟨fun a ha hruns => ?_, fun e i he hruns => ?_⟩,
    fun e hown => ⟨fun a hk ha => applyMode_ai hown hk ha, fun o hk ho => ?_, fun o hk ho => ?_⟩, fun hruns => ?_,
    fun a hslot hch hspan ha => ⟨fun hmode hruns => ?_, fun hmode htrim hruns => ?_, fun hmode htrim => ⟨fun hheld hruns => ?_,
      fun hheld hj hruns => ?_, fun hheld hj hruns => ?_⟩⟩, fun h0 hslot hlink h1 h2 h3 h4 hruns => ?_, fun h0 => ?_, fun h0 hruns => ?_,
    fun h1 h2 => ⟨fun hvalid hruns => ?_, fun k hk hvalid hbad hw hruns => ?_⟩⟩
  · refine answers_of (exec_localioConfig sl c s) hruns ?_
    unfold hLocalioConfig prm overElems
    rw [if_neg (by omega), ha]
    rfl
  · refine answers_of (exec_localioConfig sl c s) hruns ?_
    unfold hLocalioConfig prm overElems
    rw [if_neg (by omega), he]
  · unfold applyMode
    rw [hown, hk]
    exact outChOf_outChMod (k := 1) ho
  · unfold applyMode
    rw [hown, hk]
    exact outChOf_outChMod (k := 2) ho
  · obtain ⟨rsp, hrsp, hlen⟩ := hLocalioStatus_answers (m := modOf s sl) (p := modOf s (otherSlot sl)) (c := c)
    exact ⟨rsp, answers_of (exec_localioStatus sl c s) hruns hrsp, hlen⟩
  · exact answers_of (exec_localioTrim sl c s) hruns ((hLocalioTrim_own hslot hch hspan ha).trans (if_pos hmode))
  · refine answers_of (exec_localioTrim sl c s) hruns ((hLocalioTrim_own hslot hch hspan ha).trans ?_)
    rw [if_neg hmode, if_pos htrim]
  · refine answers_of (exec_localioTrim sl c s) hruns ((hLocalioTrim_own hslot hch hspan ha).trans ?_)
    rw [if_neg hmode, if_neg (by simp [htrim]), hheld]
    rfl
  · refine answers_of (exec_localioTrim sl c s) hruns ((hLocalioTrim_own hslot hch hspan ha).trans ?_)
    rw [if_neg hmode, if_neg (by simp [htrim]), hheld, hj]
    rfl
  · refine answers_of (exec_localioTrim sl c s) hruns ((hLocalioTrim_own hslot hch hspan ha).trans ?_)
    rw [if_neg hmode, if_neg (by simp [htrim]), hheld, hj]
    rfl
  · refine answers_of (exec_localioTrim sl c s) hruns ?_
    unfold hLocalioTrim prm prmB
    rw [if_neg (by simp [h2]; omega)]
    refine if_pos ?_
    simp [hlink, Ne.symm hslot]
  · obtain ⟨m', hm', h⟩ := hLocalioTrimLock_answers (m := modOf s sl) (p := modOf s (otherSlot sl)) h0
    exact ⟨m', fun hruns => answers_of (exec_localioTrimLock sl c s) hruns hm', h⟩
  · exact answers_of (exec_localioTrimLock sl c s) hruns (if_pos h0)
  · refine answers_of (exec_localioVigil sl c s) hruns ((hLocalioVigil_elems h1 h2).trans ?_)
    rw [overElems, elems_fold (setVigil c) (le c.param 0 4) 0 _ (fun j a _ hj => vigilElem_valid (hvalid j (by omega)) a),
      List.range_eq_range']
    rfl
  · refine answers_of (exec_localioVigil sl c s) hruns ((hLocalioVigil_elems h1 h2).trans ?_)
    rw [overElems, elems_error (setVigil c) 7 k (fun a => vigilElem_invalid hbad hw a) _ 0 _ (by omega) (by omega)
      (fun j a _ hj => vigilElem_valid (hvalid j hj) a)]

end Sys2Proof.Machine

/-! PROOF. Events on one module or on both: how the state after them stands. -/

namespace Sys2Proof.Machine
open Sys2Proof Sys2Proof.Bits Sys2Proof.Safety

section
variable {i : Instr} {s : State} {sl : Slot} {f : Module → Module} {g : Module → Module → Module × Module} {m' p' : Module}

theorem becomes_of (e : exec i s = onMod s sl f) (h : f (modOf s sl) = m') : Becomes i s sl m' := by
  rw [Becomes, e, onMod, h]

theorem idle_of (e : exec i s = onMod s sl f) (h : f (modOf s sl) = modOf s sl) : Idle i s := by
  rw [Idle, e, onMod, h, withMod_self]

theorem becomesBoth_of (e : exec i s = onBoth s sl g) (h : g (modOf s sl) (modOf s (otherSlot sl)) = (m', p')) :
    BecomeBoth i s sl m' p' := by
  rw [BecomeBoth, e, onBoth]
  simp only [h]

/-- An event on both modules where only what the first becomes is told. -/
theorem becomesBoth_fst (e : exec i s = onBoth s sl g) (h : (g (modOf s sl) (modOf s (otherSlot sl))).1 = m') :
    ∃ p', BecomeBoth i s sl m' p' :=
  ⟨_, becomesBoth_of e (Prod.ext h rfl)⟩

/-- An event on both modules that leaves the partner as it is. -/
theorem becomes_of_both (e : exec i s = onBoth s sl g) (h : g (modOf s sl) (modOf s (otherSlot sl)) = (m', modOf s (otherSlot sl))) :
    Becomes i s sl m' := by
  rw [Becomes, e, onBoth]
  simp only [h]
  cases sl <;> rfl

theorem becomes_of_pair {v : Module → Module → Module} (e : exec i s = onPair s sl v) (h : v (modOf s sl) (modOf s (otherSlot sl)) = m') :
    Becomes i s sl m' := by
  rw [Becomes, e, onPair, h]

theorem idle_of_pair {v : Module → Module → Module} (e : exec i s = onPair s sl v)
    (h : v (modOf s sl) (modOf s (otherSlot sl)) = modOf s sl) : Idle i s := by
  rw [Idle, e, onPair, h, withMod_self]

theorem idleBoth_of (e : exec i s = onBoth s sl g)
    (h : g (modOf s sl) (modOf s (otherSlot sl)) = (modOf s sl, modOf s (otherSlot sl))) : Idle i s := by
  rw [Idle, e, onBoth]
  simp only [h, withMod_self]

end

section
variable {α : Type} {l : List α} {i : Nat} {a : α} {f : α → α}

/-- A change of one element is the change to what it becomes. -/
theorem modNth_eq_const (h : l[i]? = some a) : modNth l i f = modNth l i (fun _ => f a) := by
  induction l generalizing i with
  | nil => simp at h
  | cons b l ih => cases i with
    | zero =>
      rw [List.getElem?_cons_zero, Option.some.injEq] at h
      subst h
      rfl
    | succ i =>
      rw [List.getElem?_cons_succ] at h
      rw [modNth, modNth, ih h]

end

end Sys2Proof.Machine

/-! PROOF. Analog inputs: loop supplies, outputs of the inputs, trims by command and by button (R323 to R326, R328 to R330, R341). -/

namespace Sys2Proof.Machine
open Sys2Proof Sys2Proof.Bits Sys2Proof.Safety

section
variable {m p : Module} {ch : Nat} {a : Ai} {bits : W16}

/-! ### The fault of an input -/

/-- The fault mark of an input is all that its status changes. -/
theorem aiFault_ai (ha : m.lio.ai[ch]? = some a) (i : Nat) :
    (aiFault m ch bits).lio.ai[i]? = if i = ch then m.lio.ai[i]?.map (fun a => { a with faulted := bits &&& 0x7E != 0 }) else m.lio.ai[i]? := by
  unfold aiFault
  rw [ha]
  dsimp only
  split <;> simp [aiMod, getElem?_modNth]

theorem aiFault_same (ha : m.lio.ai[ch]? = some a) : (aiFault m ch bits).lio.ai[ch]? = some { a with faulted := bits &&& 0x7E != 0 } := by
  rw [aiFault_ai ha, if_pos rfl, ha]
  rfl

theorem aiFault_aiMod {f : Ai → Ai} (ha : m.lio.ai[ch]? = some a) :
    (aiFault (aiMod m ch f) ch bits).lio.ai[ch]? = some { f a with faulted := bits &&& 0x7E != 0 } :=
  aiFault_same (by simp [aiMod, getElem?_modNth, ha])

/-- An input but for its fault mark. -/
def unfaulted (a : Ai) : Ai := { a with faulted := false }

theorem aiFault_unfaulted (i : Nat) : ((aiFault m ch bits).lio.ai[i]?).map unfaulted = (m.lio.ai[i]?).map unfaulted := by
  cases ha : m.lio.ai[ch]? with
  | none => rw [aiFault, ha]
  | some a =>
    rw [aiFault_ai ha]
    split
    · cases m.lio.ai[i]? <;> rfl
    · rfl

/-- The fault of an input by its present status. -/
def flagAi (m : Module) (i : Nat) : Module :=
  match m.lio.ai[i]? with
  | some a => aiFault m i (aiStatus m a a.cal (a.unsettled != 0) a.limited)
  | none => m

/-- Marking faults in turn changes nothing else of an input. -/
theorem flagAis_unfaulted (l : List Nat) (m : Module) (i : Nat) :
    ((l.foldl flagAi m).lio.ai[i]?).map unfaulted = (m.lio.ai[i]?).map unfaulted := by
  induction l generalizing m with
  | nil => rfl
  | cons j l ih =>
    rw [List.foldl_cons, ih, flagAi]
    split
    · exact aiFault_unfaulted i
    · rfl

/-- The bit of overheating among the bits that make an input faulted. -/
theorem thermalBit_bad : ∀ b0 b1 b2 b4 b5 b6 b7 : Bool,
    (w16 (b2n b0 + 2 * b2n b1 + 4 * b2n b2 + 8 * b2n true + 16 * b2n b4 + 32 * b2n b5 + 64 * b2n b6 + 128 * b2n b7) &&& 0x7E != 0) = true := by
  decide

/-- An input whose loop supply switched off for overheating. -/
def overheated (a : Ai) : Ai := { a with thermal := true, supply := 0 }

def statusOverheated (m : Module) (ch : Nat) (a : Ai) : W16 :=
  aiStatus (aiMod m ch overheated) { a with thermal := true } a.cal (a.unsettled != 0) a.limited

/-- Overheating makes an input faulted whatever its other bits (R324). -/
theorem statusOverheated_bad : (statusOverheated m ch a &&& 0x7E != 0) = true :=
  thermalBit_bad _ _ _ _ _ _ _

/-! ### Trims -/

theorem finishTrim_lio (t : Trim) (average : Int) (spread : Nat) : (finishTrim m t average spread).lio = { m.lio with trim := none } := by
  unfold finishTrim
  dsimp only
  repeat' split
  all_goals simp

theorem writeTrim_ai (t : Trim) (button : Bool) (average : Int) (ha : m.lio.ai[t.channel]? = some a) :
    (writeTrim m t button average).lio.ai[t.channel]? = some (trimCopy a t.span t.reference average) := by
  simp [writeTrim, aiMod, getElem?_modNth, ha]

/-- A trim that was begun with the button. -/
def byButton (m : Module) (t : Trim) : Bool := m.lio.trimMode.isSome && t.cmd.isNone && !t.remote && !t.ownClass

/-- The end of a measurement clears the trim; what it wrote stands. -/
theorem trimDone_lio (t : Trim) (average : Int) (spread : Nat) : (trimDone m t average spread).lio.trim = none
    ∧ (trimDone m t average spread).lio.ai
      = (if trimVerdict t average spread = 0 then writeTrim m t (byButton m t) average else m).lio.ai := by
  have hdone : trimDone m t average spread =
      let m1 := if trimVerdict t average spread = 0 then writeTrim m t (byButton m t) average else m
      if byButton m t then lioMod m1 (fun l => { l with
        trim := none
        trimShow := if trimVerdict t average spread = 0 then 1 else if trimVerdict t average spread = 0x0802 then 2 else 3 })
      else if isLead m then finishTrim m1 t average spread
      else emit (lioMod (if t.ownClass then maintMod m1 (fun x => { x with entries := tdel x.entries 6 }) else m1)
        (fun l => { l with trim := none })) (.sync (.trimReport t.channel average spread)) := rfl
  rw [hdone]
  generalize (if trimVerdict t average spread = 0 then writeTrim m t (byButton m t) average else m) = m1
  dsimp only
  repeat' split
  all_goals simp [finishTrim_lio, maintMod]

/-- A button that is held begins a trim of the channel shown. -/
theorem buttonHeld_trims {k : Nat} {span : Bool} (hmode : m.lio.trimMode = some k) (htrim : m.lio.trim = none) (ha : m.lio.ai[k]? = some a)
    (hon : a.mode ≠ 0) : ∃ t, (buttonHeld (if span then 2 else 1) m p).lio.trim = some t ∧ t.channel = k ∧ t.span = span
      ∧ t.reference = if span then 20000000 else 4000000 := by
  have hheld : buttonHeld (if span then 2 else 1) m p = buttonTrim m k span := by
    unfold buttonHeld
    rw [hmode]
    cases span <;> rfl
  rw [hheld, buttonTrim, ha]
  dsimp only
  rw [if_neg (by simp [hon, htrim])]
  exact ⟨_, rfl, rfl, rfl, rfl⟩

theorem shareToken_fst (m p : Module) : (shareToken m p).1 = m := by
  unfold shareToken
  split <;> rfl

theorem buttonHeld_enters (hmode : m.lio.trimMode = none) (hlock : m.lio.trimLock = false) (hj : judge m p 6 (frontHolder m) = 0) :
    (buttonHeld 0 m p).lio.trimMode = some 0 ∧ (tget (buttonHeld 0 m p).maint.entries 6).map (·.holder) = some (frontHolder m) := by
  have hheld : buttonHeld 0 m p = enterClass (lioMod m (fun l => { l with trimMode := some 0, trimShow := 0 })) 6 (frontHolder m) 0 := by
    simp [buttonHeld, hmode, hlock, hj]
  rw [hheld]
  simp [enterClass, tokenRecord, maintMod]

theorem leaveTrimMode_leaves {k : Nat} (hmode : m.lio.trimMode = some k) : (leaveTrimMode m).lio.trimMode = none
    ∧ (leaveTrimMode m).lio.trim = none ∧ tget (leaveTrimMode m).maint.entries 6 = none := by
  unfold leaveTrimMode
  rw [hmode]
  refine ⟨by simp, by simp, ?_⟩
  unfold leaveClass
  dsimp only
  split
  · assumption
  · simp [tokenRecord, maintMod, tget_tdel]

/-! ### Loop supplies -/

theorem unfaulted_of_map {l : Option Ai} {b : Ai} (h : l.map unfaulted = some (unfaulted b)) :
    ∃ a', l = some a' ∧ a'.mode = b.mode ∧ a'.supply = b.supply ∧ a'.supplySat = b.supplySat := by
  cases l with
  | none => cases h
  | some a' =>
    have heq : unfaulted a' = unfaulted b := Option.some.inj h
    exact ⟨a', rfl, show (unfaulted a').mode = _ by rw [heq]; rfl, show (unfaulted a').supply = _ by rw [heq]; rfl,
      show (unfaulted a').supplySat = _ by rw [heq]; rfl⟩

/-- A module after its loop supplies followed their targets. -/
def suppliesUpdated (m : Module) : Module := lioMod m (fun l => { l with ai := l.ai.map supplyUpdate })

theorem supplies_kept {i : Nat} (ha : m.lio.ai[i]? = some a) : ∃ a', ((List.range 16).foldl flagAi (suppliesUpdated m)).lio.ai[i]? = some a'
    ∧ a'.mode = (supplyUpdate a).mode ∧ a'.supply = (supplyUpdate a).supply ∧ a'.supplySat = (supplyUpdate a).supplySat := by
  refine unfaulted_of_map ((flagAis_unfaulted (List.range 16) (suppliesUpdated m) i).trans ?_)
  simp [suppliesUpdated, ha]

theorem supplyUpdate_off (h : a.mode ≠ 1) : (supplyUpdate a).supply = 0 := by
  rw [supplyUpdate, if_pos h]

theorem supplyUpdate_hot (h : a.mode = 1) (ht : a.thermal = true) : (supplyUpdate a).supply = 0 := by
  rw [supplyUpdate, if_neg (not_not_intro h), if_pos ht]

/-- The supply follows its target by at most 2 V up and 0.5 V down. -/
theorem supplyUpdate_on (h : a.mode = 1) (ht : a.thermal = false) {want : Nat}
    (hw : 100 * a.vtx + (a.cal.toNat * (50 + a.rw)) / 1000000 + 1000 = want) :
    (a.supply < max 8000 (min 28000 want) → (supplyUpdate a).supply = min (max 8000 (min 28000 want)) (a.supply + 2000))
    ∧ (max 8000 (min 28000 want) ≤ a.supply → (supplyUpdate a).supply = max (max 8000 (min 28000 want)) (a.supply - 500))
    ∧ (supplyUpdate a).supplySat = decide (28000 < want) := by
  unfold supplyUpdate
  rw [if_neg (not_not_intro h), if_neg (by simp [ht]), hw]
  generalize max 8000 (min 28000 want) = v
  exact ⟨fun hlt => if_pos hlt, fun hle => if_neg (by omega), rfl⟩

/-- A change of an input that is there is the change to what it becomes. -/
theorem aiMod_eq_const {f : Ai → Ai} (ha : m.lio.ai[ch]? = some a) : aiMod m ch f = aiMod m ch (fun _ => f a) := by
  rw [aiMod, lioMod, modNth_eq_const ha]
  rfl

end

/-- Settles O27. -/
theorem analogEvents : Obligations.AnalogEvents := by
  unfold Obligations.AnalogEvents
  intro s sl ch
  dsimp only
  refine ⟨fun a raw limited ha hfw hon => ?_, fun a raw limited ha hoff => ?_, fun hfw => ?_, fun a ha hfw hon => ?_, fun hfw => ?_,
    fun t average spread ht hserving hlocal => ?_, fun hserving => ⟨?_, fun hmode => ⟨fun hlock => ?_, fun hlock hj => ?_⟩,
      fun k span hmode htrim hon hk => ?_⟩, fun k hmode => ?_⟩
  · refine ⟨becomes_of (exec_cicOutput sl ch raw limited s) ?_, ?_⟩
    · simp only [ha, hfw]
      rw [if_neg (by simp [hon]), aiMod_eq_const ha]
      rfl
    · exact aiFault_aiMod ha
  · refine idle_of (exec_cicOutput sl ch raw limited s) ?_
    simp [ha, hoff]
  · refine ⟨(List.range 16).foldl flagAi (suppliesUpdated (modOf s sl)),
      becomes_of (exec_loopSupplyUpdate sl s) (if_neg (by simp [hfw])), fun i hi a ha => ?_⟩
    obtain ⟨a', ha', -, hsupply, hsat⟩ := supplies_kept ha
    refine ⟨a', ha', fun hoff => hsupply.trans (supplyUpdate_off hoff), fun hon hhot => hsupply.trans (supplyUpdate_hot hon hhot),
      fun hon hcool => ?_⟩
    rw [hsupply, hsat]
    exact supplyUpdate_on hon hcool rfl
  · have hfaulted : (aiFault (aiMod (modOf s sl) ch overheated) ch (statusOverheated (modOf s sl) ch a)).lio.ai[ch]?
        = some { overheated a with faulted := true } := by
      rw [aiFault_aiMod ha, statusOverheated_bad]
    refine ⟨_, _, becomes_of (exec_loopSupplyThermal sl ch s) ?_, hfaulted, rfl, rfl, rfl⟩
    simp only [ha]
    exact if_neg (by simp [hfw, hon])
  · exact becomes_of (exec_loopSupplyRestart sl ch s) (if_pos hfw)
  · obtain ⟨hnone, hai⟩ := trimDone_lio (m := modOf s sl) t average spread
    obtain ⟨p', hboth⟩ : ∃ p', BecomeBoth (.trimMeasureDone sl average spread) s sl (trimDone (modOf s sl) t average spread) p' := by
      refine becomesBoth_fst (exec_trimMeasureDone sl average spread s) ?_
      simp only [ht, hserving, hlocal]
      rfl
    refine ⟨_, p', hboth, hnone, fun hnear hsteady a ha => ?_, fun hbad => ?_⟩
    · rw [hai, if_pos (by rw [trimVerdict, if_neg (by omega), if_neg (by omega)])]
      exact writeTrim_ai t _ average ha
    · rw [hai, if_neg]
      unfold trimVerdict
      split
      · decide
      · rw [if_pos (by omega)]
        decide
  · exact becomes_of (exec_buttonPress sl s) (if_neg (by simp [hserving]))
  · refine becomesBoth_of (exec_buttonHeld sl 0 s) ((if_neg (by simp [hserving])).trans ?_)
    rw [show buttonHeld 0 (modOf s sl) (modOf s (otherSlot sl)) = lioMod (modOf s sl) (fun l => { l with trimShow := 4 }) by
      simp [buttonHeld, hmode, hlock]]
    rfl
  · obtain ⟨hentered, hholder⟩ := buttonHeld_enters hmode hlock hj
    obtain ⟨p', hboth⟩ := becomesBoth_fst (exec_buttonHeld sl 0 s)
      ((congrArg Prod.fst (if_neg (by simp [hserving]))).trans (shareToken_fst _ _))
    exact ⟨_, p', hboth, hentered, hholder⟩
  · have ha : (modOf s sl).lio.ai[k]? = some ((modOf s sl).lio.ai[k]) := List.getElem?_eq_getElem hk
    obtain ⟨t, ht, hch, hsp, href⟩ := buttonHeld_trims (p := modOf s (otherSlot sl)) (span := span) hmode htrim ha (hon _ ha)
    obtain ⟨p', hboth⟩ := becomesBoth_fst (exec_buttonHeld sl (if span then 2 else 1) s)
      ((congrArg Prod.fst (if_neg (by cases span <;> simp [hserving]))).trans (shareToken_fst _ _))
    exact ⟨_, p', t, hboth, ht, hch, hsp, href⟩
  · obtain ⟨htrimMode, htrim, hentries⟩ := leaveTrimMode_leaves hmode
    obtain ⟨p', hboth⟩ := becomesBoth_fst (exec_trimModeTimeout sl s)
      ((congrArg Prod.fst (if_neg (by simp [hmode]))).trans (shareToken_fst _ _))
    exact ⟨_, p', hboth, htrimMode, htrim, hentries⟩

end Sys2Proof.Machine

/-! PROOF. Digital channels: the filter, the diagnostics and latches of the outputs, and the vigil timers (R332 to R336, R341). -/

namespace Sys2Proof.Machine
open Sys2Proof Sys2Proof.Bits Sys2Proof.Safety

section
variable {m m' : Module} {k ch j : Nat} {o : OutCh}

/-! ### One channel -/

theorem outChOf_of_lio (h : m'.lio = m.lio) : outChOf m' k ch = outChOf m k ch := by
  rw [outChOf, outChOf, h]

theorem outChOf_outChMod_other {f : OutCh → OutCh} (h : j ≠ ch) : outChOf (outChMod m k ch f) k j = outChOf m k j := by
  unfold outChOf outChMod
  split <;> simp [getElem?_modNth, h]

theorem outChOf_refreshOut (h : outChOf m k ch = some o) :
    outChOf (refreshOut m k ch) k ch = some { o with driven := wantOut m k ch o } :=
  outChOf_outChMod h

theorem outChOf_refreshOut_other (h : j ≠ ch) : outChOf (refreshOut m k ch) k j = outChOf m k j :=
  outChOf_outChMod_other h

/-- Running firmware keeps a latched channel off (R334). -/
theorem wantOut_latched (hfw : fw m = true) (hl : o.latched = true) : wantOut m k ch o = false := by
  unfold fw hasPower at hfw
  unfold wantOut
  cases hb : m.boot.state <;> simp_all

/-- Running firmware gives an expired channel that it may drive its safe value (R335). -/
theorem wantOut_expired (hfw : fw m = true) (hout : isOutput k o = true) (hl : o.latched = false) (hmay : mayDrive m k = true)
    (he : o.expired = true) : wantOut m k ch o = safeValue o := by
  unfold fw hasPower at hfw
  unfold wantOut
  cases hb : m.boot.state <;> simp_all

theorem mayDrive_congr (hpair : m'.pair = m.pair) (hhw : m'.hw = m.hw) (hslot : m'.slot = m.slot) : mayDrive m' k = mayDrive m k := by
  simp [mayDrive, wired, wiringOf, isLead, hpair, hhw, hslot]

theorem fw_congr (hboot : m'.boot = m.boot) (hpower : m'.power = m.power) : fw m' = fw m := by
  rw [fw, fw, hasPower, hasPower, hboot, hpower]

/-! ### A diagnostic -/

section
variable {bit load : Nat} {latch : Bool}

/-- A diagnostic: its bit, its load and its latch, and the drive that follows from them. -/
theorem outChOf_diagnose (h : outChOf m k ch = some o) : ∃ d,
    outChOf (diagnose m k ch bit latch load) k ch
      = some { o with status := o.status ||| w16 bit, latched := o.latched || latch, load := load, driven := d }
    ∧ ((o.latched || latch) = true → fw m = true → d = false) := by
  unfold diagnose
  rw [h]
  dsimp only
  split
  · refine ⟨_, outChOf_refreshOut ((outChOf_of_lio (logEv_lio _ _ _ _ _ _)).trans (outChOf_outChMod h)), fun hl hfw => ?_⟩
    exact wantOut_latched ((fw_congr (by simp) (by simp)).trans hfw) hl
  · refine ⟨_, outChOf_refreshOut (outChOf_outChMod h), fun hl hfw => ?_⟩
    exact wantOut_latched ((fw_congr (by simp) (by simp)).trans hfw) hl

theorem outChOf_diagnose_other (h : j ≠ ch) : outChOf (diagnose m k ch bit latch load) k j = outChOf m k j := by
  unfold diagnose
  split
  · rfl
  · dsimp only
    rw [outChOf_refreshOut_other h]
    split
    · rw [outChOf_of_lio (logEv_lio _ _ _ _ _ _), outChOf_outChMod_other h]
    · exact outChOf_outChMod_other h

theorem diagnose_boot : (diagnose m k ch bit latch load).boot = m.boot := by
  unfold diagnose
  split
  · rfl
  · dsimp only
    split <;> simp

end

theorem isDo_of (hp : powered m = true) (ho : outChOf m 1 ch = some o) (hout : o.mode = 3) : isDo m ch = true := by
  simp [isDo, hp, ho, isOutput, hout]

/-! ### The limit of a group -/

/-- What the limit of a group does to one of its channels (R334). -/
def limitOne (g : Nat) (m : Module) (i : Nat) : Module :=
  match outChOf m 1 (8 * g + i) with
  | some o => if isDo m (8 * g + i) && o.driven then diagnose m 1 (8 * g + i) 16 true o.load else m
  | none => m

variable {g i : Nat}

theorem limitOne_other (h : j ≠ i) : outChOf (limitOne g m j) 1 (8 * g + i) = outChOf m 1 (8 * g + i) := by
  unfold limitOne
  repeat' split
  · exact outChOf_diagnose_other (by omega)
  · rfl
  · rfl

theorem limitOne_powered : powered (limitOne g m j) = powered m := by
  unfold limitOne
  repeat' split
  · rw [powered, powered, diagnose_boot]
  · rfl
  · rfl

theorem limitOne_on (hp : powered m = true) (ho : outChOf m 1 (8 * g + i) = some o) (hout : o.mode = 3) (hon : o.driven = true) :
    ∃ o', outChOf (limitOne g m i) 1 (8 * g + i) = some o' ∧ o'.latched = true ∧ o'.status = o.status ||| 16 := by
  rw [limitOne, ho]
  dsimp only
  rw [if_pos (by simp [isDo_of hp ho hout, hon])]
  obtain ⟨d, hd, -⟩ := outChOf_diagnose (bit := 16) (latch := true) (load := o.load) ho
  exact ⟨_, hd, Bool.or_true _, rfl⟩

theorem limits_others {l : List Nat} (h : i ∉ l) (m : Module) :
    outChOf (l.foldl (limitOne g) m) 1 (8 * g + i) = outChOf m 1 (8 * g + i) := by
  induction l generalizing m with
  | nil => rfl
  | cons j l ih =>
    rw [List.mem_cons, not_or] at h
    rw [List.foldl_cons, ih h.2, limitOne_other (Ne.symm h.1)]

/-- Every channel of the group that is on is latched off, whatever became of the channels before it. -/
theorem limits_on {l : List Nat} (hl : l.Nodup) (hi : i ∈ l) (hp : powered m = true) (ho : outChOf m 1 (8 * g + i) = some o) (hout : o.mode = 3)
    (hon : o.driven = true) :
    ∃ o', outChOf (l.foldl (limitOne g) m) 1 (8 * g + i) = some o' ∧ o'.latched = true ∧ o'.status = o.status ||| 16 := by
  induction l generalizing m with
  | nil => cases hi
  | cons j l ih =>
    rw [List.nodup_cons] at hl
    rw [List.foldl_cons]
    by_cases hji : j = i
    · subst hji
      rw [limits_others hl.1]
      exact limitOne_on hp ho hout hon
    · exact ih hl.2 ((List.mem_cons.1 hi).resolve_left (Ne.symm hji)) (limitOne_powered.trans hp) ((limitOne_other hji).trans ho)

/-! ### The vigil timer -/

/-- A channel whose vigil timer ran out at a time. -/
def vigilExpired (t : W64) (o : OutCh) : OutCh := { o with vigilRunning := false, expired := true, expiredAt := t, status := o.status ||| 0x20 }

end

section
variable {s : State} {sl : Slot} {k ch : Nat} {o : OutCh}

/-- A diagnostic that an event reports, by what the event does. -/
theorem diagnosed_of {i : Instr} {bit load : Nat} {latch : Bool}
    (h : Becomes i s sl (diagnose (modOf s sl) k ch bit latch load)) (ho : outChOf (modOf s sl) k ch = some o) :
    ∃ m' o', Becomes i s sl m' ∧ outChOf m' k ch = some o' ∧ o'.status = o.status ||| w16 bit ∧ o'.load = load ∧ o'.latched = (o.latched || latch)
      ∧ (o'.latched = true → fw (modOf s sl) = true → o'.driven = false) := by
  obtain ⟨d, hd, hoff⟩ := outChOf_diagnose (bit := bit) (latch := latch) (load := load) ho
  exact ⟨_, _, h, hd, rfl, rfl, rfl, hoff⟩

end

/-- Settles O28. -/
theorem digitalEvents : Obligations.DigitalEvents := by
  unfold Obligations.DigitalEvents
  intro s sl kind ch o
  dsimp only
  refine ⟨fun hp => ⟨fun level => becomes_of (exec_dioInputChange sl ch level s) (if_neg (by simp [hp])),
      becomes_of (exec_diFilterPass sl ch s) (if_pos hp)⟩,
    fun hp ho hout mA => ?_, fun hp ho hout => ?_, fun hp ho hl => ⟨fun hoff => ?_, fun hdemand => ?_⟩,
    fun bits ho => ⟨fun hl => ?_, fun hl => ?_⟩, fun ho => ⟨fun hp hrun he => ?_, fun hrun => ?_⟩⟩
  · have hdo := isDo_of hp ho hout
    refine ⟨diagnosed_of (becomes_of (exec_doOverload sl ch mA s) (if_pos hdo)) ho, diagnosed_of (becomes_of (exec_doOvertemp sl ch s) ?_) ho,
      fun hwire hshared => diagnosed_of (becomes_of (exec_doOpenWire sl ch s) ?_) ho, fun hwire => idle_of (exec_doOpenWire sl ch s) ?_,
      fun g i hch hi hon => ?_⟩
    · simp only [ho]
      exact if_pos hdo
    · simp only [ho]
      exact if_pos (by rcases hshared with h | h <;> simp [hdo, hwire, h])
    · simp only [ho]
      exact if_neg (by simp [hwire])
    · subst hch
      obtain ⟨o', ho', hlatched, hstatus⟩ := limits_on (l := List.range 8) List.nodup_range (List.mem_range.2 hi) hp ho hout hon
      exact ⟨(List.range 8).foldl (limitOne g) (modOf s sl), o', becomes_of (exec_doGroupLimit sl g s) rfl, ho', hlatched, hstatus⟩
  · obtain ⟨m', o', hb, ho', hstatus, -, hlatched, -⟩ := diagnosed_of (i := .fdoOverload sl ch) (bit := 2) (latch := true) (load := o.load)
      (becomes_of (exec_fdoOverload sl ch s) (by simp only [ho]; exact if_pos (by simp [hp, isOutput, hout]))) ho
    exact ⟨m', o', hb, ho', by simp [hlatched], hstatus⟩
  · refine becomes_of (exec_doLatchRearm sl kind ch s) ?_
    simp only [ho]
    exact if_pos (by simp [hp, hl, hoff])
  · refine idle_of (exec_doLatchRearm sl kind ch s) ?_
    simp only [ho]
    exact if_neg (by simp [hdemand])
  · refine becomes_of (exec_doDiagClear sl kind ch bits s) ?_
    simp only [ho]
    exact if_neg (by simp [hl])
  · refine idle_of (exec_doDiagClear sl kind ch bits s) ?_
    simp only [ho]
    exact if_pos hl
  · have hexpired := outChOf_refreshOut ((outChOf_of_lio (logEv_lio (outChMod (modOf s sl) kind ch (vigilExpired (now (modOf s sl))))
      0x0803 5 ch 0xFFFF (leBytes 1 kind ++ leBytes 1 ch ++ leBytes 1 o.safe))).trans (outChOf_outChMod ho))
    refine ⟨_, _, becomes_of (exec_vigilExpiry sl kind ch s) ?_, hexpired, rfl, rfl, rfl, rfl, fun hfw hout hl hmay => ?_⟩
    · simp only [ho]
      exact if_neg (by simp [hp, hrun, he])
    · exact wantOut_expired ((fw_congr (by simp) (by simp)).trans hfw) hout hl
        ((mayDrive_congr (by simp) (by simp) (by simp)).trans hmay) rfl
  · refine idle_of (exec_vigilExpiry sl kind ch s) ?_
    simp only [ho]
    exact if_pos (by simp [hrun])

end Sys2Proof.Machine

/-! PROOF. HALO.CHANGE and the tasks that it names (R353). -/

namespace Sys2Proof.Machine
open Sys2Proof Sys2Proof.Bits Sys2Proof.Safety

/-- A HALO task with a sealed bank. -/
def haloTask : Task := { taskAt 0 with halo := true, code0 := { sealed := true }, table0 := { sealed := true } }

/-- A lead in RUN with that task, a confirmed staged set, and class 4 held by the front's QP 0. -/
def changeReady : Module :=
  { slot := .a, boot := { state := .run }, pair := { role := .lead }, exec := { tasks := [(0, haloTask)] },
    halo := { staged := some [], stagedSealed := true, stagedConfirmed := true }, maint := { entries := [(4, { holder := .qp 0 })] } }

/-- HALO.CHANGE of task 0 in the domain with that lead. -/
def changeDomain : State := { State.reset with modA := changeReady }
def changeCmd : Cmd := { qp := 0, ticket := 1, target := 0xFFFF, param := leBytes 2 1, req := leBytes 2 0 }

theorem changeCmd_runs : runs .work .sys 0x0905 changeCmd changeReady = true := by decide

/-- The handler turns away a task that exists. -/
theorem changeCmd_handled : hHaloChange changeReady (modOf changeDomain .b) changeCmd = .refused 8 0 := rfl

theorem changeCmd_tasks : ∀ i, i < le changeCmd.param 0 2 →
    ∃ k, taskOf changeReady (reqTask changeCmd i) = some k ∧ k.halo = true ∧ (swapTarget k).isSome = true := by
  intro i hi
  obtain rfl : i = 0 := Nat.lt_one_iff.1 hi
  exact ⟨haloTask, rfl, rfl, rfl⟩

/-- Refutes O29: HALO.CHANGE answers NO_TARGET for a task that exists, so a change that names a HALO task with a sealed bank does not happen. -/
theorem not_haloCommands : ¬ Obligations.HaloCommands := by
  unfold Obligations.HaloCommands
  intro h
  obtain ⟨-, -, -, -, -, -, hchange, -⟩ := h changeDomain .a changeCmd
  obtain ⟨-, -, -, hdone⟩ := hchange (by decide)
  obtain ⟨m', hanswer, hactive, -⟩ := hdone [] rfl (by decide) rfl rfl changeCmd_tasks
  have hexec := answers_of (exec_haloChange .a changeCmd changeDomain) changeCmd_runs changeCmd_handled
  have hstate := Host.Outcome.next.inj (hexec.symm.trans (hanswer changeCmd_runs))
  have hsets := congrArg (fun s => s.modA.halo.active) hstate
  simp only [withMod, settle, finish_halo, hactive] at hsets
  cases hsets

end Sys2Proof.Machine

/-! PROOF. Safety outputs: their tests, their faults, the EDM and the self-check (R354, R355, R358 to R360, R362, R375). -/

namespace Sys2Proof.Machine
open Sys2Proof Sys2Proof.Bits Sys2Proof.Safety

section
variable {m m' : Module} {ch : Nat} {x : So} {f : So → So}

/-! ### What the conditions change of a channel -/

/-- The conditions of a channel decide whether it is energised, and nothing of its record of faults. -/
theorem soNext_only (m : Module) (c : Nat) (x : So) : soNext m c x = { x with
    energised := (soNext m c x).energised, edmDue := (soNext m c x).edmDue, interlock := (soNext m c x).interlock, test := (soNext m c x).test } := by
  unfold soNext
  repeat' split
  all_goals rfl

@[simp] theorem soNext_locked : (soNext m ch x).locked = x.locked := by rw [soNext_only]
@[simp] theorem soNext_fallback : (soNext m ch x).fallback = x.fallback := by rw [soNext_only]
@[simp] theorem soNext_stuckHigh : (soNext m ch x).stuckHigh = x.stuckHigh := by rw [soNext_only]
@[simp] theorem soNext_highOk : (soNext m ch x).highOk = x.highOk := by rw [soNext_only]
@[simp] theorem soNext_lowOk : (soNext m ch x).lowOk = x.lowOk := by rw [soNext_only]
@[simp] theorem soNext_edm : (soNext m ch x).edm = x.edm := by rw [soNext_only]
@[simp] theorem soNext_edmAt : (soNext m ch x).edmAt = x.edmAt := by rw [soNext_only]
@[simp] theorem soNext_edmFault : (soNext m ch x).edmFault = x.edmFault := by rw [soNext_only]

theorem soMay_locked (hl : x.locked = true) : soMay m ch x = false := by
  simp [soMay, hl]

/-- A locked channel that is off stays off (R358). -/
theorem soNext_stays_off (hl : x.locked = true) (he : x.energised = false) : (soNext m ch x).energised = false := by
  simp [soNext, soMay_locked hl, he]

/-- A locked channel opens (R358), unless the module is going down. -/
theorem soNext_opens (hl : x.locked = true) (hup : m.power.phase ≠ .goingDown) : (soNext m ch x).energised = false := by
  rw [soNext, if_neg (by simp [hup]), soMay_locked hl]
  cases he : x.energised <;> simp [he]

theorem refresh_so : (refresh m).halo.so[ch]? = (m.halo.so[ch]?).map (soNext (refreshOuts m) ch) := by
  simp [refresh, refreshSo]

theorem soMod_so (h : m.halo.so[ch]? = some x) : (soMod m ch f).halo.so[ch]? = some (f x) := by
  simp [soMod, getElem?_modNth, h]

/-- The channel that an event leaves once the outputs follow it. -/
theorem refresh_soMod (h : m.halo.so[ch]? = some x) :
    (refresh (soMod m ch f)).halo.so[ch]? = some (soNext (refreshOuts (soMod m ch f)) ch (f x)) := by
  rw [refresh_so, soMod_so h]
  rfl

@[simp] theorem refresh_testSlot : (refresh m).halo.testSlot = m.halo.testSlot := by
  simp [refresh, refreshSo]

@[simp] theorem refresh_tests : (refresh m).halo.tests = m.halo.tests := by
  simp [refresh, refreshSo]

@[simp] theorem refresh_umbraCause : (refresh m).halo.umbraCause = m.halo.umbraCause := by
  simp [refresh, refreshSo]

/-! ### A locked channel -/

theorem soOff_energised : (soOff m ch x).energised = false := by
  unfold soOff
  split
  · rfl
  · simpa using ‹¬ x.energised = true›

theorem soOff_edmFault : (soOff m ch x).edmFault = x.edmFault := by
  unfold soOff
  split <;> rfl

theorem lockSo_so (cause : Nat) (h : m.halo.so[ch]? = some x) :
    (lockSo m ch cause).halo.so[ch]? = some { soOff m ch x with locked := true, fallback := false, highOk := false, lowOk := false } := by
  rw [lockSo, logEv_halo]
  exact soMod_so h

/-- A channel that is locked stays locked and off once the outputs follow. -/
theorem refresh_lockSo (cause : Nat) (h : m.halo.so[ch]? = some x) :
    ∃ y, (refresh (lockSo m ch cause)).halo.so[ch]? = some y ∧ y.locked = true ∧ y.fallback = false ∧ y.energised = false := by
  have hlocked := refresh_so (m := lockSo m ch cause) (ch := ch)
  rw [lockSo_so cause h] at hlocked
  exact ⟨_, hlocked, by simp, by simp, soNext_stays_off rfl soOff_energised⟩

/-- What the fault of a switch that stuck on does to a channel not yet locked (R358). -/
theorem refresh_soFault {high : Bool} (h : m.halo.so[ch]? = some x) (hl : x.locked = false) :
    ∃ y, (refresh (soFault m ch high 0)).halo.so[ch]? = some y
      ∧ (soEdmUsed (soActive m ch) = true → x.fallback = false → y.fallback = true ∧ y.stuckHigh = high ∧ y.locked = false)
      ∧ ((soEdmUsed (soActive m ch) = false ∨ x.fallback = true) → y.locked = true ∧ y.fallback = false ∧ y.energised = false) := by
  unfold soFault
  rw [h]
  dsimp only
  rw [if_neg (by simp [hl])]
  by_cases hfall : soEdmUsed (soActive m ch) = true ∧ x.fallback = false
  · obtain ⟨hedm, hfb⟩ := hfall
    rw [if_pos (by simp [hedm, hfb])]
    refine ⟨_, refresh_soMod (x := x) (by simp [h]), fun _ _ => by simp [hl], fun hor => ?_⟩
    rcases hor with hor | hor
    · rw [hedm] at hor; cases hor
    · rw [hfb] at hor; cases hor
  · rw [if_neg (by simpa using hfall)]
    obtain ⟨y, hy, hlocked⟩ := refresh_lockSo (m := logEv m 0x0903 6 ch 0xFFFF ([BitVec.ofNat 8 ch, BitVec.ofNat 8 (b2n (!high)), BitVec.ofNat 8 0,
      BitVec.ofNat 8 (b2n (!((0 : Nat) == 0 && soEdmUsed (soActive m ch) && !x.fallback)))])) (if x.fallback then 3 else 0)
      (ch := ch) (x := x) (by simp [h])
    exact ⟨y, hy, fun hedm hfb => absurd ⟨hedm, hfb⟩ hfall, fun _ => hlocked⟩

/-! ### The state of a module -/

/-- A change of state changes that state, the records and what the module sends (R7). -/
@[simp] theorem setState_boot (m : Module) (st : ModState) : (setState m st).boot = { m.boot with state := st } := by
  unfold setState
  dsimp only
  split <;> simp [bootMod]

@[simp] theorem setState_halo (m : Module) (st : ModState) : (setState m st).halo = m.halo := by
  unfold setState
  dsimp only
  split <;> simp [bootMod]

/-- UMBRA, from a state in which the firmware runs the safety part (R362). -/
theorem enterUmbra_boot_halo (cause detail : Nat) (hpower : hasPower m = true)
    (h : m.boot.state = .ready ∨ m.boot.state = .run ∨ m.boot.state = .splitOff) :
    (enterUmbra m cause detail).boot.state = .umbra ∧ (enterUmbra m cause detail).halo.umbraCause = cause := by
  unfold enterUmbra
  rw [if_neg (by simp [hpower])]
  rcases h with h | h | h <;> rw [h] <;> simp

/-- The test of a switch begins: no other channel is under test. -/
def testBegun (slotNo : Nat) (m : Module) : Module :=
  haloMod m (fun h => { h with testSlot := some slotNo, so := h.so.map (fun x => { x with test := none }) })

end

section
variable {s : State} {sl : Slot} {ch : Nat} {x : So} {high dark : Bool}

theorem testSlot_half (ch : Nat) (high : Bool) : (2 * ch + if high then 0 else 1) / 2 = ch := by
  cases high
  · simp; omega
  · simp

theorem testSlot_high (ch : Nat) (high : Bool) : ((2 * ch + if high then 0 else 1) % 2 == 0) = high := by
  cases high <;> simp

/-- A channel whose contactor has not followed is marked, with its record (R359). -/
def edmFaulted (m : Module) (ch : Nat) (x : So) : Module :=
  soMod (logEv m 0x0905 6 ch 0xFFFF ([BitVec.ofNat 8 ch, BitVec.ofNat 8 (b2n (!x.energised))] ++ leBytes 2 (le (soActive m ch) 2 2))) ch
    (fun x => { x with edmFault := true })

/-- What a test that ended left of its channel. -/
def tested (high good : Bool) (m : Module) (ch : Nat) : Module :=
  soMod (haloMod m (fun h => { h with testSlot := none, tests := h.tests + 1 })) ch
    (fun x => { x with test := none, highOk := if high then good else x.highOk, lowOk := if high then x.lowOk else good })

theorem soTestEnd_becomes (pass : Bool) (hslot : (modOf s sl).halo.testSlot = some (2 * ch + if high then 0 else 1))
    (hx : (modOf s sl).halo.so[ch]? = some x) (ht : x.test = some (high, dark)) :
    Becomes (.soTestEnd sl pass false) s sl (refresh (if !pass then soFault (tested high pass (modOf s sl) ch) ch high (if dark then 0 else 1)
      else tested high pass (modOf s sl) ch)) := by
  refine becomes_of (exec_soTestEnd sl pass false s) ?_
  simp only [hslot, testSlot_half, hx, ht]
  cases pass <;> rfl

/-- A contactor that has not followed in its time locks its channel open (R359). -/
theorem edmTime_locks (hx : (modOf s sl).halo.so[ch]? = some x) (hfw : fw (modOf s sl) = true) (hdue : x.edmDue = true) (heq : x.edm = x.energised) :
    ∃ m' y, Becomes (.edmTimeExpiry sl ch) s sl m' ∧ m'.halo.so[ch]? = some y ∧ y.edmFault = true ∧ y.locked = true ∧ y.energised = false := by
  have hso : (edmFaulted (modOf s sl) ch x).halo.so[ch]? = some { x with edmFault := true } := soMod_so (by simp [hx])
  have hlocked : ∃ y, (if x.locked then edmFaulted (modOf s sl) ch x else lockSo (edmFaulted (modOf s sl) ch x) ch 1).halo.so[ch]? = some y
      ∧ y.edmFault = true ∧ y.locked = true := by
    split
    · exact ⟨_, hso, rfl, ‹_›⟩
    · exact ⟨_, lockSo_so 1 hso, soOff_edmFault, rfl⟩
  obtain ⟨y, hy, hfault, hlock⟩ := hlocked
  refine ⟨_, _, becomes_of (exec_edmTimeExpiry sl ch s) ?_, refresh_soMod (f := fun x => { x with edmDue := false }) hy, by simp [hfault], by simp [hlock],
    soNext_opens hlock ?_⟩
  · simp only [hx]
    exact (if_neg (by simp [hfw, hdue])).trans (if_neg (by simp [heq]))
  · have hgood : (modOf s sl).power.phase = .good := by
      simp only [fw, hasPower, Bool.and_eq_true, beq_iff_eq] at hfw
      exact hfw.1
    split <;> simp [soMod, lockSo, edmFaulted, hgood]

end

/-- Settles O30. -/
theorem haloEvents : Obligations.HaloEvents := by
  unfold Obligations.HaloEvents
  intro s sl ch x
  dsimp only
  intro hx
  refine ⟨fun high hfw hch => ?_, fun pass fed hslot => ?_, fun high dark hslot ht => ?_, fun high hslot ht hl => ?_,
    becomes_of (exec_soReleaseTimeout sl ch s) rfl, fun level hp => becomes_of (exec_edmInputChange sl ch level s) (if_pos (by simp [hp])),
    fun level hp => ?_, fun hfw hdue => ⟨fun hne => ?_, fun heq => ?_⟩, fun hdue => ?_, fun hfb => ?_, fun hfb => ?_,
    fun hfw => ⟨fun hgood => ?_, fun hst => ?_⟩⟩
  · have hbegun : (testBegun (2 * ch + if high then 0 else 1) (modOf s sl)).halo.so[ch]? = some { x with test := none } := by
      simp [testBegun, hx]
    refine ⟨_, _, becomes_of (exec_soTestSlot sl _ s) ?_, ?_,
      soMod_so (f := fun x => if x.fallback && x.stuckHigh == high then x else { x with test := some (high, x.energised) }) hbegun, ?_, ?_, ?_, ?_⟩
    · have hslot : ¬ 16 ≤ 2 * ch + if high then 0 else 1 := by
        split <;> omega
      rw [if_neg (by simp only [hfw, hslot]; decide)]
      simp only [testSlot_half, testSlot_high]
      rfl
    · rfl
    · intro hfb hstuck
      simp [hfb, hstuck]
    · intro hor
      rw [if_neg (by rcases hor with h | h <;> simp [h])]
    · split <;> rfl
    · split <;> rfl
  · refine idle_of (exec_soTestEnd sl pass fed s) ?_
    simp only [hslot]
  · refine ⟨_, _, soTestEnd_becomes true hslot hx ht, refresh_soMod hx, ?_, ?_, ?_, ?_⟩
    · cases high <;> simp
    · simp [tested, soMod]
    · simp [tested, soMod]
    · simp
  · obtain ⟨y, hy, hfall, hlock⟩ := refresh_soFault (m := tested high false (modOf s sl) ch) (high := high) (soMod_so hx) hl
    exact ⟨_, y, soTestEnd_becomes false hslot hx ht, hy, hfall, hlock⟩
  · refine ⟨_, _, becomes_of (exec_edmInputChange sl ch level s) (if_neg (by simp [hp])), refresh_soMod hx, ?_, ?_, ?_⟩
    · rw [soNext_edm]
      split
      · assumption
      · rfl
    · intro hne
      rw [soNext_edmAt, if_neg hne]
    · intro heq
      rw [soNext_edmAt, if_pos heq]
  · refine becomes_of (exec_edmTimeExpiry sl ch s) ?_
    simp only [hx]
    rw [if_neg (by simp [hfw, hdue]), if_pos (by simpa using hne)]
    rfl
  · exact edmTime_locks hx hfw hdue heq
  · refine idle_of (exec_edmTimeExpiry sl ch s) ?_
    simp only [hx]
    exact if_pos (by simp [hdue])
  · obtain ⟨y, hy, hlocked⟩ := refresh_lockSo 2 hx
    refine ⟨_, y, becomes_of (exec_fallbackLimitExpiry sl ch s) ?_, hy, hlocked⟩
    simp only [hx]
    exact if_pos hfb
  · refine idle_of (exec_fallbackLimitExpiry sl ch s) ?_
    simp only [hx]
    exact if_neg (by simp [hfb])
  · refine becomes_of (exec_haloSelfCheck sl true s) ((if_pos hfw).trans ?_)
    rw [haloCheckSelf, if_pos (by simp [hgood])]
    rfl
  · refine ⟨_, becomes_of (exec_haloSelfCheck sl false s) ((if_pos hfw).trans ?_), enterUmbra_boot_halo 5 0 ?_ hst⟩
    · rw [haloCheckSelf, if_neg (by simp)]
    · rw [fw, Bool.and_eq_true] at hfw
      exact hfw.1

end Sys2Proof.Machine

/-! PROOF. What the steps of the pair, of states and of classes leave as it is. -/

namespace Sys2Proof.Machine
open Sys2Proof Sys2Proof.Bits Sys2Proof.Safety

/-! ### A change of state -/

theorem setState_only (m : Module) (st : ModState) :
    setState m st = { m with boot := { m.boot with state := st }, chron := (setState m st).chron, out := (setState m st).out } := by
  unfold setState
  dsimp only
  split
  · rfl
  · rw [logEv_only]
    rfl

@[simp] theorem setState_pair (m : Module) (st : ModState) : (setState m st).pair = m.pair := by rw [setState_only]
@[simp] theorem setState_maint (m : Module) (st : ModState) : (setState m st).maint = m.maint := by rw [setState_only]
@[simp] theorem setState_mail (m : Module) (st : ModState) : (setState m st).mail = m.mail := by rw [setState_only]
@[simp] theorem setState_power (m : Module) (st : ModState) : (setState m st).power = m.power := by rw [setState_only]
@[simp] theorem setState_hw (m : Module) (st : ModState) : (setState m st).hw = m.hw := by rw [setState_only]
@[simp] theorem setState_alm (m : Module) (st : ModState) : (setState m st).alm = m.alm := by rw [setState_only]
@[simp] theorem setState_exec (m : Module) (st : ModState) : (setState m st).exec = m.exec := by rw [setState_only]
@[simp] theorem setState_store (m : Module) (st : ModState) : (setState m st).store = m.store := by rw [setState_only]
@[simp] theorem setState_field (m : Module) (st : ModState) : (setState m st).field = m.field := by rw [setState_only]
@[simp] theorem setState_slot (m : Module) (st : ModState) : (setState m st).slot = m.slot := by rw [setState_only]
@[simp] theorem setState_phys (m : Module) (st : ModState) : (setState m st).phys = m.phys := by rw [setState_only]
@[simp] theorem setState_glint (m : Module) (st : ModState) : (setState m st).glint = m.glint := by rw [setState_only]
@[simp] theorem setState_diag (m : Module) (st : ModState) : (setState m st).diag = m.diag := by rw [setState_only]

/-! ### Classes of maintenance -/

theorem tokenRecord_only (m : Module) (action cls : Nat) (h : Holder) :
    tokenRecord m action cls h = { m with chron := (tokenRecord m action cls h).chron, out := (tokenRecord m action cls h).out } :=
  logBoth_only m _ _ _ _ _

theorem enterClass_only (m : Module) (cls : Nat) (h : Holder) (lease : Nat) : enterClass m cls h lease = { m with
    maint := { m.maint with entries := tset m.maint.entries cls { holder := h, leaseMin := lease, since := m.phys } }
    chron := (enterClass m cls h lease).chron
    out := (enterClass m cls h lease).out } :=
  tokenRecord_only _ 0 cls h

@[simp] theorem enterClass_pair (m : Module) (cls : Nat) (h : Holder) (lease : Nat) : (enterClass m cls h lease).pair = m.pair := by
  rw [enterClass_only]
@[simp] theorem enterClass_boot (m : Module) (cls : Nat) (h : Holder) (lease : Nat) : (enterClass m cls h lease).boot = m.boot := by
  rw [enterClass_only]
@[simp] theorem enterClass_mail (m : Module) (cls : Nat) (h : Holder) (lease : Nat) : (enterClass m cls h lease).mail = m.mail := by
  rw [enterClass_only]

/-- The record of a class that was entered. -/
@[simp] theorem enterClass_maint (m : Module) (cls : Nat) (h : Holder) (lease : Nat) : (enterClass m cls h lease).maint
    = { m.maint with entries := tset m.maint.entries cls { holder := h, leaseMin := lease, since := m.phys } } := by
  rw [enterClass_only]

theorem leaveClass_only (m : Module) (action cls : Nat) : leaveClass m action cls = { m with
    maint := (leaveClass m action cls).maint, chron := (leaveClass m action cls).chron, out := (leaveClass m action cls).out } := by
  unfold leaveClass
  split
  · rfl
  · rw [tokenRecord_only]
    rfl

@[simp] theorem leaveClass_pair (m : Module) (action cls : Nat) : (leaveClass m action cls).pair = m.pair := by rw [leaveClass_only]
@[simp] theorem leaveClass_boot (m : Module) (action cls : Nat) : (leaveClass m action cls).boot = m.boot := by rw [leaveClass_only]
@[simp] theorem leaveClass_mail (m : Module) (action cls : Nat) : (leaveClass m action cls).mail = m.mail := by rw [leaveClass_only]

/-- A class that is left is entered no longer, and every other class stays as it is. -/
theorem tget_leaveClass (m : Module) (action cls k : Nat) :
    tget (leaveClass m action cls).maint.entries k = if k = cls then none else tget m.maint.entries k := by
  unfold leaveClass
  split
  · split
    · subst_vars; assumption
    · rfl
  · simp only [tokenRecord, logBoth_maint, maintMod_maint, tget_tdel]

theorem mirrorToken_only (m p : Module) : mirrorToken m p = { p with maint := (mirrorToken m p).maint } := by
  unfold mirrorToken
  split <;> rfl

@[simp] theorem mirrorToken_pair (m p : Module) : (mirrorToken m p).pair = p.pair := by rw [mirrorToken_only]
@[simp] theorem mirrorToken_boot (m p : Module) : (mirrorToken m p).boot = p.boot := by rw [mirrorToken_only]

/-! ### The pair -/

@[simp] theorem endResync_boot (m : Module) (status : Nat) : (endResync m status).boot = m.boot := by
  unfold endResync
  split
  · rfl
  · dsimp only
    split <;> simp

/-- A resync that ends is over, whatever its command, and nothing else of the pair changes. -/
@[simp] theorem endResync_pair (m : Module) (status : Nat) : (endResync m status).pair = { m.pair with resync := none } := by
  unfold endResync
  split
  · rename_i h
    rw [← h]
  · split <;> simp

@[simp] theorem leaveRun_pair (m : Module) : (leaveRun m).pair = m.pair := by
  unfold leaveRun
  split <;> simp [stopLegacy, stopCycles]

/-- RUN is left for READY, and any other state is kept. -/
theorem leaveRun_state (m : Module) : (leaveRun m).boot.state = if m.boot.state = .run then .ready else m.boot.state := by
  unfold leaveRun
  split <;> simp

@[simp] theorem leavePair_boot (m : Module) : (leavePair m).boot = m.boot := rfl

theorem toReady_state (p : Module) (lead : Bool) : (toReady p lead).boot.state = if p.boot.state = .run then .ready else p.boot.state := by
  rw [toReady, anchorIfChanged_boot, pairMod_boot, leaveRun_state, leavePair_boot]

@[simp] theorem toReady_pair (p : Module) (lead : Bool) :
    (toReady p lead).pair = { (leavePair p).pair with role := if lead then .shadow else .none } := by
  simp [toReady]

@[simp] theorem shrinkLead_pair (m : Module) : (shrinkLead m).pair
    = { m.pair with agen := incAgen m.pair.agen, partnerInSet := false, acceptHeld := true, mode := .alone } := rfl

theorem incAgen_of_ne {a : W32} (h : a ≠ 0xFFFFFFFF) : incAgen a = a + 1 := if_neg h

theorem enterRun_state (m : Module) : (enterRun m).boot.state = .run := by
  unfold enterRun
  simp only [anchorIfChanged_boot, refresh_boot, allTasks, bootMod_boot]
  split <;> simp

/-! ### Commands of the pair -/

section
variable {h : Module → Module → Witness → Cmd → PRes} {code : Nat} {i : Instr} {s : State} {sl : Slot} {c : Cmd} {r : QRes} {p' : Module} {w' : Witness}

/-- A command of the pair that the lead runs gives the answer of its handler on both modules and on the witness. -/
theorem answersPair_of (e : exec i s = quondiPair h .work .sys code s sl c) (hruns : runs .work .sys code c (modOf s sl) = true)
    (hlead : isLead (modOf s sl) = true) (hr : h (modOf s sl) (modOf s (otherSlot sl)) s.witness c = { res := r, p := p', w := w' }) :
    AnswersPair i s sl code c r p' w' := by
  rw [AnswersPair, e, quondiPair_runs hruns hlead, hr]

/-- A command of the pair waits on a module that is not the lead for the lead's report. -/
theorem answers_later (e : exec i s = quondiPair h .work .sys code s sl c) (hruns : runs .work .sys code c (modOf s sl) = true)
    (hlead : isLead (modOf s sl) = false) : Answers i s sl .work code c (.later (modOf s sl)) := by
  rw [Answers, e, quondiPair]
  simp [hruns, hlead]

end

theorem slotN_le (sl : Slot) : slotN sl ≤ 1 := by
  cases sl <;> decide

end Sys2Proof.Machine

/-! PROOF. The PAIR commands (R272, R283, R285 to R287, R290, R291, R372). -/

namespace Sys2Proof.Machine
open Sys2Proof Sys2Proof.Bits Sys2Proof.Safety

/-! ### The range of a little-endian field -/

theorem leVal_lt (bs : Bytes) : leVal bs < 256 ^ bs.length := by
  induction bs with
  | nil => decide
  | cons b bs ih =>
    have hb := b.isLt
    rw [leVal, List.length_cons, Nat.pow_succ]
    omega

theorem le_lt (bs : Bytes) (o n : Nat) : le bs o n < 256 ^ n :=
  (leVal_lt _).trans_le (Nat.pow_le_pow_right (by decide) (List.length_take_le n _))

section
variable {m p : Module} {w : Witness} {c : Cmd}

theorem hPairStatus_answers : ∃ rsp, hPairStatus m p c = .done 0 0 rsp m ∧ rsp.length = 64 := by
  have hepoch (x : Module) : (epochBytes x).length = 8 := by
    simp [epochBytes]
  refine ⟨_, rfl, ?_⟩
  simp only [List.length_append, leBytes_length, hepoch]
  split <;> simp [hepoch, zeros]

/-! ### PAIR.WITHDRAW -/

/-- The withdrawal of the partner (R272, R285). -/
def withdrawn (m p : Module) : Module × Module := (endResync (shrinkSet m p).1 0x8503, toReady (shrinkSet m p).2 true)

theorem hPairWithdraw_partner (hle : byteAt c.param 0 ≤ 1) (hne : byteAt c.param 0 ≠ slotN m.slot) (hlink : linked m p = true)
    (hlease : leaseHeld m = true) (hset : m.pair.partnerInSet = true) (hagen : m.pair.agen ≠ 0xFFFFFFFF) :
    hPairWithdraw m p w c = { res := .done 0 0 [] (withdrawn m p).1, p := (withdrawn m p).2, w := w } := by
  unfold hPairWithdraw prmB
  dsimp only
  rw [if_neg (by omega), if_pos hne, if_neg (by simp [hlink]), if_neg (by simp [hlease]), if_neg (by simp [hset]),
    if_neg (by simpa [agenSpent] using hagen)]
  rfl

theorem withdrawn_fst : (withdrawn m p).1.pair
    = { m.pair with agen := incAgen m.pair.agen, partnerInSet := false, acceptHeld := true, mode := .alone, resync := none } := by
  simp [withdrawn, shrinkSet]

theorem withdrawn_snd : (withdrawn m p).2.pair.inSet = false ∧ (withdrawn m p).2.pair.role = .shadow
    ∧ (withdrawn m p).2.boot.state = if p.boot.state = .run then .ready else p.boot.state :=
  ⟨by simp [withdrawn, shrinkSet, leavePair], by simp [withdrawn], toReady_state _ true⟩

/-- A handover that a command starts (R285). -/
theorem hPairWithdraw_own (how : byteAt c.param 0 = slotN m.slot) (hrun : m.boot.state = .run) :
    hPairWithdraw m p w c = alone' p w (match m.pair.mode with
      | .inStep => if leaseHeld m then .later (startHandoverOf m c.qp c 0x0503 100) else .refused 0x0501 0
      | .warm => if !bit (prmB c 1) 0 then .refused 14 0
        else if leaseHeld m then .later (startHandoverOf m c.qp c 0x0503 100) else .refused 0x0501 0
      | .alone => if bit (prmB c 1) 0 then .done 0x8502 0 [] (anchorIfChanged m (leaveRun m)) else .refused 14 0) := by
  have hslot := slotN_le m.slot
  unfold hPairWithdraw prmB
  rw [how]
  dsimp only
  rw [if_neg (by omega), if_neg (not_not_intro rfl), if_neg (not_not_intro hrun)] <;> rfl

theorem hPairWithdraw_inStep (how : byteAt c.param 0 = slotN m.slot) (hrun : m.boot.state = .run) (hlease : leaseHeld m = true)
    (hmode : m.pair.mode = .inStep) : hPairWithdraw m p w c = alone' p w (.later (startHandoverOf m c.qp c 0x0503 100)) := by
  rw [hPairWithdraw_own how hrun, hmode]
  simp only [hlease, if_true]

theorem hPairWithdraw_warm (how : byteAt c.param 0 = slotN m.slot) (hrun : m.boot.state = .run) (hlease : leaseHeld m = true)
    (hmode : m.pair.mode = .warm) (hforce : (byteAt c.param 1).testBit 0 = true) :
    hPairWithdraw m p w c = alone' p w (.later (startHandoverOf m c.qp c 0x0503 100)) := by
  rw [hPairWithdraw_own how hrun, hmode]
  simp [hlease, bit, prmB, hforce]

/-! ### PAIR.RESYNC -/

/-- The partner adopts the domain and, out of SPLIT-OFF, is in READY (R29, R287). -/
theorem startResync_snd (cmd : Option (Nat × Cmd)) : (startResync m p cmd).2.pair.joining = some 1
    ∧ (startResync m p cmd).2.pair.domain = m.pair.domain
    ∧ (p.boot.state = .splitOff → (startResync m p cmd).2.boot.state = .ready) := by
  refine ⟨by simp [startResync], by simp [startResync], fun hsplit => ?_⟩
  simp [startResync, hsplit]

/-! ### PAIR.RUN -/

theorem hPairRun_own (how : byteAt c.param 0 = slotN m.slot) : hPairRun m p w c = alone' p w (
    if m.boot.state ≠ .ready then .refused 11 0
    else if m.pair.stale then
      (if bit (prmB c 1) 0 then .later (startClaim (pairMod m (fun x => { x with forcedRun := some (c.qp, c) })) true) else .refused 0x0504 0)
    else ok (enterRun m)) := by
  have hslot := slotN_le m.slot
  unfold hPairRun prmB
  rw [how]
  dsimp only
  rw [if_neg (by omega), if_neg (not_not_intro rfl)]

/-- A slot whose module cannot be reached. -/
theorem pair_unreachable (hle : byteAt c.param 0 ≤ 1) (hne : byteAt c.param 0 ≠ slotN m.slot) (hlink : linked m p = false) :
    hPairRun m p w c = alone' p w (.refused 0x0502 0) ∧ hPairWithdraw m p w c = alone' p w (.refused 0x0502 0) := by
  unfold hPairRun hPairWithdraw prmB
  dsimp only
  rw [if_neg (by omega), if_pos hne, if_neg (by simp [hlink]), if_neg (by omega), if_pos hne, if_pos (by simp [hlink])]
  exact ⟨rfl, rfl⟩

/-! ### PAIR.EQUINOX -/

/-- The drain of an equinox swap begins: class 2 is entered, fetching pauses (R283). -/
def swapBegun (m : Module) (c : Cmd) : Module :=
  startHandoverOf (enterClass m 2 .pair 0) c.qp c 0x0504 (if le c.param 0 2 = 0 then 100 else le c.param 0 2)

theorem hPairEquinox_inRange (hle : le c.param 0 2 ≤ 1000) : hPairEquinox m p w c =
    if m.pair.mode ≠ .inStep then alone' p w (.refused 14 0)
    else if !leaseHeld m then alone' p w (.refused 0x0501 0)
    else match judge m p 2 .pair with
      | 0 => { res := .later (swapBegun m c), p := mirrorToken (swapBegun m c) p, w := w }
      | 1 => alone' p w .waits
      | _ => alone' p w (.refused 12 0) := by
  unfold hPairEquinox prm
  dsimp only
  rw [if_neg (by split <;> omega)]
  rfl

/-! ### PAIR.WITNESS -/

/-- A module under another domain ID (R291). -/
def putDomain (d : W32) (c : Cmd) (a : W32) (x : Module) : Module :=
  { x with pair := { x.pair with domain := d, autoResync := (byteAt c.param 4).testBit 0, reminderDays := byteAt c.param 5, agen := a } }

theorem hPairWitness_inRange (hd : le c.param 0 4 ≠ 0) (hdays : byteAt c.param 5 ≤ 90) : hPairWitness m p w c =
    if w32 (le c.param 0 4) ≠ m.pair.domain ∧ (m.boot.state = .run ∨ (linked m p = true ∧ p.boot.state = .run)) then alone' p w (.refused 11 0)
    else { res := ok (putDomain (w32 (le c.param 0 4)) c (if w32 (le c.param 0 4) = m.pair.domain then m.pair.agen else 0) m)
           p := if linked m p then putDomain (w32 (le c.param 0 4)) c (if w32 (le c.param 0 4) = m.pair.domain then p.pair.agen else 0) p else p
           w := if w32 (le c.param 0 4) = m.pair.domain then w else { w with domain := w32 (le c.param 0 4), agen := 0 } } := by
  have hnonzero : w32 (le c.param 0 4) ≠ 0 := by
    intro h
    have hnat := congrArg BitVec.toNat h
    rw [w32, BitVec.toNat_ofNat, show (2 : Nat) ^ 32 = 256 ^ 4 from rfl, Nat.mod_eq_of_lt (le_lt c.param 0 4)] at hnat
    exact hd hnat
  unfold hPairWitness prm prmB
  dsimp only
  rw [if_neg (by rintro (h | h); exacts [hnonzero h, absurd h (by omega)])]
  rfl

end

/-- Settles O31. -/
theorem pairCommands : Obligations.PairCommands := by
  unfold Obligations.PairCommands
  intro s sl c
  dsimp only
  refine ⟨fun hruns => ?_, ⟨answers_later (exec_pairRun sl c s), answers_later (exec_pairWithdraw sl c s), answers_later (exec_pairEquinox sl c s),
      answers_later (exec_pairResync sl c s), answers_later (exec_pairWitness sl c s)⟩,
    fun how => ⟨fun hst hruns hlead => ?_, fun hst hstale => ⟨fun hruns hlead => ?_, enterRun_state _⟩,
      fun hst hstale hforce hruns hlead => ?_, fun hst hstale hforce hruns hlead => ?_⟩,
    fun hle hne hlink => ⟨fun hruns hlead => ?_, fun hruns hlead => ?_⟩, fun hle hne hlink hlease hset hagen => ?_,
    fun how hrun hlease => ⟨fun hmode hruns hlead => ?_, fun hmode hforce hruns hlead => ?_, fun hmode hforce hruns hlead => ?_⟩,
    fun how hrun hmode => ⟨fun hforce hruns hlead => ?_, fun hforce => ?_⟩,
    fun hle => ⟨fun hmode hruns hlead => ?_, fun hmode hlease hruns hlead => ?_, fun hmode hlease => ⟨fun hj => ?_, fun hj hruns hlead => ?_⟩⟩,
    fun hlt hruns hlead => ?_, fun hlease hruns hlead => ?_, fun hlease hlink hruns hlead => ?_,
    fun hlease hlink hrun hjoin hnone => ⟨fun hforeign hforce hruns hlead => ?_, fun hor hagen hj => ?_⟩,
    fun hd hdays => ⟨fun heq hruns hlead => ?_, fun hne hrun hprun hruns hlead => ?_, fun hne hrun hruns hlead => ?_⟩⟩
  · obtain ⟨rsp, hrsp, hlen⟩ := hPairStatus_answers (m := modOf s sl) (p := modOf s (otherSlot sl)) (c := c)
    exact ⟨rsp, answers_of (exec_pairStatus sl c s) hruns hrsp, hlen⟩
  · refine answersPair_of (exec_pairRun sl c s) hruns hlead ((hPairRun_own how).trans ?_)
    rw [if_pos hst]
    rfl
  · refine answersPair_of (exec_pairRun sl c s) hruns hlead ((hPairRun_own how).trans ?_)
    rw [if_neg (not_not_intro hst), if_neg (by simp [hstale])]
    rfl
  · refine answersPair_of (exec_pairRun sl c s) hruns hlead ((hPairRun_own how).trans ?_)
    rw [if_neg (not_not_intro hst), if_pos hstale, if_neg (by simp [bit, prmB, hforce])]
    rfl
  · refine answersPair_of (exec_pairRun sl c s) hruns hlead ((hPairRun_own how).trans ?_)
    rw [if_neg (not_not_intro hst), if_pos hstale, if_pos (by simp [bit, prmB, hforce])]
    rfl
  · exact answersPair_of (exec_pairRun sl c s) hruns hlead (pair_unreachable hle hne hlink).1
  · exact answersPair_of (exec_pairWithdraw sl c s) hruns hlead (pair_unreachable hle hne hlink).2
  · obtain ⟨hinSet, hrole, hstate⟩ := withdrawn_snd (m := modOf s sl) (p := modOf s (otherSlot sl))
    refine ⟨_, _, fun hruns hlead => answersPair_of (exec_pairWithdraw sl c s) hruns hlead (hPairWithdraw_partner hle hne hlink hlease hset hagen),
      ?_, ?_, ?_, ?_, hinSet, hrole, fun hrun => hstate.trans (if_pos hrun)⟩ <;> rw [withdrawn_fst]
    exact incAgen_of_ne hagen
  · exact answersPair_of (exec_pairWithdraw sl c s) hruns hlead (hPairWithdraw_inStep how hrun hlease hmode)
  · exact answersPair_of (exec_pairWithdraw sl c s) hruns hlead (hPairWithdraw_warm how hrun hlease hmode hforce)
  · refine answersPair_of (exec_pairWithdraw sl c s) hruns hlead ((hPairWithdraw_own how hrun).trans ?_)
    rw [hmode]
    simp only [bit, prmB, hforce]
    rfl
  · refine answersPair_of (exec_pairWithdraw sl c s) hruns hlead ((hPairWithdraw_own how hrun).trans ?_)
    rw [hmode]
    simp only [bit, prmB, hforce]
    rfl
  · refine ⟨anchorIfChanged (modOf s sl) (leaveRun (modOf s sl)), fun hruns hlead =>
      answersPair_of (exec_pairWithdraw sl c s) hruns hlead ((hPairWithdraw_own how hrun).trans ?_), ?_⟩
    · rw [hmode]
      simp only [bit, prmB, hforce]
      rfl
    · rw [anchorIfChanged_boot, leaveRun_state, if_pos hrun]
  · refine answersPair_of (exec_pairEquinox sl c s) hruns hlead ((hPairEquinox_inRange hle).trans ?_)
    rw [if_pos hmode]
    rfl
  · refine answersPair_of (exec_pairEquinox sl c s) hruns hlead ((hPairEquinox_inRange hle).trans ?_)
    rw [if_neg (not_not_intro hmode), if_pos (by simp [hlease])]
    rfl
  · refine ⟨swapBegun (modOf s sl) c, mirrorToken (swapBegun (modOf s sl) c) (modOf s (otherSlot sl)), fun hruns hlead => answersPair_of (exec_pairEquinox sl c s) hruns hlead
      ((hPairEquinox_inRange hle).trans ?_), by simp [swapBegun, startHandoverOf], rfl, by simp [swapBegun, startHandoverOf]⟩
    rw [if_neg (not_not_intro hmode), if_neg (by simp [hlease]), hj] <;> rfl
  · refine answersPair_of (exec_pairEquinox sl c s) hruns hlead ((hPairEquinox_inRange hle).trans ?_)
    rw [if_neg (not_not_intro hmode), if_neg (by simp [hlease]), hj] <;> rfl
  · refine answersPair_of (exec_pairEquinox sl c s) hruns hlead (if_pos ?_)
    rw [prm, if_neg (by omega)]
    exact hlt
  · exact answersPair_of (exec_pairResync sl c s) hruns hlead (if_pos (by simp [hlease]))
  · exact answersPair_of (exec_pairResync sl c s) hruns hlead ((if_neg (by simp [hlease])).trans (if_pos (by simp [hlink])))
  · refine answersPair_of (exec_pairResync sl c s) hruns hlead ?_
    unfold hPairResync prmB bit
    rw [if_neg (by simp [hlease]), if_neg (by simp [hlink]), if_neg (by simp [hrun, hjoin, hnone]), if_pos (by simp [hforeign, hforce])]
    rfl
  · obtain ⟨hjoining, hdomain, hready⟩ := startResync_snd (m := modOf s sl) (p := modOf s (otherSlot sl)) (some (c.qp, c))
    refine ⟨(startResync (modOf s sl) (modOf s (otherSlot sl)) (some (c.qp, c))).1, _,
      { phase := 1, cmd := some (c.qp, c), warmShadow := (modOf s (otherSlot sl)).boot.state == .run },
      fun hruns hlead => answersPair_of (exec_pairResync sl c s) hruns hlead ?_, ?_, rfl, hjoining, hdomain, hready⟩
    · unfold hPairResync prmB bit
      rw [if_neg (by simp [hlease]), if_neg (by simp [hlink]), if_neg (by simp [hrun, hjoin, hnone]),
        if_neg (by rcases hor with h | h <;> simp [h]), if_neg (by simpa [agenSpent] using hagen), hj] <;> rfl
    · simp [startResync]
  · refine answersPair_of (exec_pairWitness sl c s) hruns hlead ((hPairWitness_inRange hd hdays).trans ?_)
    rw [if_neg (fun h => h.1 heq), if_pos heq, if_pos heq, if_pos heq]
    rfl
  · refine answersPair_of (exec_pairWitness sl c s) hruns hlead ((hPairWitness_inRange hd hdays).trans ?_)
    rw [if_neg (fun h => by rcases hprun with hp | hp <;> simp_all), if_neg hne, if_neg hne, if_neg hne]
    rfl
  · refine answersPair_of (exec_pairWitness sl c s) hruns hlead ((hPairWitness_inRange hd hdays).trans ?_)
    rw [if_pos ⟨hne, .inl hrun⟩]
    rfl

end Sys2Proof.Machine

/-! PROOF. The IMAGE and MAINT commands (R46, R368, R370 to R374, R377, R382, R385 to R388). -/

namespace Sys2Proof.Machine
open Sys2Proof Sys2Proof.Bits Sys2Proof.Safety

section
variable {m p : Module} {w : Witness} {c : Cmd}

/-! ### Slots of images -/

/-- A change of a slot changes the slots alone. -/
theorem slotMod_only (m : Module) (i : Nat) (f : ImgSlot → ImgSlot) : slotMod m i f = { m with boot := { m.boot with
    slot0 := (slotMod m i f).boot.slot0, slot1 := (slotMod m i f).boot.slot1, slot2 := (slotMod m i f).boot.slot2 } } := by
  rcases i with _ | _ | i <;> rfl

theorem slotAt_slotMod (m : Module) (i : Nat) (f : ImgSlot → ImgSlot) : slotAt (slotMod m i f).boot i = f (slotAt m.boot i) := by
  rcases i with _ | _ | i <;> rfl

@[simp] theorem slotMod_pair (m : Module) (i : Nat) (f : ImgSlot → ImgSlot) : (slotMod m i f).pair = m.pair := rfl
@[simp] theorem slotMod_maint (m : Module) (i : Nat) (f : ImgSlot → ImgSlot) : (slotMod m i f).maint = m.maint := rfl
@[simp] theorem slotMod_state (m : Module) (i : Nat) (f : ImgSlot → ImgSlot) : (slotMod m i f).boot.state = m.boot.state := by
  rw [slotMod_only]
@[simp] theorem slotMod_cand (m : Module) (i : Nat) (f : ImgSlot → ImgSlot) : (slotMod m i f).boot.cand = m.boot.cand := by
  rw [slotMod_only]
@[simp] theorem slotMod_newSplit (m : Module) (i : Nat) (f : ImgSlot → ImgSlot) : (slotMod m i f).boot.newSplit = m.boot.newSplit := by
  rw [slotMod_only]

/-- An empty class of the candidate is filled from the current slot (R49). -/
def fillCandidate (m : Module) (cls : Nat) : Module :=
  if regionEmpty (regionOf m m.boot.cand cls) then regionMod m m.boot.cand cls (fun _ => regionOf m m.boot.cur cls) else m

theorem fillCandidate_keeps (m : Module) (cls : Nat) : (fillCandidate m cls).boot.state = m.boot.state
    ∧ (fillCandidate m cls).boot.newSplit = m.boot.newSplit ∧ (fillCandidate m cls).pair = m.pair ∧ (fillCandidate m cls).maint = m.maint := by
  unfold fillCandidate
  split
  · simp [regionMod]
  · exact ⟨rfl, rfl, rfl, rfl⟩

/-- What an activation leaves before verification (R374). -/
theorem prepareActivation_keeps (m : Module) (c : Cmd) : (prepareActivation m c).boot.state = m.boot.state
    ∧ (prepareActivation m c).boot.newSplit = le c.param 2 2 ∧ (prepareActivation m c).pair = m.pair ∧ (prepareActivation m c).maint = m.maint := by
  obtain ⟨hstate1, hsplit1, hpair1, hmaint1⟩ := fillCandidate_keeps
    (bootMod m (fun b => { b with newSplit := prm c 2 2, windowLen := if prm c 4 4 = 0 then 60 else prm c 4 4 })) 1
  obtain ⟨hstate2, hsplit2, hpair2, hmaint2⟩ := fillCandidate_keeps (fillCandidate
    (bootMod m (fun b => { b with newSplit := prm c 2 2, windowLen := if prm c 4 4 = 0 then 60 else prm c 4 4 })) 1) 2
  exact ⟨hstate2.trans hstate1, hsplit2.trans hsplit1, hpair2.trans hpair1, hmaint2.trans hmaint1⟩

/-- RUN to VERIFY: the pair ends, what the activation prepared stays. -/
theorem enterVerify_boot_pair (p : Module) (f : VerifyFrom) :
    (enterVerify p f).boot = { p.boot with verifyFrom := f, windowRunning := false, state := .verify }
    ∧ (enterVerify p f).pair.role = .none := by
  simp [enterVerify, leavePair, stopConns, stopLegacy, holdLanes, stopCycles]

/-! ### The status queries -/

theorem versionBytes_length (r : Region) : (versionBytes r).length = 8 := by
  unfold versionBytes
  split <;> simp [zeros]

theorem slotBytes_length (m : Module) (i : Nat) : (slotBytes m i).length = 32 := by
  simp [slotBytes, versionBytes_length, zeros]

theorem hImageStatus_answers : ∃ rsp, hImageStatus m p c = .done 0 0 rsp m ∧ rsp.length = 112 := by
  refine ⟨_, rfl, ?_⟩
  simp only [List.length_append, leBytes_length, slotBytes_length]

theorem hMaintStatus_answers : ∃ rsp, hMaintStatus m p c = .done 0 0 rsp m ∧ rsp.length = 64 := by
  refine ⟨_, rfl, ?_⟩
  rw [List.length_append, List.length_append, length_flatten_of_all (n := 8)]
  · simp [zeros]
  · intro x hx
    obtain ⟨i, -, rfl⟩ := List.mem_map.1 hx
    dsimp only
    split <;> simp [zeros]

/-! ### IMAGE.ACTIVATE and IMAGE.REVERT -/

section
variable (hslot : byteAt c.param 0 ≤ 1) (hmode : byteAt c.param 1 ≤ 1) (hwin : le c.param 4 4 = 0 ∨ 10 ≤ le c.param 4 4 ∧ le c.param 4 4 ≤ 3600)
include hslot hmode hwin

theorem hImageActivate_checked {e : Nat} (h : activationCheck m p c (byteAt c.param 0) (named m p (byteAt c.param 0)).boot.cand = some e) :
    hImageActivate m p w c = alone' p w (.refused e 0) := by
  unfold hImageActivate prm prmB
  dsimp only
  rw [if_neg (by omega), h]

/-- The activation itself in handover mode: the module verifies while it runs. -/
def verifyWhileRunning (c : Cmd) (x : Module) : Module := bootMod (prepareActivation x c) (fun b => { b with verifyingHandover := true })

theorem hImageActivate_passed (h : activationCheck m p c (byteAt c.param 0) (named m p (byteAt c.param 0)).boot.cand = none) :
    hImageActivate m p w c =
      let t := named m p (byteAt c.param 0)
      if byteAt c.param 1 = 1 ∧ handoverOk t (unnamed m p (byteAt c.param 0)) = false then alone' p w (.refused 0x0A03 0)
      else if splitClash m t (le c.param 2 2) then alone' p w (.refused 0x0302 0)
      else if byteAt c.param 1 = 1 then
        (if byteAt c.param 0 = slotN m.slot then alone' p w (.later (verifyWhileRunning c (awaitVerdict m 0x0A02 c)))
         else { res := .later (awaitVerdict m 0x0A02 c), p := verifyWhileRunning c p, w := w })
      else if byteAt c.param 0 = slotN m.slot then
        alone' p w (if leaseHeld m then .later (startHandoverOf m c.qp c 0x0A02 100) else .refused 0x0501 0)
      else if agenSpent m then alone' p w (.refused 9 0)
      else { res := .later (awaitVerdict (shrinkSet m p).1 0x0A02 c), p := enterVerify (prepareActivation (shrinkSet m p).2 c) .activate, w := w } := by
  unfold hImageActivate prm prmB
  dsimp only
  rw [if_neg (by omega), h] <;> rfl

end

theorem hImageRevert_checked (hslot : byteAt c.param 0 ≤ 1) {e : Nat}
    (h : activationCheck m p c (byteAt c.param 0) (named m p (byteAt c.param 0)).boot.prev = some e) :
    hImageRevert m p w c = alone' p w (.refused e 0) := by
  unfold hImageRevert prmB
  dsimp only
  rw [if_neg (by omega), h]

theorem hImageRevert_passed (hslot : byteAt c.param 0 ≤ 1)
    (h : activationCheck m p c (byteAt c.param 0) (named m p (byteAt c.param 0)).boot.prev = none) :
    hImageRevert m p w c =
      let t := named m p (byteAt c.param 0)
      if (regionOf t t.boot.prev 2).closed ∧ imgSec (regionOf t t.boot.prev 2) < t.hw.floor then alone' p w (.refused 0x0A04 0)
      else if byteAt c.param 0 = slotN m.slot then
        alone' p w (if leaseHeld m then .later (startHandoverOf m c.qp c 0x0A03 100) else .refused 0x0501 0)
      else if agenSpent m then alone' p w (.refused 9 0)
      else { res := .later (awaitVerdict (shrinkSet m p).1 0x0A03 c), p := enterVerify (shrinkSet m p).2 .revert, w := w } := by
  unfold hImageRevert prmB
  dsimp only
  rw [if_neg (by omega), h]

/-- The lead whose partner goes to VERIFY counts the set without it (R272). -/
theorem awaitVerdict_shrunk (code : Nat) (hagen : m.pair.agen ≠ 0xFFFFFFFF) :
    (awaitVerdict (shrinkSet m p).1 code c).maint.verdict = some (c.qp, code, c)
    ∧ (awaitVerdict (shrinkSet m p).1 code c).pair.partnerInSet = false
    ∧ (awaitVerdict (shrinkSet m p).1 code c).pair.agen = m.pair.agen + 1 := by
  refine ⟨rfl, ?_, ?_⟩
  · simp [awaitVerdict, shrinkSet]
  · simp only [awaitVerdict, shrinkSet, maintMod_pair, anchorIfChanged_pair, shrinkLead_pair]
    exact incAgen_of_ne hagen

/-! ### IMAGE.DISCARD -/

/-- A partner that sends to the discarded candidate sends no more. -/
def sendingEnds (relayed : Bool) (x : Module) : Module := if relayed then bootMod x (fun b => { b with sending := none }) else x

theorem hImageDiscard_own (how : byteAt c.param 0 = slotN m.slot) : hImageDiscard m p w c =
    { res := ok (discardCandidate m), p := if linked m p then sendingEnds m.boot.relaying p else p, w := w } := by
  have hle := slotN_le m.slot
  exact (if_neg (by rw [prmB]; omega)).trans (if_pos how)

theorem hImageDiscard_other (hle : byteAt c.param 0 ≤ 1) (hne : byteAt c.param 0 ≠ slotN m.slot) (hlink : linked m p = true) :
    hImageDiscard m p w c = { res := ok (sendingEnds p.boot.relaying m), p := discardCandidate p, w := w } :=
  (if_neg (by rw [prmB]; omega)).trans ((if_neg hne).trans (if_neg (by simp [hlink])))

theorem leaveClass_rx (m : Module) (action cls : Nat) : (leaveClass m action cls).maint.rx = m.maint.rx := by
  unfold leaveClass
  split <;> simp [tokenRecord]

theorem discardCandidate_maint (m : Module) : (discardCandidate m).maint.rx = none := by
  unfold discardCandidate
  dsimp only
  split
  · exact ‹_›
  · simp [leaveClass_rx]

theorem discardCandidate_boot (m : Module) : slotAt (discardCandidate m).boot m.boot.cand = {} ∧ (discardCandidate m).boot.relaying = false
    ∧ (discardCandidate m).boot.cand = m.boot.cand := by
  have hslot := slotAt_slotMod m m.boot.cand (fun _ => {})
  unfold discardCandidate
  dsimp only
  split
  · exact ⟨hslot, rfl, by simp⟩
  · rw [leaveClass_boot]
    exact ⟨hslot, rfl, by simp⟩

/-! ### IMAGE.RELAY -/

section
variable (hslot : byteAt c.param 0 ≤ 1) (hopt : byteAt c.param 1 ≤ 1) (hcls : byteAt c.param 2 % 4 ≠ 0)
  (hcount : le c.req 0 4 ≤ 63) (hreq : c.req.length = 4 + 18 * le c.req 0 4)
include hslot hopt hcls hcount hreq

/-- A relay that the lead itself starts. -/
theorem hImageRelay_own (how : byteAt c.param 0 = slotN m.slot) : hImageRelay m p w c =
    match startChain m p c with
    | .error e => alone' p w (.refused e 0)
    | .ok (m1, p1) => match m1.maint.tx with
      | some t => if relayOver t then { res := .done 0 0 (relayRsp t) (maintMod m1 (fun x => { x with tx := none })), p := p1, w := w }
        else { res := .later m1, p := p1, w := w }
      | none => { res := .later m1, p := p1, w := w } := by
  unfold hImageRelay prmB
  dsimp only
  rw [if_neg (by omega), if_neg (by simp [how]), if_pos how] <;> rfl

/-- A relay that its partner starts. -/
theorem hImageRelay_other (hne : byteAt c.param 0 ≠ slotN m.slot) (hlink : linked m p = true) : hImageRelay m p w c =
    match startChain p m c with
    | .error e => alone' p w (.refused e 0)
    | .ok (p1, m1) => match p1.maint.tx with
      | some t => if relayOver t then { res := .done 0 0 (relayRsp t) m1, p := maintMod p1 (fun x => { x with tx := none }), w := w }
        else { res := .later m1, p := p1, w := w }
      | none => { res := .later m1, p := p1, w := w } := by
  unfold hImageRelay prmB
  dsimp only
  rw [if_neg (by omega), if_neg (by simp [hlink]), if_neg hne] <;> rfl

theorem hImageRelay_unreachable (hne : byteAt c.param 0 ≠ slotN m.slot) (hlink : linked m p = false) :
    hImageRelay m p w c = alone' p w (.refused 0x0502 0) := by
  unfold hImageRelay prmB
  dsimp only
  rw [if_neg (by omega), if_pos ⟨hne, hlink⟩]

end

/-! ### MAINT.TAKE and MAINT.GIVE -/

theorem hMaintTake_inRange (hcls : byteAt c.param 0 ∈ [1, 4, 5, 6]) (hlease : le c.param 2 2 ≤ 1440) : hMaintTake m p c =
    let lease := if le c.param 2 2 = 0 then 60 else le c.param 2 2
    if holdsClass m (byteAt c.param 0) c.qp then
      ok (maintMod m (fun x => { x with entries := tset x.entries (byteAt c.param 0) { holder := .qp c.qp, leaseMin := lease, since := m.phys } }))
    else match judge m p (byteAt c.param 0) (.qp c.qp) with
      | 0 => ok (enterClass m (byteAt c.param 0) (.qp c.qp) lease)
      | 1 => .waits
      | _ => .refused 12 0 := by
  have hle : ¬ 1440 < if le c.param 2 2 = 0 then 60 else le c.param 2 2 := by
    split <;> omega
  unfold hMaintTake prm prmB
  dsimp only
  rw [if_neg (not_or.2 ⟨not_not_intro hcls, hle⟩)] <;> rfl

theorem hMaintGive_inRange (h1 : 1 ≤ byteAt c.param 0) (h6 : byteAt c.param 0 ≤ 6) : hMaintGive m p c =
    if holdsClass m (byteAt c.param 0) c.qp || ((byteAt c.param 1).testBit 0 && c.qp == 0) then ok (leaveClass m 1 (byteAt c.param 0))
    else .refused 10 0 := by
  unfold hMaintGive prmB bit
  dsimp only
  rw [if_neg (by omega)]

end

/-- Settles O32. -/
theorem imageMaintCommands : Obligations.ImageMaintCommands := by
  unfold Obligations.ImageMaintCommands
  intro s sl c
  dsimp only
  have hslotN := slotN_le (modOf s sl).slot
  refine ⟨fun hruns => ?_, fun hruns => ?_, ⟨answers_later (exec_imageActivate sl c s), answers_later (exec_imageRevert sl c s),
      answers_later (exec_imageDiscard sl c s), answers_later (exec_imageRelay sl c s)⟩,
    fun hslot hmode hwin => ⟨fun e he hruns hlead => ?_, fun hnone => ⟨fun hm hbad hruns hlead => ?_, fun hgood hsplit hruns hlead => ?_,
      fun hgood hsplit => ⟨fun hm how => ?_, fun hm hother => ?_, fun hm how hlease hruns hlead => ?_, fun hm hother hagen => ?_⟩⟩⟩,
    fun hslot => ⟨fun e he hruns hlead => ?_, fun hnone hlow hruns hlead => ?_, fun hnone hlow how hlease hruns hlead => ?_,
      fun hnone hlow hother hagen => ?_⟩,
    fun how => ?_, fun hother hlink => ?_, fun hother hlink hruns hlead => ?_,
    fun hslot hopt hcls hlen hcount hreq => ⟨fun how => ⟨fun e he hruns hlead => ?_, fun m1 p1 t hok htx => ⟨fun hover hruns hlead => ?_,
      fun hover hruns hlead => ?_⟩⟩, fun hother hlink => ⟨fun e he hruns hlead => ?_, fun m1 p1 t hok htx hover hruns hlead => ?_⟩,
      fun hother hlink hruns hlead => ?_⟩,
    fun hcls hlease => ⟨fun hhold hruns => ?_, fun hhold hj => ?_, fun hhold hj hruns => ?_, fun hhold hj hruns => ?_⟩,
    fun h1 h6 => ⟨fun hor => ?_, fun hhold hforce hruns => ?_⟩⟩
  · obtain ⟨rsp, hrsp, hlen⟩ := hImageStatus_answers (m := modOf s sl) (p := modOf s (otherSlot sl)) (c := c)
    exact ⟨rsp, answers_of (exec_imageStatus sl c s) hruns hrsp, hlen⟩
  · obtain ⟨rsp, hrsp, hlen⟩ := hMaintStatus_answers (m := modOf s sl) (p := modOf s (otherSlot sl)) (c := c)
    exact ⟨rsp, answers_of (exec_maintStatus sl c s) hruns hrsp, hlen⟩
  · exact answersPair_of (exec_imageActivate sl c s) hruns hlead (hImageActivate_checked hslot hmode hwin he)
  · refine answersPair_of (exec_imageActivate sl c s) hruns hlead ((hImageActivate_passed hslot hmode hwin hnone).trans ?_)
    exact if_pos ⟨hm, hbad⟩
  · refine answersPair_of (exec_imageActivate sl c s) hruns hlead ((hImageActivate_passed hslot hmode hwin hnone).trans ?_)
    exact (if_neg (fun h => by simp [hgood h.1] at h)).trans (if_pos hsplit)
  · obtain ⟨hstate, hnew, -, hmaint⟩ := prepareActivation_keeps (awaitVerdict (modOf s sl) 0x0A02 c) c
    refine ⟨verifyWhileRunning c (awaitVerdict (modOf s sl) 0x0A02 c), fun hruns hlead => answersPair_of (exec_imageActivate sl c s) hruns hlead
      ((hImageActivate_passed hslot hmode hwin hnone).trans ?_), congrArg Maint.verdict hmaint, rfl, hnew, hstate⟩
    dsimp only
    rw [if_neg (fun h => by simp [hgood h.1] at h), if_neg (by simp [hsplit]), if_pos hm, if_pos how]
    rfl
  · obtain ⟨hstate, hnew, -, -⟩ := prepareActivation_keeps (modOf s (otherSlot sl)) c
    refine ⟨awaitVerdict (modOf s sl) 0x0A02 c, verifyWhileRunning c (modOf s (otherSlot sl)), fun hruns hlead =>
      answersPair_of (exec_imageActivate sl c s) hruns hlead ((hImageActivate_passed hslot hmode hwin hnone).trans ?_), rfl, rfl, hnew, hstate⟩
    dsimp only
    rw [if_neg (fun h => by simp [hgood h.1] at h), if_neg (by simp [hsplit]), if_pos hm, if_neg hother.2]
  · refine answersPair_of (exec_imageActivate sl c s) hruns hlead ((hImageActivate_passed hslot hmode hwin hnone).trans ?_)
    dsimp only
    rw [if_neg (fun h => by simp [hgood h.1] at h), if_neg (by simp [hsplit]), if_neg (by omega), if_pos how, if_pos hlease]
    rfl
  · obtain ⟨hverdict, hset, hcount⟩ := awaitVerdict_shrunk (m := modOf s sl) (p := modOf s (otherSlot sl)) (c := c) 0x0A02 hagen
    obtain ⟨hboot, hrole⟩ := enterVerify_boot_pair (prepareActivation (shrinkSet (modOf s sl) (modOf s (otherSlot sl))).2 c) .activate
    obtain ⟨-, hnew, -, -⟩ := prepareActivation_keeps (shrinkSet (modOf s sl) (modOf s (otherSlot sl))).2 c
    refine ⟨_, _, fun hruns hlead => answersPair_of (exec_imageActivate sl c s) hruns hlead ((hImageActivate_passed hslot hmode hwin hnone).trans ?_),
      hverdict, hset, hcount, congrArg Boot.state hboot, congrArg Boot.verifyFrom hboot, (congrArg Boot.newSplit hboot).trans hnew, hrole⟩
    dsimp only
    rw [if_neg (fun h => by simp [hgood h.1] at h), if_neg (by simp [hsplit]), if_neg (by omega), if_neg hother.2,
      if_neg (by simpa [agenSpent] using hagen)]
  · exact answersPair_of (exec_imageRevert sl c s) hruns hlead (hImageRevert_checked hslot he)
  · refine answersPair_of (exec_imageRevert sl c s) hruns hlead ((hImageRevert_passed hslot hnone).trans ?_)
    exact if_pos hlow
  · refine answersPair_of (exec_imageRevert sl c s) hruns hlead ((hImageRevert_passed hslot hnone).trans ?_)
    dsimp only
    rw [if_neg hlow, if_pos how, if_pos hlease]
    rfl
  · obtain ⟨hverdict, -, -⟩ := awaitVerdict_shrunk (m := modOf s sl) (p := modOf s (otherSlot sl)) (c := c) 0x0A03 hagen
    obtain ⟨hboot, -⟩ := enterVerify_boot_pair (shrinkSet (modOf s sl) (modOf s (otherSlot sl))).2 .revert
    refine ⟨_, _, fun hruns hlead => answersPair_of (exec_imageRevert sl c s) hruns hlead ((hImageRevert_passed hslot hnone).trans ?_),
      hverdict, congrArg Boot.state hboot, congrArg Boot.verifyFrom hboot⟩
    dsimp only
    rw [if_neg hlow, if_neg hother.2, if_neg (by simpa [agenSpent] using hagen)]
  · obtain ⟨hslot, hrelay, hcand⟩ := discardCandidate_boot (modOf s sl)
    exact ⟨_, _, fun hruns hlead => answersPair_of (exec_imageDiscard sl c s) hruns hlead (hImageDiscard_own how), hslot,
      discardCandidate_maint _, hrelay, hcand⟩
  · obtain ⟨hslot, -, -⟩ := discardCandidate_boot (modOf s (otherSlot sl))
    exact ⟨_, _, fun hruns hlead => answersPair_of (exec_imageDiscard sl c s) hruns hlead (hImageDiscard_other hother.1 hother.2 hlink), hslot,
      discardCandidate_maint _⟩
  · refine answersPair_of (exec_imageDiscard sl c s) hruns hlead ?_
    exact (if_neg (by rw [prmB]; omega)).trans ((if_neg hother.2).trans (if_pos (by simp [hlink])))
  · refine answersPair_of (exec_imageRelay sl c s) hruns hlead ((hImageRelay_own hslot hopt hcls hcount hreq how).trans ?_)
    rw [he] <;> rfl
  · refine answersPair_of (exec_imageRelay sl c s) hruns hlead ((hImageRelay_own hslot hopt hcls hcount hreq how).trans ?_)
    rw [hok]
    dsimp only
    rw [htx]
    exact if_neg (by simp [hover])
  · refine answersPair_of (exec_imageRelay sl c s) hruns hlead ((hImageRelay_own hslot hopt hcls hcount hreq how).trans ?_)
    rw [hok]
    dsimp only
    rw [htx]
    exact if_pos hover
  · refine answersPair_of (exec_imageRelay sl c s) hruns hlead ((hImageRelay_other hslot hopt hcls hcount hreq hother.2 hlink).trans ?_)
    rw [he] <;> rfl
  · refine answersPair_of (exec_imageRelay sl c s) hruns hlead ((hImageRelay_other hslot hopt hcls hcount hreq hother.2 hlink).trans ?_)
    rw [hok]
    dsimp only
    rw [htx]
    exact if_neg (by simp [hover])
  · exact answersPair_of (exec_imageRelay sl c s) hruns hlead (hImageRelay_unreachable hslot hopt hcls hcount hreq hother.2 hlink)
  · refine answers_of (exec_maintTake sl c s) hruns ((hMaintTake_inRange hcls hlease).trans ?_)
    exact if_pos hhold
  · refine ⟨_, fun hruns => answers_of (exec_maintTake sl c s) hruns ((hMaintTake_inRange hcls hlease).trans ?_), enterClass_maint _ _ _ _⟩
    dsimp only
    rw [if_neg (by simp [hhold]), hj] <;> rfl
  · refine answers_of (exec_maintTake sl c s) hruns ((hMaintTake_inRange hcls hlease).trans ?_)
    dsimp only
    rw [if_neg (by simp [hhold]), hj] <;> rfl
  · refine answers_of (exec_maintTake sl c s) hruns ((hMaintTake_inRange hcls hlease).trans ?_)
    dsimp only
    rw [if_neg (by simp [hhold]), hj] <;> rfl
  · refine ⟨leaveClass (modOf s sl) 1 (byteAt c.param 0), fun hruns => answers_of (exec_maintGive sl c s) hruns
      ((hMaintGive_inRange h1 h6).trans (if_pos ?_)), ?_, fun k hk => ?_⟩
    · rcases hor with h | ⟨hforce, hqp⟩
      · simp [h]
      · simp [hforce, hqp]
    · rw [tget_leaveClass, if_pos rfl]
    · rw [tget_leaveClass, if_neg hk]
  · refine answers_of (exec_maintGive sl c s) hruns ((hMaintGive_inRange h1 h6).trans (if_neg ?_))
    rcases hforce with h | h <;> simp [hhold, h]

end Sys2Proof.Machine

/-! PROOF. The witness: RENEW, CLAIM, RELEASE, PRESENT and the ends of its periods (R272, R275, R276). -/

namespace Sys2Proof.Machine
open Sys2Proof Sys2Proof.Bits Sys2Proof.Safety

section
variable {w v : Witness} {sl : Slot} {msg : WMsg}

/-! ### A reply -/

/-- What a reply on the line of a slot carries. -/
def Replied (w : Witness) (sl : Slot) (type : Nat) (counter : W16) (w' : Witness) : Prop :=
  ∃ r, w'.out = w.out ++ [.reply sl type r] ∧ r.counter = counter ∧ r.domain = w.domain ∧ r.agen = w'.agen

theorem reply_replied (type : Nat) (counter : W16) (hout : v.out = w.out) (hdomain : v.domain = w.domain) :
    Replied w sl type counter (reply v sl type counter) :=
  ⟨_, by rw [reply, hout], rfl, hdomain, rfl⟩

@[simp] theorem setPend_out (x : Option PendClaim) : (setPend w sl x).out = w.out := by cases sl <;> rfl
@[simp] theorem setPend_domain (x : Option PendClaim) : (setPend w sl x).domain = w.domain := by cases sl <;> rfl
@[simp] theorem setRun_out (r : Bool) : (setRun w sl r).out = w.out := by cases sl <;> rfl
@[simp] theorem setRun_domain (r : Bool) : (setRun w sl r).domain = w.domain := by cases sl <;> rfl
@[simp] theorem endClaims_out : (endClaims w sl).out = w.out := by simp [endClaims]
@[simp] theorem endClaims_domain : (endClaims w sl).domain = w.domain := by simp [endClaims]
@[simp] theorem endClaims_agen : (endClaims w sl).agen = w.agen := by simp [endClaims]

/-! ### What stays of the lease -/

/-- Holder, lease, hold-off, reservation and AGEN stay. -/
def SameLease (w w' : Witness) : Prop :=
  w'.holder = w.holder ∧ w'.running = w.running ∧ w'.holdoff = w.holdoff ∧ w'.reserved = w.reserved ∧ w'.agen = w.agen

theorem endClaims_sameLease : SameLease w (endClaims w sl) :=
  ⟨by simp [endClaims], by simp [endClaims], by simp [endClaims], by simp [endClaims], by simp⟩

theorem pendOf_endClaims : pendOf (endClaims w sl) sl = none := by
  simp [endClaims, pendOf_setPend]

theorem pendOf_endClaims_other : pendOf (endClaims w sl) (otherSlot sl) = pendOf w (otherSlot sl) := by
  cases sl <;> rfl

/-- A CLAIM that is turned away at once (R276). -/
theorem refused_claim (type : Nat) (counter : W16) : Replied w sl type counter (reply (endClaims w sl) sl type counter)
    ∧ SameLease w (reply (endClaims w sl) sl type counter) ∧ pendOf (reply (endClaims w sl) sl type counter) sl = none :=
  ⟨reply_replied _ _ endClaims_out endClaims_domain, endClaims_sameLease, (pendOf_reply _ _ _ _ _).trans pendOf_endClaims⟩

/-- A CLAIM that waits is answered WAIT (R276). -/
theorem pendClaim_waits (force : Bool) : Replied w sl 10 msg.counter (pendClaim w sl force msg) ∧ SameLease w (pendClaim w sl force msg)
    ∧ ∃ q, pendOf (pendClaim w sl force msg) sl = some q ∧ q.agen = msg.agen ∧ q.force = force ∧ q.counter = msg.counter := by
  refine ⟨reply_replied _ _ ?_ ?_, ⟨?_, ?_, ?_, ?_, ?_⟩, { agen := msg.agen, force := force, counter := msg.counter, order := w.order }, ?_, rfl, rfl, rfl⟩
  · split <;> simp
  · split <;> simp
  · rw [pendClaim, reply_holder]; split <;> simp
  · rw [pendClaim, reply_running]; split <;> simp
  · rw [pendClaim, reply_holdoff]; split <;> simp
  · rw [pendClaim, reply_reserved]; split <;> simp
  · rw [pendClaim, reply_agen]; split <;> simp
  · rw [pendClaim, pendOf_reply]; split <;> simp [pendOf_setPend]

/-- A GRANT (R276). -/
theorem grantTo_grants (agen : W32) (counter : W16) : Replied w sl 8 counter (grantTo w sl agen counter)
    ∧ (grantTo w sl agen counter).holdoff = false ∧ (grantTo w sl agen counter).reserved = none
    ∧ pendOf (grantTo w sl agen counter) sl = none
    ∧ (grantTo w sl agen counter).agen = if (w.holder == some sl || w.reserved == some sl) = true then w.agen else incAgen (maxAgen w.agen agen) := by
  refine ⟨reply_replied _ _ (by simp) (by simp), ?_, ?_, ?_, ?_⟩
  · simp [grantTo, endClaims]
  · simp [grantTo, endClaims]
  · exact (pendOf_reply _ _ _ _ _).trans pendOf_endClaims
  · simp [grantTo]

/-! ### CLAIM -/

theorem claimAt_held (force : Bool) (h : w.running = true ∧ w.holder = some sl) :
    claimAt w sl force msg = reply (endClaims w sl) sl 8 msg.counter := by
  obtain ⟨hrun, hholder⟩ := h
  have hkeep : { endClaims w sl with running := true } = endClaims w sl := by
    have hr : (endClaims w sl).running = true := by simp [endClaims, hrun]
    rw [← hr]
  rw [claimAt, if_pos (by simp [hrun, hholder]), hkeep]

theorem claimAt_stale (hn : ¬ (w.running = true ∧ w.holder = some sl)) (hlt : msg.agen.toNat < w.agen.toNat) :
    claimAt w sl false msg = reply (endClaims w sl) sl 12 msg.counter := by
  rw [claimAt, if_neg (by simpa using hn), if_pos (by simp [hlt])]

/-- A CLAIM that the record of AGEN does not turn away. -/
theorem claimAt_good {force : Bool} (hn : ¬ (w.running = true ∧ w.holder = some sl)) (hor : w.agen.toNat ≤ msg.agen.toNat ∨ force = true) :
    claimAt w sl force msg = if w.running || w.holdoff then
        (if sync0Of w sl then reply (endClaims w sl) sl 11 msg.counter else pendClaim w sl force msg)
      else if grantable w sl then grantTo w sl msg.agen msg.counter else pendClaim w sl force msg := by
  rw [claimAt, if_neg (by simpa using hn), if_neg]
  rcases hor with h | h
  · simp [Nat.not_lt.2 h]
  · simp [h]

/-! ### The pending CLAIM that is granted -/

theorem grantPending_nothing (ha : grantable w .a = true → w.pendA = none) (hb : grantable w .b = true → w.pendB = none) : grantPending w = w := by
  have hready (x : Slot) (h : grantable w x = true → pendOf w x = none) : (if grantable w x then pendOf w x else none) = none := by
    split
    · exact h ‹_›
    · rfl
  unfold grantPending
  simp only [hready .a ha, hready .b hb]

theorem grantPending_one {q : PendClaim} (hg : grantable w sl = true) (hq : pendOf w sl = some q)
    (hother : grantable w (otherSlot sl) = true → pendOf w (otherSlot sl) = none) : grantPending w = grantTo w sl q.agen q.counter := by
  have hready : (if grantable w (otherSlot sl) then pendOf w (otherSlot sl) else none) = none := by
    split
    · exact hother ‹_›
    · rfl
  unfold grantPending
  cases sl
  · simp only [show (if grantable w .b then pendOf w .b else none) = none from hready, hg, hq, if_true]
  · simp only [show (if grantable w .a then pendOf w .a else none) = none from hready, hg, hq, if_true]

theorem grantPending_both {qa qb : PendClaim} (hga : grantable w .a = true) (hgb : grantable w .b = true) (ha : w.pendA = some qa)
    (hb : w.pendB = some qb) :
    grantPending w = if qa.order ≤ qb.order then grantTo w .a qa.agen qa.counter else grantTo w .b qb.agen qb.counter := by
  unfold grantPending
  simp only [hga, hgb, if_true, pendOf, ha, hb]

theorem grantable_free (hr : w.running = false) (ho : w.holdoff = false) (hres : w.reserved = none) (ha : w.agen ≠ 0xFFFFFFFF) :
    grantable w sl = true := by
  simp only [grantable, hr, ho, hres]
  simpa using .inr ha

/-! ### RELEASE -/

/-- The lease that its holder released is reserved for the other slot. -/
def releasedTo (w : Witness) (sl : Slot) (counter : W16) : Witness :=
  reply { w with running := false, holdoff := false, reserved := some (otherSlot sl) } sl 13 counter

theorem releaseAt_held (hheard : heard w msg = true) (h : w.running = true ∧ w.holder = some sl) :
    releaseAt w sl msg = grantPending (releasedTo w sl msg.counter) := by
  rw [releaseAt, if_neg (by simp [hheard]), if_pos (by simp [h.1, h.2])]
  rfl

theorem releasedTo_own (counter : W16) : grantable (releasedTo w sl counter) sl = false := by
  simp [grantable, releasedTo]

theorem releasedTo_other (counter : W16) : grantable (releasedTo w sl counter) (otherSlot sl) = true := by
  cases sl <;> simp [grantable, releasedTo, otherSlot]

theorem releaseAt_free (hheard : heard w msg = true) (hn : ¬ (w.running = true ∧ w.holder = some sl)) :
    releaseAt w sl msg = reply w sl 11 msg.counter := by
  rw [releaseAt, if_neg (by simp [hheard]), if_neg (by simpa using hn)]

/-! ### RENEW and PRESENT -/

/-- A renewed lease: the record of the holder's LEAD_EPOCH and AGEN, and whether the other slot claims while the link is down (R276). -/
def renewed (w : Witness) (sl : Slot) (msg : WMsg) : Witness :=
  if msgSyncUp msg then { w with leadEpoch := msg.leadEpoch, agen := msg.agen }
  else match otherSlot sl with
    | .a => { w with leadEpoch := msg.leadEpoch, agen := msg.agen, sync0A := w.sync0A || w.runA }
    | .b => { w with leadEpoch := msg.leadEpoch, agen := msg.agen, sync0B := w.sync0B || w.runB }

theorem renewAt_held (hheard : heard w msg = true) (h : w.running = true ∧ w.holder = some sl) :
    renewAt w sl msg = reply (renewed w sl msg) sl 9 msg.counter := by
  rw [renewAt, if_neg (by simp [hheard]), if_pos (by simp [h.1, h.2])]
  rfl

theorem renewAt_claims (hheard : heard w msg = true) (hn : ¬ (w.running = true ∧ w.holder = some sl)) :
    renewAt w sl msg = claimAt w sl false msg := by
  rw [renewAt, if_neg (by simp [hheard]), if_neg (by simpa using hn)]

theorem renewed_keeps : (renewed w sl msg).out = w.out ∧ (renewed w sl msg).domain = w.domain ∧ (renewed w sl msg).running = w.running
    ∧ (renewed w sl msg).holder = w.holder ∧ (renewed w sl msg).agen = msg.agen ∧ (renewed w sl msg).leadEpoch = msg.leadEpoch := by
  unfold renewed
  split
  · exact ⟨rfl, rfl, rfl, rfl, rfl, rfl⟩
  · cases sl <;> exact ⟨rfl, rfl, rfl, rfl, rfl, rfl⟩

theorem sync0Of_renewed : sync0Of (renewed w sl msg) (otherSlot sl)
    = (sync0Of w (otherSlot sl) || (!msg.flags.getLsbD 6 && runOf w (otherSlot sl))) := by
  unfold renewed msgSyncUp
  split
  · next hup => rw [hup]; cases sl <;> simp [sync0Of, otherSlot]
  · next hup => rw [Bool.not_eq_true] at hup; rw [hup]; cases sl <;> simp [sync0Of, runOf, otherSlot]

/-- What PRESENT records of a slot. -/
def presentRecorded (w : Witness) (sl : Slot) (msg : WMsg) : Witness :=
  match sl with
  | .a => { w with presentA := some msg }
  | .b => { w with presentB := some msg }

theorem presentAt_heard (hheard : heard w msg = true) : presentAt w sl msg = reply (presentRecorded w sl msg) sl 13 msg.counter := by
  unfold presentAt
  rw [if_neg (by simp [hheard])] <;> rfl

theorem presentRecorded_sameLease : SameLease w (presentRecorded w sl msg) := by
  cases sl <;> exact ⟨rfl, rfl, rfl, rfl, rfl⟩

end

section
variable {s : State} {sl : Slot} {msg : WMsg} {i : Instr} {f : Witness → Witness} {w' : Witness}

theorem witness_becomes (e : exec i s = onWitness s f) (h : f s.witness = w') : exec i s = .next { s with witness := w' } := by
  rw [e, onWitness, h]

theorem witness_idle (e : exec i s = onWitness s f) (h : f s.witness = s.witness) : Idle i s := by
  rw [Idle, e, onWitness, h]

/-- A message that the witness answers, by what its record becomes. -/
theorem witness_answers {type : Nat} {P : Witness → Prop} (e : exec i s = onWitness s f) (h : f s.witness = w')
    (hr : Replied s.witness sl type msg.counter w') (hP : P w') :
    ∃ w' r, exec i s = .next { s with witness := w' } ∧ P w' ∧ w'.out = s.witness.out ++ [.reply sl type r] ∧ r.counter = msg.counter
      ∧ r.domain = s.witness.domain ∧ r.agen = w'.agen := by
  obtain ⟨r, hout, hcounter, hdomain, hagen⟩ := hr
  exact ⟨w', r, witness_becomes e h, hP, hout, hcounter, hdomain, hagen⟩

end

/-- Settles O33. -/
theorem witnessMessages : Obligations.WitnessMessages := by
  unfold Obligations.WitnessMessages
  intro s sl msg
  dsimp only
  refine ⟨fun hdeaf => ⟨?_, ?_, ?_, ?_⟩, fun hheard => ?_, fun hrun => witness_becomes (exec_witnessLeaseEnd s) (if_pos hrun),
    fun hrun => witness_idle (exec_witnessLeaseEnd s) (if_neg (by simp [hrun])),
    fun hoff => witness_idle (exec_witnessHoldoffEnd s) (if_neg (by simp [hoff])), fun hoff ha hb => ?_,
    fun q hoff hrun hres hagen hq hother => ?_, fun qa qb hoff hrun hres hagen ha hb => ?_, fun hpend => ?_, fun hpend => ?_, fun hres => ?_,
    fun hres ha hb => ?_⟩
  · exact witness_idle (exec_renew sl msg s) (if_pos (by simp [hdeaf]))
  · exact witness_idle (exec_claim sl msg s) (if_neg (by simp [hdeaf]))
  · exact witness_idle (exec_release sl msg s) (if_pos (by simp [hdeaf]))
  · exact witness_idle (exec_present sl msg s) (if_pos (by simp [hdeaf]))
  · have hclaim : (fun w => if heard w msg then claimAt w sl (msgForce msg) msg else w) s.witness
        = claimAt s.witness sl (msg.flags.getLsbD 4) msg := if_pos hheard
    refine ⟨fun hheld => ?_, fun hn => witness_becomes (exec_renew sl msg s) (renewAt_claims hheard hn),
      witness_becomes (exec_claim sl msg s) hclaim, fun hheld => ?_, fun hn hlt hforce => ?_,
      fun hn hor => ⟨fun hbusy => ⟨fun hsync => ?_, fun hsync => ?_⟩, fun hrun hoff => ⟨fun hg => ?_, fun hg => ?_⟩⟩,
      fun hheld hnone => ?_, fun hheld q hq => ?_, fun hn => ?_, ?_⟩
    · obtain ⟨hout, hdomain, hrun, hholder, hagen, hepoch⟩ := renewed_keeps (w := s.witness) (sl := sl) (msg := msg)
      exact witness_answers (exec_renew sl msg s) (renewAt_held hheard hheld) (reply_replied _ _ hout hdomain)
        ⟨hrun.trans hheld.1, hholder.trans hheld.2, hagen, hepoch, sync0Of_renewed⟩
    · obtain ⟨hreply, hsame, hpend⟩ := refused_claim (w := s.witness) (sl := sl) 8 msg.counter
      exact witness_answers (exec_claim sl msg s) (hclaim.trans (claimAt_held _ hheld)) hreply ⟨hsame, hpend⟩
    · obtain ⟨hreply, hsame, hpend⟩ := refused_claim (w := s.witness) (sl := sl) 12 msg.counter
      rw [hforce] at hclaim
      exact witness_answers (exec_claim sl msg s) (hclaim.trans (claimAt_stale hn hlt)) hreply ⟨hsame, hpend⟩
    · obtain ⟨hreply, hsame, hpend⟩ := refused_claim (w := s.witness) (sl := sl) 11 msg.counter
      refine witness_answers (exec_claim sl msg s) (hclaim.trans ((claimAt_good hn hor).trans ?_)) hreply ⟨hsame, hpend⟩
      rw [if_pos (by simpa using hbusy), if_pos hsync]
    · obtain ⟨hreply, hsame, hpend⟩ := pendClaim_waits (w := s.witness) (sl := sl) (msg := msg) (msg.flags.getLsbD 4)
      refine witness_answers (exec_claim sl msg s) (hclaim.trans ((claimAt_good hn hor).trans ?_)) hreply ⟨hsame, hpend⟩
      rw [if_pos (by simpa using hbusy), if_neg (by simp [hsync])]
    · obtain ⟨hreply, hoff', hres, hpend, hagen⟩ := grantTo_grants (w := s.witness) (sl := sl) msg.agen msg.counter
      refine witness_answers (exec_claim sl msg s) (hclaim.trans ((claimAt_good hn hor).trans ?_)) hreply
        ⟨grantTo_running _ _ _ _, grantTo_holder _ _ _ _, hoff', hres, hpend, fun hsame => ?_, fun hne hnres => ?_⟩
      · rw [if_neg (by simp [hrun, hoff]), if_pos hg]
      · rw [hagen, if_pos (by rcases hsame with h | h <;> simp [h])]
      · rw [hagen, if_neg (by simp [hne, hnres])]
    · obtain ⟨hreply, hsame, q, hpend, -⟩ := pendClaim_waits (w := s.witness) (sl := sl) (msg := msg) (msg.flags.getLsbD 4)
      refine witness_answers (exec_claim sl msg s) (hclaim.trans ((claimAt_good hn hor).trans ?_)) hreply ⟨hsame, by rw [hpend]; rfl⟩
      rw [if_neg (by simp [hrun, hoff]), if_neg (by simp [hg])]
    · refine witness_answers (w' := releasedTo s.witness sl msg.counter) (exec_release sl msg s) ((releaseAt_held hheard hheld).trans ?_)
        (reply_replied _ _ rfl rfl) ⟨rfl, rfl, rfl⟩
      have hown := releasedTo_own (w := s.witness) (sl := sl) msg.counter
      have hpend : pendOf (releasedTo s.witness sl msg.counter) (otherSlot sl) = none := by cases sl <;> exact hnone
      cases sl
      · exact grantPending_nothing (fun h => absurd h (by simp [hown])) (fun _ => hpend)
      · exact grantPending_nothing (fun _ => hpend) (fun h => absurd h (by simp [hown]))
    · have hpend : pendOf (releasedTo s.witness sl msg.counter) (otherSlot sl) = some q := by cases sl <;> exact hq
      have hown := releasedTo_own (w := s.witness) (sl := sl) msg.counter
      refine ⟨_, witness_becomes (exec_release sl msg s) ((releaseAt_held hheard hheld).trans
        (grantPending_one (releasedTo_other _) hpend (fun h => ?_))), grantTo_running _ _ _ _, grantTo_holder _ _ _ _, ?_⟩
      · cases sl <;> exact absurd h (by simp [otherSlot] at hown ⊢; exact hown)
      · obtain ⟨-, -, -, -, hagen⟩ := grantTo_grants (w := releasedTo s.witness sl msg.counter) (sl := otherSlot sl) q.agen q.counter
        exact hagen.trans (if_pos (by simp [releasedTo]))
    · exact witness_answers (exec_release sl msg s) (releaseAt_free hheard hn) (reply_replied _ _ rfl rfl) ⟨rfl, rfl, rfl, rfl, rfl⟩
    · refine witness_answers (exec_present sl msg s) (presentAt_heard hheard) (reply_replied _ _ ?_ ?_) ⟨presentRecorded_sameLease, ?_⟩ <;>
        cases sl <;> rfl
  · exact witness_becomes (exec_witnessHoldoffEnd s) ((if_pos hoff).trans (grantPending_nothing (fun _ => ha) (fun _ => hb)))
  · refine ⟨_, witness_becomes (exec_witnessHoldoffEnd s) ((if_pos hoff).trans (grantPending_one (sl := sl) (q := q)
      (grantable_free hrun rfl hres hagen) ?_ (fun _ => ?_))), grantTo_running _ _ _ _, grantTo_holder _ _ _ _, ?_⟩
    · cases sl <;> exact hq
    · cases sl <;> exact hother
    · obtain ⟨-, hfree, -⟩ := grantTo_grants (w := { s.witness with holdoff := false }) (sl := sl) q.agen q.counter
      exact hfree
  · refine ⟨_, witness_becomes (exec_witnessHoldoffEnd s) ((if_pos hoff).trans (grantPending_both (grantable_free hrun rfl hres hagen)
      (grantable_free hrun rfl hres hagen) ha hb)), ?_, ?_⟩
    · split <;> exact grantTo_running _ _ _ _
    · split <;> exact grantTo_holder _ _ _ _
  · exact ⟨_, witness_becomes (exec_claimPendingExpiry sl s) (if_pos hpend), endClaims_sameLease, pendOf_endClaims, pendOf_endClaims_other⟩
  · exact witness_idle (exec_claimPendingExpiry sl s) (if_neg (by simp [hpend]))
  · exact witness_idle (exec_releaseReservationEnd s) (if_neg (by simp [hres]))
  · exact witness_becomes (exec_releaseReservationEnd s) ((if_pos hres).trans (grantPending_nothing (fun _ => ha) (fun _ => hb)))

end Sys2Proof.Machine

/-! PROOF. The lease at the modules, and the lanes of the sync link (R272, R274, R275, R277, R278). -/

namespace Sys2Proof.Machine
open Sys2Proof Sys2Proof.Bits Sys2Proof.Safety

section
variable {m p : Module} {msg : WMsg}

/-! ### Messages to the witness -/

/-- A message to the witness counts, and changes nothing else of the pair. -/
@[simp] theorem toWitness_pair (type : Nat) (force : Bool) :
    (toWitness m type force).pair = { m.pair with counter := if serving m then m.pair.counter + 1 else m.pair.counter } := by
  unfold toWitness
  cases serving m <;> rfl

@[simp] theorem toWitness_boot (type : Nat) (force : Bool) : (toWitness m type force).boot = m.boot := by
  unfold toWitness
  split <;> rfl

@[simp] theorem startClaim_pair (force : Bool) : (startClaim m force).pair = { m.pair with
    claiming := true, claimForce := force, w1Seen := false, counter := if serving m then m.pair.counter + 1 else m.pair.counter } :=
  toWitness_pair 2 force

@[simp] theorem startClaim_boot (force : Bool) : (startClaim m force).boot = m.boot := toWitness_boot 2 force

/-- Bit 4 of the flags of a message is FORCE (R275). -/
theorem flags_force (st : ModState) : ∀ (slot link step force : Bool),
    (BitVec.ofNat 8 (128 * b2n slot + 64 * b2n link + 32 * b2n step + 16 * b2n force + stateCode st)).getLsbD 4 = force := by
  cases st <;> decide

theorem slotN_eq_b2n (sl : Slot) : slotN sl = b2n (sl == .b) := by
  cases sl <;> rfl

/-- What a message on W0 carries. -/
theorem toWitness_out (type : Nat) (force : Bool) (hs : serving m = true) : ∃ r, (toWitness m type force).out = m.out ++ [.witness type r]
    ∧ r.counter = m.pair.counter + 1 ∧ r.domain = m.pair.domain ∧ r.agen = m.pair.agen ∧ r.flags.getLsbD 4 = force := by
  unfold toWitness
  rw [if_neg (by simp [hs])]
  refine ⟨_, rfl, rfl, rfl, rfl, ?_⟩
  dsimp only
  rw [slotN_eq_b2n]
  exact flags_force _ _ _ _ _

/-! ### SPLIT-OFF -/

theorem enterSplitOff_out (hrun : inRun m = true) : (enterSplitOff m).boot.state = .splitOff ∧ (enterSplitOff m).pair.role = .none
    ∧ ∀ x ∈ (enterSplitOff m).exec.tasks, x.2.cycle = none := by
  unfold enterSplitOff
  rw [if_neg (by simp [hrun])]
  refine ⟨by simp, by simp [leavePair, stopLegacy, holdLanes, stopCycles], fun x hx => ?_⟩
  have htasks : x ∈ (stopCycles m).exec.tasks := by
    simpa [leavePair, stopLegacy, holdLanes] using hx
  obtain ⟨y, -, rfl⟩ := List.mem_map.1 htasks
  rfl

/-! ### The check of the lease -/

theorem checkLease_lost (hs : serving m = true) (hlead : isLead m = true) (hlease : leaseHeld m = false) (hlink : m.pair.linkUp = true)
    (hlost : m.pair.witnessLost = false) :
    (checkLease m).pair.witnessLost = true ∧ (checkLease m).pair.claiming = true ∧ (checkLease m).pair.role = .lead := by
  have hrole : m.pair.role = .lead := by simpa [isLead] using hlead
  have hcheck : checkLease m = witnessLost m (m.pair.leaseEnd.getD m.phys) := by
    simp [checkLease, hs, hlead, hlease, hlink, hlost]
  rw [hcheck]
  simp [witnessLost, hrole]

theorem checkLease_run (hs : serving m = true) (hlead : isLead m = true) (hlease : leaseHeld m = false) (hlink : m.pair.linkUp = false)
    (hrun : m.boot.state = .run) : checkLease m = enterSplitOff m := by
  simp [checkLease, hs, hlead, hlease, hlink, hrun]

theorem checkLease_ready (hs : serving m = true) (hlead : isLead m = true) (hlease : leaseHeld m = false) (hlink : m.pair.linkUp = false)
    (hready : m.boot.state = .ready) :
    (checkLease m).boot.state = .ready ∧ (checkLease m).pair.role = .none ∧ (checkLease m).pair.claiming = true := by
  have hcheck : checkLease m = anchorIfChanged m (startClaim (leavePair m) false) := by
    simp [checkLease, hs, hlead, hlease, hlink, hready]
  rw [hcheck]
  simp [hready, leavePair]

theorem inRun_of_serving (hs : serving m = true) (hrun : m.boot.state = .run) : inRun m = true := by
  simp only [serving, Bool.and_eq_true] at hs
  simp [inRun, hs.1, hrun]

/-! ### Taking the lead -/

@[simp] theorem sendJournal_pair (qp : Nat) (d : Desc) (req : Bytes) (due : Option W64) : (sendJournal m qp d req due).pair = m.pair := by
  unfold sendJournal
  dsimp only
  split <;> rfl

@[simp] theorem acceptEntry_pair (e : JEntry) : (acceptEntry m p e).pair = m.pair := by
  unfold acceptEntry
  dsimp only
  repeat' split
  all_goals simp

/-- Accepting work changes the mailbox alone (R77). -/
@[simp] theorem acceptReady_pair : (acceptReady m p).pair = m.pair := by
  unfold acceptReady
  split
  · rfl
  · refine foldl_keeps (·.pair) _ (fun a e => ?_) _ _
    split
    · exact acceptEntry_pair e
    · rfl

@[simp] theorem inheritEntry_pair (due : W64) (e : JEntry) : (inheritEntry due m e).pair = m.pair := by
  unfold inheritEntry
  dsimp only
  repeat' split
  all_goals simp

@[simp] theorem setAdj_pair (v : Int) : (setAdj m v).pair = m.pair := rfl

/-- The new lead (R272, R280): its lease runs, its epoch and AGEN move on, and without a partner it is alone. -/
theorem takeLead_pair (cause : Nat) (h : Option Handover) (agen : W32) : (takeLead m cause h agen).pair = { m.pair with
    role := .lead, leadEpoch := m.pair.leadEpoch + 1, agen := maxAgen m.pair.agen agen, stale := false, claiming := false, claimForce := false
    noticed := false, inSet := true, partnerInSet := h.isSome, acceptHeld := false, mode := if h.isSome then m.pair.mode else .alone
    joining := none, cutover := none, window := !h.isSome, catchup := m.pair.catchup || (m.pair.mode == .warm && m.boot.state == .run)
    lastChange := now m, changes := inc32 m.pair.changes, leaseEnd := some (m.phys + 249000), witnessLost := false } := by
  unfold takeLead leadRecord
  dsimp only
  rw [emit_pair, logEv_pair, mailMod_pair]
  split
  · rw [almMod_pair, foldl_keeps (·.pair) _ (fun a e => inheritEntry_pair _ e)]
    rfl
  · rw [almMod_pair, setAdj_pair, foldl_keeps (·.pair) _ (fun a e => inheritEntry_pair _ e)]
    rfl

/-- The partner that sees a new lead is its shadow (R280). -/
theorem followLead_shadow (hlink : linked m p = true) (hs : serving p = true) : (followLead m p).pair.role = .shadow := by
  unfold followLead
  rw [if_neg (by simp [hlink, hs])]
  simp [epochSessions]

theorem linked_congr {m' p' : Module} (hm : m'.pair.linkUp = m.pair.linkUp) (hp : p'.pair.linkUp = p.pair.linkUp) : linked m' p' = linked m p := by
  rw [linked, linked, hm, hp]

theorem forcedEnd_none (h : m.pair.forcedRun = none) (own : W32) : forcedEnd m own = m := by
  rw [forcedEnd, h]

/-! ### RENEWED and GRANT -/

/-- The lead whose lease runs on: acceptance resumes once its AGEN is recorded (R77, R272). -/
def renewedLead (msg : WMsg) (m : Module) : Module :=
  renewLease (pairMod (replySeen m msg) (fun x => { x with acceptHeld := x.acceptHeld && !decide (m.pair.agen.toNat ≤ msg.agen.toNat) }))

/-- A resync whose record of the set is complete goes on to phase 3 (R287). -/
def resyncFollows (m : Module) : Module := pairMod m (fun x => { x with resync := x.resync.map (fun r => { r with phase := 3 }) })

theorem takeRenewed_lead (hgood : validReply m msg = true) (hlead : isLead m = true) :
    (takeRenewed msg m p).1.pair.leaseEnd = some (m.phys + 249000) ∧ (takeRenewed msg m p).1.pair.role = .lead
    ∧ (takeRenewed msg m p).1.pair.acceptHeld = (m.pair.acceptHeld && !decide (m.pair.agen.toNat ≤ msg.agen.toNat)) := by
  have hrole : m.pair.role = .lead := by simpa [isLead] using hlead
  obtain ⟨follow, hfst⟩ : ∃ follow : Bool,
      (takeRenewed msg m p).1 = acceptReady (if follow then resyncFollows (renewedLead msg m) else renewedLead msg m) p := by
    unfold takeRenewed
    rw [if_neg (by simp [hgood]), if_neg (by simp [hlead])]
    exact ⟨_, rfl⟩
  rw [hfst, acceptReady_pair]
  cases follow <;> exact ⟨rfl, hrole, rfl⟩

/-- A lead that is granted the lease keeps it (R277). -/
theorem takeGrant_lead (hgood : validReply m msg = true) (hlead : isLead m = true) (hforced : m.pair.forcedRun = none) :
    (takeGrant msg m p).1.pair.role = .lead ∧ (takeGrant msg m p).1.pair.leaseEnd = some (m.phys + 249000)
    ∧ (takeGrant msg m p).1.pair.claiming = false ∧ (takeGrant msg m p).1.pair.agen = maxAgen m.pair.agen msg.agen := by
  have hrole : m.pair.role = .lead := by simpa [isLead] using hlead
  unfold takeGrant
  rw [if_neg (by simp [hgood])]
  dsimp only
  rw [if_pos hlead]
  dsimp only
  rw [acceptReady_pair, forcedEnd_none (by exact hforced)]
  exact ⟨hrole, rfl, rfl, rfl⟩

/-- A claimant that is granted the lease without a handover is the lead, alone (R277, R280). -/
theorem takeGrant_claims (hgood : validReply m msg = true) (hlead : isLead m = false) (hclaim : m.pair.claiming = true)
    (hh : m.pair.handover = none) (hph : p.pair.handover = none) (hforced : m.pair.forcedRun = none) :
    takeGrant msg m p = takeAlone (replySeen m msg) p (if m.pair.claimForce then 3 else 0) msg.agen := by
  have hnone : (takeAlone (replySeen m msg) p (if m.pair.claimForce then 3 else 0) msg.agen).1.pair.forcedRun = none := by
    simp only [takeAlone, anchorIfChanged_pair, acceptReady_pair, takeLead_pair]
    exact hforced
  unfold takeGrant
  rw [if_neg (by simp [hgood])]
  dsimp only
  rw [if_neg (by simp [hlead]), if_neg (by simp [hclaim]), hh, hph]
  dsimp only
  rw [forcedEnd_none hnone]

/-! ### The lanes of the sync link -/

theorem setLane_pair (lane : Nat) (up seen : Bool) :
    (setLane m lane up seen).pair = if lane = 0 then { m.pair with lane0 := up } else { m.pair with lane1 := up } := by
  unfold setLane
  simp only [routeEvent_pair, laneMod]
  rfl

theorem laneUp_setLane (lane : Nat) (up seen : Bool) : laneUp (setLane m lane up seen) lane = up := by
  unfold laneUp
  rw [setLane_pair]
  split <;> rfl

theorem laneUp_setLane_other {lane : Nat} (up seen : Bool) (h : lane ≤ 1) : laneUp (setLane m lane up seen) (1 - lane) = laneUp m (1 - lane) := by
  unfold laneUp
  rw [setLane_pair]
  rcases Nat.le_one_iff_eq_zero_or_eq_one.1 h with rfl | rfl <;> rfl

theorem setLane_linkUp (lane : Nat) (up seen : Bool) : (setLane m lane up seen).pair.linkUp = m.pair.linkUp := by
  rw [setLane_pair]
  split <;> rfl

theorem readyClaim_link : (readyClaim m p).pair.linkUp = m.pair.linkUp ∧ (readyClaim m p).pair.lane0 = m.pair.lane0
    ∧ (readyClaim m p).pair.lane1 = m.pair.lane1 ∧ (readyClaim m p).pair.mode = m.pair.mode := by
  unfold readyClaim
  repeat' split
  all_goals simp

theorem compareWiring_link : (compareWiring m p).pair.linkUp = m.pair.linkUp ∧ (compareWiring m p).pair.lane0 = m.pair.lane0
    ∧ (compareWiring m p).pair.lane1 = m.pair.lane1 := by
  unfold compareWiring
  split
  · exact ⟨rfl, rfl, rfl⟩
  · dsimp only
    split <;> simp

/-- Training leaves the link and its lanes as they are. -/
theorem trained_link : (trained m p).pair.linkUp = m.pair.linkUp ∧ (trained m p).pair.lane0 = m.pair.lane0
    ∧ (trained m p).pair.lane1 = m.pair.lane1 := by
  obtain ⟨hlink, hlane0, hlane1, -⟩ := readyClaim_link (m := compareWiring m p) (p := p)
  obtain ⟨hlink', hlane0', hlane1'⟩ := compareWiring_link (m := m) (p := p)
  exact ⟨hlink.trans hlink', hlane0.trans hlane0', hlane1.trans hlane1'⟩

/-- A module whose link has trained. -/
def linkTrained (m : Module) : Module :=
  emit (pairMod (almMod m (fun a => { a with alignDue := true })) (fun y => { y with linkUp := true })) (.sync (.wiring m.hw.wiring))

/-- A lane that comes back is up, and with a lane on the partner the link trains (R274, R278). -/
theorem laneBack_up {lane : Nat} (hd : drivesLink m = true) (hlane : lane ≤ 1) (hdown : laneUp m lane = false) :
    laneUp (laneBack lane m p).1 lane = true
    ∧ (m.pair.linkUp = false → drivesLink p = true → (p.pair.lane0 = true ∨ p.pair.lane1 = true) →
      linked (laneBack lane m p).1 (laneBack lane m p).2 = true) := by
  unfold laneBack
  rw [if_neg (by simp [hd, hdown, hlane])]
  dsimp only
  split
  · next hno =>
    refine ⟨laneUp_setLane _ _ _, fun hlink hdp hp => ?_⟩
    rw [setLane_linkUp, hlink] at hno
    rcases hp with h | h <;> simp [hdp, h] at hno
  · obtain ⟨hlink, hlane0, hlane1⟩ := trained_link (m := linkTrained (setLane m lane true (laneUp p lane))) (p := linkTrained p)
    refine ⟨?_, fun _ _ _ => ?_⟩
    · have hup := laneUp_setLane (m := m) lane true (laneUp p lane)
      unfold laneUp at hup ⊢
      exact (show (if lane = 0 then (trained (linkTrained (setLane m lane true (laneUp p lane))) (linkTrained p)).pair.lane0
        else (trained (linkTrained (setLane m lane true (laneUp p lane))) (linkTrained p)).pair.lane1) = true by rw [hlane0, hlane1]; exact hup)
    · obtain ⟨hlink', -, -⟩ := trained_link (m := linkTrained p)
        (p := trained (linkTrained (setLane m lane true (laneUp p lane))) (linkTrained p))
      simp only [linked, Bool.and_eq_true]
      exact ⟨hlink, hlink'⟩

/-! ### The loss of the link -/

@[simp] theorem endActivation_pair (status detail : Nat) : (endActivation m status detail).pair = m.pair := by
  unfold endActivation
  split
  · rfl
  · dsimp only
    split <;> simp

theorem failHandover_pair (h : Handover) : (failHandover m h).pair = { m.pair with handover := none } := by
  unfold failHandover
  dsimp only
  repeat' split
  all_goals simp

@[simp] theorem holdover_pair : (holdover m).pair = m.pair := by
  simp [holdover]

/-- A relayed region of a class is emptied. -/
def emptyRelayed (m : Module) (cls : Nat) : Module :=
  if (regionOf m (relaySlot m) cls).owner = 2 then regionMod m (relaySlot m) cls (fun _ => {}) else m

theorem emptyRelayed_pair (cls : Nat) : (emptyRelayed m cls).pair = m.pair := by
  unfold emptyRelayed
  split
  · exact slotMod_pair _ _ _
  · rfl

@[simp] theorem relayFail_pair : (relayFail m).pair = m.pair := by
  have hfold : ([1, 2].foldl emptyRelayed m).pair = m.pair := foldl_keeps (·.pair) emptyRelayed (fun a k => emptyRelayed_pair k) [1, 2] m
  have hfail : relayFail m = (if m.boot.state = .loader
      then setFail (bootMod ([1, 2].foldl emptyRelayed m) (fun b => { b with relaying := false, relayStop := false })) 0x0C
      else bootMod ([1, 2].foldl emptyRelayed m) (fun b => { b with relaying := false, relayStop := false })) := rfl
  rw [hfail]
  split
  · rw [setFail, bootMod_pair, bootMod_pair, hfold]
  · rw [bootMod_pair, hfold]

/-- What a module does alone once the link is down, before it claims (R77, R274). -/
theorem toReady_link (lead : Bool) : (toReady m lead).pair.linkUp = m.pair.linkUp ∧ (toReady m lead).pair.mode = .alone := by
  simp [leavePair]

theorem shrinkLead_link : (shrinkLead m).pair.linkUp = m.pair.linkUp ∧ (shrinkLead m).pair.mode = .alone := ⟨rfl, rfl⟩

/-- A module whose link is lost is alone (R274). -/
theorem linkLost_alone : (linkLost m p).pair.linkUp = false ∧ (linkLost m p).pair.mode = .alone := by
  unfold linkLost
  extract_lets was m0 m1
  have h1 : m1.pair.linkUp = false ∧ m1.pair.mode = .alone := by
    unfold m1
    rw [bootMod_pair]
    split
    · rw [relayFail_pair]; exact ⟨rfl, rfl⟩
    · exact ⟨rfl, rfl⟩
  split
  · exact h1
  rename_i m2 m3 m4 m5 m6 hs
  have h2 : m2.pair.linkUp = false ∧ m2.pair.mode = .alone := by
    unfold m2
    split
    · exact ⟨h1.1, rfl⟩
    · exact h1
  have h3 : m3.pair.linkUp = false ∧ m3.pair.mode = .alone := by
    unfold m3
    rw [endActivation_pair, endResync_pair]
    exact h2
  have h4 : m4.pair.linkUp = false ∧ m4.pair.mode = .alone := by
    unfold m4
    repeat' split
    · rw [failHandover_pair]; exact h3
    · exact h3
    · exact h3
  have h5 : m5.pair.linkUp = false ∧ m5.pair.mode = .alone := by
    unfold m5
    split
    · rw [holdover_pair]; exact h4
    · exact h4
  have h6 : m6.pair.linkUp = false ∧ m6.pair.mode = .alone := by
    unfold m6
    repeat' split
    · exact h5
    · simpa [discardPoints, leavePair] using h5.1
    · simpa using h5
    · obtain ⟨hlink, -, -, hmode⟩ := readyClaim_link (m := pairMod m5 (fun x => { x with role := .none, claiming := false })) (p := p)
      rw [hlink, hmode]
      exact h5
  rw [anchorIfChanged_pair]
  exact h6

end

section
variable {s : State} {sl : Slot} {lane : Nat}

theorem laneLost_idle (h : hasPower (modOf s sl) = false ∨ 1 < lane ∨ laneUp (modOf s sl) lane = false) : laneLost sl lane s = s := by
  unfold laneLost
  exact if_pos (by rcases h with h | h | h <;> simp [h])

/-- What a lane that is lost makes of its module. -/
def laneGone (s : State) (sl : Slot) (lane : Nat) : Module := setLane (modOf s sl) lane false (!laneUp (modOf s (otherSlot sl)) lane)

theorem laneLost_lost (hp : hasPower (modOf s sl) = true) (hlane : lane ≤ 1) (hup : laneUp (modOf s sl) lane = true) :
    laneLost sl lane s = if (laneGone s sl lane).pair.linkUp && !(laneGone s sl lane).pair.lane0 && !(laneGone s sl lane).pair.lane1
      then linkDown sl (withMod s sl (laneGone s sl lane)) else withMod s sl (laneGone s sl lane) := by
  unfold laneLost
  dsimp only
  rw [if_neg (by simp [hp, hup, hlane]), withMod_same]
  rfl

theorem bothLanes (hlane : lane ≤ 1) (x : Module) : (!x.pair.lane0 && !x.pair.lane1) = (!laneUp x lane && !laneUp x (1 - lane)) := by
  rcases Nat.le_one_iff_eq_zero_or_eq_one.1 hlane with rfl | rfl
  · rfl
  · exact Bool.and_comm _ _

end

/-- Settles O34. -/
theorem leaseEvents : Obligations.LeaseEvents := by
  unfold Obligations.LeaseEvents
  intro s sl msg
  dsimp only
  refine ⟨fun hs => ⟨fun hlead hlease hclaim => ⟨?_, toWitness_out 1 false hs⟩, fun hrole hlink => ⟨?_, toWitness_out 4 false hs⟩,
      fun hclaim => ⟨?_, toWitness_out 2 _ hs⟩⟩,
    fun h => idle_of (exec_renewTimer sl s) (if_neg ?_), fun h => idle_of (exec_claimTimer sl s) (if_neg ?_),
    fun h => idle_of (exec_presentTimer sl s) (if_neg ?_), fun h => idle_of (exec_leaseCheck sl s) (if_pos ?_),
    fun hs hlead hlease => ⟨fun hlink hlost => ⟨_, becomes_of (exec_leaseCheck sl s) rfl, checkLease_lost hs hlead hlease hlink hlost⟩,
      fun hlink hrun => ?_, fun hlink hready => ⟨_, becomes_of (exec_leaseCheck sl s) rfl, checkLease_ready hs hlead hlease hlink hready⟩⟩,
    fun hlonely => ?_, fun hs hready hlead hclaim hmay hlink => ?_, fun hlink hlead => ?_, fun hbad => ?_, fun hgood => ?_,
    fun lane h => ?_, fun lane hp hlane hup hother => ?_, fun lane hp hlane hup hother hlink => ?_, linkLost_alone.1, linkLost_alone.2,
    fun lane h => ?_, fun lane hd hlane hdown => ?_⟩
  · exact becomes_of (exec_renewTimer sl s) (if_pos (by simp [hs, hlead, hlease, hclaim]))
  · exact becomes_of (exec_presentTimer sl s) (if_pos (by simp [hs, hrole, hlink]))
  · exact becomes_of (exec_claimTimer sl s) (if_pos (by simp [hs, hclaim]))
  · rcases h with h | h | h <;> simp [h]
  · rcases h with h | h <;> simp [h]
  · rcases h with h | h <;> simp [h]
  · rcases h with h | h | h <;> simp [h]
  · obtain ⟨hstate, hrole, hcycles⟩ := enterSplitOff_out (inRun_of_serving hs hrun)
    exact ⟨_, becomes_of (exec_leaseCheck sl s) (checkLease_run hs hlead hlease hlink hrun), hstate, hrole, hcycles⟩
  · have hrun : inRun (modOf s sl) = true := by
      simp only [lonelyShadow, Bool.and_eq_true] at hlonely
      exact hlonely.1.1.1
    refine ⟨fun hseen => ⟨_, becomes_of (exec_claimReplyTimeout sl s) (if_pos (by simp [hlonely, hseen])), (enterSplitOff_out hrun).1⟩,
      fun hseen => idle_of (exec_claimReplyTimeout sl s) (if_neg (by simp [hseen])), fun hvalid => ⟨?_, ?_⟩⟩
    · exact ⟨_, becomes_of (exec_denied sl msg s) ((if_neg (by simp [hvalid])).trans (if_pos hlonely)),
        (enterSplitOff_out (m := replySeen (modOf s sl) msg) hrun).1⟩
    · exact ⟨_, becomes_of (exec_stale sl msg s) ((if_neg (by simp [hvalid])).trans (if_pos hlonely)),
        (enterSplitOff_out (m := pairMod (replySeen (modOf s sl) msg) (fun x => { x with stale := true })) hrun).1⟩
  · refine ⟨_, becomes_of_pair (exec_readyClaimTimer sl s) (if_neg ?_), by simp, by simp⟩
    simp [hs, hready, hlead, hclaim, hmay, hlink]
  · exact idle_of_pair (exec_readyClaimTimer sl s) (if_pos (by simp [hlink, hlead]))
  · exact ⟨idleBoth_of (exec_grant sl msg s) (if_pos (by simp [hbad])), idleBoth_of (exec_renewed sl msg s) (if_pos (by simp [hbad])),
      idle_of (exec_wait sl msg s) (if_neg (by simp [hbad])), idle_of (exec_denied sl msg s) (if_pos (by simp [hbad])),
      idle_of (exec_stale sl msg s) (if_pos (by simp [hbad])), idle_of (exec_witnessAck sl msg s) (if_neg (by simp [hbad]))⟩
  · refine ⟨becomes_of (exec_wait sl msg s) (if_pos hgood), becomes_of (exec_witnessAck sl msg s) (if_pos hgood),
      fun hlonely => ⟨?_, fun hlead => ?_, fun hlead => ?_⟩, fun hlead => ?_, fun hlead => ?_, fun hlead hclaim => ?_,
      fun hlead hclaim hh hph hforced => ?_, fun hlead hforced => ?_⟩
    · exact becomes_of (exec_denied sl msg s) ((if_neg (by simp [hgood])).trans (if_neg (by simp [hlonely])))
    · exact becomes_of (exec_stale sl msg s) ((if_neg (by simp [hgood])).trans ((if_neg (by simp [hlonely])).trans (if_pos hlead)))
    · exact becomes_of (exec_stale sl msg s) ((if_neg (by simp [hgood])).trans ((if_neg (by simp [hlonely])).trans (if_neg (by simp [hlead]))))
    · exact becomes_of_both (exec_renewed sl msg s) ((if_neg (by simp [hgood])).trans (if_pos (by simp [hlead])))
    · obtain ⟨hlease, hrole, hheld⟩ := takeRenewed_lead (p := modOf s (otherSlot sl)) hgood hlead
      refine ⟨(takeRenewed msg (modOf s sl) (modOf s (otherSlot sl))).1, (takeRenewed msg (modOf s sl) (modOf s (otherSlot sl))).2,
        becomesBoth_of (exec_renewed sl msg s) rfl, hlease, hrole, fun hle => ?_, fun hlt => ?_⟩
      · simp [hheld, hle]
      · simp [hheld, Nat.not_le.2 hlt]
    · exact becomesBoth_of (exec_grant sl msg s) ((if_neg (by simp [hgood])).trans ((if_neg (by simp [hlead])).trans (if_pos (by simp [hclaim]))))
    · have hlead' := takeLead_pair (m := replySeen (modOf s sl) msg) (if (modOf s sl).pair.claimForce then 3 else 0) none msg.agen
      have hgrant := takeGrant_claims hgood hlead hclaim hh hph hforced
      refine ⟨_, _, becomesBoth_of (exec_grant sl msg s) hgrant, ?_⟩
      simp only [anchorIfChanged_pair, acceptReady_pair]
      rw [hlead']
      exact ⟨rfl, rfl, rfl, rfl, rfl, rfl, fun hlink hs => followLead_shadow ((linked_congr (by rw [hlead']; rfl) rfl).trans hlink) hs⟩
    · obtain ⟨hrole, hlease, hclaim, hagen⟩ := takeGrant_lead (p := modOf s (otherSlot sl)) hgood hlead hforced
      exact ⟨_, _, becomesBoth_of (exec_grant sl msg s) rfl, hrole, hlease, hclaim, hagen⟩
  · rw [Idle, exec_syncLaneDown, execSyncLaneDown, laneLost_idle h]
  · refine ⟨laneGone s sl lane, ?_, laneUp_setLane _ _ _, (laneUp_setLane_other _ _ hlane).trans hother, setLane_linkUp _ _ _⟩
    have hlost := laneLost_lost hp hlane hup
    rw [Bool.and_assoc, bothLanes hlane, if_neg (by simp [laneGone, laneUp_setLane_other _ _ hlane, hother])] at hlost
    rw [Becomes, exec_syncLaneDown, execSyncLaneDown, hlost]
  · have hlost := laneLost_lost hp hlane hup
    rw [Bool.and_assoc, bothLanes hlane, if_pos (by simp [laneGone, laneUp_setLane, laneUp_setLane_other _ _ hlane, hother, setLane_linkUp, hlink])]
      at hlost
    rw [exec_syncLaneDown, execSyncLaneDown, hlost]
    rfl
  · exact idleBoth_of (exec_syncLaneUp sl lane s) (if_pos (by rcases h with h | h | h <;> simp [h]))
  · obtain ⟨hup, hlinked⟩ := laneBack_up (p := modOf s (otherSlot sl)) hd hlane hdown
    exact ⟨_, _, becomesBoth_of (exec_syncLaneUp sl lane s) rfl, hup, hlinked⟩

end Sys2Proof.Machine

/-! PROOF. The equinox swap, the course of a resync, the catch-up of a warm takeover and the limits of maintenance (R282 to R288, R385,
R386). -/

namespace Sys2Proof.Machine
open Sys2Proof Sys2Proof.Bits Sys2Proof.Safety

section
variable {m p : Module} {h : Handover} {r : Resync}

/-! ### Fetching of work, which a final stage leaves as it is -/

theorem pushCpl_paused (qp : Nat) (c : Cpl) : (pushCpl m qp c).mail.paused = m.mail.paused := by
  unfold pushCpl
  split <;> rfl

theorem retireFinal_paused (qp : Nat) (t : W64) : (retireFinal m qp t).mail.paused = m.mail.paused := by
  have hstall (x : Module) : (checkStall x).mail.paused = x.mail.paused := by
    unfold checkStall
    repeat' split
    all_goals simp
  have hretire : (journalRetire m qp t).mail.paused = m.mail.paused := hstall _
  unfold retireFinal
  repeat' split
  · rfl
  · exact hretire
  · exact hretire

theorem journalMod_paused (qp : Nat) (t : W64) (f : JEntry → JEntry) : (journalMod m qp t f).mail.paused = m.mail.paused := rfl
theorem ticketPut_paused (qp : Nat) (r : TicketRec) : (ticketPut m qp r).mail.paused = m.mail.paused := rfl

theorem finish_paused (k : Kind) (code : Nat) (c : Cmd) (stage status detail : Nat) (rsp : Bytes) (w : Bool) :
    (finish m k code c stage status detail rsp w).mail.paused = m.mail.paused := by
  have hdups (l : List Cpl) (x : Module) : (l.foldl (fun a y => pushCpl a c.qp y) x).mail.paused = x.mail.paused :=
    foldl_keeps (·.mail.paused) _ (fun x y => pushCpl_paused c.qp y) l x
  cases k with
  | work =>
    unfold finish finishWork
    dsimp only
    repeat' split
    all_goals simp only [retireFinal_paused, hdups, pushCpl_paused, journalMod_paused, ticketPut_paused]
  | query => exact pushCpl_paused _ _
  | loc => exact pushCpl_paused _ _

/-! ### The equinox swap -/

/-- The anchor page adds to what a module sends. -/
theorem anchorIfChanged_sends {e : Emit} (old : Module) (he : e ∈ m.out) : e ∈ (anchorIfChanged old m).out := by
  unfold anchorIfChanged anchorChange msi writeAnchor
  repeat' split
  all_goals simp [he]

/-- The drained lead: shadow without a lease, its notice and its RELEASE sent (R283). -/
def drainedLead (m : Module) (h : Handover) : Module :=
  anchorIfChanged m (pairMod (toWitness (emit m (.sync .equinoxNotice)) 3 false)
    (fun x => { x with handover := some { h with released := true }, role := .shadow, leaseEnd := none, claiming := false }))

theorem drainedLead_sent (hs : serving m = true) : .sync .equinoxNotice ∈ (drainedLead m h).out ∧ ∃ r, .witness 3 r ∈ (drainedLead m h).out := by
  obtain ⟨r, hout, -⟩ := toWitness_out (m := emit m (.sync .equinoxNotice)) 3 false hs
  refine ⟨anchorIfChanged_sends _ ?_, r, anchorIfChanged_sends _ ?_⟩
  · rw [pairMod_out, hout]; simp
  · rw [pairMod_out, hout]; simp

theorem failHandover_keeps (hcode : h.code ≠ 0) : (failHandover m h).mail.paused = false
    ∧ (h.code = 0x0504 → tget (failHandover m h).maint.entries 2 = none) := by
  unfold failHandover
  dsimp only
  rw [if_neg hcode]
  refine ⟨?_, fun h504 => ?_⟩
  · rw [finish_paused]
    split <;> simp
  · rw [if_pos h504, finish_maint, tget_leaveClass, if_pos rfl]

/-! ### The course of a resync -/

theorem toReady_points (lead : Bool) : (toReady (discardPoints p) lead).store.points = [] := by
  simp only [toReady, anchorIfChanged_store, pairMod_store, leaveRun]
  split
  · simp [stopLegacy, stopCycles, leavePair, discardPoints]
  · rfl

/-- The joining module of an abandoned resync is in READY, outside the set, and without points (R288). -/
theorem abandonResync_out : (abandonResync m p).1.pair.resync = none ∧ (abandonResync m p).2.store.points = []
    ∧ (abandonResync m p).2.pair.inSet = false ∧ (abandonResync m p).2.pair.joining = none
    ∧ (p.boot.state = .run → (abandonResync m p).2.boot.state = .ready) := by
  have hstate : (if m.pair.partnerInSet then shrinkSet m p else (m, p)).2.boot = p.boot := by
    split <;> rfl
  refine ⟨?_, ?_, ?_, ?_, fun hrun => ?_⟩
  · simp only [abandonResync, endResync_pair]
  · rw [abandonResync, mirrorToken_only]
    exact toReady_points true
  · simp only [abandonResync, mirrorToken_pair, toReady_pair]
    rfl
  · simp only [abandonResync, mirrorToken_pair, toReady_pair]
    rfl
  · simp only [abandonResync, mirrorToken_boot, toReady_state]
    exact if_pos ((congrArg Boot.state hstate).trans hrun)

/-- The lead whose partner enters the set: the pair is warm (R287). -/
def inSetLead (m : Module) (r : Resync) : Module :=
  mailMod (pairMod m (fun x => { x with agen := incAgen x.agen, partnerInSet := true, mode := .warm, resync := some { r with phase := 2 } }))
    (fun q => { q with reports := [] })

def warmLead (m : Module) (r : Resync) : Module := anchorIfChanged m (inSetLead m r)

/-- The joining module, a shadow in the set. -/
def joined (m p : Module) (r : Resync) : Module :=
  anchorIfChanged p (mirrorToken (inSetLead m r)
    (pairMod p (fun x => { x with agen := (inSetLead m r).pair.agen, inSet := true, mode := .warm, role := .shadow, joining := some 2 })))

/-! ### The data of a resync -/

theorem tget_mapVals {α β : Type} (t : Table α) (g : Nat → α → β) (i : Nat) : tget (t.map (fun x => (x.1, g x.1 x.2))) i = (tget t i).map (g i) := by
  induction t with
  | nil => rfl
  | cons x t ih =>
    obtain ⟨k, a⟩ := x
    simp only [List.map_cons, tget]
    split
    · subst_vars; rfl
    · exact ih

/-- What follows a copied item leaves the mailbox, and of the store all but the marks of subscriptions. -/
def resyncSettled (m p : Module) : Module := refresh (alignStreams (refreshSubscribed m) p)

theorem resyncSettled_store : (resyncSettled m p).store = (refreshSubscribed m).store := by
  simp [resyncSettled, alignStreams]

theorem resyncSettled_mail : (resyncSettled m p).mail = m.mail := by
  simp [resyncSettled, alignStreams, refreshSubscribed]

/-- A point with its mark of a subscription. -/
def markSubscribed (subs : Table Subscription) (i : Nat) (r : PointRec) : PointRec :=
  { r with subscribed := r.ty.isSome && (subs.map (fun x => x.2.handles)).flatten.any (fun h => hIdx h == i && hGen h == r.gen) }

/-- A copied point is the lead's, but for the mark of a subscription. -/
theorem resynced_point (i : Nat) : (tget (refreshSubscribed (copyItem m p .points)).store.points i).map (fun r => (r.value, r.quality, r.owner, r.gen))
    = (tget p.store.points i).map (fun r => (r.value, r.quality, r.owner, r.gen)) := by
  have hpoints := tget_mapVals p.store.points (markSubscribed p.store.subs) i
  refine (congrArg (Option.map _) hpoints).trans ?_
  rw [Option.map_map]
  rfl

theorem takeResync_one {item : ResyncItem} (hf : follower m p = true) (hmark : item ≠ .marked) (hstate : item ≠ .pairState) :
    (takeResync item m p).1 = resyncSettled (copyItem m p item) p := by
  unfold takeResync
  rw [if_neg (by simp [hf])]
  dsimp only
  rw [if_neg hstate]
  cases item with
  | marked => exact absurd rfl hmark
  | _ => rfl

/-! ### The catch-up of a warm takeover -/

@[simp] theorem launchRing_pair (seg : Nat) (b : Bytes) : (launchRing m seg b).pair = m.pair := rfl

@[simp] theorem sendLeadOnly_pair (seg : Nat) (b : Bytes) : (sendLeadOnly m p seg b).pair = m.pair := by
  unfold sendLeadOnly
  dsimp only
  repeat' split
  all_goals simp

@[simp] theorem sendOut_pair (id : Nat) (launch : W64) : (sendOut m p id launch).pair = m.pair := by
  unfold sendOut
  repeat' split
  all_goals simp

theorem catchupDrop_pair (launch : W64) (id : Nat) : (catchupDrop launch p m id).pair = m.pair := by
  unfold catchupDrop
  split
  · rfl
  · split
    · rfl
    · dsimp only
      repeat' split
      all_goals simp

theorem catchupLaunch_pair (launch : W64) (hrun : inRun m = true) (hlead : isLead m = true) (hc : m.pair.catchup = true) :
    (catchupLaunch launch m p).pair = { m.pair with catchup := false } := by
  unfold catchupLaunch
  rw [if_neg (by simp [hrun, hlead, hc])]
  have hfold := foldl_keeps (·.pair) (catchupDrop launch p) (fun a id => catchupDrop_pair launch id) (tkeys m.field.drops) m
  show { ((tkeys m.field.drops).foldl (catchupDrop launch p) m).pair with catchup := false } = _
  rw [hfold]

end

/-- Settles O35. -/
theorem handoverResyncEvents : Obligations.HandoverResyncEvents := by
  unfold Obligations.HandoverResyncEvents
  intro s sl
  dsimp only
  refine ⟨fun h hh => ⟨fun hrel hlead hs hlink => ⟨fun hdrained => ?_, fun hdrained => ?_⟩, fun hrel => ⟨?_, ?_⟩,
      fun hrel hlead hcode => ?_, fun hrel hlead hrun hor => ?_, fun hrel => ?_⟩,
    fun hnone => ⟨?_, ?_, ?_⟩, fun h hh hrel hrun hlink hlead hmay => ?_, fun hnone => ?_, fun hs hlead hdays => ⟨fun hle => ?_, fun hlt => ?_⟩,
    fun hrun hlead hjoin hnone hforeign hlease hagen hj => ⟨fun hready hauto => ?_, fun hready hauto => ?_⟩,
    fun r hr hlead hlink hs => ⟨fun hphase hwarm => ?_, fun hphase hwarm => ?_, fun hphase => ?_,
      fun cut hphase hcompat hge hsteady => ?_, fun cut hphase hcompat hready => ?_, ?_⟩,
    fun hnone => ⟨?_, ?_, fun cut => ?_⟩, fun item hf => ?_, fun hf => ⟨?_, ?_, ?_⟩, fun launch hrun hlead hc => ?_, fun launch hc => ?_,
    fun cls e hfw hlead he => ⟨fun hqp => ?_, fun hqp => ?_⟩, fun qp t code c hfind => ?_, fun qp t hfind => ?_⟩
  · obtain ⟨hnotice, hrelease⟩ := drainedLead_sent (h := h) hs
    refine ⟨drainedLead (modOf s sl) h, becomes_of_pair (exec_equinoxDrainDone sl s) ?_, ?_, ?_, ?_, hnotice, hrelease⟩
    · simp only [hh]
      exact if_neg (by simp [hrel, hlead, hs, hlink, hdrained])
    all_goals simp [drainedLead]
  · refine idle_of_pair (exec_equinoxDrainDone sl s) ?_
    simp only [hh]
    exact if_pos (by simp [hdrained])
  · refine idle_of_pair (exec_equinoxDrainDone sl s) ?_
    simp only [hh]
    exact if_pos (by simp [hrel])
  · refine becomesBoth_of (exec_equinoxDrainTimeout sl s) ?_
    simp only [withToken, hh, hrel, Bool.true_or, if_true]
  · obtain ⟨hpaused, hentries⟩ := failHandover_keeps (m := modOf s sl) hcode
    have hrole : (modOf s sl).pair.role = .lead := by simpa [isLead] using hlead
    refine ⟨failHandover (modOf s sl) h, mirrorToken (failHandover (modOf s sl) h) (modOf s (otherSlot sl)),
      becomesBoth_of (exec_equinoxDrainTimeout sl s) ?_, by rw [failHandover_pair], hpaused, by rw [failHandover_pair]; exact hrole, hentries⟩
    simp only [withToken, hh]
    rw [if_neg (by simp [hrel, hlead, hcode])]
  · refine ⟨startClaim (modOf s sl) false, if linked (modOf s sl) (modOf s (otherSlot sl)) then pairMod (modOf s (otherSlot sl))
      (fun x => { x with noticed := false, claiming := false }) else modOf s (otherSlot sl),
      becomesBoth_of (exec_equinoxGrantTimeout sl s) ?_, by simp, fun hlink => by rw [if_pos hlink]; exact ⟨rfl, rfl⟩⟩
    simp only [hh]
    exact if_pos (by rcases hor with h | h <;> simp [hrel, hlead, hrun, h])
  · refine idleBoth_of (exec_equinoxGrantTimeout sl s) ?_
    simp only [hh]
    exact if_neg (by simp [hrel])
  · refine idle_of_pair (exec_equinoxDrainDone sl s) ?_
    simp only [hnone]
  · refine becomesBoth_of (exec_equinoxDrainTimeout sl s) ?_
    simp only [withToken, hnone]
  · refine idleBoth_of (exec_equinoxGrantTimeout sl s) ?_
    simp only [hnone]
  · refine ⟨_, becomes_of_pair (exec_equinoxNoticeReceive sl s)
      (m' := startClaim (pairMod (modOf s sl) (fun x => { x with noticed := true })) false) ?_, by simp, by simp, by simp⟩
    simp only [hh]
    exact if_pos (by simp [hrun, hlink, hrel, hlead, hmay])
  · refine idle_of_pair (exec_equinoxNoticeReceive sl s) ?_
    simp only [hnone]
  · exact becomes_of (exec_equinoxDueTimer sl s) (if_pos (by simp [hs, hlead, hdays, hle]))
  · exact idle_of (exec_equinoxDueTimer sl s) (if_neg (by simp [not_le.2 hlt]))
  · obtain ⟨hjoining, -, -⟩ := startResync_snd (m := modOf s sl) (p := modOf s (otherSlot sl)) none
    refine ⟨(startResync (modOf s sl) (modOf s (otherSlot sl)) none).1, (startResync (modOf s sl) (modOf s (otherSlot sl)) none).2,
      { phase := 1, cmd := none, warmShadow := (modOf s (otherSlot sl)).boot.state == .run }, becomesBoth_of (exec_autoResyncStart sl s) (if_pos ?_),
      by simp [startResync], rfl, rfl, hjoining⟩
    simp [hrun, hlead, hjoin, hnone, hforeign, hlease, agenSpent, hj, hready, hauto]
    simpa using hagen
  · exact idleBoth_of (exec_autoResyncStart sl s) (if_neg (by simp [hready, hauto]))
  · refine ⟨warmLead (modOf s sl) r, joined (modOf s sl) (modOf s (otherSlot sl)) r, becomesBoth_of (exec_resyncCopyDone sl s) ?_, ?_⟩
    · simp only [hr]
      exact (if_neg (by simp [hphase, hlead, hlink, hs])).trans (if_neg (by simp [hwarm]))
    · simp [warmLead, joined, inSetLead]
  · refine ⟨pairMod (modOf s sl) (fun x => { x with resync := some { r with phase := 3 } }),
      pairMod (modOf s (otherSlot sl)) (fun x => { x with joining := some 3 }), becomesBoth_of (exec_resyncCopyDone sl s) ?_, rfl, rfl⟩
    simp only [hr]
    exact (if_neg (by simp [hphase, hlead, hlink, hs])).trans (if_pos hwarm)
  · refine idleBoth_of (exec_resyncCopyDone sl s) ?_
    simp only [hr]
    exact if_pos (by simp [hphase])
  · refine ⟨emit (pairMod (modOf s sl) (fun x => { x with resync := some { r with phase := 4, cutover := some cut }, cutover := some cut }))
      (.sync (.cutover cut)), pairMod (modOf s (otherSlot sl)) (fun x => { x with joining := some 4, cutover := some cut }),
      becomesBoth_of (exec_resyncFollowDone sl cut s) ?_, rfl, rfl, rfl, rfl⟩
    unfold followDone
    simp only [hr]
    exact (if_neg (by simp [hphase, hlead, hlink, hs])).trans ((if_neg (by simp [hcompat])).trans (if_neg (by rw [hge, hsteady]; decide)))
  · refine ⟨endResync (modOf s sl) 0, mirrorToken (endResync (modOf s sl) 0) (pairMod (if (modOf s (otherSlot sl)).boot.state = .ready
      then enterRun (modOf s (otherSlot sl)) else modOf s (otherSlot sl)) (fun x => { x with joining := none })),
      becomesBoth_of (exec_resyncFollowDone sl cut s) ?_, ?_, ?_, ?_⟩
    · unfold followDone
      simp only [hr]
      exact (if_neg (by simp [hphase, hlead, hlink, hs])).trans (if_pos (by simp [hcompat]))
    · simp
    · simp [hready, enterRun_state]
    · simp
  · obtain ⟨hresync, hpoints, hset, hjoining, hstate⟩ := abandonResync_out (m := modOf s sl) (p := modOf s (otherSlot sl))
    exact ⟨_, _, becomesBoth_of (exec_resyncTimeout sl s) (if_pos (by simp [hlead, hr, hlink])), hresync, hpoints, hset, hjoining, hstate⟩
  · exact idleBoth_of (exec_resyncTimeout sl s) (if_neg (by simp [hnone]))
  · refine idleBoth_of (exec_resyncCopyDone sl s) ?_
    simp only [hnone]
  · refine idleBoth_of (exec_resyncFollowDone sl cut s) ?_
    unfold followDone
    simp only [hnone]
  · exact idleBoth_of (exec_syncResyncDataReceive sl item s) (if_pos (by simp [hf]))
  · have hone := takeResync_one (item := .points) hf (by decide) (by decide)
    refine ⟨(takeResync .points (modOf s sl) (modOf s (otherSlot sl))).1, (takeResync .points (modOf s sl) (modOf s (otherSlot sl))).2,
      becomesBoth_of (exec_syncResyncDataReceive sl .points s) rfl, ?_, fun i => ?_⟩
    · rw [hone, resyncSettled_store]
      rfl
    · rw [hone, resyncSettled_store]
      exact resynced_point i
  · have hone := takeResync_one (item := .tickets) hf (by decide) (by decide)
    refine ⟨(takeResync .tickets (modOf s sl) (modOf s (otherSlot sl))).1, (takeResync .tickets (modOf s sl) (modOf s (otherSlot sl))).2,
      becomesBoth_of (exec_syncResyncDataReceive sl .tickets s) rfl, ?_, ?_⟩ <;> rw [hone, resyncSettled_mail] <;> rfl
  · have hone := takeResync_one (item := .partitions) hf (by decide) (by decide)
    refine ⟨(takeResync .partitions (modOf s sl) (modOf s (otherSlot sl))).1, (takeResync .partitions (modOf s sl) (modOf s (otherSlot sl))).2,
      becomesBoth_of (exec_syncResyncDataReceive sl .partitions s) rfl, ?_⟩
    rw [hone, resyncSettled_store]
    rfl
  · exact ⟨_, becomes_of_pair (exec_warmCatchupLaunch sl launch s) rfl, catchupLaunch_pair launch hrun hlead hc⟩
  · exact idle_of_pair (exec_warmCatchupLaunch sl launch s) (if_pos (by simp [hc]))
  · refine ⟨leaveClass (modOf s sl) 2 cls, mirrorToken (leaveClass (modOf s sl) 2 cls) (modOf s (otherSlot sl)),
      becomesBoth_of (exec_maintLeaseExpiry sl cls s) ?_, by rw [tget_leaveClass, if_pos rfl], fun hlink hset => ?_⟩
    · simp only [withToken, he]
      rw [if_neg (by simp [hfw, hlead]), if_pos hqp]
    · rw [mirrorToken, if_pos]
      · rfl
      · have hlink' : linked (leaveClass (modOf s sl) 2 cls) (modOf s (otherSlot sl)) = true := by
          rw [linked, leaveClass_pair]; exact hlink
        have hlead' : isLead (leaveClass (modOf s sl) 2 cls) = true := by
          rw [isLead, leaveClass_pair]; exact hlead
        simp [hlink', hlead', hset]
  · refine ⟨mirrorToken (modOf s sl) (modOf s (otherSlot sl)), becomesBoth_of (exec_maintLeaseExpiry sl cls s) ?_⟩
    simp only [withToken, he]
    rw [if_neg (by simp [hfw, hlead]), if_neg hqp]
  · refine ⟨_, becomes_of (exec_maintWaitTimeout sl qp t s) ?_, rfl⟩
    simp only [hfind]
    rfl
  · refine idle_of (exec_maintWaitTimeout sl qp t s) ?_
    simp only [hfind]

end Sys2Proof.Machine

/-! PROOF. A write to the image aperture (R37). -/

namespace Sys2Proof.Machine
open Sys2Proof Sys2Proof.Bits Sys2Proof.Safety

section
variable {m : Module} {i c off : Nat} {data : Bytes}

theorem regionOf_regionMod (m : Module) (i c : Nat) (f : Region → Region) : regionOf (regionMod m i c f) i c = f (regionOf m i c) := by
  rw [regionOf, regionMod, slotAt_slotMod, regionOf]
  unfold regionIn
  split <;> rfl

theorem regionOf_setCode (m : Module) (code i c : Nat) : regionOf (setCode m code) i c = regionOf m i c := by
  rcases i with _ | _ | i <;> rfl

theorem regionMod_code (m : Module) (i c : Nat) (f : Region → Region) : (regionMod m i c f).boot.code = m.boot.code := by
  rw [regionMod, slotMod_only]

/-- What is stored are the bytes, whatever becomes of the header's marks. -/
theorem storeBytes_bytes (r : Region) (o : Nat) (data : Bytes) (h : Bool) : (storeBytes r o data h).bytes = memWrite r.bytes o data := by
  unfold storeBytes
  dsimp only
  split <;> rfl

/-- A write to the aperture, by the region that it meets. -/
theorem apertureStore_region (hw : bar0Writes m = true) (hc : clsOf m.boot.cls = some c) (hi : apertureSlot m = some i) :
    apertureStore m off data =
      if !(regionOf m i c).isOpen || m.boot.pulling || (regionOf m i c).hdrBad then m
      else if regionSize c < m.boot.win.toNat * 32768 + off + data.length then setCode m 0x0F
      else regionMod m i c (fun r => storeBytes r (m.boot.win.toNat * 32768 + off) data m.boot.hdrFirst) := by
  unfold apertureStore
  rw [if_neg (by simp [hw]), hi, hc]

theorem memGet_stored (l : List (Nat × Byte)) (o : Nat) {k : Nat} {b : Byte} (h : data[k]? = some b) : memGet (memWrite l o data) (o + k) = b := by
  obtain ⟨hk, rfl⟩ := List.getElem?_eq_some_iff.1 h
  rw [memGet_memWrite, if_pos (by omega), Nat.add_sub_cancel_left, List.getD_eq_getElem _ _ hk]

end

/-- Settles O56. -/
theorem apertureMemory : Obligations.ApertureMemory := by
  unfold Obligations.ApertureMemory
  intro s sl i c off data
  dsimp only
  intro hw hc hi
  have hstore := apertureStore_region (off := off) (data := data) hw hc hi
  refine ⟨apertureStore (modOf s sl) off data, becomes_of (exec_apertureWrite sl off data s) rfl, fun hwf => ?_,
    fun hopen hpull hbad hfits => ?_, fun hor => ?_, fun hopen hpull hbad hlt => ?_⟩
  · rw [hstore]
    split
    · exact hwf
    · split
      · rwa [regionOf_setCode]
      · rw [regionOf_regionMod, storeBytes_bytes]
        exact memWrite_wf _ _ _ hwf
  · rw [if_neg (by simp [hopen, hpull, hbad]), if_neg (by omega)] at hstore
    rw [hstore, regionOf_regionMod, storeBytes_bytes]
    refine ⟨fun k b hk => memGet_stored _ _ hk, fun a ha => ?_, regionMod_code _ _ _ _⟩
    rw [memGet_memWrite, if_neg (by omega)]
  · rw [hstore, if_pos (by rcases hor with h | h | h <;> simp [h])]
  · rw [hstore, if_neg (by simp [hopen, hpull, hbad]), if_pos hlt, regionOf_setCode]
    exact ⟨rfl, rfl⟩

end Sys2Proof.Machine

/-! PROOF. Quondi over UDP: datagrams of a session in order, out of order and from strangers, and resends (R85 to R87). -/

namespace Sys2Proof.Machine
open Sys2Proof Sys2Proof.Bits Sys2Proof.Safety

/-! ### Sequence numbers -/

theorem newer32_self (a : W32) : newer32 a a = false := by
  simp [newer32, dist32]

/-- Of two sequence numbers not both are newer. -/
theorem newer32_asymm {a b : W32} (h : newer32 a b = true) : newer32 b a = false := by
  unfold newer32 dist32 at h ⊢
  rw [decide_eq_true_eq] at h
  rw [decide_eq_false_iff_not]
  bv_omega

section
variable {m p : Module} {dg : UdpDgram} {q : Qp} {gap : Nat} {f : W64}

/-! ### A datagram -/

theorem takeDgram_stranger (hq : tget m.mail.qps dg.qp = some q)
    (h : q.st = .closed ∨ q.udp = false ∨ q.peer ≠ dg.peer ∨ q.peerPort ≠ dg.port ∨ dg.crcGood = false) :
    takeDgram m p dg gap f = udpDiscard m := by
  rw [takeDgram, hq]
  dsimp only
  by_cases hpeer : q.st = .closed ∨ q.udp = false ∨ q.peer ≠ dg.peer ∨ q.peerPort ≠ dg.port
  · rw [if_pos (by rcases hpeer with h | h | h | h <;> simp [h])]
  · have hcrc : dg.crcGood = false := by tauto
    rw [if_neg (by simpa [and_assoc] using hpeer), if_pos (by simp [hcrc])]

section
variable (hq : tget m.mail.qps dg.qp = some q) (hst : q.st = .opened) (hudp : q.udp = true) (hpeer : q.peer = dg.peer)
  (hport : q.peerPort = dg.port) (hcrc : dg.crcGood = true)
include hq hst hudp hpeer hport hcrc

/-- What a datagram of the session's peer meets. -/
theorem takeDgram_peer : takeDgram m p dg gap f =
    if newer32 m.pair.leadEpoch dg.leadEpoch || newer32 dg.dseq q.dseqIn then udpStatus (udpDiscard m) dg.qp q
    else if m.boot.handover || !mayTake m q || decide (256 < q.inFlight + dg.entries.length)
        || (isLead m && (m.mail.paused || m.mail.stalled) && dg.entries.any (fun e => isWork e.1))
        || dg.entries.any (fun e => awaitsAccept m dg.qp e.1.ticket) then m
    else takeAll (if dg.dseq = q.dseqIn then qpMod m dg.qp (fun x => { x with dseqIn := x.dseqIn + 1 }) else m) p dg.qp gap f dg.entries := by
  rw [takeDgram, hq]
  dsimp only
  rw [if_neg (by simp [hst, hudp, hpeer, hport]), if_neg (by simp [hcrc])]

theorem takeDgram_taken (hepoch : newer32 m.pair.leadEpoch dg.leadEpoch = false) (hseq : newer32 dg.dseq q.dseqIn = false)
    (hho : m.boot.handover = false) (hpaused : m.mail.paused = false) (hstalled : m.mail.stalled = false) (hfull : cqFull q = false)
    (hlen : q.inFlight + dg.entries.length ≤ 256) (hqf : q.inFlight < 256) (hmf : m.mail.inFlight < 4096)
    (hwait : ∀ e ∈ dg.entries, awaitsAccept m dg.qp e.1.ticket = false) : takeDgram m p dg gap f
      = takeAll (if dg.dseq = q.dseqIn then qpMod m dg.qp (fun x => { x with dseqIn := x.dseqIn + 1 }) else m) p dg.qp gap f dg.entries := by
  have hany : dg.entries.any (fun e => awaitsAccept m dg.qp e.1.ticket) = false := by
    rw [List.any_eq_false]
    intro e he
    simp [hwait e he]
  rw [takeDgram_peer hq hst hudp hpeer hport hcrc, if_neg (by simp [hepoch, hseq]),
    if_neg (by simp [hho, mayTake, hst, hqf, hmf, hfull, hpaused, hstalled, hany, Nat.not_lt.2 hlen])]

end

end

/-- Settles O47. -/
theorem udpEvents : Obligations.UdpEvents := by
  unfold Obligations.UdpEvents
  intro s sl
  dsimp only
  have receive (dg : UdpDgram) : exec (.udpDatagramReceive sl dg) s = .next { withMod s sl (if fw (modOf s sl) then takeDgram (modOf s sl)
      (modOf s (otherSlot sl)) dg (Config.ticketGap s.fresh) (Config.freeValue s.fresh) else modOf s sl) with fresh := s.fresh + 1 } :=
    exec_udpDatagramReceive sl dg s
  refine ⟨fun dg hfw => ?_, fun dg hfw hnone => ?_, fun dg q hfw hq => ⟨fun hor => ?_, fun hst hudp hpeer hport hcrc => ⟨fun hor => ?_,
      fun hepoch hho hpaused hstalled hfull hlen hqf hmf hwait => ⟨fun hseq => ?_, fun hseq => ?_⟩⟩⟩,
    fun qp q peer port next hfw hq hst hudp => ⟨fun hpeer hport => ?_, fun hor => ?_⟩, fun qp peer port next hfw => ⟨?_, ?_⟩,
    fun qp q hfw hq hudp => ⟨fun hun => ?_, fun hun => ?_⟩⟩
  · rw [receive, if_neg (by simp [hfw])]
  · rw [receive, if_pos hfw, takeDgram, hnone]
    rfl
  · rw [receive, if_pos hfw, takeDgram_stranger hq hor]
    rfl
  · rw [receive, if_pos hfw, takeDgram_peer hq hst hudp hpeer hport hcrc, if_pos (by simpa using hor)]
    rfl
  · rw [receive, if_pos hfw, takeDgram_taken hq hst hudp hpeer hport hcrc hepoch (hseq ▸ newer32_self _) hho hpaused hstalled hfull hlen hqf hmf
      hwait, if_pos hseq]
  · have hne : dg.dseq ≠ q.dseqIn := by
      intro h
      rw [h, newer32_self] at hseq
      cases hseq
    rw [receive, if_pos hfw, takeDgram_taken hq hst hudp hpeer hport hcrc hepoch (newer32_asymm hseq) hho hpaused hstalled hfull hlen hqf hmf
      hwait, if_neg hne]
  · refine ⟨qpMod (modOf s sl) qp (fun x => { x with unacked := x.unacked.filter (fun d => !newer32 next d) }),
      becomes_of (exec_udpSequenceStatusReceive sl qp peer port next s) ((if_neg (by simp [hfw])).trans ?_), ?_⟩
    · simp only [hq]
      exact if_neg (by simp [hst, hudp, hpeer, hport])
    · simp [qpMod, hq]
  · refine becomes_of (exec_udpSequenceStatusReceive sl qp peer port next s) ((if_neg (by simp [hfw])).trans ?_)
    simp only [hq]
    exact if_pos (by rcases hor with h | h <;> simp [h])
  · exact idle_of (exec_udpSequenceStatusReceive sl qp peer port next s) (if_pos (by simp [hfw]))
  · refine idle_of (exec_udpResendTimer sl qp s) ?_
    cases hq : tget (modOf s sl).mail.qps qp with
    | none => rfl
    | some q => exact if_neg (by simp [hfw])
  · refine becomes_of (exec_udpResendTimer sl qp s) ?_
    simp only [hq]
    exact if_pos (by simp [hfw, hudp, hun])
  · refine idle_of (exec_udpResendTimer sl qp s) ?_
    simp only [hq]
    exact if_neg (by simp [hun])

end Sys2Proof.Machine

/-! PROOF. The Chronicle: a pending record gets its number and its place, and a run of suppressions ends with its summary (R309 to R313). -/

namespace Sys2Proof.Machine
open Sys2Proof Sys2Proof.Bits Sys2Proof.Safety

/-! ### The place of a record -/

/-- A record with another place stays. -/
theorem mem_storeRec_of_near {l : List ChronRec} {r x : ChronRec} (hx : x ∈ l) (hlt : x.seq < r.seq) (hnear : r.seq < x.seq + 524288) :
    x ∈ storeRec l r := by
  have hne : x.seq % chronMax ≠ r.seq % chronMax := by
    unfold chronMax
    omega
  simp [storeRec, hx, hne]

/-- The record 524,288 numbers older gives up its place. -/
theorem not_mem_storeRec {l : List ChronRec} {r x : ChronRec} (hseq : x.seq + 524288 = r.seq) : x ∉ storeRec l r := by
  have heq : x.seq % chronMax = r.seq % chronMax := by
    unfold chronMax
    omega
  have hne : x ≠ r := by
    rintro rfl
    omega
  simp [storeRec, heq, hne]

/-! ### A record is written -/

/-- The record that an event becomes. -/
def recordOf (m : Module) (e : ChronEvent) : ChronRec :=
  { seq := m.chron.lastSeq + 1, ev := e, localFlag := writesLocal m, imported := false, leadEpoch := m.pair.leadEpoch, origSeq := 0 }

section
variable (m : Module) (e : ChronEvent)

theorem writeChron_recs : (writeChron m e false 0).chron.recs = storeRec m.chron.recs (recordOf m e) := by
  unfold writeChron
  dsimp only
  split <;> rfl

theorem writeChron_lastSeq : (writeChron m e false 0).chron.lastSeq = m.chron.lastSeq + 1 := by
  unfold writeChron
  dsimp only
  split <;> rfl

theorem writeChron_pendingRecs : (writeChron m e false 0).chron.pendingRecs = m.chron.pendingRecs := by
  unfold writeChron
  dsimp only
  split <;> rfl

variable {m}

theorem writeChron_mirrored (hl : isLead m = true) (hm : mirrors m = true) :
    (writeChron m e false 0).out = m.out ++ [.sync (.chronicle (recordOf m e))]
      ∧ (writeChron m e false 0).chron.unacked = m.chron.unacked ++ [(recordOf m e).seq] := by
  unfold writeChron
  dsimp only
  rw [if_pos (by simp [hl, hm])]
  exact ⟨rfl, rfl⟩

theorem writeChron_alone (h : isLead m = false ∨ mirrors m = false) :
    (writeChron m e false 0).out = m.out ∧ (writeChron m e false 0).chron.unacked = m.chron.unacked := by
  unfold writeChron
  dsimp only
  rw [if_neg (by rcases h with h | h <;> simp [h])]
  exact ⟨rfl, rfl⟩

end

/-! ### The end of a run of suppressions -/

/-- The fields of a summary (R313). -/
theorem summaryEvent_data (m : Module) (code : Nat) (r : SuppressRun) :
    le (summaryEvent m code r).data 0 2 = code % 65536 ∧ le (summaryEvent m code r).data 4 4 = sat32 r.count
      ∧ le (summaryEvent m code r).data 8 8 = r.firstT.toNat ∧ le (summaryEvent m code r).data 16 8 = r.lastT.toNat := by
  have hcount : sat32 r.count < 256 ^ 4 := by
    unfold sat32
    omega
  have hlast : le (leBytes 8 r.lastT.toNat) 0 8 = r.lastT.toNat := by
    rw [← List.append_nil (leBytes 8 r.lastT.toNat), le_front, Nat.mod_eq_of_lt (show r.lastT.toNat < 256 ^ 8 from r.lastT.isLt)]
  unfold summaryEvent
  dsimp only
  simp only [List.append_assoc]
  refine ⟨le_front _ _ _, ?_, ?_, ?_⟩
  · rw [le_skip _ _ 4 _ 2 (leBytes_length _ _) (by decide), le_skip _ _ _ _ 2 (zeros_length _) (by decide), le_front, Nat.mod_eq_of_lt hcount]
  · rw [le_skip _ _ 8 _ 2 (leBytes_length _ _) (by decide), le_skip _ _ _ _ 2 (zeros_length _) (by decide),
      le_skip _ _ _ _ 4 (leBytes_length _ _) (by decide), le_front, Nat.mod_eq_of_lt (show r.firstT.toNat < 256 ^ 8 from r.firstT.isLt)]
  · rw [le_skip _ _ 16 _ 2 (leBytes_length _ _) (by decide), le_skip _ _ _ _ 2 (zeros_length _) (by decide),
      le_skip _ _ _ _ 4 (leBytes_length _ _) (by decide), le_skip _ _ _ _ 8 (leBytes_length _ _) (by decide)]
    exact hlast

theorem endRun_open {m : Module} {code : Nat} {r : SuppressRun} (h : tget m.chron.runs code = some r) :
    tget (endRun m code).chron.runs code = none ∧ (endRun m code).chron.pendingRecs = m.chron.pendingRecs ++ [summaryEvent m code r] := by
  unfold endRun
  rw [h]
  exact ⟨(tget_tdel _ _ _).trans (if_pos rfl), rfl⟩

theorem queueEvent_suppressed {m : Module} {e : ChronEvent} (h : permitted m e = false) :
    queueEvent m e = chronMod (suppress m e) (fun c => { c with buckets := tset c.buckets e.code (bucketOf m e.code e.severity) }) := by
  have hex : exemptCode e.code = false := by
    unfold permitted at h
    rw [Bool.or_eq_false_iff] at h
    exact h.1
  unfold queueEvent
  dsimp only
  rw [if_neg (by simp [hex]), if_neg (by simp [h])]
  rfl

theorem suppress_run (m : Module) (e : ChronEvent) : ∃ r, tget (suppress m e).chron.runs e.code = some r ∧ r.lastT = e.time := by
  unfold suppress
  dsimp only
  cases tget m.chron.runs e.code <;> exact ⟨_, tget_tset_same _ _ _, rfl⟩

/-- Settles O45. -/
theorem chronicleEvents : Obligations.ChronicleEvents := by
  unfold Obligations.ChronicleEvents
  intro s sl
  dsimp only
  refine ⟨fun hnone => ?_, fun e rest hfw hp => ⟨fun hw => ?_, fun hl hw => ?_⟩, fun code hfw hnone => ?_, fun code r hfw hsorted hr => ?_,
    fun e hex => ?_, fun e hperm => ?_⟩
  · refine idle_of (exec_chronicleRecordWrite sl s) ?_
    rcases hnone with hfw | hp
    · cases (modOf s sl).chron.pendingRecs with
      | nil => rfl
      | cons e rest => exact if_pos (by simp [hfw])
    · rw [hp]
  · let m1 := chronMod (modOf s sl) (fun c => { c with pendingRecs := rest })
    refine ⟨writeChron m1 e false 0, recordOf m1 e, ?_, writeChron_pendingRecs _ _, writeChron_lastSeq _ _, ?_, rfl, rfl, rfl, rfl, ?_, ?_,
      fun hl hm => writeChron_mirrored e hl hm, fun h => writeChron_alone e h⟩
    · refine becomes_of (exec_chronicleRecordWrite sl s) ?_
      simp only [hp]
      rw [if_neg (by simp [hfw]), if_pos (by rcases hw with h | h <;> simp [h])]
    · rw [writeChron_recs]
      simp [storeRec]
    · intro x hx hlt hnear
      rw [writeChron_recs]
      exact mem_storeRec_of_near hx hlt hnear
    · intro x _ hseq
      rw [writeChron_recs]
      exact not_mem_storeRec hseq
  · refine ⟨emit (chronMod (modOf s sl) (fun c => { c with pendingRecs := rest })) (.sync (.shadowEvent e)), ?_, rfl, rfl, rfl⟩
    refine becomes_of (exec_chronicleRecordWrite sl s) ?_
    simp only [hp]
    rw [if_neg (by simp [hfw]), if_neg (by simp [hl, hw])]
  · refine idle_of (exec_summaryTimeout sl code s) ?_
    rw [if_pos hfw, endRun, hnone]
  · obtain ⟨hgone, hpending⟩ := endRun_open hr
    obtain ⟨hcode, hcount, hfirst, hlast⟩ := summaryEvent_data (modOf s sl) code r
    exact ⟨endRun (modOf s sl) code, summaryEvent (modOf s sl) code r,
      becomes_of (exec_summaryTimeout sl code s) (if_pos hfw), hgone, hpending, rfl, hcode, hcount, hfirst, hlast⟩
  · unfold queueEvent
    exact if_pos hex
  · rw [queueEvent_suppressed hperm]
    obtain ⟨r, hr, ht⟩ := suppress_run (modOf s sl) e
    exact ⟨rfl, rfl, r, hr, ht⟩

end Sys2Proof.Machine

/-! PROOF. Errors in DRAM and MRAM, and the patrol (R17, R18, R362, R418). -/

namespace Sys2Proof.Machine
open Sys2Proof Sys2Proof.Bits Sys2Proof.Safety

section
variable (m p : Module)

/-! ### What entering HALT and UMBRA keeps -/

theorem enterHalt_diag : (enterHalt m).diag = m.diag := by
  unfold enterHalt
  simp [mailMod, leavePair, pairMod, stopConns, stopLegacy, holdLanes, stopCycles]

theorem enterUmbra_diag (cause detail : Nat) : (enterUmbra m cause detail).diag = m.diag := by
  unfold enterUmbra
  split
  · rfl
  · split
    case h_7 => rfl
    all_goals simp [enterHalt_diag, leavePair, pairMod, stopConns, stopLegacy, stopCycles]

/-- A task without a cycle is not touched. -/
def Stopped (m : Module) (t : Nat) : Prop := ∃ k, taskOf m t = some k ∧ k.st = .stopped ∧ k.cycle = none

theorem Stopped.of_exec {m m' : Module} {t : Nat} (h : Stopped m t) (hx : m'.exec = m.exec) : Stopped m' t := by
  unfold Stopped taskOf at h ⊢
  rwa [hx]

theorem Stopped.stopCycles {m : Module} {t : Nat} (h : Stopped m t) : Stopped (stopCycles m) t := by
  obtain ⟨k, hk, hst, -⟩ := h
  unfold taskOf at hk
  have hmap (l : Table Task) (h : tget l t = some k) : tget (l.map (fun x => (x.1, { x.2 with cycle := none }))) t = some { k with cycle := none } := by
    exact (tget_mapVals l (fun _ (k : Task) => { k with cycle := none }) t).trans (by rw [h, Option.map_some])
  exact ⟨_, hmap _ hk, hst, rfl⟩

theorem Stopped.enterUmbra {m : Module} {t : Nat} (h : Stopped m t) (cause detail : Nat) : Stopped (enterUmbra m cause detail) t := by
  have hhalt : Stopped (enterHalt m) t := by
    refine h.stopCycles.of_exec ?_
    unfold enterHalt
    simp [mailMod, leavePair, pairMod, stopConns, stopLegacy, holdLanes]
  unfold Machine.enterUmbra
  split
  · exact h
  · split
    case h_1 => exact hhalt
    case h_2 => exact hhalt
    case h_3 => exact hhalt
    case h_7 => exact h
    all_goals exact h.stopCycles.of_exec (by simp [leavePair, pairMod, stopConns, stopLegacy])

/-! ### An error in the point store or a program bank -/

theorem ite_keeps {α : Type} {c : Prop} [Decidable c] {a b : Module} {v : α} (g : Module → α) (ha : g a = v) (hb : g b = v) :
    g (if c then a else b) = v := by
  split <;> assumption

/-- Reporting touches the subscriptions and what the module sends. -/
theorem reportOne_exec_diag (sub : Nat) (x : Subscription) (h : W32) (q : W16) (v t : W64) :
    ((reportOne m sub x h q v t).exec, (reportOne m sub x h q v t).diag) = (m.exec, m.diag) := by
  unfold reportOne
  dsimp only
  split <;> rfl

theorem reportChanges_exec_diag (old : Table PointRec) :
    ((reportChanges old m).exec, (reportChanges old m).diag) = (m.exec, m.diag) := by
  unfold reportChanges
  split
  · refine foldl_keeps (fun a => (a.exec, a.diag)) _ (fun a sub => ?_) _ _
    unfold reportSub
    split
    · rfl
    · refine foldl_keeps (fun a => (a.exec, a.diag)) _ (fun a h => ?_) _ _
      split
      · exact ite_keeps (fun a => (a.exec, a.diag)) rfl (reportOne_exec_diag _ _ _ _ _ _ _)
      · rfl
  · rfl

theorem markFault_exec_diag (t : Nat) : ((markFault m t).exec, (markFault m t).diag) = (m.exec, m.diag) :=
  reportChanges_exec_diag _ _

theorem abandon_diag (t : Nat) : (abandon m t).diag = m.diag := by
  unfold abandon
  split
  · rfl
  · obtain ⟨us, h⟩ := dispatch_only (dropLog (taskMod m t (fun k => { k with cycle := none })) t) (unitOf ‹Task›)
    dsimp only
    rw [h]
    rfl

theorem taskOf_abandon {k : Task} {t : Nat} (h : taskOf m t = some k) : taskOf (abandon m t) t = some { k with cycle := none } := by
  unfold abandon
  rw [h]
  dsimp only
  rw [taskOf_dispatch]
  exact taskOf_taskMod m t _ h

variable {m p}

/-- Outside in-step operation the affected task of a module stops. -/
theorem taskError_stops {t : Nat} {k : Task} (hstep : inStepWith m p = false) (hk : taskOf m t = some k) (hrun : k.st = .running) :
    (taskError m p t).2 = p ∧ (taskError m p t).1.diag = m.diag ∧ Stopped (taskError m p t).1 t := by
  unfold taskError
  rw [hk]
  dsimp only
  rw [if_neg (by simp [hstep]), if_pos hrun]
  generalize hm2 : markFault (taskMod (abandon m t) t (fun k => { k with st := .stopped })) t = m2
  have hkeep := markFault_exec_diag (taskMod (abandon m t) t (fun k => { k with st := .stopped })) t
  rw [hm2, Prod.mk.injEq] at hkeep
  obtain ⟨hexec, hdiag⟩ := hkeep
  refine ⟨rfl, (Prod.mk.inj (reportChanges_exec_diag _ _)).2.trans (hdiag.trans (abandon_diag m t)), ?_⟩
  have hstop : Stopped (taskMod (abandon m t) t (fun k => { k with st := .stopped })) t :=
    ⟨_, taskOf_taskMod _ _ _ (taskOf_abandon m hk), rfl, rfl⟩
  exact hstop.of_exec ((Prod.mk.inj (reportChanges_exec_diag _ _)).1.trans hexec)

theorem serving_state (h : serving m = true) : hasPower m = true ∧ (m.boot.state = .ready ∨ m.boot.state = .run) := by
  unfold serving at h
  cases hst : m.boot.state <;> simp [hst] at h ⊢
  all_goals exact h

/-! ### Counting towards cause 4 of UMBRA -/

/-- The counts of errors that a record of one leaves. -/
def SameCounts (m' m : Module) : Prop :=
  m'.diag.dramUncorrectable = m.diag.dramUncorrectable ∧ m'.diag.dramUncorrectableAt = m.diag.dramUncorrectableAt

theorem countStore_counts (a : Nat) : SameCounts (countStore m a) m := by
  unfold countStore SameCounts
  split
  · exact ⟨rfl, rfl⟩
  · dsimp only
    split
    · rw [enterUmbra_diag]
      exact ⟨rfl, rfl⟩
    · exact ⟨rfl, rfl⟩

theorem Stopped.countStore {t : Nat} (h : Stopped m t) (a : Nat) : Stopped (countStore m a) t := by
  unfold Machine.countStore
  split
  · exact h
  · dsimp only
    split
    · refine Stopped.enterUmbra ?_ 4 a
      exact h.of_exec rfl
    · exact h.of_exec rfl

/-- Below 17 errors in an hour nothing but the list changes. -/
theorem countStore_few (a : Nat) (hver : m.boot.state ≠ .verify) (hfew : (recentTimes m m.diag.recent 3600000000000).length < 16) :
    countStore m a = diagMod m (fun d => { d with recent := recentTimes m m.diag.recent 3600000000000 ++ [now m] }) := by
  unfold countStore
  rw [if_neg hver]
  dsimp only
  rw [if_neg (by rw [List.length_append, List.length_singleton]; omega)]

theorem countStore_many (a : Nat) (hserv : serving m = true) (hmany : 16 ≤ (recentTimes m m.diag.recent 3600000000000).length) :
    (countStore m a).boot.state = .umbra ∧ (countStore m a).halo.umbraCause = 4 := by
  obtain ⟨hpower, hstate⟩ := serving_state hserv
  unfold countStore
  rw [if_neg (by rcases hstate with h | h <;> simp [h])]
  dsimp only
  rw [if_pos (by rw [List.length_append, List.length_singleton]; omega)]
  exact enterUmbra_boot_halo 4 a hpower (by rcases hstate with h | h <;> simp [diagMod, h])

end

/-! ### A lost entry of the journal -/

section
variable (m : Module) (qp : Nat) (t : W64)

theorem checkStall_journal_tickets : ((checkStall m).mail.journal, (checkStall m).mail.tickets) = (m.mail.journal, m.mail.tickets) := by
  unfold checkStall
  dsimp only
  repeat' split
  all_goals simp

theorem journalHas_retired : journalHas (journalRetire m qp t) qp t = false := by
  have hkeep := Prod.mk.inj (checkStall_journal_tickets
    { m with mail := { m.mail with journal := m.mail.journal.filter (fun e => !(e.qp == qp && e.d.ticket == t)) } })
  unfold journalHas journalFind journalRetire
  dsimp only
  rw [hkeep.1, Option.isSome_eq_false_iff, Option.isNone_iff_eq_none, List.find?_eq_none]
  intro x hx hat
  have hkept := (List.mem_filter.1 hx).2
  rw [hat] at hkept
  exact absurd hkept (by decide)

theorem ticketFind_journalRetire : ticketFind (journalRetire m qp t) qp t = ticketFind m qp t := by
  have hkeep := Prod.mk.inj (checkStall_journal_tickets
    { m with mail := { m.mail with journal := m.mail.journal.filter (fun e => !(e.qp == qp && e.d.ticket == t)) } })
  unfold ticketFind windowOf journalRetire
  dsimp only
  rw [hkeep.2]

/-- A record put in the window is found there, with the completions that waited for its ticket. -/
theorem ticketFind_ticketPut (r : TicketRec) : ∃ w, ticketFind (ticketPut m qp r) qp r.ticket = some { r with dupWaits := w } := by
  unfold ticketFind windowOf ticketPut
  dsimp only
  rw [tget_tset_same, Option.getD_some]
  split
  next hany =>
    have hmap (l : List TicketRec) (h : l.any (fun x => x.ticket == r.ticket) = true) : ∃ w,
        (l.map (fun x => if x.ticket == r.ticket then { r with dupWaits := x.dupWaits } else x)).find? (fun x => x.ticket == r.ticket)
          = some { r with dupWaits := w } := by
      induction l with
      | nil => simp at h
      | cons x l ih =>
        by_cases hx : x.ticket = r.ticket
        · exact ⟨x.dupWaits, by simp [hx]⟩
        · obtain ⟨w, hw⟩ := ih (by simpa [hx] using h)
          exact ⟨w, by simpa [hx] using hw⟩
    exact hmap _ hany
  next => exact ⟨r.dupWaits, by simp⟩

end

/-! ### An error by its region -/

@[simp] theorem slotMod_diag (m : Module) (i : Nat) (f : ImgSlot → ImgSlot) : (slotMod m i f).diag = m.diag := rfl

/-- An uncorrectable error is counted, with its address (R17). -/
def dramCounted (m : Module) (a : Nat) : Module :=
  diagMod m (fun d => { d with dramUncorrectable := inc32 d.dramUncorrectable, dramUncorrectableAt := a })

/-- An uncorrectable error of MRAM is counted. -/
def mramCounted (m : Module) : Module := diagMod m (fun d => { d with mramUncorrectable := inc32 d.mramUncorrectable })

section
variable {m p : Module} (a : Nat) (t : Option Nat)

@[simp] theorem memRecord_boot (region : Nat) : (memRecord m region a).boot = m.boot := logEv_boot ..
@[simp] theorem memRecord_power (region : Nat) : (memRecord m region a).power = m.power := logEv_power ..
@[simp] theorem memRecord_diag (region : Nat) : (memRecord m region a).diag = m.diag := logEv_diag ..
@[simp] theorem memRecord_store (region : Nat) : (memRecord m region a).store = m.store := logEv_store ..
@[simp] theorem memRecord_exec (region : Nat) : (memRecord m region a).exec = m.exec := logEv_exec ..
@[simp] theorem memRecord_pair (region : Nat) : (memRecord m region a).pair = m.pair := logEv_pair ..
@[simp] theorem memRecord_mail (region : Nat) : (memRecord m region a).mail = m.mail := logEv_mail ..
@[simp] theorem memRecord_alm (region : Nat) : (memRecord m region a).alm = m.alm := logEv_alm ..
@[simp] theorem memRecord_phys (region : Nat) : (memRecord m region a).phys = m.phys := logEv_phys ..

theorem recentTimes_congr {m' : Module} (hm : now m' = now m) (l : List W64) (span : Int) : recentTimes m' l span = recentTimes m l span := by
  unfold recentTimes
  rw [hm]

theorem now_memRecord (region : Nat) : now (memRecord (dramCounted m a) region a) = now m := by
  unfold now
  simp [dramCounted]

variable (hpower : hasPower m = true)
include hpower

theorem dramError_working : dramError .working a t m p = (memRecord (dramCounted m a) 3 a, p) := by
  unfold dramError
  rw [if_neg (by simp [hpower])]
  rfl

theorem dramError_slot {n : Nat} (hn : n ≠ m.boot.cur) :
    dramError (.imageSlot n) a t m p = (memRecord (slotMod (dramCounted m a) n (fun _ => {})) 2 a, p) := by
  unfold dramError
  rw [if_neg (by simp [hpower])]
  exact if_neg hn

theorem dramError_cur : dramError (.imageSlot m.boot.cur) a t m p = (enterUmbra (memRecord (dramCounted m a) 1 a) 3 a, p) := by
  unfold dramError
  rw [if_neg (by simp [hpower])]
  exact if_pos rfl

theorem dramError_pointStore : dramError .pointStore a none m p = (countStore (memRecord (dramCounted m a) 0 a) a, p) := by
  unfold dramError
  rw [if_neg (by simp [hpower])]
  rfl

theorem dramError_programBank : dramError .programBank a none m p = (countStore (memRecord (dramCounted m a) 0 a) a, p) := by
  unfold dramError
  rw [if_neg (by simp [hpower])]
  rfl

theorem dramError_task (t : Nat) : dramError .programBank a (some t) m p
    = (countStore (taskError (memRecord (dramCounted m a) 0 a) p t).1 a, (taskError (memRecord (dramCounted m a) 0 a) p t).2) := by
  unfold dramError
  rw [if_neg (by simp [hpower])]
  rfl

variable {qp : Nat} {k : W64}

/-- A journal entry that no partner holds is lost, and its ticket reads as TICKET_EXPIRED (R418). -/
theorem mramError_lost
    (h : (!journalHas m qp k || (linked m p && m.pair.inSet && m.pair.partnerInSet && journalHas p qp k)) = false) :
    mramError a (some (qp, k)) m p = journalRetire (ticketPut (memRecord (mramCounted m) 4 a) qp
      { ticket := k, stage := 4, status := 5, time := now m }) qp k := by
  unfold mramError
  rw [if_neg (by simp [hpower])]
  dsimp only
  rw [if_neg (by simp [h])]
  rfl

theorem mramError_repaired
    (h : (!journalHas m qp k || (linked m p && m.pair.inSet && m.pair.partnerInSet && journalHas p qp k)) = true) :
    mramError a (some (qp, k)) m p = memRecord (mramCounted m) 4 a := by
  unfold mramError
  rw [if_neg (by simp [hpower])]
  exact if_pos h

end

/-- Settles O51. -/
theorem memoryErrors : Obligations.MemoryErrors := by
  unfold Obligations.MemoryErrors
  intro s sl
  dsimp only
  have dram {r a t m' p'} (h : dramError r a t (modOf s sl) (modOf s (otherSlot sl)) = (m', p')) :
      BecomeBoth (.dramUncorrectable sl r a t) s sl m' p' := becomesBoth_of (exec_dramUncorrectable sl r a t s) h
  generalize hm : modOf s sl = m at dram ⊢
  generalize hp : modOf s (otherSlot sl) = p at dram ⊢
  refine ⟨fun sec hpow => ?_, fun sec hpow => ?_, fun r a t hpow => dram ?_, fun hpow => ⟨fun a t => ?_, fun n a t hn hle => ?_, fun a t hserv => ?_,
    fun a hver hfew => ?_, fun a hserv hmany => ?_, fun a t k hstep hk hrun => ?_⟩, fun a e hpow => ?_, fun hpow => ⟨fun a => ?_, fun a qp t hj hor => ?_,
    fun a qp t hlink hin hpin hj => ?_⟩⟩
  · subst hm
    exact becomes_of (exec_patrolPassEnd sl sec s) (if_pos hpow)
  · subst hm
    exact idle_of (exec_patrolPassEnd sl sec s) (if_neg (by simp [hpow]))
  · exact if_pos (by simp [hpow])
  · exact ⟨_, dram (dramError_working a t hpow), ⟨by simp [dramCounted], by simp [dramCounted]⟩, by simp [dramCounted], by simp [dramCounted],
      by simp [dramCounted]⟩
  · exact ⟨_, dram (dramError_slot a t hpow hn), ⟨by simp [dramCounted], by simp [dramCounted]⟩, (congrArg (slotAt · n) (memRecord_boot a 2)).trans
      (slotAt_slotMod _ n _), by simp [dramCounted]⟩
  · obtain ⟨-, hstate⟩ := serving_state hserv
    obtain ⟨humbra, hcause⟩ := enterUmbra_boot_halo (m := memRecord (dramCounted m a) 1 a) 3 a (by simpa [hasPower, dramCounted] using hpow)
      (by rcases hstate with h | h <;> simp [dramCounted, h])
    refine ⟨_, dram (dramError_cur a t hpow), ⟨?_, ?_⟩, humbra, hcause⟩ <;> rw [enterUmbra_diag] <;> simp [dramCounted]
  · have hrecent : recentTimes (memRecord (dramCounted m a) 0 a) (memRecord (dramCounted m a) 0 a).diag.recent 3600000000000
        = recentTimes m m.diag.recent 3600000000000 := by
      rw [recentTimes_congr (now_memRecord a 0)]
      simp [dramCounted]
    have hcount := countStore_few (m := memRecord (dramCounted m a) 0 a) a (by simpa [dramCounted] using hver) (by rw [hrecent]; exact hfew)
    rw [hrecent, now_memRecord] at hcount
    refine ⟨_, dram ((dramError_pointStore a hpow).trans (by rw [hcount])), ⟨?_, ?_⟩, ?_, rfl, ?_⟩ <;> simp [dramCounted]
  · have hrecent : recentTimes (memRecord (dramCounted m a) 0 a) (memRecord (dramCounted m a) 0 a).diag.recent 3600000000000
        = recentTimes m m.diag.recent 3600000000000 := by
      rw [recentTimes_congr (now_memRecord a 0)]
      simp [dramCounted]
    obtain ⟨hc, hat⟩ := countStore_counts (m := memRecord (dramCounted m a) 0 a) a
    obtain ⟨humbra, hcause⟩ := countStore_many (m := memRecord (dramCounted m a) 0 a) a
      (by simpa [serving, hasPower, dramCounted] using hserv) (by rw [hrecent]; exact hmany)
    exact ⟨_, dram (dramError_programBank a hpow), ⟨hc.trans (by simp [dramCounted]), hat.trans (by simp [dramCounted])⟩, humbra, hcause⟩
  · obtain ⟨hpart, -, hstop⟩ := taskError_stops (m := memRecord (dramCounted m a) 0 a) (p := p) (t := t) (k := k)
      (by simpa [inStepWith, linked, powered, dramCounted] using hstep) (by simpa [taskOf, dramCounted] using hk) hrun
    obtain ⟨k', hk', hst, hcycle⟩ := hstop.countStore a
    exact ⟨_, k', dram ((dramError_task a hpow t).trans (Prod.ext rfl hpart)), hk', hst, hcycle⟩
  · subst hm
    exact idle_of_pair (exec_mramUncorrectable sl a e s) (if_pos (by simp [hpow]))
  · subst hm
    refine ⟨_, becomes_of_pair (exec_mramUncorrectable sl a none s) (if_neg (by simp [hpow])), ?_, ?_⟩ <;> simp
  · subst hm hp
    refine ⟨_, becomes_of_pair (exec_mramUncorrectable sl a _ s) (mramError_lost a hpow ?_), journalHas_retired _ _ _, ?_⟩
    · rcases hor with h | h | h <;> simp [hj, h]
    · rw [ticketFind_journalRetire]
      obtain ⟨w, hw⟩ := ticketFind_ticketPut (memRecord (mramCounted (modOf s sl)) 4 a) qp
        { ticket := t, stage := 4, status := 5, time := now (modOf s sl) }
      exact ⟨_, hw, rfl, rfl⟩
  · subst hm hp
    exact ⟨memRecord (mramCounted (modOf s sl)) 4 a, becomes_of_pair (exec_mramUncorrectable sl a _ s)
      (mramError_repaired a hpow (by simp [hlink, hin, hpin, hj])), by simp [mramCounted]⟩

end Sys2Proof.Machine

/-! PROOF. Update: the end of a handover, confirmation and fallback, the fuse steps and the verdict on a shadow's image (R371 to R378). -/

namespace Sys2Proof.Machine
open Sys2Proof Sys2Proof.Bits Sys2Proof.Safety

section
variable (m p : Module)

/-! ### The end of a handover -/

theorem handoverEnd_paused : (handoverEnd m).mail.paused = m.mail.paused := by
  unfold handoverEnd
  split <;> rfl

theorem handoverEnd_boot : (handoverEnd m).boot.handover = m.boot.handover ∧ (handoverEnd m).boot.portsDue = m.boot.portsDue := by
  unfold handoverEnd
  split <;> exact ⟨rfl, rfl⟩

theorem handoverEnd_keeps : (handoverEnd m).field = m.field ∧ (handoverEnd m).exec = m.exec ∧ (handoverEnd m).out = m.out := by
  unfold handoverEnd
  split <;> exact ⟨rfl, rfl, rfl⟩

/-- The last port opens the confirm window (R375). -/
theorem handoverEnd_opens (hho : m.boot.handover = false) (hports : m.boot.portsDue = []) (hdue : m.boot.windowDue = true)
    (hwin : m.boot.windowHandover = true) :
    (handoverEnd m).boot.windowRunning = true ∧ (handoverEnd m).boot.windowEnd = m.phys + m.boot.windowLen * 1000000000 := by
  unfold handoverEnd
  rw [if_pos (by simp [hho, hports, hdue, hwin])]
  exact ⟨rfl, rfl⟩

theorem sendJournal_boot_paused (qp : Nat) (d : Desc) (req : Bytes) (due : Option W64) :
    ((sendJournal m qp d req due).boot, (sendJournal m qp d req due).mail.paused) = (m.boot, m.mail.paused) := by
  unfold sendJournal
  dsimp only
  split <;> rfl

theorem acceptEntry_boot_paused (e : JEntry) : ((acceptEntry m p e).boot, (acceptEntry m p e).mail.paused) = (m.boot, m.mail.paused) := by
  unfold acceptEntry
  dsimp only
  repeat' split
  all_goals simp [(Prod.mk.inj (sendJournal_boot_paused _ _ _ _ _)).1, (Prod.mk.inj (sendJournal_boot_paused _ _ _ _ _)).2, pushCpl_paused, ticketPut_paused,
    journalMod_paused, mailMod]

theorem acceptReady_boot_paused : ((acceptReady m p).boot, (acceptReady m p).mail.paused) = (m.boot, m.mail.paused) := by
  unfold acceptReady
  split
  · rfl
  · refine foldl_keeps (fun a => (a.boot, a.mail.paused)) _ (fun a e => ?_) _ _
    exact ite_keeps (fun a => (a.boot, a.mail.paused)) (acceptEntry_boot_paused a p e) rfl

/-! ### The roles of the slots after a fallback -/

/-- The roles after a fallback: back to the previous components (R376). -/
def RolesReverted (b old : Boot) : Prop :=
  b.cur = old.prev ∧ b.cand = old.cur ∧ b.prev = old.cand ∧ b.confirm = 2 ∧ b.windowRunning = false

variable {m p}

theorem RolesReverted.slotMod {b : Boot} (h : RolesReverted m.boot b) (i : Nat) (f : ImgSlot → ImgSlot) : RolesReverted (slotMod m i f).boot b := by
  rw [slotMod_only]
  exact h

theorem revertHandover_boot : RolesReverted (revertHandover m).boot m.boot ∧ (revertHandover m).boot.state = m.boot.state
    ∧ (revertHandover m).boot.handover = true := by
  let m1 := bootMod m (fun b => { b with cur := b.prev, cand := b.cur, prev := b.cand, confirm := 2, windowRunning := false, windowDue := false })
  have hm1 : RolesReverted m1.boot m.boot := ⟨rfl, rfl, rfl, rfl, rfl⟩
  exact ⟨(hm1.slotMod m1.boot.cand (fun s => { s with reverted := true })).slotMod m1.boot.prev (fun _ => {}),
    (slotMod_state (slotMod m1 m1.boot.cand (fun s => { s with reverted := true })) m1.boot.prev (fun _ => {})).trans
      (slotMod_state m1 m1.boot.cand (fun s => { s with reverted := true })), rfl⟩

/-- Leaving RUN changes the state and nothing else of the boot record. -/
theorem leaveRun_boot : (leaveRun m).boot = { m.boot with state := (leaveRun m).boot.state } := by
  unfold leaveRun
  split
  · simp [stopLegacy, stopCycles]
  · rfl

theorem toReady_boot (lead : Bool) : (toReady m lead).boot = { m.boot with state := (toReady m lead).boot.state } := by
  unfold toReady
  rw [anchorIfChanged_boot, pairMod_boot, leaveRun_boot]
  rfl

/-- The module before it leaves RUN for a fallback in place. -/
def reverting (m : Module) : Module :=
  bootMod m (fun b => { b with cur := b.prev, cand := b.cur, prev := b.cand, confirm := 2, windowRunning := false, selfChecked := false })

/-- The slots after a fallback in place. -/
def revertedSlots (m : Module) : Module :=
  slotMod (slotMod (reverting m) (reverting m).boot.cand (fun s => { s with reverted := true })) (reverting m).boot.prev (fun _ => {})

theorem revertInPlace_eq : revertInPlace m false = toReady (revertedRecord (revertedSlots m) 0 m.boot.cur m.boot.prev) false := rfl

theorem revertedRecord_boot (cause src dst : Nat) : (revertedRecord m cause src dst).boot = m.boot := rfl

theorem revertedSlots_boot : RolesReverted (revertedSlots m).boot m.boot ∧ slotAt (revertedSlots m).boot m.boot.cand = {}
    ∧ (revertedSlots m).boot.state = m.boot.state := by
  have hroles : RolesReverted (reverting m).boot m.boot := ⟨rfl, rfl, rfl, rfl, rfl⟩
  exact ⟨(hroles.slotMod _ _).slotMod _ _, slotAt_slotMod _ _ _, (slotMod_state _ _ _).trans (slotMod_state _ _ _)⟩

theorem revertInPlace_boot : RolesReverted (revertInPlace m false).boot m.boot ∧ slotAt (revertInPlace m false).boot m.boot.cand = {} := by
  obtain ⟨hroles, hslot, -⟩ := revertedSlots_boot (m := m)
  rw [revertInPlace_eq, toReady_boot, revertedRecord_boot]
  exact ⟨hroles, hslot⟩

theorem revertInPlace_state (hrun : m.boot.state = .run) : (revertInPlace m false).boot.state = .ready := by
  obtain ⟨-, -, hstate⟩ := revertedSlots_boot (m := m)
  rw [revertInPlace_eq, toReady_state, revertedRecord_boot, hstate, if_pos hrun]

theorem revertInPlace_role : (revertInPlace m false).pair.role = .none := by
  rw [revertInPlace_eq]
  simp

/-! ### The end of the confirm window -/

theorem state_of_inRun (h : inRun m = true) : m.boot.state = .run := by
  unfold inRun at h
  rw [Bool.and_eq_true] at h
  simpa using h.2

section
variable (hrun : inRun m = true) (hwin : m.boot.windowRunning = true)
include hrun hwin

theorem closeWindow_lapsed (hprev : slotSound m m.boot.prev = false) : closeWindow m p = (windowLapsed m, p) := by
  unfold closeWindow
  rw [if_neg (by simp [hrun, hwin]), if_pos (by simp [hprev])]

variable (hprev : slotSound m m.boot.prev = true)
include hprev

theorem closeWindow_handover (hho : m.boot.windowHandover = true) : closeWindow m p = (revertHandover m, p) := by
  unfold closeWindow
  rw [if_neg (by simp [hrun, hwin]), if_neg (by simp [hprev]), if_pos hho]

theorem closeWindow_lead (hho : m.boot.windowHandover = false) (hlead : isLead m = true) (hmode : m.pair.mode = .inStep)
    (hlease : leaseHeld m = true) (hnone : m.pair.handover = none) :
    closeWindow m p = (startHandoverOf m 0 { qp := 0, param := [] } 0 100, p) := by
  unfold closeWindow
  rw [if_neg (by simp [hrun, hwin]), if_neg (by simp [hprev]), if_neg (by simp [hho]), if_pos hlead, if_pos (by simp [hmode, hlease, hnone])]

theorem closeWindow_alone (hho : m.boot.windowHandover = false) (hlead : isLead m = false) (hlink : linked m p = false) :
    closeWindow m p = (revertInPlace m false, p) := by
  unfold closeWindow
  rw [if_neg (by simp [hrun, hwin]), if_neg (by simp [hprev]), if_neg (by simp [hho]), if_neg (by simp [hlead]), if_neg (by simp [hlink])]

end

/-! ### Confirmation and the floor -/

theorem floorWanted_confirmed (e : ChronEvent) :
    floorWanted (pushPending (bootMod m (fun b => { b with confirm := 0, windowRunning := false })) e) = floorWanted m := rfl

theorem confirmImage_facts : (confirmImage m).boot.confirm = 0 ∧ (confirmImage m).boot.windowRunning = false
    ∧ (∃ e, (confirmImage m).chron.pendingRecs = m.chron.pendingRecs ++ [e] ∧ e.code = 0x0A02)
    ∧ (∀ f, floorWanted m = some f → (confirmImage m).boot.floorTarget = f) := by
  unfold confirmImage
  dsimp only
  rw [floorWanted_confirmed]
  cases floorWanted m with
  | none => exact ⟨rfl, rfl, ⟨_, rfl, rfl⟩, fun f h => nomatch h⟩
  | some f => exact ⟨rfl, rfl, ⟨_, rfl, rfl⟩, fun g h => Option.some.inj h⟩

theorem raiseStep_facts (htarget : m.boot.floorTarget ≠ 0) (hres : 80 ≤ m.power.reserve) : (raiseStep m).hw.floor = m.hw.floor + 1
    ∧ (m.boot.floorTarget ≤ m.hw.floor + 1 → (raiseStep m).boot.floorTarget = 0
      ∧ ∃ e, (raiseStep m).chron.pendingRecs = m.chron.pendingRecs ++ [e] ∧ e.code = 0x0A04)
    ∧ (m.hw.floor + 1 < m.boot.floorTarget → (raiseStep m).boot.floorTarget = m.boot.floorTarget) := by
  unfold raiseStep
  rw [if_neg (by rintro (h | h) <;> omega)]
  dsimp only
  by_cases hmore : m.hw.floor + 1 < m.boot.floorTarget
  · rw [if_pos hmore]
    exact ⟨rfl, fun h => absurd hmore (by omega), fun _ => rfl⟩
  · rw [if_neg hmore]
    exact ⟨rfl, fun _ => ⟨rfl, _, rfl, rfl⟩, fun h => absurd h hmore⟩

/-! ### The verdict on a shadow's image -/

theorem endActivation_finish {qp k : Nat} {c : Cmd} (hv : m.maint.verdict = some (qp, k, c)) (hclass : holdsClass m 1 qp = false)
    (status detail : Nat) :
    endActivation m status detail = finish (maintMod m (fun x => { x with verdict := none })) .work k c 3 status detail [] := by
  unfold endActivation
  rw [hv]
  refine if_neg (fun h => ?_)
  have hholds := h.2
  unfold holdsClass at hholds hclass
  rw [finish_maint] at hholds
  exact absurd (hclass.symm.trans hholds) (by decide)

end

/-- Settles O52. -/
theorem updateEvents : Obligations.UpdateEvents := by
  unfold Obligations.UpdateEvents
  intro s sl
  dsimp only
  have close {m' p'} (h : closeWindow (modOf s sl) (modOf s (otherSlot sl)) = (m', p')) :
      BecomeBoth (.confirmWindowClose sl) s sl m' p' := becomesBoth_of (exec_confirmWindowClose sl s) h
  refine ⟨fun hfw hho => ?_, fun hho => ?_, fun port hfw hho hport => ?_, fun port hor => ?_, fun hc => ?_, fun hc => ?_, fun hor => close ?_,
    fun hrun hwin hprev => ⟨_, close (closeWindow_lapsed hrun hwin hprev), rfl, rfl, ?_, rfl⟩,
    fun hrun hwin hprev => ⟨fun hho => ?_, fun hho hlead hmode hlease hnone => ?_, fun hho hlead hlink => ?_⟩, fun hfw htarget hres => ?_, fun hor => ?_,
    fun pass code hor => ?_, fun qp k c code hfw hlink hlead hv hclass hcode => ⟨?_, ?_⟩⟩
  · refine ⟨_, becomes_of_pair (exec_handoverLanternResume sl s) (if_neg (by simp [hfw, hho])), ?_⟩
    obtain ⟨hboot, hpaused⟩ := Prod.mk.inj (acceptReady_boot_paused (handoverEnd (mailMod (bootMod (modOf s sl) (fun b => { b with handover := false }))
      (fun q => { q with paused := false }))) (modOf s (otherSlot sl)))
    obtain ⟨hho', hports⟩ := handoverEnd_boot (mailMod (bootMod (modOf s sl) (fun b => { b with handover := false })) (fun q => { q with paused := false }))
    rw [hboot, hpaused, handoverEnd_paused]
    exact ⟨hho', rfl, hports⟩
  · exact idle_of_pair (exec_handoverLanternResume sl s) (if_pos (by simp [hho]))
  · let m1 := bootMod (modOf s sl) (fun b => { b with portsDue := b.portsDue.filter (fun x => x != port) })
    obtain ⟨-, hports⟩ := handoverEnd_boot m1
    obtain ⟨hfield, hexec, hout⟩ := handoverEnd_keeps m1
    refine ⟨handoverEnd m1, becomes_of (exec_handoverPortSwitch sl port s) (if_neg (by simp [hfw, hho, hport])), hports, hfield, hexec, hout,
      fun hempty hdue hwin => handoverEnd_opens m1 hho (hports ▸ hempty) hdue hwin⟩
  · exact idle_of (exec_handoverPortSwitch sl port s) (if_pos (by rcases hor with h | h <;> simp [h]))
  · exact ⟨_, becomes_of_pair (exec_imageConfirm sl s) (if_pos hc), confirmImage_facts⟩
  · exact idle_of_pair (exec_imageConfirm sl s) (if_neg (by simp [hc]))
  · exact if_pos (by rcases hor with h | h <;> simp [h])
  · exact state_of_inRun hrun
  · obtain ⟨hroles, hstate, hnew⟩ := revertHandover_boot (m := modOf s sl)
    refine ⟨_, close (closeWindow_handover hrun hwin hprev hho), hroles, hstate.trans (state_of_inRun hrun), hnew⟩
  · exact ⟨_, _, close (closeWindow_lead hrun hwin hprev hho hlead hmode hlease hnone), rfl, rfl, rfl, rfl⟩
  · obtain ⟨hroles, hslot⟩ := revertInPlace_boot (m := modOf s sl)
    refine ⟨_, close (closeWindow_alone hrun hwin hprev hho hlead hlink), hroles, revertInPlace_state (state_of_inRun hrun), revertInPlace_role,
      fun _ => hslot⟩
  · exact ⟨_, becomes_of (exec_fuseStepDone sl s) (if_pos hfw), raiseStep_facts htarget hres⟩
  · refine idle_of (exec_fuseStepDone sl s) ?_
    rcases hor with h | h | h
    · exact if_neg (by simp [h])
    · exact (ite_eq_right_iff.2 fun _ => by rw [raiseStep, if_pos (.inl h)])
    · exact (ite_eq_right_iff.2 fun _ => by rw [raiseStep, if_pos (.inr h)])
  · refine idle_of_pair (exec_imageVerdictReceive sl pass code s) (if_neg ?_)
    rcases hor with h | h | h <;> simp [h]
  · refine becomes_of_pair (exec_imageVerdictReceive sl true 0 s) ((if_pos (by simp [hfw, hlink, hlead])).trans ?_)
    exact (if_pos rfl).trans (endActivation_finish (m := { modOf s sl with pair :=
      { (modOf s sl).pair with recordedSplit := (modOf s (otherSlot sl)).pair.recordedSplit } }) hv hclass 0 0)
  · refine becomes_of_pair (exec_imageVerdictReceive sl false code s) ((if_pos (by simp [hfw, hlink, hlead])).trans ?_)
    exact (if_neg hcode).trans (endActivation_finish (m := { modOf s sl with pair :=
      { (modOf s sl).pair with recordedSplit := (modOf s (otherSlot sl)).pair.recordedSplit } }) hv hclass 0x8A01 code)

end Sys2Proof.Machine

/-! PROOF. A gen-0 drop answers the requests addressed to it (R259, R260, R263, R266). -/

namespace Sys2Proof.Machine
open Sys2Proof Sys2Proof.Bits Sys2Proof.Safety

section
variable (x : Station) (data : Bytes) (draw : Nat)

/-- A gen-0 drop once its first outputs are set (R263). -/
def lineStarted (x : Station) (data : Bytes) : Station :=
  { x with lastOut := w32 ((be data 0 2 + 65535) % 65536), unassigned := false, assigned := true, watchdog := 1000 * be data 2 2 }

/-- What a gen-0 drop becomes by a request with these fields (R263). -/
def lineServed (x : Station) (func : Nat) (data : Bytes) (draw : Nat) : Station :=
  if func = 0x10 ∧ 3 ≤ data.length then
    let seq := be data 0 2
    let d := (seq + 65536 - x.lastOut.toNat % 65536) % 65536
    let x1 := if x.unassigned || d < 1 || decide (32767 < d) then x
      else applyOut { x with lastOut := w32 seq } (data.drop 3) (bit (be data 2 1) 7)
    lineAnswerReply x1 seq draw
  else if func = 0x16 ∧ 4 ≤ data.length then
    lineAnswerReply (lineStarted x data) (be data 0 2) draw
  else if func = 0x12 ∧ 3 ≤ data.length then
    let x1 := acy8 x (be data 0 1) (w16 (be data 1 2)) (data.drop 3)
    lineAnswer x1 0x13 (beBytes 1 (x1.lastAcy.toNat % 256))
  else if func = 0x14 then
    lineAnswer x 0x15 (beBytes 1 (b2n (!x.unassigned)) ++ beBytes 1 (x.family.toNat % 256) ++ beBytes 2 x.channels ++ beBytes 4 x.lastAcy.toNat)
  else x

/-! ### Answers -/

/-- An answer goes out on the line, with its function in the second octet. -/
theorem lineAnswer_out (func : Nat) : ∃ b, (lineAnswer x func data).out = x.out ++ [.line x.segment b] ∧ be b 1 1 = func % 256 := by
  refine ⟨_, rfl, ?_⟩
  rw [lineCrc, List.append_assoc, List.append_assoc, List.append_assoc, be_skip _ _ _ (by simp)]
  exact be_front _ _ _

/-- The answer with the inputs echoes the SEQ. -/
theorem lineAnswerReply_out (echo : Nat) : ∃ b, (lineAnswerReply x echo draw).out = x.out ++ [.line x.segment b] ∧ be b 1 1 = 0x11
    ∧ be b 3 2 = echo % 65536 := by
  refine ⟨_, rfl, ?_, ?_⟩
  · simp [lineCrc, be_skip, be_front]
  · simp [lineCrc, be_skip, be_front]

/-- Outputs that are applied leave a drop's place on the line. -/
theorem applyOut_keeps (stale : Bool) : (applyOut x data stale).lastOut = x.lastOut ∧ (applyOut x data stale).segment = x.segment
    ∧ (∃ l, (applyOut x data stale).out = x.out ++ l) := by
  unfold applyOut
  split
  · exact ⟨rfl, rfl, [], (List.append_nil _).symm⟩
  · split <;> exact ⟨rfl, rfl, _, rfl⟩

theorem applyOut_fresh : (applyOut x data false).outputs = data ∧ (applyOut x data false).inSafe = false := ⟨rfl, rfl⟩

end

section
variable {x : Station} {data : Bytes} {draw : Nat}

/-! ### The functions of a request -/

/-- Outputs that are not newer, or that reach a drop not yet started, are answered alone. -/
theorem lineServed_old (hlen : 3 ≤ data.length) (h : x.unassigned = true ∨ (be data 0 2 + 65536 - x.lastOut.toNat % 65536) % 65536 = 0
      ∨ 32767 < (be data 0 2 + 65536 - x.lastOut.toNat % 65536) % 65536) :
    lineServed x 0x10 data draw = lineAnswerReply x (be data 0 2) draw := by
  unfold lineServed
  rw [if_pos ⟨rfl, hlen⟩]
  dsimp only
  rw [if_pos (by rcases h with h | h | h <;> simp [h])]

theorem lineServed_new (hlen : 3 ≤ data.length) (hun : x.unassigned = false) (h1 : 1 ≤ (be data 0 2 + 65536 - x.lastOut.toNat % 65536) % 65536)
    (h2 : (be data 0 2 + 65536 - x.lastOut.toNat % 65536) % 65536 ≤ 32767) : lineServed x 0x10 data draw
      = lineAnswerReply (applyOut { x with lastOut := w32 (be data 0 2) } (data.drop 3) (bit (be data 2 1) 7)) (be data 0 2) draw := by
  unfold lineServed
  rw [if_pos ⟨rfl, hlen⟩]
  dsimp only
  rw [if_neg (by simp [hun, Nat.not_lt.2 h1, Nat.not_lt.2 h2])]

theorem lineServed_start (hlen : 4 ≤ data.length) : lineServed x 0x16 data draw
    = lineAnswerReply (lineStarted x data) (be data 0 2) draw := by
  unfold lineServed
  rw [if_neg (by simp), if_pos ⟨rfl, hlen⟩]

theorem lineServed_message (hlen : 3 ≤ data.length) : lineServed x 0x12 data draw
    = lineAnswer (acy8 x (be data 0 1) (w16 (be data 1 2)) (data.drop 3)) 0x13
        (beBytes 1 ((acy8 x (be data 0 1) (w16 (be data 1 2)) (data.drop 3)).lastAcy.toNat % 256)) := by
  unfold lineServed
  rw [if_neg (by simp), if_neg (by simp), if_pos ⟨rfl, hlen⟩]

theorem acy8_keeps (low : Nat) (cls : W16) : (acy8 x low cls data).out = x.out ∧ (acy8 x low cls data).segment = x.segment := by
  unfold acy8
  split <;> exact ⟨rfl, rfl⟩

theorem lineServed_ident : lineServed x 0x14 data draw = lineAnswer x 0x15
    (beBytes 1 (b2n (!x.unassigned)) ++ beBytes 1 (x.family.toNat % 256) ++ beBytes 2 x.channels ++ beBytes 4 x.lastAcy.toNat) := by
  unfold lineServed
  rw [if_neg (by simp), if_neg (by simp), if_neg (by simp), if_pos rfl]

theorem lineServed_other {func : Nat} (h1 : func ≠ 0x10) (h2 : func ≠ 0x12) (h3 : func ≠ 0x14) (h4 : func ≠ 0x16) : lineServed x func data draw = x := by
  unfold lineServed
  rw [if_neg (by simp [h1]), if_neg (by simp [h4]), if_neg (by simp [h2]), if_neg h3]

/-! ### A request on the line -/

theorem exec_lineDrop_of {s : State} {id : Nat} {bytes : Bytes} {a func : Nat} (hs : tsorted s.stations = true) (hx : tget s.stations id = some x)
    (hpow : x.powered = true) (hkind : x.kind = .line) (hparse : lineParse bytes = some (a, func, data)) :
    exec (.lineDropRequestReceive id bytes) s = .next { s with
      stations := tset s.stations id (if a / 128 ≠ 0 ∨ a % 32 ≠ x.position % 32 then x else lineServed x func data s.fresh), fresh := s.fresh + 1 } := by
  rw [exec_lineDropRequestReceive, execLineDropRequestReceive, onStationFree_of_tget hs hx, if_neg (by simp [hpow, hkind]), hparse]
  rfl

theorem be_two_lt (bs : Bytes) (o : Nat) : be bs o 2 < 65536 := by
  have h := leVal_lt ((bs.drop o).take 2).reverse
  have hlen : ((bs.drop o).take 2).reverse.length ≤ 2 := by simp
  exact h.trans_le (Nat.pow_le_pow_right (by decide) hlen)

end

/-- Settles O40. -/
theorem lineDropBehaviour : Obligations.LineDropBehaviour := by
  unfold Obligations.LineDropBehaviour
  intro s id x bytes a func data hs hx hpow hkind hparse
  rw [exec_lineDrop_of hs hx hpow hkind hparse]
  refine ⟨fun hother => ?_, fun ha hpos => ⟨lineServed x func data s.fresh, ?_, fun hf hlen => ?_, fun hf hlen => ?_, fun hf hlen => ?_, fun hf => ?_,
    lineServed_other⟩⟩
  · rw [if_pos (by rcases hother with h | h <;> [exact .inl (by omega); exact .inr h])]
  · rw [if_neg (by simp only [hpos]; omega)]
  · subst hf
    have hseq := Nat.mod_eq_of_lt (be_two_lt data 0)
    refine ⟨fun hun h1 h2 => ?_, fun hold => ?_, ?_⟩
    · rw [lineServed_new hlen hun h1 h2]
      refine ⟨(applyOut_keeps { x with lastOut := w32 (be data 0 2) } (data.drop 3) _).1, fun hfresh => ?_⟩
      rw [hfresh]
      exact ⟨rfl, rfl⟩
    · rw [lineServed_old hlen hold]
      exact ⟨rfl, rfl⟩
    · by_cases hold : x.unassigned = true ∨ (be data 0 2 + 65536 - x.lastOut.toNat % 65536) % 65536 = 0
        ∨ 32767 < (be data 0 2 + 65536 - x.lastOut.toNat % 65536) % 65536
      · rw [lineServed_old hlen hold]
        obtain ⟨b, hout, hfunc, hecho⟩ := lineAnswerReply_out x s.fresh (be data 0 2)
        exact ⟨_, b, hout, hfunc, hecho.trans hseq⟩
      · rw [not_or, not_or, Bool.not_eq_true] at hold
        obtain ⟨hun, h1, h2⟩ := hold
        rw [lineServed_new hlen hun (by omega) (by omega)]
        obtain ⟨-, hsegment, -⟩ := applyOut_keeps { x with lastOut := w32 (be data 0 2) } (data.drop 3) (bit (be data 2 1) 7)
        obtain ⟨b, hout, hfunc, hecho⟩ := lineAnswerReply_out
          (applyOut { x with lastOut := w32 (be data 0 2) } (data.drop 3) (bit (be data 2 1) 7)) s.fresh (be data 0 2)
        rw [hsegment] at hout
        exact ⟨_, b, hout, hfunc, hecho.trans hseq⟩
  · subst hf
    rw [lineServed_start hlen]
    obtain ⟨b, hout, hfunc, -⟩ := lineAnswerReply_out (lineStarted x data) s.fresh (be data 0 2)
    exact ⟨rfl, rfl, rfl, b, hout, hfunc⟩
  · subst hf
    rw [lineServed_message hlen]
    obtain ⟨hout, hsegment⟩ := acy8_keeps (x := x) (data := data.drop 3) (be data 0 1) (w16 (be data 1 2))
    obtain ⟨b, hans, hfunc⟩ := lineAnswer_out (acy8 x (be data 0 1) (w16 (be data 1 2)) (data.drop 3))
      (beBytes 1 ((acy8 x (be data 0 1) (w16 (be data 1 2)) (data.drop 3)).lastAcy.toNat % 256)) 0x13
    rw [hout, hsegment] at hans
    refine ⟨fun hnext => ?_, fun hnext => ?_, b, hans, hfunc⟩
    · rw [acy8, if_pos hnext]
      rfl
    · rw [acy8, if_neg hnext]
      exact ⟨rfl, rfl⟩
  · subst hf
    rw [lineServed_ident]
    obtain ⟨b, hout, hfunc⟩ := lineAnswer_out x
      (beBytes 1 (b2n (!x.unassigned)) ++ beBytes 1 (x.family.toNat % 256) ++ beBytes 2 x.channels ++ beBytes 4 x.lastAcy.toNat) 0x15
    exact ⟨b, hout, hfunc, rfl⟩

end Sys2Proof.Machine

/-! PROOF. Drops on rings and buses: frames, outputs, assignment, links and power (R218, R222, R224, R229, R235 to R238, R251, R258). -/

namespace Sys2Proof.Machine
open Sys2Proof Sys2Proof.Bits Sys2Proof.Safety

/-! ### An event at a drop that is there -/

theorem tset_self {α : Type} {t : Table α} {i : Nat} {a : α} (hs : tsorted t = true) (ha : tget t i = some a) : tset t i a = t := by
  induction t with
  | nil => cases ha
  | cons p t ih =>
    obtain ⟨k, v⟩ := p
    obtain ⟨hk, ht⟩ := (tsorted_cons _ _).1 hs
    rw [tget] at ha
    rw [tset]
    split at ha
    · next hki =>
      obtain rfl := hki
      obtain rfl := Option.some.inj ha
      simp
    · next hki =>
      have hlt : ¬ i < k := fun h => by simp [tget_above t i k hk (by omega)] at ha
      rw [if_neg hlt, if_neg (Ne.symm hki), ih ht ha]

section
variable {s : State} {id : Nat} {x : Station} {i : Instr} (hs : tsorted s.stations = true) (hx : tget s.stations id = some x)
include hs hx

/-- What a drop becomes by an event depends on that drop alone. -/
theorem dropBecomes_of {f g : Station → Station} (e : exec i s = onStation s id f) (h : f x = g x) : DropBecomes i s id g := by
  rw [DropBecomes, e, onStation_of_tget hs hx, tmod_eq_tset g hs hx, h]

theorem dropIdle_of {f : Station → Station} (e : exec i s = onStation s id f) (h : f x = x) : Idle i s := by
  rw [Idle, e, onStation_of_tget hs hx, h, tset_self hs hx]

end

/-! ### Outputs -/

section
variable {x : Station} {id : Nat} {f : Frame} {t time : W64} {data : Bytes} {stale : Bool} {draw : Nat}

theorem sendIn_ring (hkind : x.kind = .ring) : ∃ fr, sendIn x id time = { x with inSeq := x.inSeq + 1, out := x.out ++ [.dropRing 3 fr] } := by
  unfold sendIn
  dsimp only
  rw [hkind]
  exact ⟨_, rfl⟩

/-- The frame that a bus drop sends in its slot. -/
def inFrame (x : Station) : CanFrame :=
  { id := 0x200 + x.position,
    data := canData x.fd (beBytes 4 (x.inSeq + 1).toNat ++ beBytes 1 (dstatus x) ++ beBytes 1 (x.lastAcy.toNat % 256) ++ x.inputs) }

theorem sendIn_bus (hkind : x.kind = .bus) : sendIn x id time = { x with inSeq := x.inSeq + 1, out := x.out ++ [.can x.segment (inFrame x)] } := by
  cases x
  cases hkind
  rfl

theorem applyOut_kind : (applyOut x data stale).kind = x.kind ∧ (applyOut x data stale).inSeq = x.inSeq
    ∧ (applyOut x data stale).waitingOut = x.waitingOut := by
  unfold applyOut
  split
  · exact ⟨rfl, rfl, rfl⟩
  · split <;> exact ⟨rfl, rfl, rfl⟩

theorem applyOut_held (h : x.inSafe = true) : applyOut x data true = x := by
  unfold applyOut
  rw [if_pos (by simp [h])]

theorem applyOut_stale (h : x.inSafe = false) : (applyOut x data true).outputs = data ∧ (applyOut x data true).inSafe = false := by
  unfold applyOut
  rw [if_neg (by simp [h]), if_pos rfl]
  exact ⟨rfl, h⟩

/-- A ring drop that applies outputs samples its inputs and sends them (R222, R224). -/
theorem applyNow_ring (hkind : x.kind = .ring) : ∃ fr, let y := applyNow x id time data stale draw
    y.outputs = (applyOut x data stale).outputs ∧ y.inSafe = (applyOut x data stale).inSafe ∧ y.lastOut = x.lastOut
      ∧ y.inSeq = x.inSeq + 1 ∧ y.waitingOut = x.waitingOut ∧ y.out = (applyOut x data stale).out ++ [.dropRing 3 fr] := by
  obtain ⟨hk, hseq, hwait⟩ := applyOut_kind (x := x) (data := data) (stale := stale)
  obtain ⟨hlast, -, -⟩ := applyOut_keeps x data stale
  obtain ⟨fr, hsend⟩ := sendIn_ring (x := sampleIn (applyOut x data stale) draw) (id := id) (time := time) (hk.trans hkind)
  refine ⟨fr, ?_⟩
  unfold applyNow
  dsimp only
  rw [hk, hkind]
  dsimp only
  rw [hsend]
  exact ⟨rfl, rfl, hlast, congrArg (· + 1) hseq, hwait, rfl⟩

theorem outRing_old (h : dist32 (parseFrame f.bytes).seq x.lastOut = 0 ∨ 65536 < dist32 (parseFrame f.bytes).seq x.lastOut) :
    outRing x id f t draw = x := by
  unfold outRing
  dsimp only
  rw [if_pos (by rcases h with h | h <;> simp [h])]

section
variable (hgood : f.fcs = .good) (hty : (parseFrame f.bytes).ty = 1) (hver : (parseFrame f.bytes).ver = x.version)
  (hid : (parseFrame f.bytes).drop = id) (hass : x.assigned = true) (hfits : lenFits (parseFrame f.bytes) = true)
include hgood hty hver hid hass hfits

theorem outRing_new (h1 : 1 ≤ dist32 (parseFrame f.bytes).seq x.lastOut) (h2 : dist32 (parseFrame f.bytes).seq x.lastOut ≤ 65536) :
    outRing x id f t draw =
      let rf := parseFrame f.bytes
      let x1 := { x with lastOut := rf.seq, etherType := rf.ety }
      if rf.time = 0 ∨ x.version = 1 then applyNow x1 id t rf.data (bit rf.flags 7) draw
      else if almDiff t rf.time < 0 then { x1 with waitingOut := x1.waitingOut ++ [(rf.time, rf.data, bit rf.flags 7)] }
      else applyNow { x1 with lateOut := x1.lateOut + 1 } id t rf.data (bit rf.flags 7) draw := by
  unfold outRing
  dsimp only
  rw [if_neg (by simp [hgood, hty, hver, hid, hass, hfits, Nat.not_lt.2 h2]; omega)]

end

/-- What an accepted copy makes of a ring drop's outputs, once it is applied (R222). -/
def OutApplied (x y : Station) (rf : RFrame) : Prop :=
  y.lastOut = rf.seq ∧ y.inSeq = x.inSeq + 1
    ∧ (bit rf.flags 7 = false → y.outputs = rf.data ∧ y.inSafe = false)
    ∧ (bit rf.flags 7 = true → x.inSafe = true → y.outputs = x.outputs ∧ y.inSafe = true)
    ∧ (bit rf.flags 7 = true → x.inSafe = false → y.outputs = rf.data ∧ y.inSafe = false)

theorem outApplied_applyNow {x1 : Station} {rf : RFrame} (hkind : x.kind = .ring)
    (hx1 : x1.kind = x.kind ∧ x1.lastOut = rf.seq ∧ x1.inSeq = x.inSeq ∧ x1.outputs = x.outputs ∧ x1.inSafe = x.inSafe) :
    OutApplied x (applyNow x1 id t rf.data (bit rf.flags 7) draw) rf := by
  obtain ⟨hk, hlast, hseq, hout, hsafe⟩ := hx1
  obtain ⟨fr, hy⟩ := applyNow_ring (id := id) (time := t) (data := rf.data) (stale := bit rf.flags 7) (draw := draw) (hk.trans hkind)
  dsimp only at hy
  obtain ⟨hyout, hysafe, hylast, hyseq, -, -⟩ := hy
  refine ⟨hylast.trans hlast, hyseq.trans (by rw [hseq]), fun hfresh => ?_, fun hstale hin => ?_, fun hstale hin => ?_⟩
  · rw [hfresh] at hyout hysafe ⊢
    exact ⟨hyout.trans (applyOut_fresh x1 rf.data).1, hysafe.trans (applyOut_fresh x1 rf.data).2⟩
  · rw [hstale, applyOut_held (hsafe.trans hin)] at hyout hysafe
    rw [hstale]
    exact ⟨hyout.trans hout, hysafe.trans (hsafe.trans hin)⟩
  · obtain ⟨ho, hs⟩ := applyOut_stale (x := x1) (data := rf.data) (hsafe.trans hin)
    rw [hstale] at hyout hysafe ⊢
    exact ⟨hyout.trans ho, hysafe.trans hs⟩

end

/-! ### The TIME of a frame of version 2 -/

theorem parseFrame_frameV2_time {dst src : Bytes} (ety ty flags fid drop : Nat) (seq : W32) (time : W64) (data : Bytes)
    (hd : dst.length = 6) (hs : src.length = 6) (hty : ty < 16) :
    (parseFrame (frameV2 dst src ety ty flags fid drop seq time data)).time = time := by
  have hver : be (frameV2 dst src ety ty flags fid drop seq time data) 14 1 = 0x20 + ty := by
    simp [frameV2, padFrame, be_skip, be_front, hd, hs]
    omega
  have htime : be (frameV2 dst src ety ty flags fid drop seq time data) 24 8 = time.toNat := by
    simp [frameV2, padFrame, be_skip, be_front, hd, hs]
    omega
  have hv2 : (0x20 + ty) / 16 = 2 := by omega
  simp [parseFrame, hver, hv2, htime, w64]

/-! ### Assignment -/

section
variable {x : Station} {id : Nat} {f : Frame}

theorem sendHello_ring (hkind : x.kind = .ring) : sendHello x id = { x with out := x.out ++ [.dropRing 3 (dropFrame x id 1 6 0 0 0 (helloData x))] } := by
  cases x
  cases hkind
  rfl

/-- A drop with a new assignment. -/
def reassigned (x : Station) (rf : RFrame) : Station :=
  { x with assigned := true, assign := rf.data, version := byteAt rf.data 6, lastOut := w32 (be rf.data 8 4) - 1, outFid := w16 (be rf.data 16 2),
           inFid := w16 (be rf.data 18 2), watchdog := be rf.data 20 4, etherType := rf.ety, waitingOut := [] }

theorem assignRing_other (h : be (parseFrame f.bytes).data 0 6 ≠ x.mac) : assignRing x id f = x := by
  unfold assignRing
  dsimp only
  rw [if_pos (by simp [h])]

theorem assignRing_mine (hgood : f.fcs = .good) (hty : (parseFrame f.bytes).ty = 7) (hver : (parseFrame f.bytes).ver = 1)
    (hid : (parseFrame f.bytes).drop = id) (hlen : 28 ≤ (parseFrame f.bytes).data.length) (hmac : be (parseFrame f.bytes).data 0 6 = x.mac)
    (hv : byteAt (parseFrame f.bytes).data 6 = 1 ∨ byteAt (parseFrame f.bytes).data 6 = 2)
    (hbit : bit x.versions (byteAt (parseFrame f.bytes).data 6 - 1) = true) :
    assignRing x id f = if x.assigned && x.assign == (parseFrame f.bytes).data then sendHello x id
      else sendHello (reassigned x (parseFrame f.bytes)) id := by
  unfold assignRing
  dsimp only
  rw [if_neg (by rcases hv with h | h <;> simp_all)]
  rfl

end

/-- Settles O39. -/
theorem dropBehaviour : Obligations.DropBehaviour := by
  unfold Obligations.DropBehaviour
  intro s id x hs hx
  refine ⟨fun up f ptp hpow hkind hlink => ⟨fun hown => ?_, fun hmac hety => ?_⟩, fun up f ptp hpow => ?_, fun f t hpow hkind hass hgood hty hver hid hfits => ?_,
    fun t data rest hpow hkind hwait => ?_, fun hwait => ?_, fun hpow hsafe => ?_, fun hsafe => ?_, fun hpow hass => ⟨fun hkind => ?_, fun hkind => ?_⟩,
    fun f hpow hkind hgood hty hver hid hlen => ⟨fun hmac hv hbit => ?_, fun hmac => ?_⟩, fun hpow hkind hlink hun => ?_,
    fun code t hpow => ⟨fun hkind hv => ?_, fun hkind hv => ?_, fun hkind => ?_⟩, fun hpow hkind => ⟨?_, ?_, ?_, ?_⟩, fun up down => ?_, rfl,
    fun f hpow hkind hfor hlen => ⟨fun hid => ?_, fun hid => ?_⟩, fun t hpow hkind hass hrow => ?_⟩
  · exact dropIdle_of hs hx (exec_dropFrameForward id up f ptp s) (if_pos (by simp [hown]))
  · refine dropBecomes_of hs hx (exec_dropFrameForward id up f ptp s) ((if_neg (by simp [hpow, hkind, hlink, hmac, hety])).trans ?_)
    cases ptp with
    | none => rfl
    | some ns => exact congrArg (fun b => dEmit x (.dropRing (if up then (if x.wrapDown then 1 else 2) else (if x.wrapUp then 2 else 1))
        { bytes := b, fcs := fcsOut f.fcs })) (if_neg (by simp [hety]))
  · exact ⟨dropIdle_of hs hx (exec_dropFrameForward id up f ptp s) (if_pos (by simp [hpow])),
      dropIdle_of hs hx (exec_dropSyncEvent id 0 0 s) (by cases x.kind <;> simp [hpow]),
      dropIdle_of hs hx (exec_dropHelloTimer id s) (if_pos (by simp [hpow])),
      dropIdle_of hs hx (exec_dropOutputWatchdogExpiry id s) (if_neg (by simp [hpow])),
      dropIdle_of hs hx (exec_dropOutAbsenceTimeout id s) (if_pos (by simp [hpow])),
      dropIdle_of hs hx (exec_dropAssignReceive id f s) (if_pos (by simp [hpow])),
      dropIdle_of hs hx (exec_dropLinkLoss id up s) (if_pos (by simp [hpow])),
      dropIdle_of hs hx (exec_dropLinkStable id up s) (if_pos (by simp [hpow]))⟩
  · refine ⟨_, outRing x id f t s.fresh, ?_, rfl, outRing_old, fun h1 h2 => ?_⟩
    · rw [exec_dropOutAccept, execDropOutAccept, onStationFree_of_tget hs hx, if_neg (by simp [hpow]), hkind]
    · rw [outRing_new hgood hty hver hid hass hfits h1 h2]
      dsimp only
      by_cases hnow : (parseFrame f.bytes).time = 0 ∨ x.version = 1
      · rw [if_pos hnow]
        obtain ⟨hlast, happ⟩ := outApplied_applyNow (id := id) (t := t) (draw := s.fresh) (rf := parseFrame f.bytes)
          (x1 := { x with lastOut := (parseFrame f.bytes).seq, etherType := (parseFrame f.bytes).ety }) hkind ⟨rfl, rfl, rfl, rfl, rfl⟩
        exact ⟨hlast, fun htime hv _ => hnow.elim (fun h => absurd h htime) (fun h => by omega), fun _ => happ⟩
      · rw [if_neg hnow]
        by_cases hfut : almDiff t (parseFrame f.bytes).time < 0
        · rw [if_pos hfut]
          refine ⟨rfl, fun _ _ _ => ⟨rfl, rfl, rfl⟩, fun hor => ?_⟩
          rcases hor with h | h | h
          · exact absurd (.inl h) hnow
          · exact absurd (.inr h) hnow
          · omega
        · rw [if_neg hfut]
          obtain ⟨hlast, happ⟩ := outApplied_applyNow (id := id) (t := t) (draw := s.fresh) (rf := parseFrame f.bytes)
            (x1 := { x with lastOut := (parseFrame f.bytes).seq, etherType := (parseFrame f.bytes).ety, lateOut := x.lateOut + 1 }) hkind
            ⟨rfl, rfl, rfl, rfl, rfl⟩
          exact ⟨hlast, fun _ _ h => absurd h hfut, fun _ => happ⟩
  · obtain ⟨fr, hy⟩ := applyNow_ring (x := { x with waitingOut := rest }) (id := id) (time := t) (data := data) (stale := false) (draw := s.fresh) hkind
    dsimp only at hy
    obtain ⟨hout, hsafe, -, hseq, hrest, hsent⟩ := hy
    refine ⟨_, fr, ?_, hrest, hout, hsafe, hseq, hsent.trans (List.append_assoc _ _ _)⟩
    rw [exec_dropApplyTime, execDropApplyTime, onStationFree_of_tget hs hx, hwait]
    dsimp only
    rw [if_neg (by simp [hpow])]
  · rw [exec_dropApplyTime, execDropApplyTime, onStationFree_of_tget hs hx, hwait]
  · exact dropBecomes_of hs hx (exec_dropOutputWatchdogExpiry id s) (if_pos (by simp [hpow, hsafe]))
  · exact dropIdle_of hs hx (exec_dropOutputWatchdogExpiry id s) (if_neg (by simp [hsafe]))
  · refine dropBecomes_of hs hx (exec_dropOutAbsenceTimeout id s) ((if_neg (by simp [hpow, hass])).trans ?_)
    rw [← sendHello_ring (id := id) hkind, hkind]
  · refine dropBecomes_of hs hx (exec_dropOutAbsenceTimeout id s) ((if_neg (by simp [hpow, hass])).trans ?_)
    simp only [hkind]
  · have hexec : exec (.dropAssignReceive id f) s = .next { s with stations := tset s.stations id (assignRing x id f) } := by
      rw [exec_dropAssignReceive, execDropAssignReceive, onStation_of_tget hs hx, if_neg (by simp [hpow]), hkind]
    have hassign := assignRing_mine (x := x) (id := id) hgood hty hver hid hlen hmac hv hbit
    by_cases hsame : x.assigned = true ∧ x.assign = (parseFrame f.bytes).data
    · rw [if_pos (by simp [hsame]), sendHello_ring hkind] at hassign
      rw [hassign] at hexec
      exact ⟨_, hexec, hsame.1, ⟨_, rfl⟩, fun _ _ => rfl, fun hnew => absurd hsame (by rcases hnew with h | h <;> simp [h])⟩
    · rw [if_neg (by simpa using hsame), sendHello_ring (x := reassigned x (parseFrame f.bytes)) hkind] at hassign
      rw [hassign] at hexec
      exact ⟨_, hexec, rfl, ⟨_, rfl⟩, fun h h' => absurd ⟨h, h'⟩ hsame, fun _ => ⟨rfl, rfl, rfl, rfl⟩⟩
  · refine dropIdle_of hs hx (exec_dropAssignReceive id f s) ((if_neg (by simp [hpow])).trans ?_)
    rw [hkind]
    exact assignRing_other hmac
  · refine dropBecomes_of hs hx (exec_dropHelloTimer id s) ((if_neg (by simp [hpow])).trans ?_)
    rw [← sendHello_ring (id := id) hkind, hkind]
    exact if_pos (by rcases hlink with h | h <;> rcases hun with h' | h' | h' <;> simp [h, h'])
  · refine dropIdle_of hs hx (exec_dropSyncEvent id code t s) ?_
    simp only [hkind]
    exact if_pos (by simp [hv])
  · refine ⟨dropFrame { x with lastEvent := x.lastEvent + 1 } id 2 5 0 (x.lastEvent + 1) t (beBytes 2 code.toNat ++ zeros 2), ?_,
      (parseFrame_dropFrame _ _ _ _ _ _ _ (by decide)).2, ?_⟩
    · refine dropBecomes_of hs hx (exec_dropSyncEvent id code t s) ?_
      simp only [hkind]
      exact if_neg (by simp [hpow, hv])
    · exact parseFrame_frameV2_time _ _ _ _ _ _ _ _ (ringDst_length _) (beBytes_length _ _) (by decide)
  · refine dropBecomes_of hs hx (exec_dropSyncEvent id code t s) ?_
    simp only [hkind]
    exact if_neg (by simp [hpow])
  · exact dropBecomes_of hs hx (exec_dropLinkLoss id true s) (if_neg (by simp [hpow, hkind]))
  · exact dropBecomes_of hs hx (exec_dropLinkLoss id false s) (if_neg (by simp [hpow, hkind]))
  · exact dropBecomes_of hs hx (exec_dropLinkStable id true s) (if_neg (by simp [hpow, hkind]))
  · exact dropBecomes_of hs hx (exec_dropLinkStable id false s) (if_neg (by simp [hpow, hkind]))
  · rw [exec_dropPowerUp, execDropPowerUp, hx, Option.getD_some]
    exact ⟨_, rfl, rfl, rfl, rfl, rfl, rfl, fun hkind => by simp [drive, dEmit, hkind]⟩
  · exact dropBecomes_of hs hx (exec_dropRowReceive id f s) (if_pos (by simp [hpow, hkind, hid, hfor, hlen]))
  · exact dropIdle_of hs hx (exec_dropRowReceive id f s) (if_neg (by simp [hid]))
  · have hsend := sendIn_bus (x := { sampleIn x s.fresh with rowStart := none }) (id := id) (time := 0) hkind
    refine ⟨_, inFrame { sampleIn x s.fresh with rowStart := none }, ?_, congrArg (·.inSeq) hsend, congrArg (·.rowStart) hsend,
      congrArg (·.out) hsend, rfl⟩
    rw [exec_dropInSlotTime, execDropInSlotTime, onStationFree_of_tget hs hx, if_pos (by simp [hpow, hkind, hass, hrow])]

end Sys2Proof.Machine

/-! PROOF. Power-up and power-down, resets, feeds, the lever and the sensors (R29, R31, R396 to R401, R410, R411). -/

namespace Sys2Proof.Machine
open Sys2Proof Sys2Proof.Bits Sys2Proof.Safety

/-! ### Safety outputs without their conditions -/

section
variable {m : Module}

/-- A channel whose conditions fail is off, unless the module is going down (R354). -/
theorem refresh_so_off (hup : m.power.phase ≠ .goingDown) (h : ∀ c x, soMay (refreshOuts m) c x = false) :
    ∀ x ∈ (refresh m).halo.so, x.energised = false := by
  intro x hx
  obtain ⟨c, hc⟩ := List.mem_iff_getElem?.1 hx
  rw [refresh_so] at hc
  obtain ⟨y, -, rfl⟩ := Option.map_eq_some_iff.1 hc
  rw [soNext, if_neg (by simpa using hup), h]
  cases he : y.energised <;> simp [he]

theorem soMay_not_run (h : inRun m = false) (c : Nat) (x : So) : soMay m c x = false := by simp [soMay, h]

theorem soMay_no_field (h : m.power.field = false) (c : Nat) (x : So) : soMay m c x = false := by simp [soMay, h]

theorem good_of_hasPower (h : hasPower m = true) : m.power.phase = .good := by simpa [hasPower] using h

/-! ### HALT -/

theorem enterHalt_facts (hpower : hasPower m = true) : (enterHalt m).boot.state = .halt ∧ (enterHalt m).mail.qps = []
    ∧ (∀ x ∈ (enterHalt m).halo.so, x.energised = false) ∧ ∀ x ∈ (enterHalt m).exec.tasks, x.2.cycle = none := by
  have hphase := good_of_hasPower hpower
  refine ⟨?_, ?_, refresh_so_off ?_ (fun c x => soMay_not_run ?_ c x), ?_⟩
  · simp [enterHalt, mailMod]
  · simp [enterHalt, mailMod]
  · simp [mailMod, leavePair, pairMod, stopConns, stopLegacy, holdLanes, stopCycles, hphase]
  · simp [inRun, mailMod]
  · intro x hx
    simp only [enterHalt, refresh_exec] at hx
    obtain ⟨y, -, rfl⟩ : ∃ y ∈ m.exec.tasks, (y.1, { y.2 with cycle := none }) = x := by
      simpa [mailMod, leavePair, pairMod, stopConns, stopLegacy, holdLanes, stopCycles] using hx
    rfl

/-! ### A reset -/

/-- What a module reset leaves (R29, R62, R294, R395). -/
def WasReset (m m' : Module) : Prop :=
  m'.boot.state = .loader ∧ m'.boot.fail = m.boot.fail ∧ m'.mail.qps = [] ∧ m'.pair.role = .none ∧ m'.pair.agen = m.pair.agen ∧ m'.alm.t = m.alm.t
    ∧ m'.alm.adj = m.alm.adj ∧ m'.alm.source = 0 ∧ m'.hw.wiring = m.hw.wcPins ∧ m'.chron.recs = m.chron.recs ∧ m'.store.points = m.store.points
    ∧ m'.boot.cur = m.boot.cur

theorem moduleReset_resets (hpower : hasPower m = true) (hon : powered m = true) : WasReset m (moduleReset m) := by
  unfold moduleReset WasReset
  rw [if_neg (by simpa [hpower, powered] using hon)]
  dsimp only
  split <;> simp [resetBoot, resetMail, resetPair, resetAlm, resetChron, pushPending]

/-! ### PERST_N -/

/-- Every QP left is one over UDP. -/
def AllUdp (m : Module) : Prop := ∀ x ∈ m.mail.qps, x.2.udp = true

theorem AllUdp.pushCpl (h : AllUdp m) (qp : Nat) (c : Cpl) : AllUdp (pushCpl m qp c) := by
  unfold Machine.pushCpl
  split
  · intro x hx
    obtain ⟨y, hy, rfl⟩ := List.mem_map.1 hx
    split <;> exact h y hy
  · exact h

theorem dropQps_boot_exec (qs : List Nat) : ((dropQps m qs).boot, (dropQps m qs).exec) = (m.boot, m.exec) := by
  unfold dropQps
  exact foldl_keeps (fun a => (a.boot, a.exec)) _ (fun a x => by simp) _ _

/-- The QPs of the host go when the attachment ends (R62). -/
theorem allUdp_dropQps : AllUdp (dropQps m ((m.mail.qps.filter (fun x => !x.2.udp)).map (·.1))) := by
  unfold dropQps
  refine List.foldlRecOn _ _ (motive := AllUdp) ?_ (fun a ha x _ => ha.pushCpl _ _)
  intro x hx
  obtain ⟨hmem, hkept⟩ := List.mem_filter.1 hx
  by_contra hudp
  have hgone : x.1 ∈ (m.mail.qps.filter (fun x => !x.2.udp)).map (·.1) :=
    List.mem_map.2 ⟨x, List.mem_filter.2 ⟨hmem, by simp [hudp]⟩, rfl⟩
  exact absurd (List.contains_iff_mem.2 hgone) (by simpa using hkept)

theorem pullFail_keeps : (pullFail m).boot.state = m.boot.state ∧ (pullFail m).exec = m.exec ∧ (pullFail m).mail = m.mail := ⟨rfl, rfl, rfl⟩

theorem detachHost_facts : (detachHost m).boot.state = m.boot.state ∧ (detachHost m).exec = m.exec ∧ AllUdp (detachHost m) := by
  have hudp := allUdp_dropQps (m := m)
  obtain ⟨hboot, hexec⟩ := Prod.mk.inj (dropQps_boot_exec (m := m) ((m.mail.qps.filter (fun x => !x.2.udp)).map (·.1)))
  unfold detachHost
  generalize dropQps m ((m.mail.qps.filter (fun x => !x.2.udp)).map (·.1)) = m1 at hudp hboot hexec
  unfold AllUdp at hudp ⊢
  dsimp only
  split <;> split <;> simpa [mailMod, pullFail, setCode, hboot, hexec] using hudp

/-! ### Loss of power -/

theorem declarePowerLoss_good (hpower : hasPower m = true) : declarePowerLoss m =
    { stopLegacy (holdLanes m true) with power := { m.power with phase := .goingDown } } := by
  unfold declarePowerLoss
  rw [if_neg (by simp [hpower])]
  rfl

theorem declarePowerLoss_facts (hpower : hasPower m = true) : (declarePowerLoss m).power = { m.power with phase := .goingDown }
    ∧ (declarePowerLoss m).boot = m.boot ∧ ∀ r ∈ (declarePowerLoss m).field.rings, r.held = true := by
  rw [declarePowerLoss_good hpower]
  refine ⟨rfl, rfl, fun r hr => ?_⟩
  obtain ⟨y, -, rfl⟩ := List.mem_map.1 hr
  rfl

theorem losePower_ramping (h : m.power.phase = .ramping) : losePower m = powerMod m (fun p => { p with phase := .off }) := by
  unfold losePower
  exact if_pos h

theorem losePower_good (hpower : hasPower m = true) : (losePower m).power = { m.power with phase := .goingDown } := by
  unfold losePower
  rw [if_neg (by simp [good_of_hasPower hpower])]
  exact (declarePowerLoss_facts hpower).1

/-! ### The sensors -/

/-- The module once the four junctions are read. -/
def junctionsRead (m : Module) (t0 t1 t2 t3 : Int) : Module :=
  powerMod m (fun p => { p with j0 := t0, j1 := t1, j2 := t2, j3 := t3 })

/-- The module once the marks of its temperature follow the reading. -/
def junctionsMarked (m : Module) (t0 t1 t2 t3 : Int) : Module :=
  let top := max (max t0 t1) (max t2 t3)
  powerMod (junctionsRead m t0 t1 t2 t3) (fun p =>
    { p with maxJunction := max p.maxJunction top, hotOnce := decide (1500 ≤ top), warm140 := decide (1400 ≤ top) })

variable {t0 t1 t2 t3 : Int}

theorem readJunctions_off (h : m.power.phase = .off) : readJunctions m t0 t1 t2 t3
    = powerMod (junctionsRead m t0 t1 t2 t3) (fun p => { p with tooHot := p.tooHot && decide (1300 < max (max t0 t1) (max t2 t3)) }) := by
  unfold readJunctions
  dsimp only
  rw [if_pos (by simp [h])]
  rfl

section
variable (hpower : hasPower m = true)
include hpower

theorem readJunctions_lost (htop : 1600 ≤ max (max t0 t1) (max t2 t3)) : readJunctions m t0 t1 t2 t3
    = losePower (powerMod (junctionsMarked m t0 t1 t2 t3) (fun p => { p with tooHot := true })) := by
  unfold readJunctions
  dsimp only
  rw [if_neg (by simp [good_of_hasPower hpower])]
  exact if_pos htop

/-- Below 160 °C the module goes on, in UMBRA after the second reading of 150 °C (R410). -/
theorem readJunctions_on (htop : max (max t0 t1) (max t2 t3) < 1600) : ∃ m3,
    (m3 = junctionsMarked m t0 t1 t2 t3 ∨ m3 = thermalRecord (junctionsMarked m t0 t1 t2 t3)) ∧
    readJunctions m t0 t1 t2 t3 = if 1500 ≤ max (max t0 t1) (max t2 t3) ∧ m.power.hotOnce = true
      then enterUmbra m3 1 (unsigned 32 (max (max t0 t1) (max t2 t3))) else m3 := by
  refine ⟨if 1400 ≤ max (max t0 t1) (max t2 t3) ∧ m.power.warm140 = false then thermalRecord (junctionsMarked m t0 t1 t2 t3)
    else junctionsMarked m t0 t1 t2 t3, ?_, ?_⟩
  · split
    · exact .inr rfl
    · exact .inl rfl
  · unfold readJunctions
    dsimp only
    rw [if_neg (by simp [good_of_hasPower hpower])]
    exact if_neg (Int.not_le.2 htop)

end

/-- The module once its cold plate is read. -/
def coldPlateRead (m : Module) (t : Int) (cool : Bool) : Module :=
  let thr := if m.power.throttled then !(decide (t ≤ 1170) && cool) else decide (1200 ≤ t)
  powerMod m (fun p => { p with coldPlate := t, maxCold := max p.maxCold t, outOfRange := decide (t < -400 ∨ 1250 < t), throttled := thr
                                throttledTenths := p.throttledTenths + b2n thr })

theorem readColdPlate_good (t : Int) (cool : Bool) (hpower : hasPower m = true) : ∃ m1,
    (m1 = coldPlateRead m t cool ∨ m1 = thermalRecord (coldPlateRead m t cool)) ∧ readColdPlate m t cool = m1 := by
  refine ⟨_, ?_, rfl⟩
  unfold readColdPlate
  dsimp only
  rw [if_neg (by simp [good_of_hasPower hpower])]
  generalize hthr : (if m.power.throttled = true then !(decide (t ≤ 1170) && cool) else decide (1200 ≤ t)) = thr
  have hread : coldPlateRead m t cool = powerMod m (fun p => { p with
      coldPlate := t, maxCold := max p.maxCold t, outOfRange := decide (t < -400 ∨ 1250 < t), throttled := thr,
      throttledTenths := p.throttledTenths + b2n thr }) := by
    rw [← hthr]
    rfl
  rw [hread]
  split
  · exact .inr rfl
  · exact .inl rfl

end

/-- A record of the temperature changes the Chronicle and what the module sends. -/
theorem thermalRecord_keeps (m : Module) : (thermalRecord m).power = m.power ∧ (thermalRecord m).boot = m.boot := by
  unfold thermalRecord
  simp

theorem feedRecord_keeps (m : Module) (feed mv : Nat) : (feedRecord m feed mv).power = m.power ∧ (feedRecord m feed mv).boot = m.boot := by
  unfold feedRecord
  simp

/-- Settles O50. -/
theorem powerEvents : Obligations.PowerEvents := by
  unfold Obligations.PowerEvents
  intro s sl
  dsimp only
  refine ⟨fun h => becomes_of (exec_powerUpStart sl s) (if_pos h), fun h => idle_of (exec_powerUpStart sl s) (if_neg (by simp [h])), fun h => ?_, fun h => ?_,
    fun h => ?_, fun hm hph => ?_, fun hpower hon => ⟨?_, ?_, fun u => ?_⟩, fun u hpower => ⟨?_, ?_⟩, rfl, ?_, fun h => ?_, fun h hpower => ?_,
    fun hp hn => ?_, fun h => ?_, fun mv => ⟨?_, ?_, ?_, ?_, ?_, ?_⟩, fun a b c => ⟨fun ha => ?_, fun ha hpower => ?_⟩, fun h => ⟨?_, ?_⟩,
    fun hpower => ⟨?_, ?_⟩, fun h => ?_, fun h => ?_, fun hoff hfeed hcool => ?_, fun h => ?_,
    fun t0 t1 t2 t3 => ⟨fun hoff => ?_, fun hpower htop => ?_, fun hpower hrun h15 h16 hhot => ?_, fun hpower h15 h16 hhot => ?_, fun hpower htop => ?_⟩,
    fun t cool hpower => ?_⟩
  · refine ⟨_, becomes_of (exec_powerGood sl s) (if_neg (by simp [h])), rfl, rfl, rfl, rfl, rfl, rfl, rfl, rfl⟩
  · exact idle_of (exec_powerGood sl s) (if_pos (by simp [h]))
  · exact idle_of (exec_loaderReady sl s) (if_pos h)
  · refine ⟨_, becomes_of (exec_loaderReady sl s) ((if_neg (by simp [hm])).trans (if_pos hph)), ?_, ?_, ?_⟩ <;> rw [refresh_only] <;> rfl
  · exact ⟨_, becomes_of (exec_mreset sl s) rfl, moduleReset_resets hpower hon, rfl, rfl⟩
  · exact ⟨_, becomes_of (exec_lanternWatchdogExpiry sl s) rfl, moduleReset_resets hpower hon⟩
  · exact ⟨_, becomes_of (exec_lockstepFault sl u s) (if_pos (by simp [hpower, hon])), enterHalt_facts hpower⟩
  · exact idle_of (exec_lockstepFault sl u s) (if_neg (by simp [hpower]))
  · exact idle_of (exec_lanternWatchdogExpiry sl s) (if_pos (by simp [hpower]))
  · obtain ⟨hstate, hexec, hudp⟩ := detachHost_facts (m := modOf s sl)
    exact ⟨_, becomes_of (exec_perst sl s) rfl, rfl, rfl, hstate, hudp, hexec⟩
  · exact idle_of (exec_perstRelease sl s) (if_pos (by simp [h]))
  · refine becomes_of (exec_perstRelease sl s) ((if_neg (by simp [h])).trans ?_)
    simp [bootMod, good_of_hasPower hpower]
  · exact becomes_of (exec_pcieLinkTrained sl s) (if_pos (by simp [hp, hn]))
  · exact idle_of (exec_pcieLinkTrained sl s) (if_neg (by simp [h]))
  · obtain ⟨hpow, hboot⟩ := feedRecord_keeps (powerMod (powerMod (modOf s sl) (fun p => { p with logic1 := false, logic1mV := mv }))
      (fun p => { p with inDip := p.inDip || (p.phase == .good && !p.logic1 && !p.logic2) })) 0 mv
    refine ⟨_, becomes_of (exec_logicFeedLost sl 0 mv s) rfl, congrArg (·.logic1) hpow, congrArg (·.logic1mV) hpow, congrArg (·.logic2) hpow,
      congrArg (·.state) hboot, fun hpower hl2 => (congrArg (·.inDip) hpow).trans ?_⟩
    simp [powerMod, good_of_hasPower hpower, hl2]
  · obtain ⟨hpow, -⟩ := feedRecord_keeps (powerMod (powerMod (modOf s sl) (fun p => { p with logic2 := false, logic2mV := mv }))
      (fun p => { p with inDip := p.inDip || (p.phase == .good && !p.logic1 && !p.logic2) })) 1 mv
    exact ⟨_, becomes_of (exec_logicFeedLost sl 1 mv s) rfl, congrArg (·.logic2) hpow, congrArg (·.logic2mV) hpow, congrArg (·.logic1) hpow⟩
  · refine ⟨_, becomes_of (exec_logicFeedRestored sl 0 mv s) rfl, ?_⟩
    by_cases hdip : (modOf s sl).power.inDip && (modOf s sl).power.phase == .good <;> simp [powerMod, hasPower, hdip]
  · refine ⟨_, becomes_of (exec_logicFeedRestored sl 1 mv s) rfl, ?_⟩
    by_cases hdip : (modOf s sl).power.inDip && (modOf s sl).power.phase == .good <;> simp [powerMod, hdip]
  · obtain ⟨hpow, -⟩ := feedRecord_keeps (powerMod (modOf s sl) (fun p => { p with field := false, fieldmV := mv })) 2 mv
    refine ⟨_, becomes_of (exec_fieldFeedLost sl mv s) rfl, ?_, ?_, fun hpower => refresh_so_off ?_ fun c x => soMay_no_field ?_ c x⟩
    · rw [refresh_power, hpow]; rfl
    · rw [refresh_power, hpow]; rfl
    · rw [hpow]; simp [powerMod, good_of_hasPower hpower]
    · rw [refreshOuts_power, hpow]; rfl
  · refine ⟨_, becomes_of (exec_fieldFeedRestored sl mv s) rfl, ?_, ?_⟩ <;> rw [refresh_power] <;> rfl
  · exact becomes_of (exec_holdupReserveUpdate sl a b c s) (if_neg (by omega))
  · obtain ⟨hpow, hboot, hrings⟩ := declarePowerLoss_facts
      (m := powerMod (modOf s sl) (fun p => { p with reserve := a, reserve46 := b, bankmV := c })) hpower
    exact ⟨_, becomes_of (exec_holdupReserveUpdate sl a b c s) (if_pos ha), congrArg (·.phase) hpow, congrArg (·.state) hboot, hrings⟩
  · exact ⟨_, becomes_of (exec_logicInputLowTimeout sl s) (losePower_ramping h), rfl⟩
  · exact ⟨_, becomes_of (exec_ejectorLeverOpen sl s) (losePower_ramping h), rfl, rfl⟩
  · exact ⟨_, becomes_of (exec_logicInputLowTimeout sl s) rfl, congrArg (·.phase) (losePower_good hpower)⟩
  · have hpow := losePower_good (m := powerMod (modOf s sl) (fun p => { p with leverClosed := false })) hpower
    exact ⟨_, becomes_of (exec_ejectorLeverOpen sl s) rfl, congrArg (·.phase) hpow, congrArg (·.leverClosed) hpow⟩
  · exact ⟨_, becomes_of (exec_powerDownComplete sl s) (if_pos (by simp [h])), rfl, rfl, rfl, rfl, rfl, rfl, rfl, rfl, rfl, rfl, rfl⟩
  · exact idle_of (exec_powerDownComplete sl s) (if_neg (by simp [h]))
  · refine becomes_of (exec_ejectorLeverClosed sl s) (if_pos ?_)
    rcases hfeed with h | h <;> simp [mayPowerUp, powerMod, hoff, hcool, h]
  · exact becomes_of (exec_ejectorLeverClosed sl s) (if_neg (by simp [mayPowerUp, powerMod, h]))
  · exact ⟨_, becomes_of (exec_junctionRead sl t0 t1 t2 t3 s) (readJunctions_off hoff), rfl, rfl, rfl⟩
  · have hpow := losePower_good (m := powerMod (junctionsMarked (modOf s sl) t0 t1 t2 t3) (fun p => { p with tooHot := true })) hpower
    exact ⟨_, becomes_of (exec_junctionRead sl t0 t1 t2 t3 s) (readJunctions_lost hpower htop), congrArg (·.phase) hpow, congrArg (·.tooHot) hpow⟩
  · obtain ⟨m3, hm3, hread⟩ := readJunctions_on (t0 := t0) (t1 := t1) (t2 := t2) (t3 := t3) hpower h16
    rw [if_pos ⟨h15, hhot⟩] at hread
    have hkeep : m3.power.phase = .good ∧ m3.boot.state = .run := by
      obtain ⟨hpow, hboot⟩ := thermalRecord_keeps (junctionsMarked (modOf s sl) t0 t1 t2 t3)
      rcases hm3 with rfl | rfl
      · exact ⟨good_of_hasPower hpower, state_of_inRun hrun⟩
      · rw [hpow, hboot]
        exact ⟨good_of_hasPower hpower, state_of_inRun hrun⟩
    exact ⟨_, becomes_of (exec_junctionRead sl t0 t1 t2 t3 s) hread,
      enterUmbra_boot_halo 1 _ (by simp [hasPower, hkeep.1]) (.inr (.inl hkeep.2))⟩
  · obtain ⟨m3, hm3, hread⟩ := readJunctions_on (t0 := t0) (t1 := t1) (t2 := t2) (t3 := t3) hpower h16
    rw [if_neg (by simp [hhot])] at hread
    obtain ⟨hpow, hboot⟩ : m3.power = (junctionsMarked (modOf s sl) t0 t1 t2 t3).power ∧ m3.boot = (modOf s sl).boot := by
      rcases hm3 with rfl | rfl
      · exact ⟨rfl, rfl⟩
      · exact thermalRecord_keeps _
    exact ⟨m3, becomes_of (exec_junctionRead sl t0 t1 t2 t3 s) hread, congrArg (·.state) hboot, (congrArg (·.hotOnce) hpow).trans (decide_eq_true h15),
      (congrArg (·.phase) hpow).trans (good_of_hasPower hpower)⟩
  · obtain ⟨m3, hm3, hread⟩ := readJunctions_on (t0 := t0) (t1 := t1) (t2 := t2) (t3 := t3) hpower (by omega)
    rw [if_neg (by omega)] at hread
    obtain ⟨hpow, hboot⟩ : m3.power = (junctionsMarked (modOf s sl) t0 t1 t2 t3).power ∧ m3.boot = (modOf s sl).boot := by
      rcases hm3 with rfl | rfl
      · exact ⟨rfl, rfl⟩
      · exact thermalRecord_keeps _
    exact ⟨m3, becomes_of (exec_junctionRead sl t0 t1 t2 t3 s) hread, congrArg (·.state) hboot,
      (congrArg (·.hotOnce) hpow).trans (decide_eq_false (by omega)), congrArg (·.maxJunction) hpow⟩
  · obtain ⟨m1, hm1, hread⟩ := readColdPlate_good t cool hpower
    have hpow : m1.power = (coldPlateRead (modOf s sl) t cool).power := by
      rcases hm1 with rfl | rfl
      · rfl
      · exact (thermalRecord_keeps _).1
    refine ⟨m1, becomes_of (exec_coldPlateRead sl t cool s) hread, ?_⟩
    rw [hpow]
    exact ⟨rfl, rfl, fun h => if_neg (by simp [h]), fun h => if_pos h, rfl⟩

end Sys2Proof.Machine

/-! PROOF. The relay from the partner, the end of a verification and of the self-tests (R29, R44, R45, R48, R53, R371). -/

namespace Sys2Proof.Machine
open Sys2Proof Sys2Proof.Bits Sys2Proof.Safety

/-! ### Regions -/

section
variable (m p : Module)

/-- Everything of the boot record but its slots. -/
def SameButSlots (b' b : Boot) : Prop := b' = { b with slot0 := b'.slot0, slot1 := b'.slot1, slot2 := b'.slot2 }

variable {m p}

theorem SameButSlots.refl (b : Boot) : SameButSlots b b := rfl

theorem SameButSlots.trans {a b c : Boot} (h : SameButSlots a b) (h' : SameButSlots b c) : SameButSlots a c := by
  unfold SameButSlots at *
  rw [h, h']

theorem slotMod_same (i : Nat) (f : ImgSlot → ImgSlot) : SameButSlots (slotMod m i f).boot m.boot := by
  unfold SameButSlots
  conv_lhs => rw [slotMod_only]

theorem regionMod_same (i c : Nat) (f : Region → Region) : SameButSlots (regionMod m i c f).boot m.boot := slotMod_same i _

theorem SameButSlots.loadSlot {b' b : Boot} (h : SameButSlots b' b) : loadSlot b' = loadSlot b := by
  rw [h]
  rfl

theorem SameButSlots.state {b' b : Boot} (h : SameButSlots b' b) : b'.state = b.state := by rw [h]

theorem SameButSlots.relaySlot {m' : Module} (h : SameButSlots m'.boot m.boot) : relaySlot m' = relaySlot m := by
  have hstate : m'.boot.state = m.boot.state := by rw [h]
  have hcand : m'.boot.cand = m.boot.cand := by rw [h]
  rw [Machine.relaySlot, Machine.relaySlot, hstate, hcand, h.loadSlot]

theorem regionMod_out (i c : Nat) (f : Region → Region) : (regionMod m i c f).out = m.out := rfl

/-- A change of one class leaves the other. -/
theorem regionOf_regionMod_other (i : Nat) (f : Region → Region) :
    regionOf (regionMod m i 2 f) i 1 = regionOf m i 1 ∧ regionOf (regionMod m i 1 f) i 2 = regionOf m i 2 := by
  constructor <;> rw [regionOf, regionMod, slotAt_slotMod] <;> rfl

/-! ### The relay starts -/

section
variable (hpower : hasPower m = true) (hstate : m.boot.state = .loader) (hen : m.boot.relayEn = true) (hrel : m.boot.relaying = false)
  (hwith : m.boot.relayWithdrawn = false) (hoff : partnerOffers m p = true)
include hpower hstate hen hrel hwith hoff

theorem relayFromPartner_open (h : (regionOf m (loadSlot m.boot) 1).isOpen = true ∨ (regionOf m (loadSlot m.boot) 2).isOpen = true) :
    relayFromPartner m p = (bootMod m (fun b => { b with relayWithdrawn := true }), p) := by
  unfold relayFromPartner
  dsimp only
  rw [if_neg (by simp [hpower, hstate, hen, hrel, hwith, hoff]), if_pos (by rcases h with h | h <;> simp [h])]

theorem relayFromPartner_closed (h1 : (regionOf m (loadSlot m.boot) 1).isOpen = false) (h2 : (regionOf m (loadSlot m.boot) 2).isOpen = false) :
    relayFromPartner m p = startRelay m p p.boot.cur [1, 2] := by
  unfold relayFromPartner
  dsimp only
  rw [if_neg (by simp [hpower, hstate, hen, hrel, hwith, hoff]), if_neg (by simp [h1, h2])]

end

/-- Both regions of the slot that a relay fills belong to the partner. -/
def relayOwned (m : Module) : Module :=
  let m1 := regionMod m (relaySlot m) 1 (fun _ => { owner := 2 })
  regionMod m1 (relaySlot m1) 2 (fun _ => { owner := 2 })

theorem relayOwned_facts : SameButSlots (relayOwned m).boot m.boot ∧ (regionOf (relayOwned m) (relaySlot m) 1).owner = 2
    ∧ (regionOf (relayOwned m) (relaySlot m) 2).owner = 2 := by
  have h1 := regionMod_same (m := m) (relaySlot m) 1 (fun _ => { owner := 2 })
  unfold relayOwned
  dsimp only
  rw [h1.relaySlot]
  refine ⟨(regionMod_same _ _ _).trans h1, ?_, ?_⟩
  · rw [(regionOf_regionMod_other _ _).1, regionOf_regionMod]
  · rw [regionOf_regionMod]

theorem startRelay_eq (slot : Nat) : startRelay m p slot [1, 2] =
    (bootMod (relayOwned m) (fun b => { b with relaying := true, relayCls := 1, relayBlock := 0, relayFails := 0, relayMib := 0, relayStop := false }),
     sendBlock (bootMod p (fun b => { b with sending := some (1, 0, 0), sendSlot := slot, sendClasses := [1, 2] })) 1 0) := rfl

/-! ### A block arrives -/

section
variable {cls b : Nat} {data : Bytes} {crc : W32} (hpower : hasPower m = true) (hrel : m.boot.relaying = true) (hlink : linked m p = true)
  (hcls : m.boot.relayCls = cls) (hb : m.boot.relayBlock = b)

/-- A good block, stored and acknowledged. -/
def blockStored (m : Module) (cls b : Nat) (data : Bytes) : Module :=
  let m1 := regionMod m (relaySlot m) cls (fun r =>
    { r with bytes := memWrite r.bytes (b * relayBlockLen) data, len := max r.len (b * relayBlockLen + data.length) })
  emit (bootMod m1 (fun b => { b with relayFails := 0, relayMib := b.relayMib + 1 })) (.sync (.relayBlockAck true))

theorem blockStored_facts : SameButSlots (blockStored m cls b data).boot { m.boot with relayFails := 0, relayMib := m.boot.relayMib + 1 }
    ∧ (blockStored m cls b data).out = m.out ++ [.sync (.relayBlockAck true)]
    ∧ (regionOf (blockStored m cls b data) (relaySlot m) cls).bytes = memWrite (regionOf m (relaySlot m) cls).bytes (b * 1048576) data := by
  refine ⟨?_, rfl, ?_⟩
  · have h := regionMod_same (m := m) (relaySlot m) cls (fun r =>
      { r with bytes := memWrite r.bytes (b * relayBlockLen) data, len := max r.len (b * relayBlockLen + data.length) })
    unfold SameButSlots at h ⊢
    unfold blockStored
    dsimp only [emit, bootMod]
    rw [h]
  · have hreg := congrArg (·.bytes) (regionOf_regionMod m (relaySlot m) cls (fun r =>
      { r with bytes := memWrite r.bytes (b * relayBlockLen) data, len := max r.len (b * relayBlockLen + data.length) }))
    dsimp only at hreg
    rw [show (1048576 : Nat) = relayBlockLen from rfl, ← hreg]
    rfl

include hpower hrel hlink hcls hb

theorem takeBlock_bad (hcrc : crc32c data ≠ crc) : takeBlock cls b data crc m p =
    if m.boot.relayFails = 2 then relayFail (emit m (.sync (.relayBlockAck false)))
    else bootMod (emit m (.sync (.relayBlockAck false))) (fun b => { b with relayFails := b.relayFails + 1 }) := by
  unfold takeBlock
  rw [if_neg (by simp [hpower, hrel, hlink, hcls, hb]), if_pos hcrc]

theorem takeBlock_stop (hcrc : crc32c data = crc) (hstop : m.boot.relayStop = true) :
    takeBlock cls b data crc m p = relayStopNow (blockStored m cls b data) := by
  unfold takeBlock
  rw [if_neg (by simp [hpower, hrel, hlink, hcls, hb]), if_neg (by simp [hcrc])]
  exact if_pos hstop

theorem takeBlock_next (hcrc : crc32c data = crc) (hstop : m.boot.relayStop = false) {c k : Nat} (hnext : nextBlock p cls b = some (c, k)) :
    takeBlock cls b data crc m p = bootMod (blockStored m cls b data) (fun x => { x with relayCls := c, relayBlock := k }) := by
  unfold takeBlock
  rw [if_neg (by simp [hpower, hrel, hlink, hcls, hb]), if_neg (by simp [hcrc]), hnext]
  exact if_neg (by simp [hstop])

theorem takeBlock_last (hcrc : crc32c data = crc) (hstop : m.boot.relayStop = false) (hnext : nextBlock p cls b = none) :
    takeBlock cls b data crc m p = relayComplete (blockStored m cls b data) p := by
  unfold takeBlock
  rw [if_neg (by simp [hpower, hrel, hlink, hcls, hb]), if_neg (by simp [hcrc]), hnext]
  exact if_neg (by simp [hstop])

end

theorem foldl_same {α : Type} {f : Module → α → Module} (h : ∀ a k, SameButSlots (f a k).boot a.boot) (l : List α) (m : Module) :
    SameButSlots (l.foldl f m).boot m.boot := by
  induction l generalizing m with
  | nil => exact .refl _
  | cons k l ih => exact (ih (f m k)).trans (h m k)

/-- The regions that a relay owned are emptied. -/
def relayEmptied (m : Module) : Module :=
  [1, 2].foldl (fun a k => if (regionOf a (relaySlot a) k).owner = 2 then regionMod a (relaySlot a) k (fun _ => {}) else a) m

theorem relayEmptied_out : (relayEmptied m).out = m.out :=
  foldl_keeps (·.out) _ (fun _ _ => ite_keeps (·.out) (regionMod_out _ _ _) rfl) _ _

/-- The relay that failed discards its regions (R44). -/
theorem relayFail_loader (hstate : m.boot.state = .loader) :
    (relayFail m).boot.relaying = false ∧ (relayFail m).boot.fail = 0x0C ∧ (relayFail m).out = m.out := by
  have hfail : relayFail m = setFail (bootMod (relayEmptied m) (fun b => { b with relaying := false, relayStop := false })) 0x0C := if_pos hstate
  have hout := relayEmptied_out (m := m)
  rw [hfail]
  generalize relayEmptied m = x at hout
  exact ⟨rfl, rfl, hout⟩

/-- A relay that is stopped discards the load slot (R45). -/
theorem relayStopNow_facts : (relayStopNow m).boot.relaying = false ∧ (relayStopNow m).boot.state = m.boot.state
    ∧ regionOf (relayStopNow m) (loadSlot m.boot) 1 = {} ∧ regionOf (relayStopNow m) (loadSlot m.boot) 2 = {} := by
  have h1 := regionMod_same (m := m) (loadSlot m.boot) 1 (fun _ => {})
  have hslot : loadSlot (regionMod m (loadSlot m.boot) 1 (fun _ => {})).boot = loadSlot m.boot := h1.loadSlot
  have h2 := (regionMod_same (m := regionMod m (loadSlot m.boot) 1 (fun _ => {})) (loadSlot m.boot) 2 (fun _ => {})).trans h1
  have hstop : relayStopNow m = bootMod (regionMod (regionMod m (loadSlot m.boot) 1 (fun _ => {})) (loadSlot m.boot) 2 (fun _ => {}))
      (fun b => { b with relaying := false, relayStop := false }) := by
    unfold relayStopNow
    simp only [List.foldl_cons, List.foldl_nil]
    rw [hslot]
  have hr1 := (regionOf_regionMod_other (m := regionMod m (loadSlot m.boot) 1 (fun _ => {})) (loadSlot m.boot) (fun _ => {})).1.trans
    (regionOf_regionMod m (loadSlot m.boot) 1 (fun _ => {}))
  have hr2 := regionOf_regionMod (regionMod m (loadSlot m.boot) 1 (fun _ => {})) (loadSlot m.boot) 2 (fun _ => {})
  rw [hstop]
  generalize regionMod (regionMod m (loadSlot m.boot) 1 (fun _ => {})) (loadSlot m.boot) 2 (fun _ => {}) = x at h2 hr1 hr2
  exact ⟨rfl, h2.state, hr1, hr2⟩

/-- The last block in LOADER starts VERIFY (R29, R44). -/
theorem relayComplete_loader (hstate : m.boot.state = .loader) : (relayComplete m p).boot.state = .verify
    ∧ (relayComplete m p).boot.relaying = false ∧ verifySlot (relayComplete m p).boot = loadSlot m.boot := by
  have hsame := foldl_same (f := fun a k => regionMod a (relaySlot a) k closeRegion) (fun a k => regionMod_same _ _ _) p.boot.sendClasses m
  unfold relayComplete
  dsimp only
  rw [if_pos hstate, verifyFromLoader, setState_boot]
  exact ⟨rfl, rfl, hsame.loadSlot⟩

/-! ### The verdict on a block -/

section
variable {cls b fails : Nat} (hsend : m.boot.sending = some (cls, b, fails)) (hpower : hasPower m = true) (hlink : linked m p = true)
include hsend hpower hlink

theorem takePartnerAck_next (hrel : p.boot.relaying = true) {c k : Nat} (hnext : nextBlock m cls b = some (c, k)) :
    takePartnerAck true m p = (sendBlock (bootMod m (fun x => { x with sending := some (c, k, 0) })) c k, p) := by
  unfold takePartnerAck
  rw [hsend]
  dsimp only
  rw [if_neg (by simp [hpower, hlink]), if_pos rfl, hnext]
  exact if_pos hrel

theorem takePartnerAck_done (hnext : nextBlock m cls b = none) (htx : m.maint.tx = none) :
    takePartnerAck true m p = (txMod (bootMod m (fun x => { x with sending := none })) (fun t => { t with partnerDue := false }), p) := by
  unfold takePartnerAck
  rw [hsend]
  dsimp only
  rw [if_neg (by simp [hpower, hlink]), if_pos rfl, hnext]
  dsimp only
  rw [relayCheck]
  simp [txMod, maintMod, htx]

theorem takePartnerAck_bad (hrel : p.boot.relaying = true) : takePartnerAck false m p =
    (if fails < 2 then sendBlock (bootMod { m with diag := { m.diag with blocksResent := inc32 m.diag.blocksResent } }
        (fun x => { x with sending := some (cls, b, fails + 1) })) cls b
      else bootMod { m with diag := { m.diag with blocksResent := inc32 m.diag.blocksResent } } (fun x => { x with sending := none }), p) := by
  unfold takePartnerAck
  rw [hsend]
  dsimp only
  rw [if_neg (by simp [hpower, hlink]), if_neg (by decide)]
  by_cases hf : fails < 2
  · rw [if_pos (by simp [hrel, hf]), if_pos hf]
  · rw [if_neg (by simp [hf]), if_neg hf]

end

/-! ### The end of a verification -/

theorem slotChecked_same (i c : Nat) : SameButSlots (slotChecked m i c).boot m.boot := slotMod_same i _

theorem slotAt_slotChecked (i c : Nat) : (slotAt (slotChecked m i c).boot i).verified = (c == 0) := by
  rw [slotChecked, slotAt_slotMod]

/-- The module once the verdict of a full verification is noted. -/
def verdictNoted (m : Module) (code : Nat) : Module :=
  if code = 0 then slotChecked m (verifySlot m.boot) code else setFail (slotChecked m (verifySlot m.boot) code) code

theorem verdictNoted_good : SameButSlots (verdictNoted m 0).boot m.boot ∧ (slotAt (verdictNoted m 0).boot (verifySlot m.boot)).verified = true :=
  ⟨slotChecked_same _ _, slotAt_slotChecked _ _⟩

theorem verdictNoted_bad {code : Nat} (h : code ≠ 0) : SameButSlots (verdictNoted m code).boot { m.boot with fail := BitVec.ofNat 8 code }
    ∧ (slotAt (verdictNoted m code).boot (verifySlot m.boot)).verified = false := by
  have hsame := slotChecked_same (m := m) (verifySlot m.boot) code
  have hslot := slotAt_slotChecked (m := m) (verifySlot m.boot) code
  unfold verdictNoted
  rw [if_neg h]
  generalize slotChecked m (verifySlot m.boot) code = x at hsame hslot
  refine ⟨?_, hslot.trans (by simpa using h)⟩
  unfold SameButSlots at hsame ⊢
  unfold setFail bootMod
  dsimp only
  rw [hsame]

/-- The roles that a first verification sets (R29). -/
def rolesSet (b : Boot) : Boot := if b.rolesGood then b else { b with cur := 0, cand := 1, prev := 2, rolesGood := true }

theorem slotAt_rolesSet (b : Boot) (i : Nat) : slotAt (rolesSet b) i = slotAt b i := by
  unfold rolesSet
  split <;> rfl

theorem rolesGood_rolesSet (b : Boot) : (rolesSet b).rolesGood = true := by
  unfold rolesSet
  split
  · assumption
  · rfl

theorem verifyEnd_loader (ecc : Bool) (hfrom : m.boot.verifyFrom = .loader) : verifyEnd m ecc =
    if verifyCode m (verifySlot m.boot) ecc = 0 then
      setState (bootMod (verdictNoted m (verifyCode m (verifySlot m.boot) ecc)) rolesSet) .starting
    else setState (verdictNoted m (verifyCode m (verifySlot m.boot) ecc)) .loader := by
  unfold verifyEnd
  rw [hfrom]
  rfl

theorem verifyEnd_activate (ecc : Bool) (hfrom : m.boot.verifyFrom = .activate) : verifyEnd m ecc =
    sendVerdict (setState (if verifyCode m (verifySlot m.boot) ecc = 0
      then bootMod (rotateRoles (verdictNoted m (verifyCode m (verifySlot m.boot) ecc))) (fun b => { b with windowHandover := false })
      else verdictNoted m (verifyCode m (verifySlot m.boot) ecc)) .starting) (verifyCode m (verifySlot m.boot) ecc) := by
  unfold verifyEnd
  rw [hfrom]
  rfl

theorem verifyEnd_revert (ecc : Bool) (hfrom : m.boot.verifyFrom = .revert) : verifyEnd m ecc =
    sendVerdict (setState (if verifyCode m (verifySlot m.boot) ecc = 0
      then revertedRecord (exchangeRoles (verdictNoted m (verifyCode m (verifySlot m.boot) ecc))) 1 m.boot.cur m.boot.prev
      else verdictNoted m (verifyCode m (verifySlot m.boot) ecc)) .starting) (verifyCode m (verifySlot m.boot) ecc) := by
  unfold verifyEnd
  rw [hfrom]
  rfl

theorem sendVerdict_boot (code : Nat) : (sendVerdict m code).boot = m.boot ∧ .sync (.verdict (code == 0) code) ∈ (sendVerdict m code).out := by
  unfold sendVerdict
  simp

theorem activatedRecords_boot : (activatedRecords m).boot = m.boot := rfl

theorem rotateRoles_boot : SameButSlots (rotateRoles m).boot { m.boot with
    cur := m.boot.cand, prev := m.boot.cur, cand := m.boot.prev, confirm := 1, windowRunning := false, windowDue := true, selfChecked := false
    split := m.boot.newSplit } := by
  unfold rotateRoles
  dsimp only
  rw [activatedRecords_boot]
  exact slotMod_same _ _

/-! ### The end of the self-tests -/

theorem compareWiring_boot : (compareWiring m p).boot = m.boot := by
  unfold compareWiring
  split
  · rfl
  · dsimp only
    split <;> simp

theorem trained_boot : (trained m p).boot = m.boot := by
  have hclaim (x : Module) : (readyClaim x p).boot = x.boot := by
    unfold readyClaim
    repeat' split
    all_goals simp
  exact (hclaim _).trans compareWiring_boot

theorem raiseAtStart_fail : (raiseAtStart m).boot.fail = m.boot.fail := by
  unfold raiseAtStart
  split
  · rfl
  · split
    · rfl
    · dsimp only
      split <;> rfl

theorem goReady_boot : (goReady m).boot.state = .ready ∧ (goReady m).boot.fail = 0 := by
  unfold goReady
  dsimp only
  generalize hm2 : (if slotEmpty (bootMod m (fun b => { b with fail := 0 })) (bootMod m (fun b => { b with fail := 0 })).boot.prev then
    bootMod (bootMod m (fun b => { b with fail := 0 })) (fun b => { b with confirm := 0, windowDue := false })
    else bootMod m (fun b => { b with fail := 0 })) = m2
  have hfail : m2.boot.fail = 0 := by
    rw [← hm2]
    split <;> rfl
  rw [refresh_boot, foldl_keeps (·.boot) _ (fun a ch => ?_)]
  · rw [setState_boot]
    exact ⟨rfl, raiseAtStart_fail.trans hfail⟩
  · split
    · split
      · exact logEv_boot _ _ _ _ _ _
      · rfl
    · rfl

end

theorem enterHalt_fail {m : Module} : (enterHalt m).boot.fail = m.boot.fail := by
  simp [enterHalt, mailMod, leavePair, pairMod, stopConns, stopLegacy, holdLanes, stopCycles]

/-- Settles O49. -/
theorem loaderEvents : Obligations.LoaderEvents := by
  unfold Obligations.LoaderEvents
  intro s sl
  dsimp only
  have verify (ecc : Bool) (hpower : hasPower (modOf s sl) = true) (hstate : (modOf s sl).boot.state = .verify) :
      Becomes (.verifyDone sl ecc) s sl (verifyEnd (modOf s sl) ecc) :=
    becomes_of (exec_verifyDone sl ecc s) ((if_neg (by simp [hpower])).trans (if_pos hstate))
  refine ⟨fun hpower hstate hen hrel hwith hoff => ⟨fun hopen => ?_, fun h1 h2 => ?_⟩, fun hor => ?_, fun cls b data crc hor => ?_,
    fun cls b data crc hpower hrel hlink hcls hb => ⟨fun hcrc hf => ?_, fun hcrc hf hstate => ?_, fun hcrc hstop c k hnext => ?_,
      fun hcrc hstop hstate hnext => ?_, fun hcrc hstop => ?_⟩, fun good hnone => ?_,
    fun cls b fails hsend hpower hlink hrel => ⟨fun c k hnext => ?_, fun hnext htx => ?_, ?_⟩,
    fun ecc hpower hstate => ⟨fun hfrom => ⟨fun hcode => ?_, fun hcode => ?_⟩, fun hfrom => ⟨fun hcode => ?_, fun hcode => ?_⟩,
      fun hfrom => ⟨fun hcode => ?_, fun hcode => ?_⟩⟩, ⟨rfl, Iff.rfl⟩, fun ecc hstate hver => ?_, fun hpower hstate => ⟨?_, fun u => ?_⟩, fun f hstate => ?_⟩
  · exact ⟨_, _, becomesBoth_of (exec_partnerRelayStart sl s) (relayFromPartner_open hpower hstate hen hrel hwith hoff hopen), rfl, hrel, rfl⟩
  · have hslot : relaySlot (modOf s sl) = loadSlot (modOf s sl).boot := if_pos hstate
    obtain ⟨-, ho1, ho2⟩ := relayOwned_facts (m := modOf s sl)
    rw [hslot] at ho1 ho2
    have hstart := relayFromPartner_closed hpower hstate hen hrel hwith hoff h1 h2
    rw [startRelay_eq] at hstart
    generalize relayOwned (modOf s sl) = x at ho1 ho2 hstart
    exact ⟨_, _, becomesBoth_of (exec_partnerRelayStart sl s) hstart, rfl, rfl, rfl, ho1, ho2, rfl, rfl, rfl, rfl⟩
  · refine becomesBoth_of (exec_partnerRelayStart sl s) (if_pos ?_)
    rcases hor with h | h | h | h <;> simp [h]
  · refine idle_of_pair (exec_syncRelayBlockReceive sl cls b data crc s) (if_pos ?_)
    rcases hor with h | h | h | h <;> simp [h]
  · exact ⟨_, becomes_of_pair (exec_syncRelayBlockReceive sl cls b data crc s)
      ((takeBlock_bad hpower hrel hlink hcls hb hcrc).trans (if_neg hf)), rfl, hrel, rfl⟩
  · exact ⟨_, becomes_of_pair (exec_syncRelayBlockReceive sl cls b data crc s)
      ((takeBlock_bad hpower hrel hlink hcls hb hcrc).trans (if_pos hf)), relayFail_loader hstate⟩
  · obtain ⟨hsame, hout, hbytes⟩ := blockStored_facts (m := modOf s sl) (cls := cls) (b := b) (data := data)
    have htake := takeBlock_next hpower hrel hlink hcls hb hcrc hstop hnext
    generalize blockStored (modOf s sl) cls b data = x at hsame hout hbytes htake
    have hmib : x.boot.relayMib = (modOf s sl).boot.relayMib + 1 := by rw [hsame]
    have hfails : x.boot.relayFails = 0 := by rw [hsame]
    exact ⟨_, becomes_of_pair (exec_syncRelayBlockReceive sl cls b data crc s) htake, rfl, rfl, hmib, hfails, hout, hbytes⟩
  · obtain ⟨hsame, -, -⟩ := blockStored_facts (m := modOf s sl) (cls := cls) (b := b) (data := data)
    obtain ⟨hv, hr, hslot⟩ := relayComplete_loader (m := blockStored (modOf s sl) cls b data) (p := modOf s (otherSlot sl))
      (hsame.state.trans hstate)
    exact ⟨_, becomes_of_pair (exec_syncRelayBlockReceive sl cls b data crc s) (takeBlock_last hpower hrel hlink hcls hb hcrc hstop hnext), hv, hr,
      hslot.trans hsame.loadSlot⟩
  · obtain ⟨hsame, -, -⟩ := blockStored_facts (m := modOf s sl) (cls := cls) (b := b) (data := data)
    obtain ⟨hr, hs, h1, h2⟩ := relayStopNow_facts (m := blockStored (modOf s sl) cls b data)
    have hslot : loadSlot (blockStored (modOf s sl) cls b data).boot = loadSlot (modOf s sl).boot := hsame.loadSlot
    rw [hslot] at h1 h2
    exact ⟨_, becomes_of_pair (exec_syncRelayBlockReceive sl cls b data crc s) (takeBlock_stop hpower hrel hlink hcls hb hcrc hstop), hr,
      hs.trans hsame.state, h1, h2⟩
  · refine becomesBoth_of (exec_syncRelayBlockAckReceive sl good s) ?_
    rw [takePartnerAck, hnone]
  · exact ⟨_, _, becomesBoth_of (exec_syncRelayBlockAckReceive sl true s) (takePartnerAck_next hsend hpower hlink hrel hnext), rfl, rfl, rfl⟩
  · exact ⟨_, _, becomesBoth_of (exec_syncRelayBlockAckReceive sl true s) (takePartnerAck_done hsend hpower hlink hnext htx), rfl, rfl⟩
  · refine ⟨_, _, becomesBoth_of (exec_syncRelayBlockAckReceive sl false s) (takePartnerAck_bad hsend hpower hlink hrel), ?_, rfl, fun hf => ?_,
      fun hf => ?_⟩
    · split <;> rfl
    · rw [if_pos hf]
      exact ⟨rfl, rfl⟩
    · rw [if_neg (by omega)]
      exact ⟨rfl, rfl⟩
  · obtain ⟨hsame, hver⟩ := verdictNoted_good (m := modOf s sl)
    have hend := verifyEnd_loader ecc hfrom
    rw [if_pos hcode, hcode] at hend
    generalize verdictNoted (modOf s sl) 0 = x at hsame hver hend
    refine ⟨_, verify ecc hpower hstate, ?_⟩
    rw [hend, setState_boot]
    exact ⟨rfl, (congrArg ImgSlot.verified (slotAt_rolesSet x.boot (verifySlot (modOf s sl).boot))).trans hver, rolesGood_rolesSet x.boot⟩
  · obtain ⟨hsame, hver⟩ := verdictNoted_bad (m := modOf s sl) hcode
    have hend := verifyEnd_loader ecc hfrom
    rw [if_neg hcode] at hend
    generalize verdictNoted (modOf s sl) (verifyCode (modOf s sl) (verifySlot (modOf s sl).boot) ecc) = x at hsame hver hend
    refine ⟨_, verify ecc hpower hstate, ?_⟩
    rw [hend, setState_boot]
    exact ⟨rfl, by rw [hsame], hver⟩
  · obtain ⟨hsame, -⟩ := verdictNoted_good (m := modOf s sl)
    have hend := verifyEnd_activate ecc hfrom
    rw [if_pos hcode, hcode] at hend
    generalize verdictNoted (modOf s sl) 0 = x at hsame hend
    obtain ⟨hboot, hsent⟩ := sendVerdict_boot (m := setState (bootMod (rotateRoles x) (fun b => { b with windowHandover := false })) .starting) 0
    refine ⟨_, verify ecc hpower hstate, ?_⟩
    rw [hend, hboot, setState_boot, bootMod_boot, rotateRoles_boot (m := x)]
    refine ⟨rfl, ?_, ?_, ?_, rfl, rfl, ?_, hsent⟩ <;> rw [hsame]
  · obtain ⟨hsame, -⟩ := verdictNoted_bad (m := modOf s sl) hcode
    have hend := verifyEnd_activate ecc hfrom
    rw [if_neg hcode] at hend
    generalize verifyCode (modOf s sl) (verifySlot (modOf s sl).boot) ecc = code at hcode hsame hend
    generalize verdictNoted (modOf s sl) code = x at hsame hend
    obtain ⟨hboot, hsent⟩ := sendVerdict_boot (m := setState x .starting) code
    rw [beq_eq_false_iff_ne.2 hcode] at hsent
    refine ⟨_, verify ecc hpower hstate, ?_⟩
    rw [hend, hboot, setState_boot]
    refine ⟨rfl, ?_, ?_, hsent⟩ <;> rw [hsame]
  · obtain ⟨hsame, -⟩ := verdictNoted_good (m := modOf s sl)
    have hend := verifyEnd_revert ecc hfrom
    rw [if_pos hcode, hcode] at hend
    generalize verdictNoted (modOf s sl) 0 = x at hsame hend
    obtain ⟨hboot, hsent⟩ := sendVerdict_boot
      (m := setState (revertedRecord (exchangeRoles x) 1 (modOf s sl).boot.cur (modOf s sl).boot.prev) .starting) 0
    refine ⟨_, verify ecc hpower hstate, ?_⟩
    rw [hend, hboot, setState_boot, revertedRecord_boot, exchangeRoles, bootMod_boot]
    refine ⟨rfl, ?_, ?_, ?_, rfl, hsent⟩ <;> rw [hsame]
  · obtain ⟨hsame, -⟩ := verdictNoted_bad (m := modOf s sl) hcode
    have hend := verifyEnd_revert ecc hfrom
    rw [if_neg hcode] at hend
    generalize verifyCode (modOf s sl) (verifySlot (modOf s sl).boot) ecc = code at hcode hsame hend
    generalize verdictNoted (modOf s sl) code = x at hsame hend
    obtain ⟨hboot, hsent⟩ := sendVerdict_boot (m := setState x .starting) code
    rw [beq_eq_false_iff_ne.2 hcode] at hsent
    refine ⟨_, verify ecc hpower hstate, ?_⟩
    rw [hend, hboot, setState_boot]
    exact ⟨rfl, by rw [hsame], hsent⟩
  · refine idle_of (exec_verifyDone sl ecc s) ?_
    by_cases hpower : hasPower (modOf s sl) = true
    · rw [if_neg (by simp [hpower]), if_neg hstate, if_neg (by simp [hver])]
    · rw [if_pos (by simpa using hpower)]
  · obtain ⟨hst, hfail⟩ := goReady_boot (m := modOf s sl)
    refine ⟨_, _, becomesBoth_of (exec_selftestDone sl none s) (if_neg (by simp [hpower, hstate])), ?_⟩
    rw [trained_boot]
    exact ⟨hst, hfail⟩
  · obtain ⟨hst, -⟩ := enterHalt_facts (m := setFail (modOf s sl) (0x10 + u % 8)) hpower
    exact ⟨_, becomesBoth_of (exec_selftestDone sl (some u) s) (if_neg (by simp [hpower, hstate])), hst, enterHalt_fail⟩
  · exact becomesBoth_of (exec_selftestDone sl f s) (if_pos (by simp [hstate]))

end Sys2Proof.Machine

/-! PROOF. Relay chains between domains: offers, blocks, reports and timeouts (R46, R382 to R384). -/

namespace Sys2Proof.Machine
open Sys2Proof Sys2Proof.Bits Sys2Proof.Safety

/-! ### Datagrams (R383) -/

section
variable {m p : Module}

/-- The payload of a datagram begins after 24 octets. -/
theorem relayDatagram_first (type : Nat) (tid : W32) (index cls block frag : Nat) (domain : W32) (a : Nat) (rest : Bytes) :
    be (relayDatagram type tid index cls block frag domain (beBytes 1 a ++ rest)) 24 1 = a % 256 := by
  unfold relayDatagram
  dsimp only
  rw [be_skip _ _ _ (by simp)]
  simp [be_front]

/-! ### What the sender changes -/

/-- Only the transfer that a module sends has changed, and datagrams went out. -/
def OnlyTx (m m' : Module) : Prop := ∃ tx l, m' = { m with maint := { m.maint with tx := tx }, out := m.out ++ l }

theorem OnlyTx.refl (m : Module) : OnlyTx m m := ⟨m.maint.tx, [], by rw [List.append_nil]⟩

theorem OnlyTx.trans {a b c : Module} (h : OnlyTx a b) (h' : OnlyTx b c) : OnlyTx a c := by
  obtain ⟨tx, l, rfl⟩ := h
  obtain ⟨tx', l', rfl⟩ := h'
  exact ⟨tx', l ++ l', by simp only [List.append_assoc]⟩

theorem onlyTx_txMod (f : RelayTx → RelayTx) : OnlyTx m (txMod m f) :=
  ⟨m.maint.tx.map f, [], by rw [List.append_nil]; rfl⟩

theorem onlyTx_sendRelay (type : Nat) (tid : W32) (index cls block frag : Nat) (payload : Bytes) :
    OnlyTx m (sendRelay m type tid index cls block frag payload) := ⟨m.maint.tx, _, rfl⟩

theorem onlyTx_foldl {α : Type} {f : Module → α → Module} (h : ∀ a x, OnlyTx a (f a x)) (l : List α) (m : Module) : OnlyTx m (l.foldl f m) := by
  induction l generalizing m with
  | nil => exact .refl m
  | cons x l ih => exact (h m x).trans (ih (f m x))

theorem onlyTx_pumpBlock : OnlyTx m (pumpBlock m) := by
  unfold pumpBlock
  split
  · exact .refl m
  · split
    · exact .refl m
    · exact (onlyTx_foldl (fun a x => onlyTx_sendRelay _ _ _ _ _ _ _) _ m).trans (onlyTx_txMod _)

theorem onlyTx_serve (index cls : Nat) : OnlyTx m (serve m index cls) := by
  unfold serve
  split
  · exact .refl m
  · split
    · exact onlyTx_txMod _
    · dsimp only
      split
      · exact (onlyTx_txMod _).trans (onlyTx_sendRelay _ _ _ _ _ _ _)
      · exact onlyTx_txMod _

theorem onlyTx_forwardTx (o : RelayOffer) : OnlyTx m (forwardTx m o) := by
  unfold forwardTx
  split
  · exact .refl m
  · split
    · split
      · exact (onlyTx_txMod _).trans (onlyTx_serve _ _)
      · exact .refl m
    · refine .trans ?_ (onlyTx_serve _ _)
      exact ⟨_, [], by rw [List.append_nil]; rfl⟩

/-! ### The transfer under way -/

theorem sendRelays_tx {α : Type} {f : Module → α → Module} (h : ∀ a x, (f a x).maint = a.maint) (l : List α) (m : Module) :
    (l.foldl f m).maint = m.maint := foldl_keeps (·.maint) f h l m

theorem txMod_tx {t : RelayTx} (h : m.maint.tx = some t) (f : RelayTx → RelayTx) : (txMod m f).maint.tx = some (f t) := by
  unfold txMod maintMod
  dsimp only
  rw [h, Option.map_some]

/-- The fragments of a block leave the transfer but for the mark that they are sent. -/
theorem pumpBlock_tx {t : RelayTx} (h : m.maint.tx = some t) : ∃ b, (pumpBlock m).maint.tx = some { t with sent := b } := by
  unfold pumpBlock
  rw [h]
  dsimp only
  split
  · exact ⟨t.sent, h⟩
  · refine ⟨true, txMod_tx ?_ _⟩
    rw [sendRelays_tx (f := fun a (x : Bytes × Nat) => sendRelay a 3 t.tid t.index t.cls t.block x.2 x.1) (fun _ _ => rfl)]
    exact h

theorem serve_tx {t : RelayTx} (h : m.maint.tx = some t) {index : Nat} (hi : index < t.hops.length) (cls : Nat) :
    (serve m index cls).maint.tx = some { t with index := index, cls := cls, offers := 1, accepted := false, block := 0, fails := 0, sent := false } := by
  unfold serve
  rw [h]
  dsimp only
  have htx := txMod_tx h (fun t => { t with index := index, cls := cls, offers := 1, accepted := false, block := 0, fails := 0, sent := false })
  rw [if_neg (by omega), htx]
  exact htx

/-- A chain with something left to report goes on. -/
theorem relayCheck_open {t : RelayTx} (h : m.maint.tx = some t) (hopen : t.cmd = none ∨ relayOver t = false) : relayCheck m p = (m, p) := by
  unfold relayCheck
  rw [h]
  exact if_neg (by rcases hopen with h | h <;> simp [h])

/-! ### The end of IMAGE.RELAY -/

theorem ticketFind_pushCpl (qp q : Nat) (c : Cpl) (t : W64) : ticketFind (pushCpl m qp c) q t = ticketFind m q t := by
  unfold pushCpl
  split <;> rfl

theorem ticketFind_journalMod (qp q : Nat) (t t' : W64) (f : JEntry → JEntry) : ticketFind (journalMod m qp t f) q t' = ticketFind m q t' := rfl

theorem ticketFind_retireFinal (qp : Nat) (t : W64) : ticketFind (retireFinal m qp t) qp t = ticketFind m qp t := by
  unfold retireFinal
  repeat' split
  · rfl
  · exact ticketFind_journalRetire m qp t
  · exact ticketFind_journalRetire m qp t

/-- The final record of a work command stands in its window (R71). -/
theorem ticketFind_finishWork (code : Nat) (c : Cmd) (stage status detail : Nat) (rsp : Bytes) :
    ∃ r, ticketFind (finish m .work code c stage status detail rsp) c.qp c.ticket = some r ∧ r.stage = stage ∧ r.status = status := by
  obtain ⟨w, hw⟩ := ticketFind_ticketPut m c.qp { ticket := c.ticket, stage := stage, status := status, detail := detail, time := now m }
  have hdups (l : List Cpl) (x : Module) : ticketFind (l.foldl (fun a y => pushCpl a c.qp y) x) c.qp c.ticket = ticketFind x c.qp c.ticket :=
    foldl_keeps (fun a => ticketFind a c.qp c.ticket) _ (fun a y => ticketFind_pushCpl _ _ _ _) l x
  refine ⟨{ ticket := c.ticket, stage := stage, status := status, detail := detail, time := now m, dupWaits := w }, ?_, rfl, rfl⟩
  unfold finish finishWork
  dsimp only
  repeat' split
  all_goals simp only [ticketFind_retireFinal, hdups, ticketFind_pushCpl, ticketFind_journalMod]
  all_goals exact hw

theorem relayEnd_lead {t : RelayTx} {qp : Nat} {c : Cmd} (h : m.maint.tx = some t) (hcmd : t.cmd = some (qp, c)) (hlead : isLead m = true) (status : Nat) :
    ∃ m', relayEnd status m p = (m', p) ∧ m'.maint.tx = none ∧ ∃ r, ticketFind m' c.qp c.ticket = some r ∧ r.stage = 3 ∧ r.status = status := by
  refine ⟨finish (maintMod m (fun x => { x with tx := none })) .work 0x0A05 c 3 status 0 (relayRsp t), ?_, ?_, ticketFind_finishWork _ _ _ _ _ _⟩
  · unfold relayEnd
    rw [h]
    dsimp only
    rw [hcmd]
    exact if_pos hlead
  · rw [finish_maint]
    rfl

/-! ### An OFFER -/

theorem hasPower_of_fw (h : fw m = true) : hasPower m = true := by
  unfold fw at h
  rw [Bool.and_eq_true] at h
  exact h.1

/-- The answer of a module to an OFFER goes out to its sender. -/
def offerReplied (m : Module) (o : RelayOffer) (a : Nat) : Module := sendRelay m 2 o.tid o.index o.cls 0 0 (beBytes 1 a ++ zeros 3)

theorem offerReplied_out (o : RelayOffer) (a : Nat) :
    ∃ b, (offerReplied m o a).out = m.out ++ [.relay 2 o.tid o.index b] ∧ be b 24 1 = a % 256 :=
  ⟨_, rfl, relayDatagram_first _ _ _ _ _ _ _ _ _⟩

theorem offerAnswer_le (o : RelayOffer) : offerAnswer m o ≤ 2 := by
  unfold offerAnswer
  dsimp only
  repeat' split
  all_goals decide

/-- A module that takes an OFFER enters class 1 for the relay, and its candidate's region belongs to it. -/
def offerTaken (m : Module) (o : RelayOffer) : Module :=
  enterClass (maintMod (regionMod m m.boot.cand o.cls (fun _ => { owner := 3 })) (fun x => { x with rx := some { offer := o } })) 1 .relay 0

theorem offerTaken_facts (o : RelayOffer) : (offerTaken m o).maint.rx = some { offer := o } ∧ (regionOf (offerTaken m o) m.boot.cand o.cls).owner = 3
    ∧ ∃ e, tget (offerTaken m o).maint.entries 1 = some e ∧ e.holder = .relay := by
  have hreg := regionOf_regionMod m m.boot.cand o.cls (fun _ => { owner := 3 })
  unfold offerTaken
  rw [enterClass_maint]
  refine ⟨rfl, ?_, _, tget_tset_same _ _ _, rfl⟩
  rw [regionOf, enterClass_boot]
  exact congrArg Region.owner hreg

section
variable {o : RelayOffer} (hfw : fw m = true)
include hfw

theorem takeOffer_refused (h : offerAnswer m o ≠ 0) : takeOffer o m p = (offerReplied m o (offerAnswer m o), p) := by
  unfold takeOffer
  rw [if_neg (by simp [hfw, hasPower_of_fw hfw])]
  simp [h, offerReplied]

theorem takeOffer_taken (h : offerAnswer m o = 0) (hrx : m.maint.rx = none) : takeOffer o m p = shareToken (offerReplied (offerTaken m o) o 0) p := by
  unfold takeOffer
  rw [if_neg (by simp [hfw, hasPower_of_fw hfw])]
  simp [h, hrx, offerReplied, offerTaken]

end

/-! ### A fragment -/

/-- What a receiver sends for a block. -/
def blockAcked (m : Module) (x : RelayRx) (bad : Nat) : Module :=
  sendRelay m 4 x.offer.tid x.offer.index x.offer.cls x.block 0 (beBytes 1 bad ++ zeros 3)

theorem blockAcked_out (x : RelayRx) (bad : Nat) :
    ∃ a, (blockAcked m x bad).out = m.out ++ [.relay 4 x.offer.tid x.offer.index a] ∧ be a 24 1 = bad % 256 :=
  ⟨_, rfl, relayDatagram_first _ _ _ _ _ _ _ _ _⟩

theorem rxMod_rx {x : RelayRx} (h : m.maint.rx = some x) (f : RelayRx → RelayRx) : (rxMod m f).maint.rx = some (f x) := by
  unfold rxMod maintMod
  dsimp only
  rw [h, Option.map_some]

/-- A module that stored a block of a relay and acknowledged it. -/
def fragmentStored (m : Module) (x : RelayRx) (len : Nat) (data : Bytes) : Module :=
  blockAcked (rxMod (regionMod m m.boot.cand x.offer.cls (fun r =>
    { r with bytes := memWrite r.bytes (x.block * relayBlockLen) data, len := x.block * relayBlockLen + len }))
    (fun y => { y with block := x.block + 1, frags := [] })) x 0

section
variable {x : RelayRx} {f len : Nat} {d data : Bytes} (hrx : m.maint.rx = some x) (hfw : fw m = true)
  (hlen : len = min relayBlockLen (x.offer.regionLen - x.block * relayBlockLen)) (hf : f < (len + 1023) / 1024)
include hrx hfw hlen hf

theorem takeFragment_part (h : (tset x.frags f d).length < (len + 1023) / 1024) :
    takeFragment x.offer.tid x.block f d m p = (rxMod m (fun y => { y with frags := tset x.frags f d }), p) := by
  subst hlen
  unfold takeFragment
  rw [hrx]
  dsimp only
  rw [if_neg (by simpa [hfw] using hf), if_neg (Nat.lt_irrefl _), if_neg (not_not.2 rfl), if_pos h]

variable (hwhole : (len + 1023) / 1024 ≤ (tset x.frags f d).length) (hdata : data = ((tset x.frags f d).flatMap (fun f => f.2)).take len)
include hwhole hdata

theorem takeFragment_bad (hcrc : crc32c data ≠ x.offer.crcs.getD x.block 0) :
    takeFragment x.offer.tid x.block f d m p = (blockAcked (rxMod m (fun y => { y with frags := [] })) x 1, p) := by
  subst hlen hdata
  unfold takeFragment
  rw [hrx]
  dsimp only
  rw [if_neg (by simpa [hfw] using hf), if_neg (Nat.lt_irrefl _), if_neg (not_not.2 rfl), if_neg (Nat.not_lt.2 hwhole), if_pos (.inr hcrc)]
  rfl

theorem takeFragment_good (hdlen : data.length = len) (hcrc : crc32c data = x.offer.crcs.getD x.block 0)
    (hmore : x.block * relayBlockLen + len ≠ x.offer.regionLen) : takeFragment x.offer.tid x.block f d m p
      = (pumpBlock (if x.block = 0 then forwardTx (fragmentStored m x len data) x.offer else fragmentStored m x len data), p) := by
  subst hlen hdata
  unfold takeFragment
  rw [hrx]
  dsimp only
  rw [if_neg (by simpa [hfw] using hf), if_neg (Nat.lt_irrefl _), if_neg (not_not.2 rfl), if_neg (Nat.not_lt.2 hwhole),
    if_neg (by rw [not_or]; exact ⟨not_not.2 hdlen, not_not.2 hcrc⟩), if_neg hmore]
  rfl

end

theorem fragmentStored_facts {x : RelayRx} (hrx : m.maint.rx = some x) (len : Nat) (data : Bytes) :
    (fragmentStored m x len data).maint.rx = some { x with block := x.block + 1, frags := [] }
      ∧ (regionOf (fragmentStored m x len data) m.boot.cand x.offer.cls).bytes
        = memWrite (regionOf m m.boot.cand x.offer.cls).bytes (x.block * relayBlockLen) data
      ∧ ∃ a, .relay 4 x.offer.tid x.offer.index a ∈ (fragmentStored m x len data).out ∧ be a 24 1 = 0 := by
  have hreg := regionOf_regionMod m m.boot.cand x.offer.cls (fun r =>
    { r with bytes := memWrite r.bytes (x.block * relayBlockLen) data, len := x.block * relayBlockLen + len })
  have hsame := regionMod_same (m := m) m.boot.cand x.offer.cls (fun r =>
    { r with bytes := memWrite r.bytes (x.block * relayBlockLen) data, len := x.block * relayBlockLen + len })
  have hrx' : (regionMod m m.boot.cand x.offer.cls (fun r =>
    { r with bytes := memWrite r.bytes (x.block * relayBlockLen) data, len := x.block * relayBlockLen + len })).maint.rx = some x := hrx
  unfold fragmentStored
  generalize regionMod m m.boot.cand x.offer.cls (fun r =>
    { r with bytes := memWrite r.bytes (x.block * relayBlockLen) data, len := x.block * relayBlockLen + len }) = y at hreg hrx'
  obtain ⟨a, hout, ha⟩ := blockAcked_out (m := rxMod y (fun y => { y with block := x.block + 1, frags := [] })) x 0
  refine ⟨rxMod_rx hrx' _, congrArg Region.bytes hreg, a, ?_, ha⟩
  rw [hout]
  exact List.mem_append_right _ (List.mem_singleton_self _)

/-- The sender's transfer is none of the receiver's business. -/
theorem OnlyTx.receiver {m' : Module} (h : OnlyTx m m') : m'.maint.rx = m.maint.rx ∧ m'.boot = m.boot ∧ ∀ e ∈ m.out, e ∈ m'.out := by
  obtain ⟨tx, l, rfl⟩ := h
  exact ⟨rfl, rfl, fun e he => List.mem_append_left _ he⟩

/-! ### What the sender hears -/

section
variable {t : RelayTx} (htx : m.maint.tx = some t) (hfw : fw m = true) (hserved : t.served = false)
include htx hfw hserved

theorem sendingTid_own : sendingTid m t.tid = true := by
  simp [sendingTid, htx, hfw, hserved]

theorem takeAccept_start (hacc : t.accepted = false) : ∃ m' b, takeAccept t.tid 0 m p = (m', p)
    ∧ m'.maint.tx = some { t with accepted := true, sent := b } := by
  obtain ⟨b, hb⟩ := pumpBlock_tx (txMod_tx htx (fun t => { t with accepted := true }))
  refine ⟨_, b, ?_, hb⟩
  unfold takeAccept
  rw [htx]
  dsimp only
  rw [if_neg (by simp [sendingTid_own htx hfw hserved, hacc]), if_pos rfl]

theorem takeAccept_refused (hacc : t.accepted = false) (hown : t.own ≠ 0) (hcmd : t.cmd = none) (hmore : t.index + 1 < t.hops.length) {r : Nat}
    (hr : r ≠ 0) : ∃ m', takeAccept t.tid r m p = (m', p) ∧ m'.maint.tx
      = some { t with index := t.index + 1, cls := t.cls, offers := 1, accepted := false, block := 0, fails := 0, sent := false } := by
  have hserve := serve_tx (m := sendReport m t.tid t.index t.cls (if r = 1 then 1 else 2) 0 t.block 0) htx hmore t.cls
  have hfailed : hopFailed m (if r = 1 then 1 else 2) = serve (sendReport m t.tid t.index t.cls (if r = 1 then 1 else 2) 0 t.block 0) (t.index + 1) t.cls := by
    unfold hopFailed
    rw [htx]
    dsimp only
    rw [if_neg hown]
  refine ⟨_, ?_, hserve⟩
  unfold takeAccept
  rw [htx]
  dsimp only
  rw [if_neg (by simp [sendingTid_own htx hfw hserved, hacc]), if_neg hr, hfailed]
  exact relayCheck_open hserve (.inl hcmd)

section
variable (hacc : t.accepted = true) (hsent : t.sent = true)
include hacc hsent

theorem takeBlockAck_own (bad : Bool) : takeBlockAck t.tid t.block bad m p = relayCheck (if bad then blockFailed m else blockGood m) p := by
  unfold takeBlockAck
  rw [htx]
  dsimp only
  rw [if_neg (by simp [sendingTid_own htx hfw hserved, hacc, hsent])]

variable (hopen : t.cmd = none ∨ relayOver t = false)
include hopen

theorem takeBlockAck_next (hmore : t.block + 1 < txBlocks m t) : ∃ m' b, takeBlockAck t.tid t.block false m p = (m', p)
    ∧ m'.maint.tx = some { t with block := t.block + 1, fails := 0, sent := b } := by
  obtain ⟨b, hb⟩ := pumpBlock_tx (txMod_tx htx (fun t => { t with block := t.block + 1, fails := 0, sent := false }))
  have hgood : blockGood m = pumpBlock (txMod m (fun t => { t with block := t.block + 1, fails := 0, sent := false })) := by
    unfold blockGood
    rw [htx]
    exact if_pos hmore
  refine ⟨_, b, ?_, hb⟩
  rw [takeBlockAck_own htx hfw hserved hacc hsent, if_neg (by decide), hgood]
  exact relayCheck_open hb hopen

theorem takeBlockAck_end (hlast : txBlocks m t ≤ t.block + 1) (hnext : nextClass t = none) : ∃ m', takeBlockAck t.tid t.block false m p = (m', p)
    ∧ m'.maint.tx = some { t with served := true } := by
  have hdone := txMod_tx htx (fun t => { t with served := true })
  have hgood : blockGood m = txMod m (fun t => { t with served := true }) := by
    unfold blockGood
    rw [htx]
    dsimp only
    rw [if_neg (Nat.not_lt.2 hlast), hnext]
  refine ⟨_, ?_, hdone⟩
  rw [takeBlockAck_own htx hfw hserved hacc hsent, if_neg (by decide), hgood]
  exact relayCheck_open hdone hopen

end

end

theorem blockFailed_again {t : RelayTx} (htx : m.maint.tx = some t) (hopen : t.cmd = none ∨ relayOver t = false) (hfails : t.fails < 2) : ∃ b, (blockFailed m).maint.tx = some { t with fails := t.fails + 1, sent := b }
    ∧ relayCheck (blockFailed m) p = (blockFailed m, p) := by
  obtain ⟨b, hb⟩ := pumpBlock_tx (txMod_tx htx (fun t => { t with fails := t.fails + 1, sent := false }))
  have hfailed : blockFailed m = pumpBlock (txMod m (fun t => { t with fails := t.fails + 1, sent := false })) := by
    unfold blockFailed
    rw [htx]
    exact if_neg (by omega)
  rw [hfailed]
  exact ⟨b, hb, relayCheck_open hb hopen⟩

/-! ### A report -/

theorem noteHop_tx {t : RelayTx} (htx : m.maint.tx = some t) (index cls result code stored : Nat) :
    (noteHop m index cls result code stored).maint.tx = some { t with
      results := t.results.filter (fun r => !(r.index == index && r.cls == cls)) ++
        [{ index := index, cls := cls, result := result, code := code, stored := stored }] }
      ∧ isLead (noteHop m index cls result code stored) = isLead m := by
  unfold noteHop
  rw [htx]
  dsimp only
  constructor
  · rw [logEv_maint]
    exact txMod_tx htx _
  · simp [isLead, txMod, maintMod]

theorem takeReport_own {t : RelayTx} (htx : m.maint.tx = some t) (hfw : fw m = true) (hown : t.own = 0) (hcmd : t.cmd ≠ none)
    (index cls result code stored : Nat) :
    takeReport t.tid index cls result code stored m p = relayCheck (noteHop m index cls result code stored) p := by
  unfold takeReport
  rw [htx]
  dsimp only
  rw [if_neg (by simp [hfw, hown, hcmd])]

end

/-- Settles O53. -/
theorem relayEvents : Obligations.RelayEvents := by
  unfold Obligations.RelayEvents
  intro s sl
  dsimp only
  have hblk : (1048576 : Nat) = relayBlockLen := rfl
  generalize hm : modOf s sl = m
  generalize hp : modOf s (otherSlot sl) = p
  have ev {i g m' p'} (e : exec i s = onBoth s sl g) (h : g m p = (m', p')) : BecomeBoth i s sl m' p' := becomesBoth_of e (by rw [hm, hp]; exact h)
  refine ⟨fun o hfw => ev (exec_relayOfferReceive sl o s) (if_pos (by simp [hfw])), fun o hfw => ⟨fun hno => ?_, fun hyes hrx => ?_⟩,
    fun tid b f d hrx => ev (exec_relayDataReceive sl tid b f d s) (by rw [takeFragment, hrx]),
    fun x f d hrx hfw hf => ⟨fun hpart => ?_, fun hwhole hdlen hcrc => ?_, fun hwhole hdlen hcrc hmore => ?_⟩,
    fun tid r b bad i c k d e hnot => ⟨?_, ?_, fun htx => ?_⟩,
    fun t htx hfw hserved hopen => ⟨fun hacc => ?_, fun hacc hown hcmd hmore r hr => ?_, fun hacc hsent => ⟨fun hmore => ?_, fun hlast hnext => ?_,
      fun hfails => ⟨?_, ?_⟩⟩, fun hacc hoffers => ?_, fun hacc => ?_, fun hacc => ?_⟩,
    fun t qp c index cls result code stored htx hfw hown hcmd => ⟨fun hopen => ?_, fun hover hlead => ?_, fun hlead => ?_⟩, fun htx => ⟨?_, ?_, ?_⟩⟩
  · obtain ⟨b, hout, hb⟩ := offerReplied_out (m := m) o (offerAnswer m o)
    rw [Nat.mod_eq_of_lt ((offerAnswer_le o).trans_lt (by decide))] at hb
    exact ⟨_, _, ev (exec_relayOfferReceive sl o s) (takeOffer_refused hfw hno), rfl, rfl, rfl, b, hout, hb⟩
  · obtain ⟨hrx', howner, e, he, hholder⟩ := offerTaken_facts (m := m) o
    obtain ⟨b, hout, hb⟩ := offerReplied_out (m := offerTaken m o) o 0
    have htake := takeOffer_taken (p := p) hfw hyes hrx
    have hfst := shareToken_fst (offerReplied (offerTaken m o) o 0) p
    generalize offerTaken m o = x at hrx' howner he hout htake hfst
    refine ⟨offerReplied x o 0, _, ev (exec_relayOfferReceive sl o s) (htake.trans (Prod.ext hfst rfl)), hrx', howner, ⟨e, he, hholder⟩, b, ?_, hb⟩
    rw [hout]
    exact List.mem_append_right _ (List.mem_singleton_self _)
  · rw [hblk] at hf hpart
    exact ⟨_, _, ev (exec_relayDataReceive sl _ _ f d s) (takeFragment_part hrx hfw rfl hf hpart), rfl, rfl, rxMod_rx hrx _⟩
  · rw [hblk] at hf hwhole hdlen hcrc
    obtain ⟨a, hout, ha⟩ := blockAcked_out (m := rxMod m (fun y => { y with frags := [] })) x 1
    exact ⟨_, _, ev (exec_relayDataReceive sl _ _ f d s) (takeFragment_bad hrx hfw rfl hf hwhole rfl hcrc), rfl, rxMod_rx hrx _, a, hout, ha⟩
  · rw [hblk] at hf hwhole hdlen hcrc hmore ⊢
    generalize hlen : min relayBlockLen (x.offer.regionLen - x.block * relayBlockLen) = len at hf hwhole hdlen hcrc hmore ⊢
    generalize hdata : ((tset x.frags f d).flatMap (fun f => f.2)).take len = data at hdlen hcrc ⊢
    have htake := takeFragment_good (p := p) hrx hfw hlen.symm hf hwhole hdata.symm hdlen hcrc hmore
    obtain ⟨hrx', hbytes, a, hack, ha⟩ := fragmentStored_facts hrx len data
    generalize fragmentStored m x len data = y at htake hrx' hbytes hack
    have hsend : OnlyTx y (pumpBlock (if x.block = 0 then forwardTx y x.offer else y)) := by
      refine .trans ?_ onlyTx_pumpBlock
      split
      · exact onlyTx_forwardTx _
      · exact .refl y
    obtain ⟨hkeep, hboot, hsent⟩ := hsend.receiver
    refine ⟨_, _, ev (exec_relayDataReceive sl _ _ f d s) htake, rfl, hkeep.trans hrx', ?_, a, hsent _ hack, ha⟩
    rw [regionOf, hboot]
    exact hbytes
  · refine ev (exec_relayAcceptReceive sl tid r s) ?_
    unfold takeAccept
    split
    · rfl
    · exact if_pos (by simp [hnot])
  · refine ev (exec_relayBlockAckReceive sl tid b bad s) ?_
    unfold takeBlockAck
    split
    · rfl
    · exact if_pos (by simp [hnot])
  · exact ev (exec_relayReportReceive sl tid i c k d e s) (by rw [takeReport, htx])
  · obtain ⟨m', b, htake, htx'⟩ := takeAccept_start (p := p) htx hfw hserved hacc
    exact ⟨m', _, ev (exec_relayAcceptReceive sl t.tid 0 s) htake, htx', rfl, rfl, rfl⟩
  · obtain ⟨m', htake, htx'⟩ := takeAccept_refused (p := p) htx hfw hserved hacc hown hcmd hmore hr
    exact ⟨m', _, ev (exec_relayAcceptReceive sl t.tid r s) htake, htx', rfl, rfl, rfl⟩
  · obtain ⟨m', b, htake, htx'⟩ := takeBlockAck_next (p := p) htx hfw hserved hacc hsent hopen hmore
    exact ⟨m', _, ev (exec_relayBlockAckReceive sl t.tid t.block false s) htake, htx', rfl, rfl⟩
  · obtain ⟨m', htake, htx'⟩ := takeBlockAck_end (p := p) htx hfw hserved hacc hsent hopen hlast hnext
    exact ⟨m', _, ev (exec_relayBlockAckReceive sl t.tid t.block false s) htake, htx', rfl⟩
  · obtain ⟨b, htx', hcheck⟩ := blockFailed_again (p := p) htx hopen hfails
    exact ⟨_, _, ev (exec_relayBlockAckReceive sl t.tid t.block true s) ((takeBlockAck_own htx hfw hserved hacc hsent true).trans hcheck), htx', rfl, rfl⟩
  · obtain ⟨b, htx', hcheck⟩ := blockFailed_again (p := p) htx hopen hfails
    refine ⟨_, _, ev (exec_relayBlockAckTimeout sl s) ?_, htx', rfl, rfl⟩
    rw [blockAckTimeout, htx, ← hcheck]
    exact if_neg (by simp [hfw, hacc, hsent, hserved])
  · refine ⟨sendOffer (txMod m (fun t => { t with offers := t.offers + 1 })) t, _, ev (exec_relayOfferTimeout sl s) ?_,
      txMod_tx htx (fun t => { t with offers := t.offers + 1 }), rfl⟩
    rw [offerTimeout, htx]
    exact (if_neg (by simp [hfw, hacc, hserved])).trans (if_pos hoffers)
  · refine ev (exec_relayBlockAckTimeout sl s) ?_
    rw [blockAckTimeout, htx]
    exact if_pos (by simp [hacc])
  · refine ev (exec_relayOfferTimeout sl s) ?_
    rw [offerTimeout, htx]
    exact if_pos (by simp [hacc])
  · obtain ⟨htx', -⟩ := noteHop_tx htx index cls result code stored
    exact ⟨_, ev (exec_relayReportReceive sl t.tid index cls result code stored s)
      ((takeReport_own htx hfw hown (by simp [hcmd]) index cls result code stored).trans (relayCheck_open htx' (.inr hopen))), htx'⟩
  · obtain ⟨htx', hlead'⟩ := noteHop_tx htx index cls result code stored
    have htake := takeReport_own (p := p) htx hfw hown (by simp [hcmd]) index cls result code stored
    generalize noteHop m index cls result code stored = y at htx' hlead' htake
    obtain ⟨m', hend, hnone, hrec⟩ := relayEnd_lead (p := p) htx' hcmd (hlead'.trans hlead) (if relayGood { t with
      results := t.results.filter (fun r => !(r.index == index && r.cls == cls)) ++
        [{ index := index, cls := cls, result := result, code := code, stored := stored }] } then 0 else 0x8A03)
    refine ⟨m', ev (exec_relayReportReceive sl t.tid index cls result code stored s) (htake.trans ?_), hnone, hrec⟩
    rw [relayCheck, htx', ← hend]
    exact if_pos ((Bool.and_eq_true _ _).mpr ⟨congrArg Option.isSome hcmd, hover⟩)
  · obtain ⟨m', hend, hnone, hrec⟩ := relayEnd_lead (p := p) htx hcmd hlead 0x8A03
    exact ⟨m', ev (exec_relayProgressTimeout sl s) ((if_pos hfw).trans hend), hnone, hrec⟩
  · refine ev (exec_relayProgressTimeout sl s) (ite_eq_right_iff.2 fun _ => ?_)
    rw [relayEnd, htx]
  · exact ev (exec_relayOfferTimeout sl s) (by rw [offerTimeout, htx])
  · exact ev (exec_relayBlockAckTimeout sl s) (by rw [blockAckTimeout, htx])

end Sys2Proof.Machine

/-! PROOF. Writes to BAR0, the image aperture, pulls and header checks (R34, R37 to R45, R52). -/

namespace Sys2Proof.Machine
open Sys2Proof Sys2Proof.Bits Sys2Proof.Safety

/-! ### BOOT_CTL and BOOT_RESET -/

section
variable {m : Module} {h e g : Bool}

theorem bar0Writes_power (hw : bar0Writes m = true) : hasPower m = true ∧ powered m = true := by
  simp only [bar0Writes, Bool.and_eq_true] at hw
  exact ⟨hw.1.1.1, hw.1.1.2⟩

theorem bar0Writes_of_up (hup : bar0Up m = false) : bar0Writes m = false := by
  simp only [bar0Up] at hup
  simp only [bar0Writes, Bool.and_assoc]
  simp only [Bool.and_assoc] at hup
  rw [hup, Bool.and_false]

/-- The fields of BOOT_CTL stand before GO is looked at. -/
def ctlWritten (m : Module) (h e : Bool) : Module := bootMod (writeRelayEn m e) (fun b => { b with hdrFirst := h })

theorem writeBootCtl_idle (hw : bar0Writes m = false) : writeBootCtl m h e g = m := if_pos (by simp [hw])

theorem writeBootCtl_on (hw : bar0Writes m = true) : writeBootCtl m h e g = if g then bootGo (ctlWritten m h e) else ctlWritten m h e :=
  if_neg (by simp [hw])

theorem bootGo_closed (hstate : m.boot.state = .loader)
    (hboth : ((regionOf m (loadSlot m.boot) 1).closed && (regionOf m (loadSlot m.boot) 2).closed) = true) : bootGo m = verifyFromLoader m := by
  unfold bootGo
  rw [if_neg (by simp [hstate])]
  exact if_pos hboth

theorem bootGo_missing (hstate : m.boot.state = .loader)
    (hboth : ((regionOf m (loadSlot m.boot) 1).closed && (regionOf m (loadSlot m.boot) 2).closed) = false) : bootGo m = setFail m 0x0A := by
  unfold bootGo
  rw [if_neg (by simp [hstate])]
  exact if_neg (by simp [hboth])

theorem bootGo_elsewhere (hstate : m.boot.state ≠ .loader) : bootGo m = m := by
  unfold bootGo
  exact if_pos (by simpa using hstate)

/-- A change of state changes nothing else of the boot record. -/
theorem setState_boot_only (st : ModState) : (setState m st).boot = { m.boot with state := st } := by
  unfold setState
  split <;> simp [bootMod]

theorem verifyFromLoader_boot : (verifyFromLoader m).boot = { m.boot with verifyFrom := .loader, state := .verify } := setState_boot_only _

end

/-! ### Opening, closing and aborting a region -/

section
variable {m : Module} {cls : BitVec 2} {i c : Nat} (hc : clsOf cls = some c) (hi : apertureSlot m = some i)
include hc hi

theorem openRegion_refused (h : ¬ ((regionOf m i c).owner < 2 ∧ (m.boot.state = .loader → m.boot.relaying = false)
    ∧ (m.boot.state ≠ .loader → hostMayUpdate m = true))) : openRegion m cls = (setCode m 0x0E, false) := by
  unfold openRegion
  rw [hc, hi]
  dsimp only
  split
  · rfl
  · next hown =>
    rw [not_or, not_and] at hown
    obtain ⟨hown, hrel⟩ := hown
    refine if_pos (Classical.byContradiction fun hno => h ⟨by omega, fun hst => ?_, fun hst => ?_⟩)
    · exact Bool.eq_false_iff.2 fun hr => hrel hr hst
    · exact Classical.byContradiction fun hup => hno ⟨hst, by simpa using hup⟩

theorem openRegion_open (hown : (regionOf m i c).owner < 2) (hrel : m.boot.state = .loader → m.boot.relaying = false)
    (hup : m.boot.state ≠ .loader → hostMayUpdate m = true) :
    openRegion m cls = (setCode (slotMod (regionMod m i c (fun r =>
      { r with isOpen := true, closed := false, owner := 1, len := 0, crc := 0, hdrSeen := [], hdrDue := false, hdrOk := false,
               hdrBad := false, hdrFirst := m.boot.hdrFirst })) i (fun s => { s with reverted := false })) 0, true) := by
  unfold openRegion
  rw [hc, hi]
  dsimp only
  rw [if_neg, if_neg]
  · rintro ⟨hst, hno⟩
    simp [hup hst] at hno
  · rintro (h | ⟨hr, hst⟩)
    · omega
    · simp [hrel hst] at hr

theorem abortRegion_mine (hown : (regionOf m i c).owner < 2) : abortRegion m cls =
    if m.boot.pulling && m.boot.pullSlot == i && (m.boot.pullSafety == (c == 2)) then
      bootMod (regionMod m i c (fun _ => {})) (fun b => { b with pullAborted := true, pulling := !b.pullOut.isEmpty, closePending := false })
    else regionMod m i c (fun _ => {}) := by
  unfold abortRegion
  rw [hc, hi]
  exact if_neg (by omega)

theorem abortRegion_other (hown : 2 ≤ (regionOf m i c).owner) : abortRegion m cls = m := by
  unfold abortRegion
  rw [hc, hi]
  exact if_pos hown

theorem closeCtl_open (hopen : (regionOf m i c).isOpen = true) : closeCtl m cls =
    if m.boot.pulling then bootMod m (fun b => { b with closePending := true }) else closeNow m i c := by
  unfold closeCtl
  rw [hc, hi]
  exact if_neg (by simp [hopen])

omit hc hi in
theorem closeNow_good (hopen : (regionOf m i c).isOpen = true) (hbad : (regionOf m i c).hdrBad = false) :
    closeNow m i c = regionMod m i c closeRegion := if_pos (by simp [hopen, hbad])

omit hc hi in
theorem closeNow_bad (hbad : (regionOf m i c).hdrBad = true) : closeNow m i c = m := if_neg (by simp [hbad])

end

section
variable {m : Module}

theorem regionOf_slotMod_reverted (i c : Nat) : regionOf (slotMod m i (fun s => { s with reverted := false })) i c = regionOf m i c := by
  rw [regionOf, slotAt_slotMod, regionOf]
  rfl

theorem regionOf_slotMod_lastCode (i c e : Nat) : regionOf (slotMod m i (fun s => { s with lastCode := e })) i c = regionOf m i c := by
  rw [regionOf, slotAt_slotMod, regionOf]
  rfl

/-- The regions are those of the slots. -/
theorem regionOf_congr {m' : Module} (h : (m'.boot.slot0, m'.boot.slot1, m'.boot.slot2) = (m.boot.slot0, m.boot.slot1, m.boot.slot2))
    (i c : Nat) : regionOf m' i c = regionOf m i c := by
  obtain ⟨h0, h1, h2⟩ := by simpa only [Prod.mk.injEq] using h
  rcases i with _ | _ | i
  · exact congrArg (regionIn · c) h0
  · exact congrArg (regionIn · c) h1
  · exact congrArg (regionIn · c) h2

theorem regionMod_verified (i c : Nat) (f : Region → Region) : (slotAt (regionMod m i c f).boot i).verified = false := by
  rw [regionMod, slotAt_slotMod]
  split <;> rfl

theorem storeBytes_len_open (r : Region) (o : Nat) (data : Bytes) (h : Bool) :
    (storeBytes r o data h).len = Max.max r.len (o + data.length) ∧ (storeBytes r o data h).isOpen = r.isOpen := by
  unfold storeBytes
  dsimp only
  split <;> exact ⟨rfl, rfl⟩

end

/-! ### Pulls -/

section
variable {m : Module}

/-- The reads of a pull from block `j` on. -/
def pullReads (base j n : Nat) : List (W64 × Nat) := (List.range' j n).map (fun k => (w64 (base + 512 * k), 512))

/-- Where a pull reads from. -/
def pullBase (b : Boot) : Nat := b.srcHi.toNat * 2 ^ 32 + b.srcLo.toNat / 4096 * 4096

theorem pullReads_length (base j n : Nat) : (pullReads base j n).length = n := by simp [pullReads]

theorem pullReads_get (base n : Nat) (k : Nat) (x : W64 × Nat) (h : (pullReads base 0 n)[k]? = some x) : x = (w64 (base + 512 * k), 512) := by
  obtain ⟨hk, rfl⟩ := List.getElem?_eq_some_iff.1 h
  simp [pullReads]

theorem pullIssue_done {k : Nat} (h : m.boot.pullEnd ≤ m.boot.pullNext) : pullIssue k m = m := by
  cases k with
  | zero => rfl
  | succ k => exact if_neg (by omega)

/-- One more read of 512 bytes. -/
def issueOne (m : Module) : Module :=
  emit (bootMod m (fun b => { b with pullOut := b.pullOut ++ [m.boot.pullNext], pullNext := b.pullNext + 512 }))
    (.pullRead (w64 (pullBase m.boot + m.boot.pullNext)) 512)

/-- A pull into a region begins. -/
def pullBegun (m : Module) (i c : Nat) : Module := bootMod m (fun b =>
  { b with
    pulling := true, pullAborted := false, pullSafety := c == 2, pullSlot := i, pullOut := [], pullNext := 0
    pullEnd := 4096 * m.boot.pullLen.toNat, closePending := false })

/-- Reads go out, one for each 512 bytes, until 32 are outstanding or the end is reached (R42). -/
theorem pullIssue_reads {k j n : Nat} (hout : m.boot.pullOut.length + k = 32) (hnext : m.boot.pullNext = 512 * j) (hend : m.boot.pullEnd = 512 * n) :
    (pullIssue k m).out = m.out ++ (pullReads (pullBase m.boot) j (Min.min k (n - j))).map (fun x => .pullRead x.1 x.2)
      ∧ (pullIssue k m).boot.pulling = m.boot.pulling ∧ (pullIssue k m).boot.pullEnd = m.boot.pullEnd := by
  induction k generalizing m j with
  | zero => simp [pullIssue, pullReads]
  | succ k ih =>
    by_cases hj : j < n
    · have hmin : Min.min 512 (m.boot.pullEnd - m.boot.pullNext) = 512 := by omega
      rw [pullIssue, if_pos (by omega)]
      dsimp only
      rw [hmin]
      have hlen : (issueOne m).boot.pullOut.length + k = 32 := by
        simp only [issueOne, emit, bootMod, List.length_append, List.length_singleton]
        omega
      have hat : (issueOne m).boot.pullNext = 512 * (j + 1) := by
        simp only [issueOne, emit, bootMod]
        omega
      obtain ⟨ihout, ihrest⟩ := ih hlen hat hend
      refine ⟨ihout.trans ?_, ihrest⟩
      rw [show Min.min (k + 1) (n - j) = Min.min k (n - (j + 1)) + 1 by omega, pullReads, pullReads, List.range'_succ, issueOne, hnext]
      simp [emit, bootMod, pullBase]
    · rw [pullIssue_done (by omega), show n - j = 0 by omega]
      simp [pullReads]

section
variable {i c : Nat} (hpull : m.boot.pulling = false)
include hpull

theorem startPull_unmastered (hbme : m.boot.bme = false) (cls : Option Nat) : startPull m cls = setCode m 0x0B := by
  unfold startPull
  rw [if_neg (by simp [hpull]), if_pos (by simp [hbme])]

variable (hbme : m.boot.bme = true) (hi : apertureSlot m = some i)
include hbme hi

theorem startPull_case : startPull m (some c) =
    if regionSize c < 4096 * m.boot.pullLen.toNat then setCode m 0x0F
    else if !(regionOf m i c).isOpen then setCode m 0x0E
    else if 4096 * m.boot.pullLen.toNat = 0 then m
    else pullIssue 32 (pullBegun m i c) := by
  unfold startPull
  rw [if_neg (by simp [hpull]), if_neg (by simp [hbme]), hi]
  rfl

theorem startPull_long (hsize : regionSize c < 4096 * m.boot.pullLen.toNat) : startPull m (some c) = setCode m 0x0F :=
  (startPull_case hpull hbme hi).trans (if_pos hsize)

theorem startPull_shut (hsize : 4096 * m.boot.pullLen.toNat ≤ regionSize c) (hopen : (regionOf m i c).isOpen = false) :
    startPull m (some c) = setCode m 0x0E := by
  rw [startPull_case hpull hbme hi, if_neg (Nat.not_lt.2 hsize), if_pos (by simp [hopen])]

theorem startPull_starts (hsize : 4096 * m.boot.pullLen.toNat ≤ regionSize c) (hpos : 0 < 4096 * m.boot.pullLen.toNat)
    (hopen : (regionOf m i c).isOpen = true) : (startPull m (some c)).boot.pulling = true
    ∧ (startPull m (some c)).boot.pullEnd = 4096 * m.boot.pullLen.toNat
    ∧ (startPull m (some c)).out = m.out
      ++ (pullReads (pullBase m.boot) 0 (Min.min 32 (4096 * m.boot.pullLen.toNat / 512))).map (fun x => .pullRead x.1 x.2) := by
  rw [startPull_case hpull hbme hi, if_neg (by omega), if_neg (by simp [hopen]), if_neg (by omega)]
  obtain ⟨hout, hp, hend⟩ := pullIssue_reads (k := 32) (j := 0) (n := 4096 * m.boot.pullLen.toNat / 512)
    (m := pullBegun m i c) rfl rfl (by simp only [pullBegun, bootMod]; omega)
  exact ⟨hp, hend, hout⟩

end

section
variable {o : Nat} (hpull : m.boot.pulling = true) (ho : o ∈ m.boot.pullOut) (hab : m.boot.pullAborted = false)
include hpull ho hab

theorem pullDone_failed : pullDone m o none = pullFail (bootMod m (fun b => { b with pullOut := b.pullOut.filter (fun x => x != o) })) := by
  unfold pullDone
  rw [if_neg (by simp [hpull, ho])]
  exact if_neg (by simp [hab])

/-- The last read of a pull stores its bytes and ends it. -/
theorem pullDone_last {d : Bytes} (hlast : m.boot.pullOut = [o]) (hend : m.boot.pullEnd ≤ m.boot.pullNext) (hclose : m.boot.closePending = false) :
    pullDone m o (some d) = bootMod (regionMod (bootMod m (fun b => { b with pullOut := [] })) m.boot.pullSlot (if m.boot.pullSafety then 2 else 1)
      (fun r => storeBytes r o d m.boot.hdrFirst)) (fun b => { b with pulling := false, closePending := false }) := by
  have hempty : bootMod m (fun b => { b with pullOut := b.pullOut.filter (fun x => x != o) }) = bootMod m (fun b => { b with pullOut := [] }) := by
    simp [bootMod, hlast]
  unfold pullDone
  rw [if_neg (by simp [hpull, ho]), hempty]
  dsimp only
  rw [if_neg (by simp [hab])]
  have hsame := regionMod_same (m := bootMod m (fun b => { b with pullOut := [] })) m.boot.pullSlot (if m.boot.pullSafety then 2 else 1)
    (fun r => storeBytes r o d m.boot.hdrFirst)
  generalize regionMod (bootMod m (fun b => { b with pullOut := [] })) m.boot.pullSlot (if m.boot.pullSafety then 2 else 1)
    (fun r => storeBytes r o d m.boot.hdrFirst) = m2 at hsame ⊢
  unfold SameButSlots at hsame
  rw [pullIssue_done (by rw [hsame]; exact hend), if_pos (by rw [hsame]; rfl), if_neg (by rw [hsame]; simp [bootMod, hclose])]

theorem pullDone_last_facts {d : Bytes} (hlast : m.boot.pullOut = [o]) (hend : m.boot.pullEnd ≤ m.boot.pullNext)
    (hclose : m.boot.closePending = false) : (pullDone m o (some d)).boot.pulling = false
    ∧ (regionOf (pullDone m o (some d)) m.boot.pullSlot (if m.boot.pullSafety then 2 else 1)).bytes
      = memWrite (regionOf m m.boot.pullSlot (if m.boot.pullSafety then 2 else 1)).bytes o d
    ∧ (pullDone m o (some d)).boot.code = m.boot.code := by
  rw [pullDone_last hpull ho hab hlast hend hclose]
  have hread : regionOf (bootMod m (fun b => { b with pullOut := [] })) m.boot.pullSlot (if m.boot.pullSafety then 2 else 1)
      = regionOf m m.boot.pullSlot (if m.boot.pullSafety then 2 else 1) := regionOf_congr rfl _ _
  have hstored := regionOf_regionMod (bootMod m (fun b => { b with pullOut := [] })) m.boot.pullSlot (if m.boot.pullSafety then 2 else 1)
    (fun r => storeBytes r o d m.boot.hdrFirst)
  have hcode := regionMod_code (bootMod m (fun b => { b with pullOut := [] })) m.boot.pullSlot (if m.boot.pullSafety then 2 else 1)
    (fun r => storeBytes r o d m.boot.hdrFirst)
  rw [hread] at hstored
  generalize regionMod (bootMod m (fun b => { b with pullOut := [] })) m.boot.pullSlot (if m.boot.pullSafety then 2 else 1)
    (fun r => storeBytes r o d m.boot.hdrFirst) = m2 at hstored hcode ⊢
  refine ⟨rfl, ?_, hcode⟩
  rw [regionOf_congr (m := m2) (m' := bootMod m2 (fun b => { b with pulling := false, closePending := false })) rfl, hstored, storeBytes_bytes]

theorem pullDone_failed_facts : (pullDone m o none).boot.pulling = false ∧ (pullDone m o none).boot.code = 0x0B
    ∧ (pullDone m o none).boot.closePending = false ∧ ∀ i c, regionOf (pullDone m o none) i c = regionOf m i c := by
  rw [pullDone_failed hpull ho hab]
  refine ⟨rfl, rfl, rfl, fun i c => ?_⟩
  exact regionOf_congr (m := m) (m' := pullFail (bootMod m (fun b => { b with pullOut := b.pullOut.filter (fun x => x != o) }))) rfl i c

end

theorem pullDone_idle {o : Nat} {d : Option Bytes} (h : m.boot.pulling = false ∨ o ∉ m.boot.pullOut) : pullDone m o d = m := by
  unfold pullDone
  exact if_pos (by rcases h with h | h <;> simp [h])

end

/-! ### The header check -/

section
variable {m : Module} {i c : Nat}

theorem checkHeader_region : regionOf (checkHeader m i c) i c = { regionOf m i c with
    hdrDue := false, hdrOk := headerCode m c (regionOf m i c) == 0, hdrBad := headerCode m c (regionOf m i c) != 0 } := by
  unfold checkHeader
  dsimp only
  split
  · rw [regionOf_regionMod]
  · rw [regionOf_setCode, regionOf_slotMod_lastCode, regionOf_regionMod]

theorem checkHeader_code : (checkHeader m i c).boot.code =
    if headerCode m c (regionOf m i c) = 0 then m.boot.code else BitVec.ofNat 8 (headerCode m c (regionOf m i c)) := by
  unfold checkHeader
  dsimp only
  split
  · exact regionMod_code _ _ _ _
  · rfl

end

/-! ### Registers -/

section
variable {m : Module} {v : W32} {o : Nat}

theorem writeReg_boot (ho : o < 0x1000) : writeReg m o v = writeBootReg m o v := by
  unfold writeReg
  rw [if_neg (by omega), if_neg (by omega), if_neg (by omega)]

theorem writeReg_aperture : writeReg m (0x8000 + o) v = apertureStore m o (leBytes 4 v.toNat) := by
  unfold writeReg
  rw [if_pos (by omega), Nat.add_sub_cancel_left]

theorem writeReg_sqTail {q : Nat} (hq : q ≤ 1027) : writeReg m (0x1000 + 8 * q) v = ringSqTail m q (v.setWidth 16) := by
  unfold writeReg writeDoorbell
  rw [if_neg (by omega), if_neg (by omega), if_pos (by omega)]
  dsimp only
  rw [if_pos (by omega), show (0x1000 + 8 * q - 0x1000) / 8 = q by omega]

theorem writeReg_cqHead {q : Nat} (hq : q ≤ 1027) : writeReg m (0x1004 + 8 * q) v = ringCqHead m q (v.setWidth 16) := by
  unfold writeReg writeDoorbell
  rw [if_neg (by omega), if_neg (by omega), if_pos (by omega)]
  dsimp only
  rw [if_neg (by omega), if_pos (by omega), show (0x1004 + 8 * q - 0x1000) / 8 = q by omega]

theorem writeBootReg_idle (hw : bar0Writes m = false) : writeBootReg m o v = m := if_pos (by simp [hw])

theorem apertureStore_idle (hw : bar0Writes m = false) {data : Bytes} : apertureStore m o data = m := if_pos (by simp [hw])

theorem writeBootReg_none (h1 : o ≠ 0x0104) (h2 : o ≠ 0x010C) (ho : o < 0x1000) : writeBootReg m o v = m := by
  unfold writeBootReg
  split
  · rfl
  · split
    case h_8 => rfl
    all_goals omega

/-- Nothing in BAR0 takes a write while the island does not answer. -/
theorem writeReg_idle (hup : bar0Up m = false) : writeReg m o v = m := by
  have hw := bar0Writes_of_up hup
  unfold writeReg writeAlm writeDoorbell ringSqTail ringCqHead
  dsimp only
  split
  · exact apertureStore_idle hw
  · split
    · exact if_pos (by simp [hup])
    · split
      · split
        · exact if_pos (by simp [hw])
        · split
          · exact if_pos (by simp [hw])
          · rfl
      · exact writeBootReg_idle hw

end

/-! ### The events of BAR0 -/

section
variable {s : State} {sl : Slot}

theorem bar0_idle (hw : bar0Writes (modOf s sl) = false) (h e : Bool) (c : BitVec 2) (k : W32) (o : Nat) (d : Bytes) :
    Idle (.bootGo sl h e) s ∧ Idle (.relayEnWrite sl e) s ∧ Idle (.bootReset sl k) s ∧ Idle (.imgOpen sl c e) s ∧ Idle (.imgPull sl c) s
      ∧ Idle (.imgAbort sl c) s ∧ Idle (.imgClose sl c) s ∧ Idle (.apertureWrite sl o d) s :=
  ⟨idle_of (exec_bootGo sl h e s) (writeBootCtl_idle hw), idle_of (exec_relayEnWrite sl e s) (writeBootCtl_idle hw),
    idle_of (exec_bootReset sl k s) (if_neg (by simp [hw])), idle_of (exec_imgOpen sl c e s) (if_pos (by simp [hw])),
    idle_of (exec_imgPull sl c s) (if_pos (by simp [hw])), idle_of (exec_imgAbort sl c s) (if_pos (by simp [hw])),
    idle_of (exec_imgClose sl c s) (if_pos (by simp [hw])), idle_of (exec_apertureWrite sl o d s) (apertureStore_idle hw)⟩

section
variable (hw : bar0Writes (modOf s sl) = true)
include hw

theorem becomes_bootGo (h e : Bool) : Becomes (.bootGo sl h e) s sl (bootGo (ctlWritten (modOf s sl) h e)) :=
  becomes_of (exec_bootGo sl h e s) (writeBootCtl_on hw)

theorem becomes_relayEnWrite (e : Bool) : Becomes (.relayEnWrite sl e) s sl (ctlWritten (modOf s sl) (modOf s sl).boot.hdrFirst e) :=
  becomes_of (exec_relayEnWrite sl e s) (writeBootCtl_on hw)

theorem becomes_bootReset : Becomes (.bootReset sl 0x0000A5C3) s sl (moduleReset (modOf s sl)) :=
  becomes_of (exec_bootReset sl _ s) (if_pos (by simp [hw]))

variable (cls : BitVec 2)

theorem becomes_imgOpen : Becomes (.imgOpen sl cls false) s sl (openRegion (setCls (modOf s sl) cls) cls).1 :=
  becomes_of (exec_imgOpen sl cls false s) (if_neg (by simp [hw]))

theorem becomes_imgPull : Becomes (.imgPull sl cls) s sl (startPull (setCls (modOf s sl) cls) (clsOf cls)) :=
  becomes_of (exec_imgPull sl cls s) (if_neg (by simp [hw]))

theorem becomes_imgAbort : Becomes (.imgAbort sl cls) s sl (abortRegion (setCls (modOf s sl) cls) cls) :=
  becomes_of (exec_imgAbort sl cls s) (if_neg (by simp [hw]))

theorem becomes_imgClose : Becomes (.imgClose sl cls) s sl (closeCtl (setCls (modOf s sl) cls) cls) :=
  becomes_of (exec_imgClose sl cls s) (if_neg (by simp [hw]))

end

theorem exec_registerWrite_full (sl : Slot) (o : Nat) (v : W32) (s : State) :
    exec (.registerWrite sl o v false) s = onMod s sl (fun m => writeReg m o v) := exec_registerWrite sl o v false s

/-- Two events that do the same to the module. -/
theorem exec_congr {i j : Instr} {f g : Module → Module} (hi : exec i s = onMod s sl f) (hj : exec j s = onMod s sl g)
    (h : f (modOf s sl) = g (modOf s sl)) : exec i s = exec j s := by
  rw [hi, hj, onMod, onMod, h]

end

/-! ### IMG_CTL -/

section
variable {m : Module} {v : W32}

theorem writeReg_block {o : Nat} (ho : 0x5000 ≤ o) (ho' : o < 0x8000) : writeReg m o v = writeBootReg m o v := by
  unfold writeReg
  rw [if_neg (by omega), if_neg (by omega), if_neg (by omega)]

theorem writeReg_alm {o : Nat} (ho : 0x4000 ≤ o) (ho' : o ≤ 0x40FF) : writeReg m o v = writeAlm m o v := by
  unfold writeReg
  rw [if_neg (by omega), if_pos ⟨ho, ho'⟩]

theorem writeBootReg_imgCtl : writeBootReg m 0x5000 v = if bar0Writes m then writeImgCtl m v else m := by
  unfold writeBootReg
  cases bar0Writes m <;> rfl

theorem writeBootReg_bootCtl : writeBootReg m 0x0104 v = writeBootCtl m (v.getLsbD 2) (v.getLsbD 1) (v.getLsbD 0) := by
  unfold writeBootReg
  cases hw : bar0Writes m
  · exact (writeBootCtl_idle hw).symm
  · rfl

theorem writeBootReg_bootReset : writeBootReg m 0x010C v = writeBootReset m v := by
  unfold writeBootReg writeBootReset
  cases bar0Writes m <;> rfl

theorem writeAlm_capture : writeAlm m 0x4000 v = almCaptureWrite m (v.getLsbD 0) := by
  unfold writeAlm almCaptureWrite
  cases bar0Up m <;> rfl

theorem writeAlm_step : writeAlm m 0x4028 v = almStepWrite m v := by
  unfold writeAlm almStepWrite
  cases bar0Up m <;> rfl

section
variable (hup : bar0Up m = true)
include hup

theorem writeAlm_stageLow : (writeAlm m 0x4020 v).alm.stage.toNat = m.alm.stage.toNat / 4294967296 * 4294967296 + v.toNat := by
  have hm := m.alm.stage.isLt
  have hv := v.isLt
  rw [writeAlm, if_neg (by simp [hup])]
  simp only [almMod, w64, BitVec.toNat_ofNat]
  omega

theorem writeAlm_stageHigh : (writeAlm m 0x4024 v).alm.stage.toNat = v.toNat * 4294967296 + m.alm.stage.toNat % 4294967296 := by
  have hm := m.alm.stage.isLt
  have hv := v.isLt
  rw [writeAlm, if_neg (by simp [hup])]
  simp only [almMod, w64, BitVec.toNat_ofNat]
  omega

theorem writeAlm_stepIgn : (writeAlm m 0x4004 v).alm.stepIgn = (m.alm.stepIgn && !v.getLsbD 2) := by
  rw [writeAlm, if_neg (by simp [hup])]
  cases v.getLsbD 2 <;> simp [almMod]

end

theorem writeImgCtl_abort (h : v.getLsbD 2 = true) : writeImgCtl m v =
    abortRegion (setCls m (BitVec.ofNat 2 (field v.toNat 5 4))) (BitVec.ofNat 2 (field v.toNat 5 4)) := if_pos h

section
variable (h2 : v.getLsbD 2 = false)
include h2

theorem writeImgCtl_open (h1 : v.getLsbD 1 = false) (h0 : v.getLsbD 0 = true) : writeImgCtl m v =
    if v.getLsbD 3 && (openRegion (setCls m (BitVec.ofNat 2 (field v.toNat 5 4))) (BitVec.ofNat 2 (field v.toNat 5 4))).2 then
      startPull (openRegion (setCls m (BitVec.ofNat 2 (field v.toNat 5 4))) (BitVec.ofNat 2 (field v.toNat 5 4))).1
        (clsOf (BitVec.ofNat 2 (field v.toNat 5 4)))
    else (openRegion (setCls m (BitVec.ofNat 2 (field v.toNat 5 4))) (BitVec.ofNat 2 (field v.toNat 5 4))).1 := by
  unfold writeImgCtl
  rw [if_neg (by rw [h2]; decide), if_neg (by simp only [h1, Bool.false_and]; decide)]
  exact if_pos h0

theorem writeImgCtl_pull (h1 : v.getLsbD 1 = false) (h0 : v.getLsbD 0 = false) (h3 : v.getLsbD 3 = true) : writeImgCtl m v =
    startPull (setCls m (BitVec.ofNat 2 (field v.toNat 5 4))) (clsOf (BitVec.ofNat 2 (field v.toNat 5 4))) := by
  unfold writeImgCtl
  rw [if_neg (by rw [h2]; decide), if_neg (by simp only [h1, Bool.false_and]; decide)]
  dsimp only
  rw [if_neg (by rw [h0]; decide), if_pos h3]

theorem writeImgCtl_close (h1 : v.getLsbD 1 = true) (h0 : v.getLsbD 0 = false) (h3 : v.getLsbD 3 = false) : writeImgCtl m v =
    closeCtl (setCls m (BitVec.ofNat 2 (field v.toNat 5 4))) (BitVec.ofNat 2 (field v.toNat 5 4)) := by
  unfold writeImgCtl
  rw [if_neg (by rw [h2]; decide), if_neg (by rw [h0, h3, Bool.or_false, Bool.and_false]; decide)]
  dsimp only
  rw [if_neg (by rw [h0]; decide), if_neg (by rw [h3]; decide), if_pos h1]

theorem writeImgCtl_ignored (h1 : v.getLsbD 1 = true) (h : v.getLsbD 0 = true ∨ v.getLsbD 3 = true) : writeImgCtl m v = m := by
  unfold writeImgCtl
  rw [if_neg (by rw [h2]; decide)]
  exact if_pos (by rcases h with h | h <;> simp only [h1, h, Bool.true_or, Bool.or_true, Bool.and_self])

end

/-- The events of IMG_CTL, each with the write of the register that it stands for. -/
theorem exec_imgCtl {i : Instr} {s : State} {sl : Slot} {g : Module → Module} (e : exec i s = onMod s sl (fun m => if !bar0Writes m then m else g m))
    (h : writeImgCtl (modOf s sl) v = g (modOf s sl)) : exec (.registerWrite sl 0x5000 v false) s = exec i s := by
  refine exec_congr (exec_registerWrite_full sl _ v s) e ?_
  rw [writeReg_block (by decide) (by decide), writeBootReg_imgCtl, h]
  cases bar0Writes (modOf s sl) <;> rfl

end

/-- A narrow write to BOOT_RESET or ALM_STEP does nothing. -/
theorem exec_registerWrite_narrow {s : State} {sl : Slot} {o : Nat} {v : W32} (ho : o / 4 = 0x43 ∨ o / 4 = 0x100A) :
    exec (.registerWrite sl o v true) s = .next { s with fresh := s.fresh + 1 } := by
  have hm (m : Module) (f : W64) : writeNarrow m (o / 4 * 4) f = m := by
    unfold writeNarrow
    exact if_pos (by rcases ho with h | h <;> rw [h] <;> decide)
  rw [exec_registerWrite, execRegisterWrite, if_pos rfl, onModFree, hm, withMod_self]

section
variable {s : State} {sl : Slot}

/-- BOOT_CTL (R34, R37, R45). -/
theorem bootCtl_events (h e : Bool) (hw : bar0Writes (modOf s sl) = true) :
    let m := modOf s sl
    let i := loadSlot m.boot
    let both := (regionOf m i 1).closed && (regionOf m i 2).closed
    (m.boot.state = .loader → both = true → ∃ m', Becomes (.bootGo sl h e) s sl m' ∧ m'.boot.state = .verify ∧ m'.boot.hdrFirst = h
        ∧ m'.boot.relayEn = e ∧ verifySlot m'.boot = i)
      ∧ (m.boot.state = .loader → both = false → ∃ m', Becomes (.bootGo sl h e) s sl m' ∧ m'.boot.state = .loader ∧ m'.boot.fail = 0x0A
        ∧ m'.boot.hdrFirst = h)
      ∧ (m.boot.state ≠ .loader → ∃ m', Becomes (.bootGo sl h e) s sl m' ∧ m'.boot.state = m.boot.state ∧ m'.boot.fail = m.boot.fail
        ∧ m'.boot.relayEn = e)
      ∧ ∃ m', Becomes (.relayEnWrite sl e) s sl m' ∧ m'.boot.relayEn = e ∧ m'.boot.state = m.boot.state ∧ m'.boot.hdrFirst = m.boot.hdrFirst
        ∧ (e = false → m.boot.relaying = true → m.boot.state = .loader → m'.boot.relayStop = true)
        ∧ (e = true → m.boot.relayEn = false → m'.boot.relayWithdrawn = false) := by
  dsimp only
  refine ⟨fun hstate hboth => ⟨_, becomes_bootGo hw h e, ?_⟩, fun hstate hboth => ⟨_, becomes_bootGo hw h e, ?_⟩,
    fun hstate => ⟨_, becomes_bootGo hw h e, ?_⟩, ⟨_, becomes_relayEnWrite hw e, ?_⟩⟩
  · rw [bootGo_closed (m := ctlWritten (modOf s sl) h e) hstate hboth, verifyFromLoader_boot]
    exact ⟨rfl, rfl, rfl, rfl⟩
  · rw [bootGo_missing (m := ctlWritten (modOf s sl) h e) hstate hboth]
    exact ⟨hstate, rfl, rfl⟩
  · rw [bootGo_elsewhere (m := ctlWritten (modOf s sl) h e) hstate]
    exact ⟨rfl, rfl, rfl⟩
  · refine ⟨rfl, rfl, rfl, fun he hrel hstate => ?_, fun he hoff => ?_⟩
    · simp [ctlWritten, writeRelayEn, bootMod, he, hrel, hstate]
    · simp [ctlWritten, writeRelayEn, bootMod, he, hoff]

section
variable {cls : BitVec 2} {i c : Nat} (hw : bar0Writes (modOf s sl) = true) (hc : clsOf cls = some c) (hi : apertureSlot (modOf s sl) = some i)
include hw hc hi

omit hw hc hi in
theorem setCls_region (cls : BitVec 2) (i c : Nat) : regionOf (setCls (modOf s sl) cls) i c = regionOf (modOf s sl) i c := regionOf_congr rfl i c

/-- OPEN (R39, R43, R368). -/
theorem imgOpen_events :
    let m := modOf s sl
    let r := regionOf m i c
    let allowed : Prop := r.owner < 2 ∧ (m.boot.state = .loader → m.boot.relaying = false) ∧ (m.boot.state ≠ .loader → hostMayUpdate m = true)
    (allowed → ∃ m', Becomes (.imgOpen sl cls false) s sl m' ∧ regionOf m' i c = { r with
          isOpen := true, closed := false, owner := 1, len := 0, crc := 0, hdrSeen := [], hdrDue := false, hdrOk := false, hdrBad := false,
          hdrFirst := m.boot.hdrFirst } ∧ m'.boot.code = 0 ∧ m'.boot.cls = cls)
      ∧ (¬ allowed → ∃ m', Becomes (.imgOpen sl cls false) s sl m' ∧ regionOf m' i c = r ∧ m'.boot.code = 0x0E) := by
  dsimp only
  have hreg := setCls_region (s := s) (sl := sl) cls i c
  have hslot : apertureSlot (setCls (modOf s sl) cls) = some i := hi
  refine ⟨fun ⟨hown, hrel, hup⟩ => ⟨_, becomes_imgOpen hw cls, ?_⟩, fun hno => ⟨_, becomes_imgOpen hw cls, ?_⟩⟩
  · rw [openRegion_open hc hslot (hreg ▸ hown) hrel hup]
    dsimp only
    rw [regionOf_setCode, regionOf_slotMod_reverted, regionOf_regionMod, hreg]
    refine ⟨rfl, rfl, ?_⟩
    rw [setCode, bootMod, slotMod_only, regionMod, slotMod_only]
    rfl
  · rw [openRegion_refused hc hslot (by rwa [hreg])]
    dsimp only
    rw [regionOf_setCode, hreg]
    exact ⟨rfl, rfl⟩

/-- PULL (R42). -/
theorem imgPull_events (hidle : (modOf s sl).boot.pulling = false) :
    let m := modOf s sl
    let r := regionOf m i c
    let len := 4096 * m.boot.pullLen.toNat
    (m.boot.bme = false → ∃ m', Becomes (.imgPull sl cls) s sl m' ∧ m'.boot.pulling = false ∧ m'.boot.code = 0x0B)
      ∧ (m.boot.bme = true → regionSize c < len → ∃ m', Becomes (.imgPull sl cls) s sl m' ∧ m'.boot.pulling = false ∧ m'.boot.code = 0x0F)
      ∧ (m.boot.bme = true → len ≤ regionSize c → r.isOpen = false →
        ∃ m', Becomes (.imgPull sl cls) s sl m' ∧ m'.boot.pulling = false ∧ m'.boot.code = 0x0E)
      ∧ (m.boot.bme = true → len ≤ regionSize c → 0 < len → r.isOpen = true → ∃ m', Becomes (.imgPull sl cls) s sl m' ∧ m'.boot.pulling = true
        ∧ m'.boot.pullEnd = len ∧ ∃ l : List (W64 × Nat), m'.out = m.out ++ l.map (fun x => .pullRead x.1 x.2) ∧ l.length = Min.min 32 (len / 512)
        ∧ ∀ k x, l[k]? = some x → x = (w64 (m.boot.srcHi.toNat * 2 ^ 32 + m.boot.srcLo.toNat / 4096 * 4096 + 512 * k), 512)) := by
  dsimp only
  have hreg := setCls_region (s := s) (sl := sl) cls i c
  have hslot : apertureSlot (setCls (modOf s sl) cls) = some i := hi
  refine ⟨?_, ?_, ?_, ?_⟩
  · intro hbme
    refine ⟨_, becomes_imgPull hw cls, ?_⟩
    rw [startPull_unmastered (m := setCls (modOf s sl) cls) hidle hbme]
    exact ⟨hidle, rfl⟩
  · intro hbme hsize
    refine ⟨_, becomes_imgPull hw cls, ?_⟩
    rw [hc, startPull_long (m := setCls (modOf s sl) cls) hidle hbme hslot hsize]
    exact ⟨hidle, rfl⟩
  · intro hbme hsize hopen
    refine ⟨_, becomes_imgPull hw cls, ?_⟩
    rw [hc, startPull_shut (m := setCls (modOf s sl) cls) hidle hbme hslot hsize (hreg ▸ hopen)]
    exact ⟨hidle, rfl⟩
  · intro hbme hsize hpos hopen
    refine ⟨_, becomes_imgPull hw cls, ?_⟩
    rw [hc]
    obtain ⟨hp, hend, hout⟩ := startPull_starts (m := setCls (modOf s sl) cls) hidle hbme hslot hsize hpos (hreg ▸ hopen)
    exact ⟨hp, hend, _, hout, pullReads_length _ _ _, fun k x => pullReads_get _ _ k x⟩

/-- ABORT and CLOSE (R39, R40). -/
theorem imgEnd_events :
    let m := modOf s sl
    let r := regionOf m i c
    (r.owner < 2 → ∃ m', Becomes (.imgAbort sl cls) s sl m' ∧ regionOf m' i c = {}
        ∧ (m.boot.pulling = true → m.boot.pullSlot = i → (m.boot.pullSafety = true ↔ c = 2) → m'.boot.pullAborted = true ∧ m'.boot.closePending = false))
      ∧ (2 ≤ r.owner → ∃ m', Becomes (.imgAbort sl cls) s sl m' ∧ regionOf m' i c = r)
      ∧ (r.isOpen = true → m.boot.pulling = false → r.hdrBad = false → ∃ m', Becomes (.imgClose sl cls) s sl m' ∧
        regionOf m' i c = { r with isOpen := false, closed := true, owner := 0, crc := crc32c (memRead r.bytes 0 r.len) })
      ∧ (r.isOpen = true → m.boot.pulling = false → r.hdrBad = true → ∃ m', Becomes (.imgClose sl cls) s sl m' ∧ regionOf m' i c = r)
      ∧ (r.isOpen = true → m.boot.pulling = true → ∃ m', Becomes (.imgClose sl cls) s sl m' ∧ regionOf m' i c = r ∧ m'.boot.closePending = true) := by
  dsimp only
  have hreg := setCls_region (s := s) (sl := sl) cls i c
  have hslot : apertureSlot (setCls (modOf s sl) cls) = some i := hi
  refine ⟨fun hown => ⟨_, becomes_imgAbort hw cls, ?_⟩, fun hown => ⟨_, becomes_imgAbort hw cls, ?_⟩,
    fun hopen hidle hbad => ⟨_, becomes_imgClose hw cls, ?_⟩, fun hopen hidle hbad => ⟨_, becomes_imgClose hw cls, ?_⟩,
    fun hopen hpull => ⟨_, becomes_imgClose hw cls, ?_⟩⟩
  · rw [abortRegion_mine hc hslot (hreg ▸ hown)]
    split
    · exact ⟨(regionOf_congr rfl _ _).trans (regionOf_regionMod _ _ _ _), fun _ _ _ => ⟨rfl, rfl⟩⟩
    · next hno =>
      refine ⟨regionOf_regionMod _ _ _ _, fun hp hs hc2 => absurd ?_ hno⟩
      have hcls : (modOf s sl).boot.pullSafety = (c == 2) := by
        rw [Bool.eq_iff_iff]
        simpa using hc2
      simp [setCls, bootMod, hp, hs, hcls]
  · rw [abortRegion_other hc hslot (hreg ▸ hown), hreg]
  · rw [closeCtl_open hc hslot (hreg ▸ hopen), if_neg (by simp [setCls, bootMod, hidle]), closeNow_good (hreg ▸ hopen) (hreg ▸ hbad), regionOf_regionMod, hreg]
    rfl
  · rw [closeCtl_open hc hslot (hreg ▸ hopen), if_neg (by simp [setCls, bootMod, hidle]), closeNow_bad (hreg ▸ hbad), hreg]
  · rw [closeCtl_open hc hslot (hreg ▸ hopen), if_pos (show (setCls (modOf s sl) cls).boot.pulling = true from hpull)]
    exact ⟨(regionOf_congr rfl _ _).trans hreg, rfl⟩

end

/-- A read of a pull that fails, and the last one that comes (R40, R42). -/
theorem pullRead_events (o : Nat) (hon : powered (modOf s sl) = true) (hpull : (modOf s sl).boot.pulling = true)
    (ho : o ∈ (modOf s sl).boot.pullOut) (hab : (modOf s sl).boot.pullAborted = false) :
    let m := modOf s sl
    let c := if m.boot.pullSafety then 2 else 1
    (∃ m', Becomes (.pullReadCompletion sl o none) s sl m' ∧ m'.boot.pulling = false ∧ m'.boot.code = 0x0B ∧ m'.boot.closePending = false
        ∧ regionOf m' m.boot.pullSlot c = regionOf m m.boot.pullSlot c)
      ∧ (∃ m', Becomes (.pullReadTimeout sl o) s sl m' ∧ m'.boot.pulling = false ∧ m'.boot.code = 0x0B)
      ∧ ∀ d, m.boot.pullOut = [o] → m.boot.pullEnd ≤ m.boot.pullNext → m.boot.closePending = false →
        ∃ m', Becomes (.pullReadCompletion sl o (some d)) s sl m' ∧ m'.boot.pulling = false
          ∧ (regionOf m' m.boot.pullSlot c).bytes = memWrite (regionOf m m.boot.pullSlot c).bytes o d ∧ m'.boot.code = m.boot.code := by
  dsimp only
  obtain ⟨hend, hcode, hclose, hreg⟩ := pullDone_failed_facts hpull ho hab
  exact ⟨⟨_, becomes_of (exec_pullReadCompletion sl o none s) (if_pos hon), hend, hcode, hclose, hreg _ _⟩,
    ⟨_, becomes_of (exec_pullReadTimeout sl o s) (if_pos hon), hend, hcode⟩, fun d hlast hend hclose =>
    ⟨_, becomes_of (exec_pullReadCompletion sl o (some d) s) (if_pos hon), pullDone_last_facts hpull ho hab hlast hend hclose⟩⟩

end

/-- Settles O48. -/
theorem bootRegisterEvents : Obligations.BootRegisterEvents := by
  unfold Obligations.BootRegisterEvents
  intro s sl
  dsimp only
  refine ⟨fun hw h e c k o d => bar0_idle hw h e c k o d, fun h e hw => bootCtl_events h e hw, fun key hw => ?reset, fun cls i c hw hc hi => ⟨(imgOpen_events hw hc hi).1, (imgOpen_events hw hc hi).2, fun hidle => imgPull_events hw hc hi hidle,
    imgEnd_events hw hc hi⟩,
    fun i c off data hw hc hi => ?aperture, fun o => ?timeout, fun o d hno => ?idle, fun o hon hpull ho hab => pullRead_events o hon hpull ho hab, fun hno => ?nocheck,
    fun i c hdue hpower hon => ?check, fun v => ?registers⟩
  case reset =>
    refine ⟨fun hkey => idle_of (exec_bootReset sl key s) (if_neg (by simpa using fun _ => hkey)), fun hkey => ⟨hkey ▸ becomes_bootReset hw, ?_⟩⟩
    obtain ⟨hpower, hon⟩ := bar0Writes_power hw
    obtain ⟨hst, hfail, hqps, hrole, -, ht, -, hsrc, -⟩ := moduleReset_resets hpower hon
    exact ⟨hst, hfail, hqps, hrole, ht, hsrc⟩
  case aperture =>
    have hstore := apertureStore_region (off := off) (data := data) hw hc hi
    refine ⟨fun hno => idle_of (exec_apertureWrite sl off data s) ?_, fun hopen hpull hbad => ⟨fun hlong => ⟨_,
      becomes_of (exec_apertureWrite sl off data s) rfl, ?_⟩, fun hfits => ⟨_, becomes_of (exec_apertureWrite sl off data s) rfl, ?_⟩⟩⟩
    · rw [hstore, if_pos (by rcases hno with h | h | h <;> simp [h])]
    · rw [hstore, if_neg (by simp [hopen, hpull, hbad]), if_pos hlong, regionOf_setCode]
      exact ⟨rfl, rfl⟩
    · rw [hstore, if_neg (by simp [hopen, hpull, hbad]), if_neg (by omega), regionOf_regionMod, storeBytes_bytes, (storeBytes_len_open _ _ _ _).1,
        (storeBytes_len_open _ _ _ _).2]
      exact ⟨rfl, rfl, hopen, regionMod_verified _ _ _⟩
  case timeout => rw [exec_pullReadTimeout, exec_pullReadCompletion, execPullReadTimeout, execPullReadCompletion]
  case idle =>
    refine idle_of (exec_pullReadCompletion sl o d s) ?_
    rcases hno with hoff | hno
    · exact if_neg (by simp [hoff])
    · rw [pullDone_idle hno, ite_self]
  case nocheck => exact idle_of (exec_headerFirstCheck sl s) (by simp only [hno])
  case check =>
    refine ⟨_, becomes_of (exec_headerFirstCheck sl s) (by simp only [hdue]; exact if_pos (by simp [hpower, hon])), ?_⟩
    rw [checkHeader_region, checkHeader_code]
    exact ⟨rfl, rfl, rfl, rfl⟩
  case registers =>
    have hfull (o : Nat) := exec_registerWrite_full sl o v s
    refine ⟨fun hup o => idle_of (hfull o) (writeReg_idle hup), fun hgo => exec_congr (hfull _) (exec_bootGo sl _ _ s) ?_,
      fun hgo hh => exec_congr (hfull _) (exec_relayEnWrite sl _ s) ?_, exec_congr (hfull _) (exec_bootReset sl v s) ?_,
      exec_congr (hfull _) (exec_almCapture sl _ s) ?_, exec_congr (hfull _) (exec_almStep sl v s) ?_,
      fun q hq => ⟨exec_congr (hfull _) (exec_doorbellSqTail sl q _ s) (writeReg_sqTail hq),
        exec_congr (hfull _) (exec_doorbellCqHead sl q _ s) (writeReg_cqHead hq)⟩,
      fun o => exec_congr (hfull _) (exec_apertureWrite sl o _ s) writeReg_aperture,
      fun h2 => exec_imgCtl (exec_imgAbort sl _ s) (writeImgCtl_abort h2), fun h2 h1 h0 => exec_imgCtl (exec_imgOpen sl _ _ s) (writeImgCtl_open h2 h1 h0),
      fun h2 h1 h0 h3 => exec_imgCtl (exec_imgPull sl _ s) (writeImgCtl_pull h2 h1 h0 h3),
      fun h2 h1 h0 h3 => exec_imgCtl (exec_imgClose sl _ s) (writeImgCtl_close h2 h1 h0 h3),
      fun h2 h1 h => idle_of (hfull _) ?_, fun hw => ⟨becomes_of (hfull _) ?_, becomes_of (hfull _) ?_, becomes_of (hfull _) ?_, becomes_of (hfull _) ?_⟩,
      fun hup => ⟨⟨_, becomes_of (hfull _) rfl, ?_⟩, ⟨_, becomes_of (hfull _) rfl, ?_⟩, ⟨_, becomes_of (hfull _) rfl, ?_⟩⟩,
      fun o ho h1 h2 => idle_of (hfull o) ((writeReg_boot ho).trans (writeBootReg_none h1 h2 ho)), fun o ho => exec_registerWrite_narrow ho⟩
    · rw [writeReg_boot (by decide), writeBootReg_bootCtl, hgo]
    · rw [writeReg_boot (by decide), writeBootReg_bootCtl, hgo, hh]
    · rw [writeReg_boot (by decide), writeBootReg_bootReset]
    · rw [writeReg_alm (by decide) (by decide), writeAlm_capture]
    · rw [writeReg_alm (by decide) (by decide), writeAlm_step]
    · rw [writeReg_block (by decide) (by decide), writeBootReg_imgCtl, writeImgCtl_ignored h2 h1 h, ite_self]
    iterate 4
      rw [writeReg_block (by decide) (by decide)]
      exact if_neg (by simp [hw])
    · rw [writeReg_alm (by decide) (by decide), writeAlm_stageLow hup]
    · rw [writeReg_alm (by decide) (by decide), writeAlm_stageHigh hup]
    · rw [writeReg_alm (by decide) (by decide), writeAlm_stepIgn hup]

end Sys2Proof.Machine

/-! PROOF. Attachment, doorbells and the anchor page, the fetch of a descriptor, the posting of completions (R59 to R66, R70 to R80). -/

namespace Sys2Proof.Machine
open Sys2Proof Sys2Proof.Bits Sys2Proof.Safety

/-! ### Attachment and the anchor page -/

section
variable {m : Module} {page : Option AnchorPage} {a : AnchorPage}

/-- The QP 0 that an anchor page describes (R59). -/
def attachQp (a : AnchorPage) : Qp :=
  { st := .opened, vector := a.vec, sqBase := a.sqBase, cqBase := a.cqBase, sqSize := a.sqSize, cqSize := a.cqSize }

/-- The answer to the key, before the page is opened. -/
def attachSeen (m : Module) (page : Option AnchorPage) : Module :=
  mailMod m (fun q => { q with anchorAddr := rendezvous m.mail, anchorStatus := anchorCode page, r2Tail := 0x5143 })

/-- QP 0 opens. -/
def attachOpened (m : Module) (a : AnchorPage) : Module :=
  logEv (mailMod (attachSeen m (some a)) (fun q =>
    { q with
      qps := tset q.qps 0 (attachQp a), hostTag := a.hostTag, heartbeat := now m, r0Tail := 0, r0Head := 0, r1Tail := 0, r1Head := 0, r2Tail := 0 }))
    0x0101 1 0 0xFFFF (leBytes 8 a.hostTag.toNat ++ leBytes 8 (rendezvous m.mail).toNat)

theorem attachHost_idle (h : fw m = false ∨ attached m = true) : attachHost m page = m :=
  if_pos (by rcases h with h | h <;> simp [h])

section
variable (hfw : fw m = true) (hatt : attached m = false)
include hfw hatt

theorem attachHost_open (hcode : anchorCode (some a) = 1) : attachHost m (some a) = msi (writeAnchor (attachOpened m a)) 0 := by
  unfold attachHost
  rw [if_neg (by simp [hfw, hatt]), hcode]
  unfold attachOpened attachSeen
  rw [hcode]
  rfl

theorem attachHost_refused (hcode : anchorCode page ≠ 1) : attachHost m page = msi (writeAnchor (attachSeen m page)) 0 := by
  unfold attachHost
  rw [if_neg (by simp [hfw, hatt])]
  dsimp only
  split
  · next h => exact absurd h hcode
  · rfl

end

theorem writeAnchor_mail (m : Module) : (writeAnchor m).mail = { m.mail with gen := m.mail.gen + 2 } := rfl

/-- The page that is written shows the generation it is written with. -/
theorem writeAnchor_out (m : Module) : (writeAnchor m).out = m.out ++ [.anchor (anchorBlock (writeAnchor m))] := rfl

theorem anchorCode_size (h : sqSizeOk a.sqSize = false ∨ cqSizeOk a.cqSize = false) : anchorCode (some a) = 2 := by
  unfold anchorCode
  exact if_pos (by rcases h with h | h <;> simp [h])

theorem anchorCode_base (hs : sqSizeOk a.sqSize = true) (hc : cqSizeOk a.cqSize = true) (h : a.sqBase.toNat % 4096 ≠ 0 ∨ a.cqBase.toNat % 4096 ≠ 0) :
    anchorCode (some a) = 3 := by
  unfold anchorCode
  dsimp only
  rw [if_neg (by simp [hs, hc])]
  exact if_pos (by rcases h with h | h <;> simp [aligned4k, h])

end

/-! ### Detaching and the doorbells -/

section
variable {m : Module}

theorem dropQps_tickets (qs : List Nat) : (dropQps m qs).mail.tickets = m.mail.tickets := by
  unfold dropQps
  exact foldl_keeps (·.mail.tickets) _ (fun a x => (pushCpl_sameRecords a _ _).tickets) _ _

/-- What was accepted stays in the journal. -/
theorem dropQps_journal (qs : List Nat) : (dropQps m qs).mail.journal = m.mail.journal.filter (fun e => e.accepted || !qs.contains e.qp) := by
  unfold dropQps
  exact foldl_keeps (·.mail.journal) _ (fun a x => (pushCpl_sameRecords a _ _).journal) _ _

theorem detachHost_mail : (detachHost m).mail.tickets = m.mail.tickets ∧ (∀ e ∈ m.mail.journal, e.accepted = true → e ∈ (detachHost m).mail.journal)
    ∧ (detachHost m).boot.pulling = false := by
  have htick := dropQps_tickets (m := m) ((m.mail.qps.filter (fun x => !x.2.udp)).map (·.1))
  have hjour := dropQps_journal (m := m) ((m.mail.qps.filter (fun x => !x.2.udp)).map (·.1))
  unfold detachHost
  generalize dropQps m ((m.mail.qps.filter (fun x => !x.2.udp)).map (·.1)) = m1 at htick hjour
  have hkept : ∀ e ∈ m.mail.journal, e.accepted = true → e ∈ m1.mail.journal := by
    intro e he hacc
    rw [hjour, List.mem_filter]
    exact ⟨he, by simp [hacc]⟩
  dsimp only
  refine ⟨?_, ?_, ?_⟩
  · split <;> split <;> simpa [pullFail, setCode] using htick
  · split <;> split <;> simpa [pullFail, setCode] using hkept
  · split
    all_goals
      simp only [logEv_boot, mailMod_boot]
      split
      · rfl
      · next hp => simpa using hp

variable {n : Nat} {v : W16} (hfw : fw m = true) (hw : bar0Writes m = true)
include hfw hw

theorem ringSqTail_attached (hatt : attached m = true) : ringSqTail m n v = qpDoorbell m n (fun q => { q with sqTail := v.toNat }) := by
  unfold ringSqTail
  rw [if_neg (by simp [hfw, hw]), if_neg (by simp [hatt])]

theorem ringCqHead_attached (hatt : attached m = true) (hn : n ≠ 0 ∨ v ≠ 0xDE7A) :
    ringCqHead m n v = qpDoorbell m n (fun q => { q with cqHead := v.toNat }) := by
  unfold ringCqHead
  rw [if_neg (by simp [hfw, hw]), if_neg (by simp [hatt]), if_neg (by tauto)]

theorem ringCqHead_detach (hatt : attached m = true) : ringCqHead m 0 0xDE7A = detachHost m := by
  unfold ringCqHead
  rw [if_neg (by simp [hfw, hw]), if_neg (by simp [hatt]), if_pos ⟨rfl, rfl⟩]

theorem ringSqTail_rendezvous (hatt : attached m = false) :
    ringSqTail m 0 v = { m with mail := { m.mail with r0Tail := v } } ∧ ringSqTail m 1 v = { m with mail := { m.mail with r1Tail := v } }
      ∧ ringSqTail m 2 v = { m with mail := { m.mail with r2Tail := v } } :=
  ⟨(if_neg (by simp [hfw, hw])).trans (if_pos (by simp [hatt])), (if_neg (by simp [hfw, hw])).trans (if_pos (by simp [hatt])),
    (if_neg (by simp [hfw, hw])).trans (if_pos (by simp [hatt]))⟩

theorem ringCqHead_rendezvous (hatt : attached m = false) :
    ringCqHead m 0 v = { m with mail := { m.mail with r0Head := v } } ∧ ringCqHead m 1 v = { m with mail := { m.mail with r1Head := v } } :=
  ⟨(if_neg (by simp [hfw, hw])).trans (if_pos (by simp [hatt])), (if_neg (by simp [hfw, hw])).trans (if_pos (by simp [hatt]))⟩

omit hfw hw in
theorem tget_qpMod_same {q : Qp} (hq : tget m.mail.qps n = some q) (f : Qp → Qp) : tget (qpMod m n f).mail.qps n = some (f q) := by
  simp [qpMod, hq]

omit hfw hw in
theorem tget_qpDoorbell {q : Qp} (hq : tget m.mail.qps n = some q) (hudp : q.udp = false) (f : Qp → Qp) :
    tget (qpDoorbell m n f).mail.qps n = some (f q) := (tget_qpMod_same hq _).trans (by simp [hudp])

end

/-! ### A new entry of the journal -/

section
variable {m p : Module} {qp : Nat} {d : Desc} {data : Bytes}

/-- A record adds to what a module sends. -/
theorem logEv_sends {e : Emit} (he : e ∈ m.out) (code kind idx part : Nat) (b : Bytes) : e ∈ (logEv m code kind idx part b).out := by
  unfold logEv routeEvent
  repeat' split
  all_goals simp [he]

theorem checkStall_sends {e : Emit} (he : e ∈ m.out) : e ∈ (checkStall m).out := by
  unfold checkStall
  repeat' split
  · exact he
  · exact he
  · refine logEv_sends ?_ _ _ _ _ _
    exact he
  · exact he

theorem checkStall_mail_journal (m : Module) : (checkStall m).mail.journal = m.mail.journal := (Prod.mk.inj (checkStall_journal_tickets m)).1

theorem sendJournal_sends {e : Emit} (he : e ∈ m.out) (due : Option W64) : e ∈ (sendJournal m qp d data due).out := by
  unfold sendJournal
  dsimp only
  split <;> simp [he]

theorem sendJournal_sent (due : Option W64) : .sync (.journal qp d data due) ∈ (sendJournal m qp d data due).out := by
  unfold sendJournal
  simp

theorem sendJournal_journal (due : Option W64) : (sendJournal m qp d data due).mail.journal = m.mail.journal := by
  unfold sendJournal
  dsimp only
  split <;> rfl

theorem acceptEntry_sends {e : Emit} (he : e ∈ m.out) (x : JEntry) : e ∈ (acceptEntry m p x).out := by
  unfold acceptEntry
  dsimp only
  split <;> split <;> simp [he, sendJournal_sends]

/-- What acceptance writes into an entry (R129). -/
def entryAccepted (m : Module) (y : JEntry) : JEntry := { y with accepted := true, order := m.mail.nextOrder, step := some (now m + 10000) }

theorem acceptEntry_journal (x : JEntry) :
    (acceptEntry m p x).mail.journal = (journalMod m x.qp x.d.ticket (entryAccepted m)).mail.journal := by
  unfold acceptEntry
  dsimp only
  split <;> split <;> simp [sendJournal_journal, (pushCpl_sameRecords _ _ _).journal, ticketPut] <;> rfl

/-- Where an entry is changed that keeps its QP and ticket, the same entry is found. -/
theorem journalFind_journalMod (qp' : Nat) (t t' : W64) (f : JEntry → JEntry) (hf : ∀ y, (f y).qp = y.qp ∧ (f y).d = y.d) :
    journalFind (journalMod m qp' t' f) qp t = (journalFind m qp t).map (fun y => if y.qp == qp' && y.d.ticket == t' then f y else y) := by
  unfold journalFind journalMod
  dsimp only
  rw [List.find?_map]
  congr 2
  funext y
  dsimp only [Function.comp]
  split
  · rw [(hf y).1, (hf y).2]
  · rfl

/-- The journal holds the command; it is not accepted while `held`. -/
def Journaled (m : Module) (qp : Nat) (d : Desc) (data : Bytes) (held : Prop) : Prop :=
  ∃ e, journalFind m qp d.ticket = some e ∧ e.d = d ∧ e.req = data ∧ (held → e.accepted = false)

theorem Journaled.of_journal {m' : Module} {held : Prop} (h : Journaled m qp d data held) (hj : m'.mail.journal = m.mail.journal) :
    Journaled m' qp d data held := by
  unfold Journaled journalFind at *
  rwa [hj]

/-- Accepting another entry leaves a held one; accepting this one keeps what it says. -/
theorem Journaled.acceptEntry {held : Prop} (h : Journaled m qp d data held) (x : JEntry) (hx : held → ¬ (x.qp = qp ∧ x.d.ticket = d.ticket)) :
    Journaled (acceptEntry m p x) qp d data held := by
  obtain ⟨e, hfind, hd, hreq, hheld⟩ := h
  refine Journaled.of_journal ?_ (acceptEntry_journal x)
  refine ⟨_, (journalFind_journalMod x.qp d.ticket x.d.ticket (entryAccepted m) (fun _ => ⟨rfl, rfl⟩)).trans (congrArg _ hfind), ?_, ?_, fun hh => ?_⟩
  · dsimp only
    split <;> exact hd
  · dsimp only
    split <;> exact hreq
  · have hat := List.find?_some hfind
    simp only [Bool.and_eq_true, beq_iff_eq] at hat
    dsimp only
    rw [if_neg]
    · exact hheld hh
    · simp only [Bool.and_eq_true, beq_iff_eq, hat.1, hat.2]
      exact fun hxe => hx hh ⟨hxe.1.symm, hxe.2.symm⟩

/-- While the partner must acknowledge an entry it is not accepted (R76). -/
theorem Journaled.acceptReady (h : Journaled m qp d data (needAck m p = true))
    (hacked : ∀ e ∈ m.mail.journal, e.qp = qp → e.d.ticket = d.ticket → e.acked = false) :
    Journaled (acceptReady m p) qp d data (needAck m p = true) := by
  unfold Machine.acceptReady
  split
  · exact h
  · refine (List.foldlRecOn _ _ (motive := fun a : Module => a.pair = m.pair ∧ Journaled a qp d data (needAck m p = true)) ⟨rfl, h⟩
      fun a ha x hx => ?_).2
    obtain ⟨hpair, hj⟩ := ha
    split
    · next hacc =>
      refine ⟨(acceptEntry_pair x).trans hpair, hj.acceptEntry x fun hneed hat => ?_⟩
      have hneed' : needAck a p = true := by rwa [needAck, linked, hpair]
      simp [acceptable, hneed', hacked x hx hat.1 hat.2] at hacc
    · exact ⟨hpair, hj⟩

theorem acceptReady_sends {e : Emit} (he : e ∈ m.out) : e ∈ (acceptReady m p).out := by
  unfold acceptReady
  split
  · exact he
  · refine List.foldlRecOn _ _ (motive := fun a : Module => e ∈ a.out) he fun a ha x _ => ?_
    split
    · exact acceptEntry_sends ha x
    · exact ha

/-- The entry is in the journal, and its partner is told. -/
def journalEntered (m p : Module) (qp : Nat) (d : Desc) (data : Bytes) : Module :=
  let m1 := mailMod m (fun q => { q with journal := q.journal ++ [{ qp := qp, d := d, req := data }] })
  if needAck m p then sendJournal m1 qp d data none else m1

theorem journalEntered_journal : (journalEntered m p qp d data).mail.journal = m.mail.journal ++ [{ qp := qp, d := d, req := data }] := by
  unfold journalEntered
  dsimp only
  split
  · exact sendJournal_journal none
  · rfl

theorem journalEntered_pair : (journalEntered m p qp d data).pair = m.pair := by
  unfold journalEntered
  dsimp only
  split
  · exact sendJournal_pair qp d data none
  · rfl

theorem received_silent (h : d.flags.getLsbD 0 = false) : received m qp d = m := if_neg (by rw [wantRcv, h]; decide)

theorem journalNew_silent (h : d.flags.getLsbD 0 = false) : journalNew m p qp d data = checkStall (acceptReady (journalEntered m p qp d data) p) := by
  unfold journalNew
  rw [received_silent h]
  rfl

/-- New work is journaled, and waits for the partner that is in the set (R71, R76). -/
theorem journalNew_journaled (hflag : d.flags.getLsbD 0 = false) (hnew : journalFind m qp d.ticket = none) :
    Journaled (journalNew m p qp d data) qp d data (needAck m p = true)
      ∧ (needAck m p = true → .sync (.journal qp d data none) ∈ (journalNew m p qp d data).out) := by
  have hneed : needAck (journalEntered m p qp d data) p = needAck m p := by rw [needAck, linked, journalEntered_pair, needAck, linked]
  have hold : ∀ e ∈ m.mail.journal, ¬ (e.qp = qp ∧ e.d.ticket = d.ticket) := by
    intro e he hat
    have := List.find?_eq_none.1 hnew e he
    simp [hat.1, hat.2] at this
  have hfind : journalFind (journalEntered m p qp d data) qp d.ticket = some { qp := qp, d := d, req := data } := by
    rw [journalFind, journalEntered_journal, List.find?_append, show m.mail.journal.find? _ = none from hnew]
    simp
  rw [journalNew_silent hflag]
  refine ⟨Journaled.of_journal ?_ (checkStall_mail_journal _), fun hack => checkStall_sends (acceptReady_sends ?_)⟩
  · rw [← hneed]
    refine Journaled.acceptReady ⟨_, hfind, rfl, rfl, fun _ => rfl⟩ fun e he hqp ht => ?_
    rw [journalEntered_journal, List.mem_append, List.mem_singleton] at he
    obtain he | rfl := he
    · exact absurd ⟨hqp, ht⟩ (hold e he)
    · rfl
  · unfold journalEntered
    rw [if_pos hack]
    exact sendJournal_sent none

end

/-! ### The outcome of a fetch -/

section
variable {m p : Module} {qp : Nat} {d : Desc} {data : Bytes} {gap : Nat} {f : W64} {sc : Scope}

theorem takeWork_new (hticket : ticketFind m qp d.ticket = none) (hjour : journalFind m qp d.ticket = none)
    (hhigh : tget m.mail.highest qp = none ∨ ∃ h, tget m.mail.highest qp = some h ∧ h.toNat < d.ticket.toNat) :
    takeWork m p qp d data gap f = journalNew m p qp d data := by
  unfold takeWork
  rw [hticket, hjour]
  obtain hhigh | ⟨h, hhigh, hlt⟩ := hhigh
  · rw [hhigh]
  · rw [hhigh]
    exact if_pos hlt

theorem takeWork_dup {r : TicketRec} (hticket : ticketFind m qp d.ticket = some r) (hstage : r.stage ≠ 2) (hstatus : r.status ≠ 5) :
    takeWork m p qp d data gap f = dupReport m qp d r.stage r.status r.detail r.time := by
  unfold takeWork
  rw [hticket]
  exact (if_neg hstage).trans (if_neg hstatus)

theorem takeDesc_work (hchk : fetchCheck m qp false d = none) (hcat : catalog d.code.toNat = some (.work, sc)) :
    takeDesc m p qp false d (some data) gap f = takeWork (inFlightUp m qp) p qp d data gap f := by
  unfold takeDesc
  rw [hchk, hcat]
  rfl

theorem takeDesc_other {k : Kind} (hchk : fetchCheck m qp false d = none) (hcat : catalog d.code.toNat = some (k, sc)) (hk : k ≠ .work)
    (hflag : d.flags.getLsbD 0 = false) : takeDesc m p qp false d (some data) gap f =
      mailMod (inFlightUp m qp) (fun q => { q with waiting := q.waiting ++ [(qp, d.code.toNat, cmdOf qp d data, workBefore m qp)] }) := by
  unfold takeDesc
  rw [hchk, hcat]
  dsimp only
  rw [received_silent hflag]
  cases k with
  | work => exact absurd rfl hk
  | query => rfl
  | loc => rfl

theorem fetched_waiting : (fetched m qp).mail.waiting = m.mail.waiting := by
  unfold fetched
  dsimp only
  split
  · rfl
  · rw [mailMod_mail]
    split <;> rfl

end

/-! ### What follows the posting of a completion -/

section
variable {m n o : Module}

/-- What was sent stays sent; QPs and journal stay. -/
def SentOn (m n : Module) : Prop := (∀ e ∈ m.out, e ∈ n.out) ∧ n.mail.qps = m.mail.qps ∧ n.mail.journal = m.mail.journal

theorem SentOn.refl (m : Module) : SentOn m m := ⟨fun _ h => h, rfl, rfl⟩

theorem SentOn.trans (h : SentOn m n) (h' : SentOn n o) : SentOn m o :=
  ⟨fun e he => h'.1 e (h.1 e he), h'.2.1.trans h.2.1, h'.2.2.trans h.2.2⟩

theorem SentOn.logEv (code kind idx part : Nat) (b : Bytes) : SentOn m (logEv m code kind idx part b) :=
  ⟨fun _ he => logEv_sends he _ _ _ _ _, by rw [logEv_mail], by rw [logEv_mail]⟩

theorem SentOn.setState (st : ModState) : SentOn m (setState m st) := by
  unfold Machine.setState
  split
  · exact .refl m
  · exact SentOn.trans (n := bootMod m (fun b => { b with state := st })) ⟨fun _ h => h, rfl, rfl⟩ (.logEv ..)

theorem SentOn.anchorIfChanged (old : Module) : SentOn m (anchorIfChanged old m) := by
  refine ⟨fun e he => anchorIfChanged_sends old he, ?_, ?_⟩ <;>
  · unfold Machine.anchorIfChanged anchorChange
    repeat' split
    all_goals simp [writeAnchor_mail]

theorem SentOn.refresh : SentOn m (refresh m) := ⟨fun _ he => by rwa [refresh_out], by rw [refresh_mail], by rw [refresh_mail]⟩

/-- UMBRA, which the firmware enters on a fault, posts and retires nothing. -/
theorem SentOn.enterUmbra (hfw : fw m = true) (cause detail : Nat) : SentOn m (enterUmbra m cause detail) := by
  unfold Machine.enterUmbra
  split
  · exact .refl m
  · split
    · next h => simp [fw, h] at hfw
    · next h => simp [fw, h] at hfw
    · next h => simp [fw, h] at hfw
    iterate 3
      refine SentOn.trans ?_ (.anchorIfChanged m)
      refine SentOn.trans ?_ .refresh
      refine SentOn.trans ?_ (.logEv ..)
      refine SentOn.trans ?_ (.setState .umbra)
      exact ⟨fun _ h => h, rfl, rfl⟩
    · exact .refl m

/-- Retiring an entry sends nothing away. -/
theorem retireFinal_keeps (qp : Nat) (t : W64) : (∀ e ∈ m.out, e ∈ (retireFinal m qp t).out) ∧ (retireFinal m qp t).mail.qps = m.mail.qps
    ∧ journalHas (retireFinal m qp t) qp t = false ∧ fw (retireFinal m qp t) = fw m := by
  unfold retireFinal
  split
  · next h => exact ⟨fun _ h => h, rfl, by simpa using h, rfl⟩
  · have hsends : ∀ e ∈ m.out, e ∈ (journalRetire m qp t).out := by
      intro e he
      unfold journalRetire
      refine checkStall_sends ?_
      exact he
    have hqps : (journalRetire m qp t).mail.qps = m.mail.qps := checkStall_qps _
    have hfw : fw (journalRetire m qp t) = fw m := by
      unfold fw hasPower
      rw [journalRetire_power, journalRetire_boot]
    have hhas := journalHas_retired m qp t
    dsimp only
    split <;> exact ⟨hsends, hqps, hhas, hfw⟩

theorem closeIfDrained_keeps (qp : Nat) : (closeIfDrained m qp).out = m.out ∧ (closeIfDrained m qp).mail.journal = m.mail.journal
    ∧ fw (closeIfDrained m qp) = fw m := by
  unfold closeIfDrained
  repeat' split
  all_goals simp [(pushCpl_sameRecords _ _ _).journal, fw, hasPower]

/-- Without a SESSION.CLOSE that waits, a QP stays. -/
theorem closeIfDrained_open {qp : Nat} {q : Qp} (hq : tget m.mail.qps qp = some q) (hc : q.closer = none) : closeIfDrained m qp = m := by
  unfold closeIfDrained
  rw [hq]
  dsimp only
  rw [hc]

end

/-! ### The posting of a completion -/

section
variable {m : Module} {qp : Nat} {q : Qp} {c : Cpl} {rest : List Cpl}

/-- The completion as it is sent. -/
def completionOf (qp : Nat) (q : Qp) (c : Cpl) : Emit :=
  .completion qp c.ticket c.code c.stage c.status c.dup (!q.udp && q.phase) (if q.udp then 0 else q.sqHead) c.rsp c.detail c.time

/-- The completion leaves the held ones; a final one ends the flight of its command. -/
def unheld (m : Module) (qp : Nat) (c : Cpl) (rest : List Cpl) : Module :=
  let m1 := qpMod m qp (fun x => { x with held := rest })
  if c.final then endFlight m1 qp else m1

theorem unheld_keeps : (unheld m qp c rest).out = m.out ∧ (unheld m qp c rest).mail.journal = m.mail.journal
    ∧ fw (unheld m qp c rest) = fw m ∧ isLead (unheld m qp c rest) = isLead m := by
  unfold unheld
  dsimp only
  split <;> exact ⟨rfl, rfl, rfl, rfl⟩

theorem unheld_qp (hq : tget m.mail.qps qp = some q) : tget (unheld m qp c rest).mail.qps qp =
    some { q with held := rest, inFlight := if c.final then q.inFlight - 1 else q.inFlight } := by
  unfold unheld
  dsimp only
  split <;> simp [endFlight, qpMod, hq]

/-- What the QP is after it posted: held `rest`, its flight ended, its tail or its datagrams moved on. -/
def QpPosted (q q' : Qp) (c : Cpl) (rest : List Cpl) : Prop :=
  q'.held = rest ∧ q'.inFlight = (if c.final then q.inFlight - 1 else q.inFlight) ∧ q'.closer = q.closer
    ∧ (q.udp = false → q'.cqTail = if Max.max q.cqSize 1 ≤ q.cqTail + 1 then 0 else q.cqTail + 1)
    ∧ (q.udp = true → q'.unacked = q.unacked ++ [q.dseqOut] ∧ q'.dseqOut = q.dseqOut + 1)

theorem signal_facts {q' : Qp} (hq : tget m.mail.qps qp = some q') : (∀ e ∈ m.out, e ∈ (signal m qp q).out)
    ∧ (signal m qp q).mail.journal = m.mail.journal ∧ fw (signal m qp q) = fw m
    ∧ ∃ u, tget (signal m qp q).mail.qps qp = some { q' with unsignalled := u } := by
  have hmsi (x : Module) (e : Emit) (v : Nat) (he : e ∈ x.out) : e ∈ (msi x v).out := by
    unfold msi
    split <;> simp [he]
  unfold signal
  split
  · exact ⟨fun e he => hmsi _ e _ he, by rw [msi_mail], by simp [fw, hasPower], q'.unsignalled, by rw [msi_mail]; exact hq⟩
  · split
    · exact ⟨fun e he => hmsi _ e _ he, by rw [msi_mail]; rfl, by simp [fw, hasPower], 0, by rw [msi_mail]; exact tget_qpMod_same hq _⟩
    · exact ⟨fun e he => he, rfl, rfl, _, tget_qpMod_same hq _⟩

/-- The CQ tail moves on, and the phase turns where it wraps (R65). -/
def cqAdvanced (q x : Qp) : Qp :=
  { x with
    cqTail := if decide (Max.max q.cqSize 1 ≤ q.cqTail + 1) then 0 else x.cqTail + 1
    phase := if decide (Max.max q.cqSize 1 ≤ q.cqTail + 1) then !x.phase else x.phase }

theorem postCpl_pcie (hudp : q.udp = false) : postCpl m qp q c =
    if c.noIrq then emit (qpMod m qp (cqAdvanced q)) (completionOf qp q c) else signal (emit (qpMod m qp (cqAdvanced q)) (completionOf qp q c)) qp q :=
  if_neg (by simp [hudp])

theorem postCpl_udp (hudp : q.udp = true) : postCpl m qp q c =
    emit (qpMod m qp (fun x => { x with dseqOut := x.dseqOut + 1, unacked := x.unacked ++ [x.dseqOut] })) (completionOf qp q c) :=
  if_pos hudp

/-- A completion of the QP goes to its CQ or to its peer (R65, R87). -/
theorem postCpl_facts
    (hq : tget m.mail.qps qp = some { q with held := rest, inFlight := if c.final then q.inFlight - 1 else q.inFlight }) :
    completionOf qp q c ∈ (postCpl m qp q c).out ∧ (postCpl m qp q c).mail.journal = m.mail.journal ∧ fw (postCpl m qp q c) = fw m
      ∧ ∃ q', tget (postCpl m qp q c).mail.qps qp = some q' ∧ QpPosted q q' c rest := by
  cases hudp : q.udp with
  | true =>
    rw [postCpl_udp hudp]
    exact ⟨by simp, rfl, rfl, _, tget_qpMod_same hq _, rfl, rfl, rfl, fun h => by simp [hudp] at h, fun _ => ⟨rfl, rfl⟩⟩
  | false =>
    have hqp := tget_qpMod_same hq (cqAdvanced q)
    have htail (u : Nat) : QpPosted q { cqAdvanced q { q with held := rest, inFlight := if c.final then q.inFlight - 1 else q.inFlight } with
        unsignalled := u } c rest := ⟨rfl, rfl, rfl, fun _ => by simp [cqAdvanced], fun h => by simp [hudp] at h⟩
    rw [postCpl_pcie hudp]
    split
    · exact ⟨by simp, rfl, rfl, _, hqp, htail q.unsignalled⟩
    · obtain ⟨hout, hjour, hfw, u, hu⟩ := signal_facts (m := emit (qpMod m qp (cqAdvanced q)) (completionOf qp q c)) (q := q) hqp
      exact ⟨hout _ (by simp), hjour, hfw, _, hu, htail u⟩

/-- Work that is final leaves the journal; a drained QP closes. -/
def settled (m : Module) (qp : Nat) (c : Cpl) : Module :=
  closeIfDrained (if c.work && decide (3 ≤ c.stage) then retireFinal m qp c.ticket else m) qp

theorem settled_facts : (∀ e ∈ m.out, e ∈ (settled m qp c).out) ∧ fw (settled m qp c) = fw m
    ∧ (c.work = true → 3 ≤ c.stage → journalHas (settled m qp c) qp c.ticket = false)
    ∧ (tget m.mail.qps qp = some q → q.closer = none → tget (settled m qp c).mail.qps qp = some q) := by
  unfold settled
  obtain ⟨hsends, hqps, hhas, hfw⟩ := retireFinal_keeps (m := m) qp c.ticket
  split
  · obtain ⟨hout, hjour, hfw'⟩ := closeIfDrained_keeps (m := retireFinal m qp c.ticket) qp
    refine ⟨fun e he => hout ▸ hsends e he, hfw'.trans hfw, fun _ _ => ?_, fun hq hc => ?_⟩
    · rwa [journalHas, journalFind, hjour]
    · rw [closeIfDrained_open (hqps ▸ hq) hc, hqps, hq]
  · next h =>
    obtain ⟨hout, hjour, hfw'⟩ := closeIfDrained_keeps (m := m) qp
    refine ⟨fun e he => hout ▸ he, hfw', fun hw hst => absurd (by simp [hw, hst]) h, fun hq hc => ?_⟩
    rw [closeIfDrained_open hq hc, hq]

section
variable (hq : tget m.mail.qps qp = some q) (hheld : q.held = c :: rest) (hfw : fw m = true) (hh : m.boot.handover = false) (hst : q.st ≠ .closed)
include hq hheld hfw hh hst

theorem postNext_case : postNext m qp =
    if c.work && !isLead m then closeIfDrained (unheld m qp c rest) qp
    else if cqFull q || (c.waitsRecord && decide (512 < pendingExempt m)) then m
    else if c.final && (settled (postCpl (unheld m qp c rest) qp q c) qp c).halo.selfFail == some (qp, c.ticket) then
      enterUmbra { settled (postCpl (unheld m qp c rest) qp q c) qp c with
        halo := { (settled (postCpl (unheld m qp c rest) qp q c) qp c).halo with selfFail := none } } 5 0
    else settled (postCpl (unheld m qp c rest) qp q c) qp c := by
  unfold postNext
  rw [hq]
  dsimp only
  rw [hheld]
  exact if_neg (by simp [hfw, hh, hst])

theorem postNext_full (hwork : c.work = false ∨ isLead m = true) (hfull : cqFull q = true) : postNext m qp = m := by
  rw [postNext_case hq hheld hfw hh hst, if_neg (by rcases hwork with h | h <;> simp [h]), if_pos (by simp [hfull])]

/-- A shadow ends the flight of work without posting it (R78). -/
theorem postNext_shadow (hwork : c.work = true) (hlead : isLead m = false) :
    (postNext m qp).out = m.out ∧ (postNext m qp).mail.journal = m.mail.journal := by
  rw [postNext_case hq hheld hfw hh hst, if_pos (by simp [hwork, hlead])]
  obtain ⟨hout, hjour, -⟩ := closeIfDrained_keeps (m := unheld m qp c rest) qp
  obtain ⟨hout', hjour', -⟩ := unheld_keeps (m := m) (qp := qp) (c := c) (rest := rest)
  exact ⟨hout.trans hout', hjour.trans hjour'⟩

theorem postNext_posts (hwork : c.work = false ∨ isLead m = true) (hfull : cqFull q = false) (hrec : c.waitsRecord = false) :
    completionOf qp q c ∈ (postNext m qp).out
      ∧ (q.closer = none → ∃ q', tget (postNext m qp).mail.qps qp = some q' ∧ QpPosted q q' c rest)
      ∧ (c.work = true → 3 ≤ c.stage → journalHas (postNext m qp) qp c.ticket = false) := by
  obtain ⟨hsent, -, hfwp, q', hq', hposted⟩ := postCpl_facts (unheld_qp (c := c) (rest := rest) hq)
  obtain ⟨hsends, hfws, hhas, hqps⟩ := settled_facts (m := postCpl (unheld m qp c rest) qp q c) (qp := qp) (q := q') (c := c)
  have hfwe : fw (settled (postCpl (unheld m qp c rest) qp q c) qp c) = true := by
    rw [hfws, hfwp, unheld_keeps.2.2.1, hfw]
  rw [postNext_case hq hheld hfw hh hst, if_neg (by rcases hwork with h | h <;> simp [h]), if_neg (by simp [hfull, hrec])]
  generalize settled (postCpl (unheld m qp c rest) qp q c) qp c = m4 at hsends hhas hqps hfwe ⊢
  suffices h : ∀ m5, SentOn m4 m5 → completionOf qp q c ∈ m5.out ∧ (q.closer = none → ∃ q', tget m5.mail.qps qp = some q' ∧ QpPosted q q' c rest)
      ∧ (c.work = true → 3 ≤ c.stage → journalHas m5 qp c.ticket = false) by
    split
    · refine h _ (SentOn.trans ?_ (.enterUmbra ?_ 5 0))
      · exact ⟨fun _ he => he, rfl, rfl⟩
      · exact hfwe
    · exact h _ (.refl m4)
  intro m5 ⟨hout, hq5, hjour⟩
  refine ⟨hout _ (hsends _ hsent), fun hc => ⟨q', ?_, hposted⟩, fun hw hst => ?_⟩
  · rw [hq5, hqps hq' (hposted.2.2.1.trans hc)]
  · rw [journalHas, journalFind, hjour]
    exact hhas hw hst

end

end

/-! ### The age of unsignalled entries, and finals after a switch of the lead -/

section
variable {m : Module}

theorem msi_sent (h : m.boot.msiCount ≠ 0) (v : Nat) : (msi m v).out = m.out ++ [.msi (v % m.boot.msiCount)] := by
  rw [msi, if_neg h]
  rfl

theorem reportInherited_one {e : JEntry} {q : Qp} (hfw : fw m = true) (hlead : isLead m = true) (hwin : m.pair.window = false)
    (hj : m.mail.journal = [e]) (hi : e.inherited = true) (hf : e.final = true) (hp : e.posted = false) (hq : tget m.mail.qps e.qp = some q)
    (hst : q.st ≠ .closed) : reportInherited m = pushCpl (journalMod m e.qp e.d.ticket (fun x => { x with posted := true })) e.qp
      { ticket := e.d.ticket, code := e.d.code.toNat, stage := e.stage, status := e.status, detail := e.detail, dup := true, time := now m,
        noIrq := noIrq e.d.flags, work := true, final := false } := by
  unfold reportInherited
  rw [if_neg (by simp [hfw, hlead, hwin]), hj, List.foldl_cons, List.foldl_nil]
  exact if_pos (by simp [hi, hf, hp, qpLive, hq, hst])

end

/-! ### The events -/

section
variable {s : State} {sl : Slot}

/-- A fetch that may not happen. -/
theorem exec_fetch_held {qp : Nat} {d : Desc} (req : Option Bytes) (h : mayFetch (modOf s sl) qp d = false) :
    exec (.descriptorFetch sl qp d req) s = .next { withMod s sl (modOf s sl) with fresh := s.fresh + 1 } := by
  rw [exec_descriptorFetch, execDescriptorFetch, fetchDesc]
  dsimp only
  rw [if_neg (by simp [h])]

/-- Attaching (R59, R60). -/
theorem attach_events :
    let m := modOf s sl
    (∀ page, (fw m = false ∨ attached m = true) → Idle (.attach sl page) s)
    ∧ (∀ a, fw m = true → attached m = false → anchorCode (some a) = 1 → ∃ m', Becomes (.attach sl (some a)) s sl m' ∧
        tget m'.mail.qps 0 = some (attachQp a)
        ∧ m'.mail.anchorStatus = 1 ∧ m'.mail.hostTag = a.hostTag ∧ m'.mail.anchorAddr = rendezvous m.mail ∧ m'.mail.heartbeat = now m
        ∧ m'.mail.gen = m.mail.gen + 2)
    ∧ (∀ page, fw m = true → attached m = false → anchorCode page ≠ 1 → ∃ m', Becomes (.attach sl page) s sl m' ∧ m'.mail.qps = m.mail.qps
        ∧ m'.mail.anchorStatus = anchorCode page ∧ m'.mail.gen = m.mail.gen + 2) := by
  dsimp only
  refine ⟨fun page h => idle_of (exec_attach sl page s) (attachHost_idle h), fun a hfw hatt hcode =>
    ⟨_, becomes_of (exec_attach sl (some a) s) (attachHost_open hfw hatt hcode), ?_⟩, fun page hfw hatt hcode =>
    ⟨_, becomes_of (exec_attach sl page s) (attachHost_refused hfw hatt hcode), ?_⟩⟩
  · rw [msi_mail, writeAnchor_mail, attachOpened, logEv_mail]
    exact ⟨tget_tset_same _ _ _, hcode, rfl, rfl, rfl, rfl⟩
  · rw [msi_mail, writeAnchor_mail]
    exact ⟨rfl, rfl, rfl⟩

/-- A fetch of work whose ticket is new, of work already final, and of a command that is not work (R64, R71, R73). -/
theorem fetch_events (qp : Nat) (d : Desc) (q : Qp) (hmay : mayFetch (modOf s sl) qp d = true) (hq : tget (modOf s sl).mail.qps qp = some q)
    (hflag : d.flags.getLsbD 0 = false) :
    let m := modOf s sl
    let p := modOf s (otherSlot sl)
    let free (i : Instr) (P : Module → Prop) : Prop := ∃ m', exec i s = .next { withMod s sl m' with fresh := s.fresh + 1 } ∧ P m'
    (∀ data sc, fetchCheck m qp false d = none → catalog d.code.toNat = some (.work, sc) →
        (ticketFind m qp d.ticket = none → journalFind m qp d.ticket = none →
            (tget m.mail.highest qp = none ∨ ∃ h, tget m.mail.highest qp = some h ∧ h.toNat < d.ticket.toNat) →
          free (.descriptorFetch sl qp d (some data)) (fun m' => (∃ e, journalFind m' qp d.ticket = some e ∧ e.d = d ∧ e.req = data
              ∧ (linked m p = true → m.pair.partnerInSet = true → e.accepted = false))
            ∧ (linked m p = true → m.pair.partnerInSet = true → .sync (.journal qp d data none) ∈ m'.out)))
        ∧ (∀ r, ticketFind m qp d.ticket = some r → r.stage ≠ 2 → r.status ≠ 5 → free (.descriptorFetch sl qp d (some data)) (fun m' =>
            m'.mail.journal = m.mail.journal ∧ m'.mail.tickets = m.mail.tickets ∧ ∃ q' c, tget m'.mail.qps qp = some q' ∧ q'.held = q.held ++ [c]
            ∧ c.ticket = d.ticket ∧ c.stage = r.stage ∧ c.status = r.status ∧ c.dup = true ∧ c.time = r.time)))
      ∧ (∀ data k sc, fetchCheck m qp false d = none → catalog d.code.toNat = some (k, sc) → k ≠ .work →
          free (.descriptorFetch sl qp d (some data)) (fun m' => m'.mail.waiting = m.mail.waiting ++ [(qp, d.code.toNat, cmdOf qp d data,
            (m.mail.journal.filter (fun e => e.qp == qp && !e.final)).map (fun e => e.d.ticket))] ∧ m'.mail.journal = m.mail.journal)) := by
  dsimp only
  have hrec : SameRecords (modOf s sl) (inFlightUp (fetched (modOf s sl) qp) qp) := (fetched_sameRecords _ qp).trans (inFlightUp_sameRecords _ qp)
  have hpair : (inFlightUp (fetched (modOf s sl) qp) qp).pair = (modOf s sl).pair := fetched_pair _ _
  have hchk (h : fetchCheck (modOf s sl) qp false d = none) : fetchCheck (fetched (modOf s sl) qp) qp false d = none :=
    (fetchCheck_congr (fetched_pair _ _) qp false d).trans h
  have hwait : (inFlightUp (fetched (modOf s sl) qp) qp).mail.waiting = (modOf s sl).mail.waiting := fetched_waiting
  have hbefore : workBefore (fetched (modOf s sl) qp) qp = workBefore (modOf s sl) qp := by
    rw [workBefore, (fetched_sameRecords _ qp).journal, workBefore]
  refine ⟨fun data sc hcheck hcat => ⟨fun hticket hjour hhigh => ?_, fun r hticket hstage hstatus => ?_⟩, fun data k sc hcheck hcat hk => ?_⟩
  · refine ⟨_, exec_descriptorFetch_of_mayFetch (some data) hmay, ?_⟩
    rw [takeDesc_work (hchk hcheck) hcat, takeWork_new ((hrec.ticketFind ..).trans hticket) ((hrec.journalFind ..).trans hjour) (hrec.highest ▸ hhigh)]
    obtain ⟨⟨e, hfind, hd, hreq, hheld⟩, hsent⟩ := journalNew_journaled (p := modOf s (otherSlot sl)) (data := data) hflag
      ((hrec.journalFind ..).trans hjour)
    have hneed (hl : linked (modOf s sl) (modOf s (otherSlot sl)) = true) (hin : (modOf s sl).pair.partnerInSet = true) :
        needAck (inFlightUp (fetched (modOf s sl) qp) qp) (modOf s (otherSlot sl)) = true := by
      rw [linked] at hl
      rw [needAck, linked, hpair, hl, hin]
      rfl
    exact ⟨⟨e, hfind, hd, hreq, fun hl hin => hheld (hneed hl hin)⟩, fun hl hin => hsent (hneed hl hin)⟩
  · refine ⟨_, exec_descriptorFetch_of_mayFetch (some data) hmay, ?_⟩
    rw [takeDesc_work (hchk hcheck) hcat, takeWork_dup ((hrec.ticketFind ..).trans hticket) hstage hstatus]
    have hpost := hrec.trans (pushCpl_sameRecords (inFlightUp (fetched (modOf s sl) qp) qp) qp
      { ticket := d.ticket, code := d.code.toNat, stage := r.stage, status := r.status, detail := r.detail, dup := true, time := r.time,
        noIrq := noIrq d.flags, work := true })
    have hopen : q.st ≠ .closed := by simp [opened_of_mayFetch hmay hq]
    exact ⟨hpost.journal, hpost.tickets, _, _, pushCpl_posts _ qp _ _ (inFlightUp_fetched_qp hq) hopen, rfl, rfl, rfl, rfl, rfl, rfl⟩
  · refine ⟨_, exec_descriptorFetch_of_mayFetch (some data) hmay, ?_⟩
    rw [takeDesc_other (hchk hcheck) hcat hk hflag, mailMod_mail, hbefore]
    exact ⟨congrArg (· ++ _) hwait, hrec.journal⟩

end

/-- Settles O46. -/
theorem mailboxEvents : Obligations.MailboxEvents := by
  unfold Obligations.MailboxEvents
  intro s sl
  dsimp only
  obtain ⟨hidle, hopen, hrefused⟩ := attach_events (s := s) (sl := sl)
  refine ⟨hidle, hopen, hrefused, fun a => ⟨rfl, anchorCode_size, anchorCode_base⟩, fun hfw hatt => ?_, fun hno => ?_, fun hfw hw hatt => ?_,
    fun n q v hfw hw hatt hq hudp => ⟨?_, fun hn => ?_⟩, fun v hfw hw hatt => ?_, fun hfw hatt => ?_, fun hno => ?_, fun qp d req hmay => ?_,
    fun qp d q hmay hq hflag => fetch_events qp d q hmay hq hflag, fun qp q hq hheld => ?_, fun qp q c rest hq hheld hfw hh hst => ⟨?_, ?_, ?_⟩,
    fun qp q hq hfw => ⟨?_, ?_⟩, fun hno => ?_, fun e q hfw hlead hwin hj hi hf hp hq hst => ?_⟩
  · obtain ⟨htick, hjour, hpull⟩ := detachHost_mail (m := modOf s sl)
    exact ⟨_, becomes_of (exec_detach sl s) (if_pos (by simp [hfw, hatt])), detachHost_facts.2.2, hpull, htick, hjour⟩
  · exact idle_of (exec_detach sl s) (if_neg (by rcases hno with h | h <;> simp [h]))
  · refine exec_congr (exec_doorbellCqHead sl 0 _ s) (exec_detach sl s) ((ringCqHead_detach hfw hw hatt).trans (if_pos ?_).symm)
    simp [hfw, hatt]
  · exact ⟨_, becomes_of (exec_doorbellSqTail sl n v s) (ringSqTail_attached hfw hw hatt), tget_qpDoorbell hq hudp _⟩
  · exact ⟨_, becomes_of (exec_doorbellCqHead sl n v s) (ringCqHead_attached hfw hw hatt hn), tget_qpDoorbell hq hudp _⟩
  · obtain ⟨h0, h1, h2⟩ := ringSqTail_rendezvous (v := v) hfw hw hatt
    obtain ⟨k0, k1⟩ := ringCqHead_rendezvous (v := v) hfw hw hatt
    exact ⟨becomes_of (exec_doorbellSqTail sl 0 v s) h0, becomes_of (exec_doorbellCqHead sl 0 v s) k0, becomes_of (exec_doorbellSqTail sl 1 v s) h1,
      becomes_of (exec_doorbellCqHead sl 1 v s) k1, becomes_of (exec_doorbellSqTail sl 2 v s) h2⟩
  · exact ⟨_, becomes_of (exec_anchorHeartbeat sl s) (if_pos (by simp [hfw, hatt])), rfl, rfl, writeAnchor_out _⟩
  · exact idle_of (exec_anchorHeartbeat sl s) (if_neg (by rcases hno with h | h <;> simp [h]))
  · exact ⟨⟨_, exec_fetch_held req hmay, rfl⟩, _, (exec_requestDmaTimeout_eq_descriptorFetch s sl qp d).trans (exec_fetch_held none hmay), rfl⟩
  · refine idle_of (exec_completionPost sl qp s) ?_
    rw [postNext, hq]
    dsimp only
    rw [hheld]
  · exact fun hfull hwork => idle_of (exec_completionPost sl qp s) (postNext_full hq hheld hfw hh hst hwork hfull)
  · intro hfull hrec hwork
    obtain ⟨hsent, hqp, hhas⟩ := postNext_posts hq hheld hfw hh hst hwork hfull hrec
    refine ⟨_, becomes_of (exec_completionPost sl qp s) rfl, hsent, fun hc => ?_, hhas⟩
    obtain ⟨q', hq', hr, hfl, -, htail, hack⟩ := hqp hc
    exact ⟨q', hq', hr, hfl, htail, hack⟩
  · exact fun hwork hlead => ⟨_, becomes_of (exec_completionPost sl qp s) rfl, postNext_shadow hq hheld hfw hh hst hwork hlead⟩
  · exact fun hu => idle_of (exec_coalesceAgeExpiry sl qp s) (by simp only [hq]; exact if_neg (by simp [hu]))
  · intro hu hmsi
    refine ⟨_, becomes_of (exec_coalesceAgeExpiry sl qp s) (by simp only [hq]; exact if_pos (by simp [hfw, hu])), ?_, ?_⟩
    · exact msi_sent (m := qpMod (modOf s sl) qp (fun x => { x with unsignalled := 0 })) hmsi q.vector
    · rw [msi_mail]
      exact tget_qpMod_same hq _
  · exact idle_of (exec_dupFinalReport sl s) (if_pos (by rcases hno with h | h | h <;> simp [h]))
  · refine ⟨_, becomes_of (exec_dupFinalReport sl s) (reportInherited_one hfw hlead hwin hj hi hf hp hq hst), ?_, _, _,
      pushCpl_posts (journalMod (modOf s sl) e.qp e.d.ticket (fun x => { x with posted := true })) e.qp _ q hq hst, rfl, rfl, rfl, rfl, rfl⟩
    rw [(pushCpl_sameRecords _ _ _).journal, journalMod]
    simp [hj]

end Sys2Proof.Machine

/-! PROOF. Steps of time, the BAR0 window, PPS and PTP (R293, R296 to R299, R302 to R308). -/

namespace Sys2Proof.Machine
open Sys2Proof Sys2Proof.Bits Sys2Proof.Safety

/-! ### Events that read a free value -/

section
variable {i : Instr} {s : State} {sl : Slot} {v : Module → Module → W64 → Module} {m' : Module}

theorem free_of_pair (e : exec i s = onPairFree s sl v) (h : v (modOf s sl) (modOf s (otherSlot sl)) (Config.freeValue s.fresh) = m') :
    exec i s = .next { withMod s sl m' with fresh := s.fresh + 1 } := by
  rw [e, onPairFree, h]

end

/-! ### Steps of time -/

section
variable {m : Module} {d : W64} {trig : Nat}

theorem w64_unsigned_toInt (d : W64) : w64 (unsigned 64 d.toInt) = d := by
  have h := d.isLt
  apply BitVec.eq_of_toNat_eq
  rw [w64, BitVec.toNat_ofNat, unsigned, BitVec.toInt_eq_toNat_cond]
  split <;> omega

theorem taskOf_allTasks (f : Task → Task) (k : Nat) : taskOf (allTasks m f) k = (taskOf m k).map f := by
  rw [taskOf, taskOf]
  exact tget_mapVals m.exec.tasks (fun _ => f) k

/-- The record of a step shows the time before it. -/
theorem timeStepEvent_data (a : W64) : (timeStepEvent m a d trig).code = 0x0601 ∧ le (timeStepEvent m a d trig).data 0 8 = a.toNat := by
  refine ⟨rfl, ?_⟩
  have ha := a.isLt
  rw [timeStepEvent, fit]
  dsimp only
  rw [List.append_assoc, List.append_assoc, List.take_append, List.take_of_length_le (by simp [leBytes_length]), le_front]
  omega

/-- The module after T and the boundaries moved, before the record (R296, R297). -/
def timeMoved (m : Module) (delta : W64) : Module :=
  let m1 := almMod m (fun x => { x with t := x.t + delta, steps := inc32 x.steps, lastStep := now m + delta })
  let m2 := allTasks m1 (shiftTask delta)
  let shiftOpen (o : OpenStep) : OpenStep := { o with instant := o.instant + delta }
  { m2 with exec := { m2.exec with
      lastStep := if delta.toInt < 0 then m2.exec.lastStep + delta else m2.exec.lastStep
      agreeing := m2.exec.agreeing.map shiftOpen
      waitingSteps := m2.exec.waitingSteps.map shiftOpen
      early := m2.exec.early.map (fun x => (x.1 + delta, x.2)) } }

theorem applyStep_zero : applyStep m 0 trig = m := if_pos rfl

theorem applyStep_moves (hd : d ≠ 0) : applyStep m d trig =
    if fw m then routeEvent (timeMoved m d) false (timeStepEvent (timeMoved m d) (now m) d trig)
    else queueEvent (timeMoved m d) (timeStepEvent (timeMoved m d) (now m) d trig) := if_neg hd

theorem taskOf_timeMoved {k : Nat} {x : Task} (h : taskOf m k = some x) : taskOf (timeMoved m d) k = some (shiftTask d x) :=
  (taskOf_allTasks (m := almMod m (fun x => { x with t := x.t + d, steps := inc32 x.steps, lastStep := now m + d })) (shiftTask d) k).trans
    (congrArg (Option.map (shiftTask d)) h)

/-- A step that is not 0 (R143, R296, R297). -/
theorem applyStep_facts (hd : d ≠ 0) : (applyStep m d trig).alm = { m.alm with t := m.alm.t + d, steps := inc32 m.alm.steps, lastStep := now m + d }
    ∧ (∀ k x, taskOf m k = some x → ∃ x', taskOf (applyStep m d trig) k = some x' ∧ x'.next = x.next + d
      ∧ x'.lastReleased = x.lastReleased.map (· + d))
    ∧ (fw m = true → isLead m = true → ∃ e ∈ (applyStep m d trig).chron.pendingRecs, e.code = 0x0601 ∧ le e.data 0 8 = (now m).toNat) := by
  have hframe : (applyStep m d trig).alm = (timeMoved m d).alm ∧ (applyStep m d trig).exec = (timeMoved m d).exec := by
    rw [applyStep_moves hd]
    split <;> simp
  obtain ⟨halm, hexec⟩ := hframe
  refine ⟨halm.trans rfl, fun k x hk => ⟨shiftTask d x, ?_, ?_, rfl⟩, fun hfw hlead => ?_⟩
  · rw [taskOf, hexec]
    exact taskOf_timeMoved hk
  · exact congrArg (x.next + ·) (w64_unsigned_toInt d)
  · obtain ⟨hcode, hdata⟩ := timeStepEvent_data (m := timeMoved m d) (d := d) (trig := trig) (now m)
    have hfw' : fw (timeMoved m d) = true := hfw
    have hlead' : isLead (timeMoved m d) = true := hlead
    have hex : exemptCode (timeStepEvent (timeMoved m d) (now m) d trig).code = true := by
      rw [hcode]
      decide
    rw [applyStep_moves hd, if_pos hfw, routeEvent, if_neg (by simp [hfw']), if_pos (by simp [hlead']), queueEvent, if_pos hex]
    exact ⟨_, by simp [pushPending], hcode, hdata⟩

/-- T moves by Δ, also by a Δ of 0. -/
theorem applyStep_alm : (applyStep m d trig).alm.t = m.alm.t + d ∧ (applyStep m d trig).alm.sched = m.alm.sched
    ∧ (applyStep m d trig).alm.frac = m.alm.frac ∧ (applyStep m d trig).alm.bar0Step = m.alm.bar0Step := by
  by_cases hd : d = 0
  · subst hd
    rw [applyStep_zero]
    simp
  · rw [(applyStep_facts hd).1]
    simp

end

/-! ### The servo -/

section
variable {m p : Module} {off : Int} {f : W64}

/-- What a measured offset makes of the Almanac before ADJ or a step (R298, R302). -/
def servoLocked (m : Module) (off : Int) : Alm := { m.alm with source := cfgCode m, locked := true, offset := off }

theorem servo_case : ∃ m2, m2.alm = servoLocked m off ∧ servo m p off f =
    if m.alm.stepLimit ≠ 0 ∧ m.alm.stepLimit < off.natAbs then
      if m.alm.sched.isNone then scheduleStep m2 p (w64 (unsigned 64 (-off))) 2 else m2
    else setAdj m2 (servoAdj m2 f) := by
  unfold servo
  dsimp only
  refine ⟨_, ?_, rfl⟩
  split <;> simp [almMod, servoLocked]

theorem scheduleStep_alm (delta : W64) (trig : Nat) : (scheduleStep m p delta trig).alm = { m.alm with sched := some (stepInstant m, delta, trig) } := by
  unfold scheduleStep
  dsimp only
  split <;> rfl

theorem setAdj_alm (v : Int) : ∃ a h, (setAdj m v).alm = { m.alm with adj := a, adjHist := h } := ⟨_, _, rfl⟩

/-- Within the limit of a step the servo slews. -/
theorem servo_slews (h : m.alm.stepLimit = 0 ∨ off.natAbs ≤ m.alm.stepLimit) :
    ∃ a l, (servo m p off f).alm = { servoLocked m off with adj := a, adjHist := l } := by
  obtain ⟨m2, halm, hservo⟩ := servo_case (m := m) (p := p) (off := off) (f := f)
  obtain ⟨a, l, hadj⟩ := setAdj_alm (m := m2) (servoAdj m2 f)
  refine ⟨a, l, ?_⟩
  rw [hservo, if_neg (by omega), hadj, halm]

/-- Beyond it a step is scheduled where none is. -/
theorem servo_steps (hl : m.alm.stepLimit ≠ 0) (h : m.alm.stepLimit < off.natAbs) (hs : m.alm.sched = none) :
    (servo m p off f).alm = { servoLocked m off with sched := some (stepInstant m, w64 (unsigned 64 (-off)), 2) } := by
  obtain ⟨m2, halm, hservo⟩ := servo_case (m := m) (p := p) (off := off) (f := f)
  have hnow : now m2 = now m := by rw [now, halm]; rfl
  rw [hservo, if_pos ⟨hl, h⟩, if_pos (by simp [hs]), scheduleStep_alm, stepInstant, hnow, halm]
  rfl

/-- Whatever it does, the servo locks on its source and keeps ports and delay. -/
theorem servo_keeps : (servo m p off f).alm.source = cfgCode m ∧ (servo m p off f).alm.locked = true ∧ (servo m p off f).alm.offset = off
    ∧ (servo m p off f).alm.port2 = m.alm.port2 ∧ (servo m p off f).alm.pathDelay = m.alm.pathDelay := by
  obtain ⟨m2, halm, hservo⟩ := servo_case (m := m) (p := p) (off := off) (f := f)
  obtain ⟨a, l, hadj⟩ := setAdj_alm (m := m2) (servoAdj m2 f)
  rw [hservo]
  split
  · split
    · rw [scheduleStep_alm, halm]
      exact ⟨rfl, rfl, rfl, rfl, rfl⟩
    · rw [halm]
      exact ⟨rfl, rfl, rfl, rfl, rfl⟩
  · rw [hadj, halm]
    exact ⟨rfl, rfl, rfl, rfl, rfl⟩

theorem stepInstant_grid (h : (now m).toNat < 2 ^ 63) : (stepInstant m).toNat % 100000 = 0 := by
  have hlt : ((now m).toNat + 200000 + 99999) / 100000 * 100000 < 2 ^ 64 := by omega
  rw [stepInstant, w64, BitVec.toNat_ofNat, Nat.mod_eq_of_lt hlt, Nat.mul_mod_left]

theorem w64_unsigned_neg (r : Nat) : w64 (unsigned 64 (-(r : Int))) = 0 - w64 r := by
  apply BitVec.eq_of_toNat_eq
  rw [w64, w64, BitVec.toNat_sub, BitVec.toNat_ofNat, BitVec.toNat_ofNat, unsigned]
  have hz : BitVec.toNat (0 : W64) = 0 := rfl
  omega

theorem holdover_alm : ∃ a h, (holdover m).alm = { m.alm with source := 4, locked := false, adj := a, adjHist := h } := by
  obtain ⟨a, h, hadj⟩ := setAdj_alm (m := m) (adjMean m)
  refine ⟨a, h, ?_⟩
  unfold holdover
  dsimp only
  rw [logEv_alm, almMod]
  dsimp only
  rw [hadj]

end

/-! ### PPS in -/

/-- An edge that is not a glitch is noted. -/
def ppsSeen (m : Module) (t : W64) : Module := almMod m (fun x => { x with ppsLast := some t, ppsPresent := true })

def ppsOutlier (m : Module) : Module := almMod m (fun x => { x with ppsOutliers := inc32 x.ppsOutliers })

/-- How far an edge is from a whole second. -/
def ppsOffset (t : W64) : Int := if t.toNat % 1000000000 < 500000000 then (t.toNat % 1000000000 : Nat) else ((t.toNat % 1000000000 : Nat) : Int) - 1000000000

/-- What an edge that is no glitch does (R305). -/
def ppsMeasured (m p : Module) (t : W64) (f : W64) : Module :=
  if !isLead m || m.alm.cfgSource != 2 || m.pair.window then ppsSeen m t
  else if 1000000 < (ppsOffset t).natAbs then logEv (ppsOutlier (ppsSeen m t)) 0x0605 0 0 0xFFFF (leBytes 8 t.toNat)
  else servo (ppsSeen m t) p (ppsOffset t) f

section
variable {s : State} {sl : Slot} {t : W64}

/-- An edge within 0.5 s of the last (R305). -/
def PpsGlitch (m : Module) (t : W64) : Prop := ∃ l, m.alm.ppsLast = some l ∧ (almDiff t l).natAbs < 500000000

theorem exec_ppsInEdge_off (h : fw (modOf s sl) = false ∨ (modOf s sl).alm.ppsInOn = false) :
    exec (.ppsInEdge sl t) s = .next { withMod s sl (modOf s sl) with fresh := s.fresh + 1 } :=
  free_of_pair (exec_ppsInEdge sl t s) (if_pos (by rcases h with h | h <;> simp [h]))

section
variable (hfw : fw (modOf s sl) = true) (hon : (modOf s sl).alm.ppsInOn = true)
include hfw hon

theorem exec_ppsInEdge_case : ∃ g : Bool, (g = true ↔ PpsGlitch (modOf s sl) t) ∧ exec (.ppsInEdge sl t) s = .next
    { withMod s sl (if g then ppsOutlier (modOf s sl) else ppsMeasured (modOf s sl) (modOf s (otherSlot sl)) t (Config.freeValue s.fresh)) with
      fresh := s.fresh + 1 } := by
  refine ⟨_, ?_, free_of_pair (exec_ppsInEdge sl t s) (if_neg (by simp [hfw, hon]))⟩
  unfold PpsGlitch
  cases h : (modOf s sl).alm.ppsLast <;> simp

theorem exec_ppsInEdge_glitch (hg : PpsGlitch (modOf s sl) t) :
    exec (.ppsInEdge sl t) s = .next { withMod s sl (ppsOutlier (modOf s sl)) with fresh := s.fresh + 1 } := by
  obtain ⟨g, hiff, hexec⟩ := exec_ppsInEdge_case (t := t) hfw hon
  rw [hexec, if_pos (hiff.2 hg)]

theorem exec_ppsInEdge_measured (hg : ¬ PpsGlitch (modOf s sl) t) : exec (.ppsInEdge sl t) s = .next
    { withMod s sl (ppsMeasured (modOf s sl) (modOf s (otherSlot sl)) t (Config.freeValue s.fresh)) with fresh := s.fresh + 1 } := by
  obtain ⟨g, hiff, hexec⟩ := exec_ppsInEdge_case (t := t) hfw hon
  rw [hexec, if_neg (fun h => hg (hiff.1 h))]

end

end

section
variable {m p : Module} {t f : W64}

theorem ppsMeasured_seen (h : isLead m = false ∨ m.alm.cfgSource ≠ 2) : ppsMeasured m p t f = ppsSeen m t :=
  if_pos (by rcases h with h | h <;> simp [h])

section
variable (hlead : isLead m = true) (hcfg : m.alm.cfgSource = 2) (hwin : m.pair.window = false)
include hlead hcfg hwin

theorem ppsMeasured_far (hlo : 1000000 < t.toNat % 1000000000) (hhi : t.toNat % 1000000000 < 999000000) :
    (ppsMeasured m p t f).alm = (ppsOutlier (ppsSeen m t)).alm := by
  have hfar : 1000000 < (ppsOffset t).natAbs := by
    unfold ppsOffset
    split <;> omega
  rw [ppsMeasured, if_neg (by simp [hlead, hcfg, hwin]), if_pos hfar, logEv_alm]

theorem ppsMeasured_near (h : t.toNat % 1000000000 ≤ 1000000) :
    ppsMeasured m p t f = servo (ppsSeen m t) p ((t.toNat % 1000000000 : Nat) : Int) f := by
  have hoff : ppsOffset t = ((t.toNat % 1000000000 : Nat) : Int) := if_pos (by omega)
  rw [ppsMeasured, if_neg (by simp [hlead, hcfg, hwin]), hoff, if_neg (by omega)]

end

end

/-! ### PTP -/

section
variable {m p : Module} {port : Nat}

/-- A slave port whose offset is measured (R302). -/
def ptpMeasured (m : Module) (port : Nat) (off : Int) (delay : Nat) : Module :=
  almMod (setPort m port 9) (fun x => { x with pathDelay := delay, offset := off })

theorem portState_setPort (v : Nat) : portState (setPort m port v) port = v := by
  unfold portState setPort
  split <;> simp_all

/-- The lead writes its records itself. -/
theorem logEv_out_of_lead (hfw : fw m = true) (hlead : isLead m = true) (code kind idx part : Nat) (b : Bytes) :
    (logEv m code kind idx part b).out = m.out := by
  rw [logEv, routeEvent, if_neg (by simp [hfw]), if_pos (by simp [hlead]), queueEvent_out]

theorem txStamp_out (hfw : fw m = true) (hlead : isLead m = true) : (txStamp m port).1.out = m.out := by
  unfold txStamp
  dsimp only
  split
  · rfl
  · refine (logEv_out_of_lead ?_ ?_ _ _ _ _ _).trans rfl
    · exact hfw
    · exact hlead

theorem hostMaster_lead (h : hostMaster m port = true) : fw m = true ∧ isLead m = true := by
  simp only [hostMaster, Bool.and_eq_true] at h
  exact ⟨h.1.1.1.1, h.1.1.1.2⟩

/-- A Sync of a host port, with its Follow_Up where the timestamp was kept (R303, R308). -/
def syncSent (m : Module) (port : Nat) : Module :=
  if m.alm.twoStep && (txStamp m (15 + port)).2 then emit (emit (txStamp m (15 + port)).1 (.ptp 0 port (now m))) (.ptp 4 port (now m))
  else emit (txStamp m (15 + port)).1 (.ptp 0 port (now m))

theorem syncSent_out (hfw : fw m = true) (hlead : isLead m = true) : (syncSent m port).out = m.out ++
    if m.alm.twoStep && (txStamp m (15 + port)).2 then [.ptp 0 port (now m), .ptp 4 port (now m)] else [.ptp 0 port (now m)] := by
  have hout := txStamp_out (port := 15 + port) hfw hlead
  unfold syncSent
  split <;> simp [hout]

/-- The ports that announce: the rings, and the host ports that are master (R304). -/
theorem announce_port {e : Emit} (h : e ∈ (if sends m then (enabledRings m).map (fun k => Emit.ptp 1 (3 + k) (now m)) else [])
      ++ ([1, 2].filter (fun p => portState m p == 6)).map (fun p => Emit.ptp 1 p (now m))) :
    ∃ port, e = .ptp 1 port (now m) ∧ (port = 1 ∧ m.alm.port1 = 6 ∨ port = 2 ∧ m.alm.port2 = 6
      ∨ sends m = true ∧ 3 ≤ port ∧ ringRuns m (port - 3) = true) := by
  rcases List.mem_append.1 h with h | h
  · split at h
    · next hs =>
      obtain ⟨k, hk, rfl⟩ := List.mem_map.1 h
      have hrun := (List.mem_filter.1 hk).2
      exact ⟨3 + k, rfl, .inr (.inr ⟨hs, by omega, by rwa [Nat.add_sub_cancel_left]⟩)⟩
    · simp at h
  · obtain ⟨k, hk, rfl⟩ := List.mem_map.1 h
    obtain ⟨hmem, hst⟩ := List.mem_filter.1 hk
    simp only [List.mem_cons, List.not_mem_nil, or_false] at hmem
    obtain rfl | rfl := hmem
    · exact ⟨1, rfl, .inl ⟨rfl, by simpa [portState] using hst⟩⟩
    · exact ⟨2, rfl, .inr (.inl ⟨rfl, by simpa [portState] using hst⟩)⟩

end

section
variable {s : State} {sl : Slot}

section
variable (hfw : fw (modOf s sl) = true) (hlead : isLead (modOf s sl) = true) (hrole : (modOf s sl).alm.role = 1 ∨ (modOf s sl).alm.role = 3)
include hfw hlead hrole

theorem exec_ptpMessage_announce {gm : W64} (hport : (modOf s sl).alm.port1 ≠ 9) :
    exec (.ptpMessageReceive sl { port := 1, announce := some gm }) s = .next
      { withMod s sl { modOf s sl with alm := { (modOf s sl).alm with port1 := 8, gmId := gm } } with fresh := s.fresh + 1 } := by
  refine free_of_pair (exec_ptpMessageReceive sl _ s) ((if_neg ?_).trans ?_)
  · rcases hrole with h | h <;> simp [hfw, hlead, h]
  · show almMod (if portState (modOf s sl) 1 = 9 then modOf s sl else setPort (modOf s sl) 1 8) (fun x => { x with gmId := gm }) = _
    rw [if_neg (show ¬ portState (modOf s sl) 1 = 9 from hport)]
    rfl

theorem exec_ptpMessage_offset {off : Int} {delay : Nat} (hport : (modOf s sl).alm.port2 = 8 ∨ (modOf s sl).alm.port2 = 9) :
    exec (.ptpMessageReceive sl { port := 2, offset := some (off, delay) }) s = .next
      { withMod s sl (if (modOf s sl).alm.cfgSource = 1 ∧ !(modOf s sl).pair.window then
          servo (ptpMeasured (modOf s sl) 2 off delay) (modOf s (otherSlot sl)) off (Config.freeValue s.fresh)
        else ptpMeasured (modOf s sl) 2 off delay) with fresh := s.fresh + 1 } := by
  refine free_of_pair (exec_ptpMessageReceive sl _ s) ((if_neg ?_).trans (if_neg ?_))
  · rcases hrole with h | h <;> simp [hfw, hlead, h]
  · have hst : portState (modOf s sl) 2 = (modOf s sl).alm.port2 := rfl
    show ¬ (portState (modOf s sl) 2 ≠ 8 ∧ portState (modOf s sl) 2 ≠ 9)
    omega

end

end

/-- Settles O43. -/
theorem timeEvents : Obligations.TimeEvents := by
  unfold Obligations.TimeEvents
  intro s sl
  dsimp only
  refine ⟨fun a d g hp hs => ⟨fun hge => ?_, fun hge => ?_⟩, fun hs => ?_, fun hup => ⟨?_, ?_⟩, fun hup => ?_, fun v hup => ⟨fun h => ?_, fun hk hstep =>
    ⟨fun hmay => ?_, fun hmay => ?_⟩⟩, fun rel v hb hp => ?_, fun hb => ?_, fun t h => ⟨_, exec_ppsInEdge_off h, rfl⟩, fun t hfw hon =>
    ⟨fun hg => ⟨_, exec_ppsInEdge_glitch hfw hon hg, rfl⟩, fun hg hno => ⟨_, exec_ppsInEdge_measured hfw hon hg, ppsMeasured_seen hno⟩,
      fun hg hlead hcfg hwin => ⟨fun hlo hhi => ⟨_, exec_ppsInEdge_measured hfw hon hg, ?_⟩, fun hr hlim => ⟨_, exec_ppsInEdge_measured hfw hon hg, ?_⟩,
        fun hr hl hlim hs => ⟨_, exec_ppsInEdge_measured hfw hon hg, ?_⟩⟩⟩, fun hfw hon => ⟨fun hno => ?_, fun hlead hsrc => ?_⟩,
    fun hfw hon hlow => ⟨fun hsec => ?_, fun hsec => ?_⟩, fun hfw hhigh => ?_, fun hlow => ?_, fun msg hno => ?_,
    fun gm hfw hlead hrole hport => ⟨_, exec_ptpMessage_announce hfw hlead hrole hport, rfl⟩, fun off delay hfw hlead hrole hport =>
      ⟨_, exec_ptpMessage_offset hfw hlead hrole hport, ?_⟩, fun port hfw hlead hport => ⟨fun hst => ?_, fun hst hsrc => ?_, fun h8 h9 => ?_⟩,
    fun port hno => ?_, fun port hmaster => ?_, fun hfw hlead hwin => ?_, fun hwin => ?_, fun hfw hlead hwin => ?_, fun hlead => ?_,
    fun port hfw hlead hwin hport => ⟨fun hst => ?_, fun h8 h9 => ?_⟩⟩
  · obtain ⟨ht, hsched, hfrac, -⟩ := applyStep_alm (m := almMod (modOf s sl) (fun x => { x with sched := none })) (d := d) (trig := g)
    refine ⟨_, becomes_of (exec_timeStepApply sl s) (by simp only [hs]; exact if_neg (by simp [hp, hge])), ht, hsched, hfrac, fun hd => ?_, fun hd hfw hlead => ?_⟩
    · obtain ⟨halm, htask, -⟩ := applyStep_facts (m := almMod (modOf s sl) (fun x => { x with sched := none })) (trig := g) hd
      rw [halm]
      exact ⟨rfl, rfl, htask⟩
    · exact (applyStep_facts (m := almMod (modOf s sl) (fun x => { x with sched := none })) (trig := g) hd).2.2 hfw hlead
  · exact idle_of (exec_timeStepApply sl s) (by simp only [hs]; exact if_pos (by simp [hge]))
  · exact idle_of (exec_timeStepApply sl s) (by simp only [hs])
  · exact becomes_of (exec_almCapture sl true s) (if_pos (by simp [hup]))
  · exact idle_of (exec_almCapture sl false s) (if_neg (by simp))
  · exact idle_of (exec_almCapture sl true s) (if_neg (by simp [hup]))
  · exact idle_of (exec_almStep sl v s) (if_pos (by rcases h with h | h <;> simp only [hup, h] <;> simp [h]))
  · exact becomes_of (exec_almStep sl v s) ((if_neg (by simp only [hup, hk, hstep]; decide)).trans (if_pos hmay))
  · exact becomes_of (exec_almStep sl v s) ((if_neg (by simp only [hup, hk, hstep]; decide)).trans (if_neg (by simp [hmay])))
  · obtain ⟨ht, -, -, hb'⟩ := applyStep_alm (m := almMod (modOf s sl) (fun x => { x with bar0Step := none }))
      (d := if rel then v else v - now (modOf s sl)) (trig := 0)
    refine ⟨_, becomes_of (exec_bar0StepLand sl s) (by simp only [hb]; exact if_neg (by simp [hp])), ?_, hb'⟩
    rw [ht]
    cases rel
    · exact add_sub_cancel (modOf s sl).alm.t v
    · rfl
  · exact idle_of (exec_bar0StepLand sl s) (by simp only [hb])
  · rw [ppsMeasured_far hlead hcfg hwin hlo hhi]
    exact ⟨rfl, rfl, rfl, rfl, rfl⟩
  · rw [ppsMeasured_near hlead hcfg hwin hr]
    obtain ⟨a, l, halm⟩ := servo_slews (m := ppsSeen (modOf s sl) t) (p := modOf s (otherSlot sl)) (f := Config.freeValue s.fresh)
      (off := ((t.toNat % 1000000000 : Nat) : Int)) (hlim.imp id (by rw [Int.natAbs_natCast]; exact id))
    have hsource : cfgCode (ppsSeen (modOf s sl) t) = 3 := by simp [cfgCode, ppsSeen, hcfg]
    rw [halm]
    exact ⟨hsource, rfl, rfl, rfl, rfl⟩
  · rw [ppsMeasured_near hlead hcfg hwin hr]
    have halm := servo_steps (m := ppsSeen (modOf s sl) t) (p := modOf s (otherSlot sl)) (f := Config.freeValue s.fresh)
      (off := ((t.toNat % 1000000000 : Nat) : Int)) hl (by rw [Int.natAbs_natCast]; exact hlim) hs
    have hsource : cfgCode (ppsSeen (modOf s sl) t) = 3 := by simp [cfgCode, ppsSeen, hcfg]
    rw [halm, w64_unsigned_neg]
    exact ⟨hsource, rfl, rfl, rfl, _, rfl, fun hnow => stepInstant_grid hnow⟩
  · exact becomes_of (exec_ppsInMissing sl s) ((if_neg (by simp [hfw, hon])).trans (if_neg (by rcases hno with h | h <;> simp [h])))
  · obtain ⟨a, l, halm⟩ := holdover_alm (m := almMod (modOf s sl) (fun x => { x with ppsPresent := false }))
    refine ⟨_, becomes_of (exec_ppsInMissing sl s) ((if_neg (by simp [hfw, hon])).trans (if_pos (by simp [hlead, hsrc]))), ?_⟩
    rw [halm]
    exact ⟨rfl, rfl, rfl, rfl⟩
  · exact ⟨_, becomes_of (exec_ppsOutRise sl s) (if_pos (by simp [hfw, hon, hlow, hsec])), rfl, rfl⟩
  · exact idle_of (exec_ppsOutRise sl s) (if_neg (by simp [Nat.not_lt.2 hsec]))
  · exact ⟨_, becomes_of (exec_ppsOutFall sl s) ((if_pos hfw).trans (if_pos hhigh)), rfl, rfl⟩
  · refine idle_of (exec_ppsOutFall sl s) ?_
    have hsame : ppsLow (modOf s sl) = modOf s sl := if_neg (by simp [hlow])
    rw [hsame, ite_self]
  · exact ⟨_, free_of_pair (exec_ptpMessageReceive sl msg s) (if_pos (by rcases hno with h | h | h <;> simp [h])), rfl⟩
  · obtain ⟨hsrc, hlock, hoff, hp2, hdelay⟩ := servo_keeps (m := ptpMeasured (modOf s sl) 2 off delay) (p := modOf s (otherSlot sl)) (off := off)
      (f := Config.freeValue s.fresh)
    split
    · next h =>
      refine ⟨hp2, hdelay, hoff, fun hc _ => ⟨hsrc.trans ?_, hlock⟩, fun hc => absurd h.1 hc⟩
      simp [cfgCode, ptpMeasured, setPort, hc]
    · next h => exact ⟨rfl, rfl, rfl, fun hc hw => absurd ⟨hc, by simp [hw]⟩ h, fun _ => ⟨rfl, rfl⟩⟩
  · exact becomes_of (exec_ptpAnnounceTimeout sl port s) ((if_neg (by rcases hport with rfl | rfl <;> simp [hfw, hlead, hst])).trans
      (if_neg (by simp [hst])))
  · obtain ⟨a, l, halm⟩ := holdover_alm (m := setPort (modOf s sl) port (if (modOf s sl).alm.role = 3 then 6 else 4))
    refine ⟨_, becomes_of (exec_ptpAnnounceTimeout sl port s) ((if_neg (by rcases hport with rfl | rfl <;> simp [hfw, hlead, hst])).trans
      (if_pos (by simp [hst, hsrc]))), ?_, ?_, ?_⟩
    · rw [halm]
    · rw [halm]
    · have hport := portState_setPort (m := modOf s sl) (port := port) (if (modOf s sl).alm.role = 3 then 6 else 4)
      refine Eq.trans ?_ hport
      unfold portState
      rw [halm]
  · exact idle_of (exec_ptpAnnounceTimeout sl port s) (if_pos (by simp [h8, h9]))
  · exact idle_of (exec_hostPtpSyncSend sl port s) (if_pos (by simp [hno]))
  · obtain ⟨hfw, hlead⟩ := hostMaster_lead hmaster
    have hout := syncSent_out (port := port) hfw hlead
    refine ⟨syncSent (modOf s sl) port, becomes_of (exec_hostPtpSyncSend sl port s) (if_neg (by simp [hmaster])), ?_, fun htwo _ => ?_, fun htwo hkept => ?_⟩
    · rw [hout]
      split <;> simp
    · rw [hout, if_neg (by simp [htwo])]
    · rw [hout, if_pos (by simp [htwo, hkept])]
  · exact becomes_of (exec_holdoverEnd sl s) (if_neg (by simp [hfw, hlead, hwin]))
  · exact idle_of (exec_holdoverEnd sl s) (if_pos (by simp [hwin]))
  · exact ⟨_, becomes_of (exec_ptpAnnounceSend sl s) (if_neg (by simp [hfw, hlead, hwin])), _, rfl, fun e he => announce_port he⟩
  · exact idle_of (exec_ptpAnnounceSend sl s) (if_pos (by simp [hlead]))
  · refine ⟨_, becomes_of (exec_ptpDelayReqSend sl port s) (if_neg (by rcases hport with rfl | rfl <;> rcases hst with h | h <;> simp [hfw, hlead, hwin, h])), ?_⟩
    simp
  · exact idle_of (exec_ptpDelayReqSend sl port s) (if_pos (by simp [h8, h9]))

end Sys2Proof.Machine

/-! PROOF. An IN frame of a bus, and a drop table that holds a drop twice (R251, R267). -/

namespace Sys2Proof.Machine
open Sys2Proof Sys2Proof.Bits Sys2Proof.Safety

/-- What a module makes of an event is one module. -/
theorem Becomes.unique {i : Instr} {s : State} {sl : Slot} {m m' : Module} (h : Becomes i s sl m) (h' : Becomes i s sl m') : m = m' := by
  have hstate := Host.Outcome.next.inj (h.symm.trans h')
  cases sl
  · exact congrArg State.modA hstate
  · exact congrArg State.modB hstate

/-- A gen-1 drop of bus 0 with an input length. -/
def busDrop (inLen : Nat) : DropCfg := 
  { kind := .bus, segment := 0, position := 0, outLen := 0, inLen := inLen, wIn := 1, watchdog := 1000, map := [] }

/-- A lead in RUN with bus 0 on, whose table holds two drops of one ID, the second with a longer input. -/
def twiceBus : Module :=
  { slot := .a, boot := { state := .run }, pair := { role := .lead }
    field := { buses := [{ nominal := 1 }], drops := [(0x80, busDrop 0), (0x80, busDrop 1)] } }

def twiceBusDomain : State := { State.reset with modA := twiceBus }

/-- The IN frame of node 0, with one byte of input. -/
def inOne : CanFrame := { id := 0x200, data := zeros 7 }

/-- Both entries hold what the first entry's input length takes. -/
theorem canIn_twice : Becomes (.canInReceive .a 0 inOne) twiceBusDomain .a
    (dropMod twiceBus 0x80 (fun d => { d with held := some { key := 0, time := now twiceBus, data := [0, 0] } })) :=
  becomes_of_pair (exec_canInReceive .a 0 inOne twiceBusDomain) rfl

/-- The lengths of the inputs that the drops of a module hold. -/
def heldLengths (m : Module) : List (Option Nat) := m.field.drops.map (fun x => x.2.held.map (fun h => h.data.length))

/-- Refutes O41: the inputs of an IN frame are cut to the length of the drop that the node names, for each entry of its ID, and the
statement cuts them to the length of each entry. -/
theorem not_busEvents : ¬ Obligations.BusEvents := by
  unfold Obligations.BusEvents
  intro h
  obtain ⟨-, -, -, -, -, -, hnode, -⟩ := h twiceBusDomain .a 0 { nominal := 1 }
  obtain ⟨hin, -⟩ := hnode inOne 0 (busDrop 0) rfl (by decide) rfl (by decide) rfl rfl rfl
  have hsame := congrArg heldLengths (Becomes.unique canIn_twice (hin rfl (by decide) rfl rfl))
  exact absurd hsame (by decide)

end Sys2Proof.Machine

/-! PROOF. A REPLY on a line, and a drop table that holds a drop twice (R260, R267). -/

namespace Sys2Proof.Machine
open Sys2Proof Sys2Proof.Bits Sys2Proof.Safety

/-- A gen-0 drop of line 0 that is ONLINE, with an input length. -/
def lineStation (inLen : Nat) : DropCfg :=
  { kind := .line, segment := 0, position := 0, outLen := 0, inLen := inLen, wIn := 1, watchdog := 1000, map := [], st := .online }

/-- Line 0, its POLL of address 0 sent. -/
def polledLine : Line := { rate := 1, awaiting := some (0x10, 0) }

/-- A lead in RUN with that line, whose table holds two drops of one ID, the second with a longer input. -/
def twiceLine : Module :=
  { slot := .a, boot := { state := .run }, pair := { role := .lead }
    field := { lines := [polledLine], drops := [(0, lineStation 0), (0, lineStation 1)] } }

def twiceLineDomain : State := { State.reset with modA := twiceLine }

/-- The REPLY of address 0, with one byte of input. -/
def replyOne : Bytes := lineCrc ([0x80, 0x11, 5] ++ zeros 5)

theorem replyOne_parse : lineParse replyOne = some (0x80, 0x11, zeros 5) := by decide +kernel

/-- The line after the reply. -/
def repliedLine : Module :=
  lineMod (lineMod twiceLine 0 (fun l => { l with startSeen := true })) 0 (fun l => { l with awaiting := none })

/-- Both entries hold what the first entry's input length takes. -/
theorem lineReply_twice : Becomes (.lineReplyReceive .a 0 replyOne true) twiceLineDomain .a
    (dropMod repliedLine 0 (fun d => { d with held := some { key := 0, time := now twiceLine, data := [0, 0] } })) := by
  refine becomes_of_pair (exec_lineReplyReceive .a 0 replyOne true twiceLineDomain) ?_
  simp only [replyOne_parse, if_true]
  rfl

/-- Refutes O42: the inputs of a REPLY are cut to the length of the drop that the address names, for each entry of its ID, and the
statement cuts them to the length of each entry. -/
theorem not_lineEvents : ¬ Obligations.LineEvents := by
  unfold Obligations.LineEvents
  intro h
  obtain ⟨-, -, -, -, -, -, hreply, -⟩ := h twiceLineDomain .a 0 polledLine
  obtain ⟨hin, -⟩ := hreply replyOne 0x80 0x11 (zeros 5) 0x10 (lineStation 0) rfl (by decide) replyOne_parse (by decide) rfl rfl rfl rfl
  have hsame := congrArg heldLengths (Becomes.unique lineReply_twice (hin rfl rfl (by decide) (by decide) rfl))
  exact absurd hsame (by decide)

end Sys2Proof.Machine

/-! PROOF. What a module makes of the messages of the sync link and of import datagrams (R76, R78, R119, R131, R134, R150, R287, R301). -/

namespace Sys2Proof.Machine
open Sys2Proof Sys2Proof.Bits Sys2Proof.Safety

/-! ### Input agreement -/

section
variable {s : State} {sl : Slot} {m' : Module} {o : OpenStep}

theorem closeAgreement_open (h : m'.exec.agreeing = some o) (ha : agreed m' o = false) :
    closeAgreement sl (withMod s sl m') = withMod s sl m' := by
  unfold closeAgreement
  simp only [withMod_same, h, ha]
  exact if_neg (by decide)

theorem closeAgreement_agreed (h : m'.exec.agreeing = some o) (ha : agreed m' o = true) :
    closeAgreement sl (withMod s sl m') = resumeSteps sl (withMod s sl (inputCommit o m')) := by
  unfold closeAgreement
  simp only [withMod_same, withMod_withMod, h, ha, if_true]

/-- A module that takes part in the agreement of steps (R131). -/
theorem agrees_not (hs : serving m' = true) (hin : inStepWith m' p = true) : ¬ (!serving m' || !inStepWith m' p) = true := by
  simp [hs, hin]

theorem takePartnerSummary_idle {S : W64} {l : List SumEntry}
    (h : serving (modOf s sl) = false ∨ inStepWith (modOf s sl) (modOf s (otherSlot sl)) = false) : takePartnerSummary sl S l s = s :=
  if_pos (by rcases h with h | h <;> simp [h])

theorem takePartnerContent_idle {S : W64} {l : List Content}
    (h : serving (modOf s sl) = false ∨ inStepWith (modOf s sl) (modOf s (otherSlot sl)) = false) : takePartnerContent sl S l s = s :=
  if_pos (by rcases h with h | h <;> simp [h])

variable (hs : serving (modOf s sl) = true) (hin : inStepWith (modOf s sl) (modOf s (otherSlot sl)) = true)
include hs hin

theorem takePartnerSummary_early {S : W64} {l : List SumEntry} (hopen : (modOf s sl).exec.agreeing = none)
    (hfuture : 0 < almDiff S (modOf s sl).exec.lastStep) : takePartnerSummary sl S l s =
      withMod s sl (xMod (modOf s sl) (fun x => { x with early := x.early.filter (fun y => y.1 != S) ++ [(S, l)] })) := by
  unfold takePartnerSummary
  refine (if_neg (agrees_not hs hin)).trans ?_
  rw [hopen]
  exact if_pos (by simp [hfuture])

theorem takePartnerSummary_taken {l : List SumEntry} (hopen : (modOf s sl).exec.agreeing = some o) (hnone : o.partner = none) :
    takePartnerSummary sl o.instant l s = closeAgreement sl (withMod s sl (takeSummary (modOf s sl) o l).1) := by
  unfold takePartnerSummary
  refine (if_neg (agrees_not hs hin)).trans ?_
  rw [hopen]
  exact (if_pos rfl).trans (if_neg (by simp [hnone]))

theorem takePartnerContent_taken {l : List Content} (hopen : (modOf s sl).exec.agreeing = some o) :
    takePartnerContent sl o.instant l s =
      closeAgreement sl (withMod s sl (xMod (modOf s sl) (fun x => { x with agreeing := some { o with got := o.got ++ l } }))) := by
  unfold takePartnerContent
  refine (if_neg (agrees_not hs hin)).trans ?_
  rw [hopen]
  exact if_pos rfl

end

theorem takeSummary_agreeing (m : Module) (o : OpenStep) (l : List SumEntry) :
    (takeSummary m o l).1.exec.agreeing = some { o with partner := some l } := rfl

theorem takeSummary_snd (m : Module) (o : OpenStep) (l : List SumEntry) : (takeSummary m o l).2 = { o with partner := some l } := rfl

/-! ### Checkpoints -/

section
variable {m p : Module} {t : Nat}

theorem reportOne_exec (a : Module) (sub : Nat) (x : Subscription) (h : W32) (q : W16) (v T : W64) :
    (reportOne a sub x h q v T).exec = a.exec := by
  unfold reportOne
  dsimp only
  split <;> rfl

theorem reportSub_exec (old : Table PointRec) (a : Module) (sub : Nat) : (reportSub old a sub).exec = a.exec := by
  unfold reportSub
  split
  · rfl
  · exact foldl_keeps (·.exec) _ (fun a h => by
      dsimp only
      split
      · exact (apply_ite Module.exec _ _ _).trans (by rw [reportOne_exec, ite_self])
      · rfl) _ a

theorem commit_exec (m' : Module) : (commit m m').exec = m'.exec := by
  unfold commit reportChanges
  split
  · exact foldl_keeps (·.exec) _ (reportSub_exec m.store.points) _ m'
  · rfl

theorem applySet_exec (S : W64) (table : Bytes) (ws : List WEnt) : (applySet m t S table ws).exec = m.exec :=
  foldl_keeps (·.exec) _ (fun a e => by split <;> rfl) ws m

theorem completeLog_exec (start S : W64) (ws : List WEnt) (own : Bool) : (completeLog m t start S ws own).exec = m.exec := by
  unfold completeLog
  dsimp only
  split
  · rfl
  · split <;> rfl

theorem releaseSo_exec (table : Bytes) : (releaseSo m t table).exec = m.exec :=
  foldl_keeps (·.exec) _ (fun a c => by dsimp only; split <;> rfl) _ m

theorem driveTask_exec (fresh : Bool) : (driveTask m t fresh).exec = m.exec :=
  foldl_keeps (·.exec) _ (fun a b => by
    dsimp only
    split
    · rw [refreshOut_exec]
      split
      · rw [vigilRestart_exec, outChMod_exec]
      · rw [outChMod_exec]
    · rfl) _ m

/-- What the lead's counting of boundaries leaves of a task (R287). -/
theorem alignTask_keeps (last : W64) (q k : Task) : (alignTask last q k).1.lastReleased = k.lastReleased ∧ (alignTask last q k).1.outs = k.outs
    ∧ (alignTask last q k).1.fresh = k.fresh := by
  unfold alignTask
  dsimp only
  split <;> exact ⟨rfl, rfl, rfl⟩

/-- A task as its counterpart at the lead counts it, where there is one. -/
def alignedTask (m p : Module) (t : Nat) (k : Task) : Task :=
  (match taskOf p t with
    | some q => alignTask m.exec.lastStep q k
    | none => (k, false)).1

theorem taskOf_alignStreams {k q : Task} (hk : taskOf m t = some k) (hq : taskOf p t = some q) :
    taskOf (alignStreams m p) t = some (alignTask m.exec.lastStep q k).1 := by
  unfold alignStreams taskOf
  dsimp only
  rw [List.map_map]
  refine (tget_mapVals m.exec.tasks (alignedTask m p) t).trans ?_
  rw [taskOf] at hk
  rw [hk, Option.map_some, alignedTask, hq]

/-- What the new points drive changes no task. -/
theorem taskOf_outputs {k : Task} (table : Bytes) (fresh : Bool) (h : taskOf m t = some k) :
    taskOf (driveTask (copyConns (releaseSo m t table) p t) t fresh) t = some k := by
  rw [taskOf, driveTask_exec]
  exact (congrArg (fun x : Exec => tget x.tasks t) (releaseSo_exec _)).trans h

/-- What a checkpoint carries over from the lead's task (R134). -/
def checkpointed (q k : Task) : Task :=
  { k with lastReleased := q.lastReleased, outs := q.outs, execLast := q.execLast, execMax := q.execMax, fresh := true }

theorem takeCheckpoint_task {S : W64} {ws : List WEnt} {k q : Task} (hs : serving m = true) (hlink : linked m p = true) (hlead : isLead m = false)
    (hwarm : warmShadow m = true) (hk : taskOf m t = some k) (hq : taskOf p t = some q) : ∃ k', taskOf (takeCheckpoint t S ws m p) t = some k'
      ∧ k'.lastReleased = q.lastReleased ∧ k'.outs = q.outs ∧ k'.fresh = true := by
  have hgo : ¬ (!serving m || !linked m p || isLead m || !warmShadow m) = true := by simp [hs, hlink, hlead, hwarm]
  unfold takeCheckpoint
  rw [if_neg hgo, hk, hq]
  dsimp only
  generalize hm1 : commit m (applySet m t S (partIn k (k.active.getD 0) 1).bytes ws) = m1
  have hk1 : taskOf (completeLog m1 t (q.lastReleased.getD 0) S ws false) t = some k := by
    rw [taskOf, completeLog_exec, ← hm1, commit_exec, applySet_exec]
    exact hk
  have hk2 := taskOf_taskMod _ _ (checkpointed q) hk1
  exact ⟨_, (congrArg (fun x : Exec => tget x.tasks t) (refresh_exec _)).trans (taskOf_alignStreams (taskOf_outputs _ _ hk2) hq), alignTask_keeps ..⟩

end
/-! ### The journal -/

section
variable {m p : Module} {qp : Nat} {t : W64}

/-- The journal with an entry of the lead at its end (R76). -/
def entryCopied (m : Module) (qp : Nat) (d : Desc) (req : Bytes) : Module :=
  mailMod m (fun q => { q with journal := q.journal ++ [{ qp := qp, d := d, req := req }] })

theorem journalFind_entryCopied {d : Desc} {req : Bytes} (h : journalHas m qp d.ticket = false) :
    journalFind (entryCopied m qp d req) qp d.ticket = some { qp := qp, d := d, req := req } := by
  rw [journalHas, Option.isSome_eq_false_iff, Option.isNone_iff_eq_none, journalFind] at h
  unfold journalFind entryCopied mailMod
  dsimp only
  rw [List.find?_append, h]
  simp

theorem takeEntry_follows {d : Desc} {req : Bytes} {step : Option W64} (hfw : fw m = true) (hlink : linked m p = true) (hlead : isLead m = false)
    (hin : m.pair.inSet = true) (hnew : journalHas m qp d.ticket = false) : takeEntry qp d req step m p = match step with
      | none => emit (entryCopied m qp d req) (.sync (.journalAck qp d.ticket))
      | some due =>
        let order := match journalFind p qp d.ticket with
          | some e => e.order
          | none => m.mail.nextOrder
        let m2 := journalMod (entryCopied m qp d req) qp d.ticket (fun e => { e with accepted := true, order := order, step := some due })
        let m3 := mailMod m2 (fun q => { q with nextOrder := max q.nextOrder (order + 1) })
        if (ticketFind m3 qp d.ticket).isSome then m3 else ticketPut m3 qp { ticket := d.ticket, stage := 2, time := now p } := by
  have hcopy : (if journalHas m qp d.ticket = true then m else entryCopied m qp d req) = entryCopied m qp d req := if_neg (by simp [hnew])
  unfold takeEntry
  refine (if_neg (by simp [hfw, hlink, hlead, hin])).trans ?_
  cases step with
  | none => exact congrArg (fun x => emit x (.sync (.journalAck qp d.ticket))) hcopy
  | some due =>
    rw [entryCopied] at hcopy
    dsimp only
    rw [hcopy]
    rfl

theorem takeEntry_accepts {d : Desc} {req : Bytes} {step : W64} (hfw : fw m = true) (hlink : linked m p = true) (hlead : isLead m = false)
    (hin : m.pair.inSet = true) (hnew : journalHas m qp d.ticket = false) : ∃ e, journalFind (takeEntry qp d req (some step) m p) qp d.ticket = some e
      ∧ e.accepted = true ∧ e.step = some step ∧ e.req = req := by
  rw [takeEntry_follows hfw hlink hlead hin hnew]
  dsimp only
  generalize (match journalFind p qp d.ticket with | some e => e.order | none => m.mail.nextOrder) = order
  have hfind := journalFind_journalMod (m := entryCopied m qp d req) (qp := qp) (t := d.ticket) qp d.ticket
    (fun e => { e with accepted := true, order := order, step := some step }) (fun y => ⟨rfl, rfl⟩)
  rw [journalFind_entryCopied hnew, Option.map_some, if_pos (by simp)] at hfind
  refine ⟨{ qp := qp, d := d, req := req, accepted := true, order := order, step := some step }, ?_, rfl, rfl, rfl⟩
  split <;> exact hfind

/-- What the retirement of an entry leaves of the journal (R78). -/
theorem journalRetire_journal : (journalRetire m qp t).mail.journal = m.mail.journal.filter (fun e => !(e.qp == qp && e.d.ticket == t)) :=
  checkStall_mail_journal _

theorem takeFinal_journal (f : Nat × W64) :
    (takeFinal p m f).mail.journal = m.mail.journal.filter (fun e => !(e.qp == f.1 && e.d.ticket == f.2)) := by
  unfold takeFinal
  dsimp only
  rw [journalRetire_journal]
  repeat' split
  all_goals rfl

theorem journalHas_iff : journalHas m qp t = false ↔ ∀ e ∈ m.mail.journal, ¬ (e.qp = qp ∧ e.d.ticket = t) := by
  rw [journalHas, Option.isSome_eq_false_iff, Option.isNone_iff_eq_none, journalFind, List.find?_eq_none]
  simp

theorem takeFinals_journal (l : List (Nat × W64)) : ∀ e ∈ (l.foldl (takeFinal p) m).mail.journal, e ∈ m.mail.journal ∧ (e.qp, e.d.ticket) ∉ l := by
  induction l generalizing m with
  | nil => exact fun e he => ⟨he, List.not_mem_nil⟩
  | cons f l ih =>
    intro e he
    obtain ⟨hm, hl⟩ := ih e he
    rw [takeFinal_journal, List.mem_filter] at hm
    refine ⟨hm.1, fun hmem => (List.mem_cons.1 hmem).elim (fun hf => ?_) hl⟩
    subst hf
    exact absurd hm.2 (by simp)

end

/-! ### Time from the lead -/

section
variable {m p : Module} {d : W64} {trig : Nat}

theorem applyStep_pair : (applyStep m d trig).pair = m.pair := by
  by_cases hd : d = 0
  · rw [hd, applyStep_zero]
  · rw [applyStep_moves hd]
    split
    · rw [routeEvent_pair]; rfl
    · rw [queueEvent_pair]; rfl

theorem applyStep_sources : (applyStep m d trig).alm.source = m.alm.source ∧ (applyStep m d trig).alm.locked = m.alm.locked
    ∧ (applyStep m d trig).alm.alignDue = m.alm.alignDue := by
  by_cases hd : d = 0
  · rw [hd, applyStep_zero]
    exact ⟨rfl, rfl, rfl⟩
  · rw [(applyStep_facts hd).1]
    exact ⟨rfl, rfl, rfl⟩

/-- A shadow that takes the time of the lead (R301). -/
def timeTaken (m : Module) (time : W64) : Module :=
  almMod { m with pair := { m.pair with role := .shadow } } (fun x => { x with source := 1, locked := true, partnerOffset := almDiff (now m) time })

/-- It aligns once, and from then on follows by its rate (R301). -/
def timeFollowed (m : Module) (time free : W64) : Module :=
  if m.alm.alignDue
    then applyStep (almMod (timeTaken m time) (fun x => { x with alignDue := false, partnerOffset := 0 })) (time - now m) 3
    else setAdj (timeTaken m time) (servoAdj (timeTaken m time) free)

theorem timeFollowed_facts (time free : W64) : (timeFollowed m time free).pair.role = .shadow ∧ (timeFollowed m time free).alm.source = 1
    ∧ (timeFollowed m time free).alm.locked = true
    ∧ (m.alm.alignDue = false → (timeFollowed m time free).alm.t = m.alm.t ∧ (timeFollowed m time free).alm.partnerOffset = almDiff (now m) time)
    ∧ (m.alm.alignDue = true → (timeFollowed m time free).alm.t = time ∧ (timeFollowed m time free).alm.alignDue = false) := by
  unfold timeFollowed
  split
  · next h =>
    obtain ⟨hsrc, hlock, hdue⟩ := applyStep_sources (m := almMod (timeTaken m time) (fun x => { x with alignDue := false, partnerOffset := 0 }))
      (d := time - now m) (trig := 3)
    refine ⟨congrArg Pair.role applyStep_pair, hsrc, hlock, fun hno => absurd h (by simp [hno]), fun _ => ⟨applyStep_alm.1.trans ?_, hdue⟩⟩
    exact add_sub_cancel m.alm.t time
  · next h => exact ⟨rfl, rfl, rfl, fun _ => ⟨rfl, rfl⟩, fun hdue => absurd hdue h⟩

theorem exec_syncTimeReceive_follows {s : State} {sl : Slot} {time : W64} {adj : Int} (hs : serving (modOf s sl) = true)
    (hlink : linked (modOf s sl) (modOf s (otherSlot sl)) = true) (hlead : isLead (modOf s sl) = false) (hp : isLead (modOf s (otherSlot sl)) = true) :
    exec (.syncTimeReceive sl time adj) s = .next
      { withMod s sl (anchorIfChanged (modOf s sl) (timeFollowed (modOf s sl) time (Config.freeValue s.fresh))) with fresh := s.fresh + 1 } :=
  free_of_pair (exec_syncTimeReceive sl time adj s) (if_neg (by simp [hs, hlink, hlead, hp]))

end

/-! ### Trims, datagrams and retained points -/

theorem finishTrim_trim (m : Module) (t : Trim) (average : Int) (spread : Nat) : (finishTrim m t average spread).lio.trim = none := by
  unfold finishTrim
  dsimp only
  split
  · rfl
  · split <;> exact congrArg Lio.trim (finish_lio ..)

theorem takeDatagram_next {m p : Module} {dg : PubDgram} {id : Nat} {x : Import} (hs : serving m = true) (hlead : isLead m = true)
    (hof : importOf m dg = some (id, x)) (hgood : dg.crcGood = true) (hseq : restartsSeq x dg = false) :
    takeDatagram dg m p = (importMod m id (fun y => assemble y dg), p) := by
  unfold takeDatagram
  refine (if_neg (by simp [hs, hlead])).trans ?_
  rw [hof]
  exact (if_neg (by simp [hgood])).trans (if_neg (by simp [hseq]))

/-- No cycle waits for space: applying the log seals nothing (R328). -/
theorem sealWaiting_none {m p : Module} {l : List (Nat × Task)} (h : ∀ x ∈ l, ∀ c, x.2.cycle = some c → c.waitsLog = false) :
    l.foldl (fun a x => match x.2.cycle with
      | some c => if c.waitsLog then sealCycle a p x.1 else a
      | none => a) m = m := by
  induction l generalizing m with
  | nil => rfl
  | cons x l ih =>
    rw [List.foldl_cons]
    refine Eq.trans ?_ (ih (fun y hy => h y (List.mem_cons_of_mem _ hy)))
    congr 1
    split
    · next c hc => exact if_neg (by simp [h x List.mem_cons_self c hc])
    · rfl

/-! ### The messages, by what they carry -/

section
variable {s : State} {sl : Slot}

theorem summary_events (S : W64) (l : List SumEntry) (l' : List Content) (o : OpenStep) (hs : serving (modOf s sl) = true)
    (hin : inStepWith (modOf s sl) (modOf s (otherSlot sl)) = true) (hopen : (modOf s sl).exec.agreeing = some o) (hS : o.instant = S) :
    (o.partner = none → agreed (takeSummary (modOf s sl) o l).1 (takeSummary (modOf s sl) o l).2 = false →
      Becomes (.syncSummaryReceive sl S l) s sl (takeSummary (modOf s sl) o l).1)
    ∧ (agreed (xMod (modOf s sl) (fun x => { x with agreeing := some { o with got := o.got ++ l' } })) { o with got := o.got ++ l' } = false →
      Becomes (.syncContentReceive sl S l') s sl (xMod (modOf s sl) (fun x => { x with agreeing := some { o with got := o.got ++ l' } })))
    ∧ (agreed (xMod (modOf s sl) (fun x => { x with agreeing := some { o with got := o.got ++ l' } })) { o with got := o.got ++ l' } = true →
      exec (.syncContentReceive sl S l') s = .next (resumeSteps sl (withMod s sl (inputCommit { o with got := o.got ++ l' }
        (xMod (modOf s sl) (fun x => { x with agreeing := some { o with got := o.got ++ l' } })))))) := by
  subst hS
  refine ⟨fun hnone ha => ?_, fun ha => ?_, fun ha => ?_⟩
  · exact congrArg Host.Outcome.next ((takePartnerSummary_taken hs hin hopen hnone).trans (closeAgreement_open (takeSummary_agreeing ..) ha))
  · exact congrArg Host.Outcome.next ((takePartnerContent_taken hs hin hopen).trans (closeAgreement_open rfl ha))
  · exact congrArg Host.Outcome.next ((takePartnerContent_taken hs hin hopen).trans (closeAgreement_agreed rfl ha))

theorem writeSet_events (task : Nat) (start : W64) (ws : List WEnt) (k : Task) (c : Cycle) (hs : serving (modOf s sl) = true)
    (hin : inStepWith (modOf s sl) (modOf s (otherSlot sl)) = true) (hk : taskOf (modOf s sl) task = some k) (hc : k.cycle = some c) :
    ((c.start ≠ start ∨ c.restarting = false) → Idle (.syncWriteSetReceive sl task start ws) s)
    ∧ (c.start = start → c.restarting = true → c.follows = true →
      Becomes (.syncWriteSetReceive sl task start ws) s sl (setCycle (modOf s sl) task { c with partnerWs := some ws })) := by
  refine ⟨fun h => ?_, fun hstart hre hfol => ?_⟩
  · refine idle_of_pair (exec_syncWriteSetReceive sl task start ws s) ?_
    unfold takeWriteSet
    refine (if_neg (agrees_not hs hin)).trans ?_
    simp only [hk, hc]
    exact if_pos h
  · refine becomes_of_pair (exec_syncWriteSetReceive sl task start ws s) ?_
    unfold takeWriteSet
    refine (if_neg (agrees_not hs hin)).trans ?_
    simp only [hk, hc]
    exact (if_neg (by simp [hstart, hre])).trans (if_pos hfol)

end

/-- Settles O37. -/
theorem syncEvents : Obligations.SyncEvents := by
  unfold Obligations.SyncEvents
  intro s sl
  dsimp only
  refine ⟨fun S l l' h => ⟨?_, ?_⟩, fun S l hs hin hopen hfut => ?_, fun S l o hs hin hopen hS hnone => ⟨?_, rfl⟩, fun S l o hs hin hopen hS => ⟨?_, ?_⟩,
    fun task start t digest hs hlink => ?_, fun task start ws k c hs hin hk hc => writeSet_events task start ws k c hs hin hk hc,
    fun task S ws k q hs hlink hlead hwarm hk hq => ?_, fun task S ws h => ?_, fun qp d req hf hin hnew => ⟨?_, fun step => ?_⟩,
    fun qp t hfw hlink hlead => ?_, fun l hf => ⟨_, becomes_of_pair (exec_syncFinalReportReceive sl l s) (if_neg ?_), fun f hf => ?_⟩, fun r hf => ?_,
    fun ev hfw hlink hlead => ?_, fun ev hlead => ?_, fun task c hf => ?_, fun drop v S s0 mac hf => ?_, fun seg f hs hlink hr => ?_, fun seg f hs => ?_,
    fun drop seq hfw hlink hlead => ?_, fun drop seq hlead => ?_, fun ch avg spread t ht hs hlink hlead hrem hch => ⟨?_, finishTrim_trim ..⟩,
    fun ch avg spread ht => ?_, fun a d hf => ⟨_, becomes_of_pair (exec_syncStepAnnounceReceive sl a d s) (if_pos ?_), rfl⟩,
    fun t adj hs hlink hlead hp => ⟨_, exec_syncTimeReceive_follows hs hlink hlead hp, ?_⟩, fun hfw hlead hlink => ?_, fun h => ?_,
    fun dg id x hs hlead hof hgood hseq => ?_, fun dg h => ?_, fun task hp hlog => ?_⟩
  · exact congrArg Host.Outcome.next (takePartnerSummary_idle h)
  · exact congrArg Host.Outcome.next (takePartnerContent_idle h)
  · exact congrArg Host.Outcome.next (takePartnerSummary_early hs hin hopen hfut)
  · exact (summary_events S l [] o hs hin hopen hS).1 hnone
  · exact (summary_events S [] l o hs hin hopen hS).2.1
  · exact (summary_events S [] l o hs hin hopen hS).2.2
  · exact becomes_of_pair (exec_syncSealReceive sl task start t digest s) (if_neg (by simp [hs, hlink]))
  · obtain ⟨k', hk', hkeep⟩ := takeCheckpoint_task (S := S) (ws := ws) hs hlink hlead hwarm hk hq
    exact ⟨_, k', becomes_of_pair (exec_syncCheckpointReceive sl task S ws s) rfl, hk', hkeep⟩
  · exact idle_of_pair (exec_syncCheckpointReceive sl task S ws s) (if_pos (by rcases h with h | h | h <;> simp [h]))
  · obtain ⟨hfw, hlink, hlead⟩ := hf
    exact becomes_of_pair (exec_syncJournalEntryReceive sl qp d req none s) (takeEntry_follows hfw hlink hlead hin hnew)
  · obtain ⟨hfw, hlink, hlead⟩ := hf
    obtain ⟨e, he⟩ := takeEntry_accepts (step := step) (req := req) hfw hlink hlead hin hnew
    exact ⟨_, e, becomes_of_pair (exec_syncJournalEntryReceive sl qp d req (some step) s) rfl, he⟩
  · exact becomes_of_pair (exec_syncJournalAckReceive sl qp t s) (if_neg (by simp [hfw, hlink, hlead]))
  · simp [hf.1, hf.2.1, hf.2.2]
  · exact journalHas_iff.2 (fun e he hat => (takeFinals_journal l e he).2 (by rw [hat.1, hat.2]; exact hf))
  · exact becomesBoth_of (exec_syncChronicleMirrorReceive sl r s) (if_neg (by simp [hf.1, hf.2.1, hf.2.2]))
  · exact becomes_of_pair (exec_syncShadowEventReceive sl ev s) (if_pos (by simp [hfw, hlink, hlead]))
  · exact idle_of_pair (exec_syncShadowEventReceive sl ev s) (if_neg (by simp [hlead]))
  · exact becomes_of_pair (exec_syncIcalAnnounceReceive sl task c s) (if_neg (by simp [hf.1, hf.2.1, hf.2.2]))
  · exact becomes_of_pair (exec_syncOnlineAnnounceReceive sl drop v S s0 mac s) (if_neg (by simp [hf.1, hf.2.1, hf.2.2]))
  · exact becomes_of_pair (exec_syncRelayFrameReceive sl seg f s) (if_pos (by simp [hs, hlink, hr]))
  · exact idle_of_pair (exec_syncRelayFrameReceive sl seg f s) (if_neg (by simp [hs]))
  · exact becomes_of_pair (exec_syncAcyAckRelayReceive sl drop seq s) (if_pos (by simp [hfw, hlink, hlead]))
  · exact idle_of_pair (exec_syncAcyAckRelayReceive sl drop seq s) (if_neg (by simp [hlead]))
  · exact becomes_of_pair (exec_syncTrimReportReceive sl ch avg spread s) (by simp only [ht]; exact if_neg (by simp [hs, hlink, hlead, hrem, hch]))
  · exact idle_of_pair (exec_syncTrimReportReceive sl ch avg spread s) (by simp only [ht])
  · simp [hf.1, hf.2.1, hf.2.2]
  · rw [anchorIfChanged_pair, anchorIfChanged_alm]
    exact timeFollowed_facts ..
  · exact becomes_of_pair (exec_partnerTimeSend sl s) (if_pos (by simp [hfw, hlead, hlink]))
  · exact idle_of_pair (exec_partnerTimeSend sl s) (if_neg (by rcases h with h | h | h <;> simp [h]))
  · exact becomesBoth_of (exec_importDatagramReceive sl dg s) (takeDatagram_next hs hlead hof hgood hseq)
  · exact idleBoth_of (exec_importDatagramReceive sl dg s) (if_pos (by rcases h with h | h <;> simp [h]))
  · refine becomes_of_pair (exec_retainedApply sl task s) ((if_neg (by simp [hp])).trans ?_)
    exact sealWaiting_none hlog

end Sys2Proof.Machine

/-! PROOF. The rings of a module: forwarding and splice (R217, R199, R202, R422), the state of a ring (R239, R240) and its lanes (R241). -/

namespace Sys2Proof.Machine
open Sys2Proof Sys2Proof.Bits Sys2Proof.Safety

/-! ### Rings and lanes of a module -/

section
variable {m : Module} {k : Nat} {r : Ring}

theorem ringOf_ringMod (g : Ring → Ring) (j : Nat) : ringOf (ringMod m k g) j = if j = k then (ringOf m j).map g else ringOf m j :=
  getElem?_modNth m.field.rings k j g

theorem ringOf_ringMod_same (g : Ring → Ring) (h : ringOf m k = some r) : ringOf (ringMod m k g) k = some (g r) := by
  rw [ringOf_ringMod, if_pos rfl, h, Option.map_some]

theorem ringOf_congr {m' : Module} (h : m'.field = m.field) (k : Nat) : ringOf m' k = ringOf m k := congrArg (fun x : Field => x.rings[k]?) h

theorem laneOf_laneMod {i : Nat} {l : Lane} (g : Lane → Lane) (h : m.field.lanes[i]? = some l) : (laneMod m i g).field.lanes[i]? = some (g l) := by
  rw [laneMod, getElem?_modNth, if_pos rfl, h, Option.map_some]

end

/-! ### Forwarding -/

section
variable {m : Module} {k : Nat} {r : Ring} {f : Frame}

/-- What an input field of a frame changes of the Glint engine (R198). -/
theorem spliceIn_only (g : Glint) (b : Bytes) (e : SpliceEnt) : ∃ short lits bad,
    spliceIn g b e = { g with fieldShort := short, lits := lits, fieldCrcBad := bad } := by
  unfold spliceIn
  dsimp only
  split
  · exact ⟨_, _, _, rfl⟩
  · split <;> exact ⟨_, _, _, rfl⟩

theorem splicesIn_only (b : Bytes) (es : List SpliceEnt) (g : Glint) : ∃ short lits bad,
    es.foldl (fun a e => spliceIn a b e) g = { g with fieldShort := short, lits := lits, fieldCrcBad := bad } := by
  induction es generalizing g with
  | nil => exact ⟨_, _, _, rfl⟩
  | cons e es ih =>
    obtain ⟨s1, l1, b1, h1⟩ := spliceIn_only g b e
    obtain ⟨s2, l2, b2, h2⟩ := ih (spliceIn g b e)
    exact ⟨s2, l2, b2, by rw [List.foldl_cons, h2, h1]⟩

theorem insertFields_none {b : Bytes} (h : spliceMatch m k (parseFrame b) true = []) : insertFields m k b = (b, 0) := by
  rw [insertFields, h]
  rfl

/-- A frame that no output field names leaves with its PASS bit set and nothing else (R197, R217). -/
theorem passFrame_unnamed (h : spliceMatch m k (parseFrame (setPass m.slot f.bytes)) true = []) : ∃ short lits bad,
    passFrame m k f = departRing (countFcs (gMod m (fun g => { g with fieldShort := short, lits := lits, fieldCrcBad := bad })) k f.fcs) k
      { bytes := setPass m.slot f.bytes, fcs := fcsOut f.fcs } := by
  obtain ⟨short, lits, bad, hg⟩ := splicesIn_only f.bytes (spliceMatch m k (parseFrame f.bytes) false) m.glint
  have hx : insertFields (gMod m (fun g => { g with fieldShort := short, lits := lits, fieldCrcBad := bad })) k (setPass m.slot f.bytes)
      = (setPass m.slot f.bytes, 0) := insertFields_none h
  refine ⟨sat32 (short + 0), lits, bad, ?_⟩
  unfold passFrame gMod
  dsimp only
  rw [hg]
  rw [gMod] at hx
  rw [hx]

theorem countFcs_facts (fcs : Fcs) (j : Nat) : ringOf (countFcs m k fcs) j = ringOf m j ∧ (countFcs m k fcs).out = m.out
    ∧ (fcs = .bad → (countFcs m k fcs).glint.fcsBad = inc32 m.glint.fcsBad)
    ∧ (fcs = .stomped → (countFcs m k fcs).glint.stompSeen = inc32 m.glint.stompSeen) := by
  cases fcs
  · exact ⟨rfl, rfl, nofun, nofun⟩
  · exact ⟨rfl, rfl, fun _ => rfl, nofun⟩
  · exact ⟨rfl, rfl, nofun, fun _ => rfl⟩

theorem departRing_glint : (departRing m k f).glint = m.glint := by
  unfold departRing
  split
  · rfl
  · split <;> rfl

theorem departRing_sent (h : ringOf m k = some r) (hl : r.launching = false) (hb : r.buffer = []) : departRing m k f = emit m (.ring k f) := by
  unfold departRing
  rw [h]
  exact if_neg (by simp [hl, hb])

theorem departRing_held (h : ringOf m k = some r) (hl : r.launching = true) :
    departRing m k f = ringMod m k (fun r => { r with buffer := r.buffer ++ [f] }) := by
  unfold departRing
  rw [h]
  exact if_pos (by simp [hl])

variable (hr : ringOf m k = some r)
include hr

theorem forwardRing_off (h : ringRuns m k = false) : forwardRing m k f = m := by
  unfold forwardRing
  rw [hr]
  exact if_pos (by simp [h])

/-- The lane with one more frame received. -/
def frameSeen (m : Module) (k : Nat) : Module := laneMod m (2 * k) (fun l => { l with received := l.received + 1 })

theorem forwardRing_foreign (h : ringRuns m k = true) (hety : (parseFrame f.bytes).ety ≠ r.etherType) (hptp : (parseFrame f.bytes).ety ≠ 0x88F7) :
    forwardRing m k f = departRing (countFcs (frameSeen m k) k f.fcs) k { f with fcs := fcsOut f.fcs } := by
  unfold forwardRing
  rw [hr]
  exact (if_neg (by simp [h])).trans ((if_neg hptp).trans (if_pos (by simp [isRingFrame, hety])))

theorem forwardRing_pdelay (h : ringRuns m k = true) (hptp : (parseFrame f.bytes).ety = 0x88F7) (hd : isPdelay f.bytes = true) :
    forwardRing m k f = frameSeen m k := by
  unfold forwardRing
  rw [hr]
  exact (if_neg (by simp [h])).trans ((if_pos hptp).trans (if_pos hd))

variable (h : ringRuns m k = true) (hety : (parseFrame f.bytes).ety = r.etherType) (hptp : (parseFrame f.bytes).ety ≠ 0x88F7)
include h hety hptp

theorem forwardRing_ring : forwardRing m k f =
    if (parseFrame f.bytes).ty = 0 ∨ 9 ≤ (parseFrame f.bytes).ty ∨ ((parseFrame f.bytes).ver ≠ 1 ∧ (parseFrame f.bytes).ver ≠ 2) then
      ringMod (frameSeen m k) k (fun r => { r with badHeader := inc32 r.badHeader })
    else if ownFrame m k (parseFrame f.bytes) then frameSeen m k
    else passFrame (frameSeen m k) k f := by
  unfold forwardRing
  rw [hr]
  exact (if_neg (by simp [h])).trans ((if_neg hptp).trans (if_neg (by simp [isRingFrame, hety])))

theorem forwardRing_unknown (hno : ¬ (1 ≤ (parseFrame f.bytes).ty ∧ (parseFrame f.bytes).ty ≤ 8 ∧ ((parseFrame f.bytes).ver = 1 ∨ (parseFrame f.bytes).ver = 2))) :
    forwardRing m k f = ringMod (frameSeen m k) k (fun r => { r with badHeader := inc32 r.badHeader }) :=
  (forwardRing_ring hr h hety hptp).trans (if_pos (by omega))

variable (hknown : 1 ≤ (parseFrame f.bytes).ty ∧ (parseFrame f.bytes).ty ≤ 8 ∧ ((parseFrame f.bytes).ver = 1 ∨ (parseFrame f.bytes).ver = 2))
include hknown

theorem forwardRing_own (hown : ownFrame m k (parseFrame f.bytes) = true) : forwardRing m k f = frameSeen m k :=
  (forwardRing_ring hr h hety hptp).trans ((if_neg (by omega)).trans (if_pos hown))

theorem forwardRing_passes (hown : ownFrame m k (parseFrame f.bytes) = false)
    (hnone : spliceMatch m k (parseFrame (setPass m.slot f.bytes)) true = []) :
    (r.launching = false → r.buffer = [] →
      (forwardRing m k f).out = m.out ++ [.ring k { bytes := setPass m.slot f.bytes, fcs := fcsOut f.fcs }])
    ∧ (r.launching = true → (forwardRing m k f).out = m.out ∧ ∃ r', ringOf (forwardRing m k f) k = some r'
      ∧ r'.buffer = r.buffer ++ [{ bytes := setPass m.slot f.bytes, fcs := fcsOut f.fcs }])
    ∧ (f.fcs = .bad → (forwardRing m k f).glint.fcsBad = inc32 m.glint.fcsBad)
    ∧ (f.fcs = .stomped → (forwardRing m k f).glint.stompSeen = inc32 m.glint.stompSeen) := by
  have hpass : forwardRing m k f = passFrame (frameSeen m k) k f :=
    (forwardRing_ring hr h hety hptp).trans ((if_neg (by omega)).trans (if_neg (by simp [hown])))
  obtain ⟨short, lits, bad, hx⟩ := passFrame_unnamed (m := frameSeen m k) (f := f) hnone
  obtain ⟨hring, hout, hbad, hstomp⟩ := countFcs_facts (m := gMod (frameSeen m k) (fun g =>
    { g with fieldShort := short, lits := lits, fieldCrcBad := bad })) (k := k) f.fcs k
  rw [hpass, hx]
  refine ⟨fun hl hb => ?_, fun hl => ?_, ?_, ?_⟩
  · rw [departRing_sent (hring.trans hr) hl hb]
    exact congrArg (· ++ [Emit.ring k { bytes := setPass m.slot f.bytes, fcs := fcsOut f.fcs }]) hout
  · rw [departRing_held (hring.trans hr) hl]
    exact ⟨hout, _, ringOf_ringMod_same _ (hring.trans hr), rfl⟩
  · rw [departRing_glint]
    exact hbad
  · rw [departRing_glint]
    exact hstomp

end

/-! ### The state of a ring -/

section
variable {m : Module} {k : Nat} {r : Ring}

theorem ringRecord_field : (ringRecord m k).field = (ringMod m k (fun r => { r with changes := inc32 r.changes })).field ∨ ringOf m k = none := by
  unfold ringRecord
  split
  · next h => exact Or.inr h
  · left
    dsimp only
    split
    · exact logEv_field ..
    · rfl

/-- A ring after a change: its CHANGES counts where its state changed (R240). -/
theorem ringOf_ringIfChanged {m' : Module} {a b : Ring} (ha : ringOf m k = some a) (hb : ringOf m' k = some b) :
    ringOf (ringIfChanged m m' k) k = some (if ringState a = ringState b then b else { b with changes := inc32 b.changes }) := by
  unfold ringIfChanged
  rw [ha, hb]
  dsimp only
  split
  · exact hb
  · rcases ringRecord_field (m := m') (k := k) with h | h
    · rw [ringOf_congr h, ringOf_ringMod_same _ hb]
    · rw [hb] at h
      exact absurd h nofun

theorem ringIfChanged_lanes (m' : Module) : (ringIfChanged m m' k).field.lanes = m'.field.lanes := by
  unfold ringIfChanged
  split
  · split
    · rfl
    · rcases ringRecord_field (m := m') (k := k) with h | h
      · rw [h]; rfl
      · rw [ringRecord, h]
  · rfl

end

/-! ### CHECK frames -/

section
variable {m : Module} {k : Nat} {r : Ring}

/-- A ring with one more CHECK frame under way (R239). -/
def checkSent (r : Ring) : Ring := { r with checkSeq := r.checkSeq + 1, checkOut := r.checkOut + 1 }

theorem launchCheck_still (h : ringRuns m k = false) : launchCheck m k = m := by
  unfold launchCheck
  split
  · rfl
  · exact if_pos (by simp [h])

theorem launchCheck_runs (hr : ringOf m k = some r) (h : ringRuns m k = true) : launchCheck m k = launchRing (ringMod m k checkSent) k
    (frameV2 (ringDst k) (moduleMac m.slot k) r.etherType 8 (modFlags m.slot false) 0 0 r.checkSeq (now m) []) := by
  unfold launchCheck
  rw [hr]
  exact if_neg (by simp [h])

theorem ringOf_of_runs (h : ringRuns m k = true) : ∃ r, ringOf m k = some r := by
  unfold ringRuns at h
  cases hr : ringOf m k with
  | none => simp [hr] at h
  | some r => exact ⟨r, rfl⟩

theorem launchCheck_ring (j : Nat) : ringOf (launchCheck m k) j = if j = k ∧ ringRuns m k = true then (ringOf m j).map checkSent else ringOf m j := by
  by_cases h : ringRuns m k = true
  · obtain ⟨r, hr⟩ := ringOf_of_runs h
    rw [launchCheck_runs hr h]
    refine (ringOf_ringMod checkSent j).trans ?_
    simp [h]
  · rw [launchCheck_still (by simpa using h), if_neg (fun hc => h hc.2)]

theorem launchCheck_keeps_runs (j : Nat) : ringRuns (launchCheck m k) j = ringRuns m j := by
  by_cases h : ringRuns m k = true
  · obtain ⟨r, hr⟩ := ringOf_of_runs h
    have hring := launchCheck_ring (m := m) (k := k) j
    rw [launchCheck_runs hr h] at hring ⊢
    unfold ringRuns
    rw [hring]
    split_ifs
    · cases ringOf m j <;> rfl
    · rfl
  · rw [launchCheck_still (by simpa using h)]

theorem launchCheck_out {e : Emit} (he : e ∈ m.out) : e ∈ (launchCheck m k).out := by
  by_cases h : ringRuns m k = true
  · obtain ⟨r, hr⟩ := ringOf_of_runs h
    rw [launchCheck_runs hr h]
    exact List.mem_append_left _ he
  · rwa [launchCheck_still (by simpa using h)]

theorem launchCheck_sends (h : ringRuns m k = true) : ∃ f, Emit.ring k f ∈ (launchCheck m k).out := by
  obtain ⟨r, hr⟩ := ringOf_of_runs h
  rw [launchCheck_runs hr h]
  exact ⟨_, List.mem_append_right _ List.mem_cons_self⟩

/-- CHECK frames on the segments below `n`: each that runs has one more, the others are as before (R239). -/
theorem launchChecks_facts (m : Module) (n : Nat) :
    let m' := (List.range n).foldl launchCheck m
    (∀ k, ringRuns m' k = ringRuns m k) ∧ (∀ k, ringOf m' k = if k < n ∧ ringRuns m k = true then (ringOf m k).map checkSent else ringOf m k)
      ∧ (∀ k < n, ringRuns m k = true → ∃ f, Emit.ring k f ∈ m'.out) := by
  induction n with
  | zero => exact ⟨fun _ => rfl, fun k => (if_neg (by omega)).symm, fun k hk => absurd hk (Nat.not_lt_zero k)⟩
  | succ n ih =>
    obtain ⟨hruns, hring, hout⟩ := ih
    dsimp only at hruns hring hout ⊢
    rw [List.range_succ, List.foldl_append, List.foldl_cons, List.foldl_nil]
    refine ⟨fun k => (launchCheck_keeps_runs k).trans (hruns k), fun k => ?_, fun k hk hrun => ?_⟩
    · rw [launchCheck_ring, hring, hruns]
      by_cases hkn : k = n
      · subst hkn
        rw [if_neg (fun hc : k < k ∧ _ => Nat.lt_irrefl k hc.1)]
        simp
      · rw [if_neg (fun hc => hkn hc.1)]
        exact if_congr (and_congr_left' (by omega)) rfl rfl
    · rcases Nat.lt_succ_iff_lt_or_eq.1 hk with hlt | rfl
      · obtain ⟨f, hf⟩ := hout k hlt hrun
        exact ⟨f, launchCheck_out hf⟩
      · exact launchCheck_sends ((hruns k).trans hrun)

end

/-! ### The events of rings and lanes -/

section
variable {s : State} {sl : Slot} {k : Nat} {r : Ring} {f : Frame}

theorem forward_events (hr : ringOf (modOf s sl) k = some r) :
    let m := modOf s sl
    let rf := parseFrame f.bytes
    let m1 := laneMod m (2 * k) (fun l => { l with received := l.received + 1 })
    let proto : Prop := rf.ety = r.etherType ∧ rf.ety ≠ 0x88F7
    let known : Prop := 1 ≤ rf.ty ∧ rf.ty ≤ 8 ∧ (rf.ver = 1 ∨ rf.ver = 2)
    let fwd : Frame := { bytes := setPass m.slot f.bytes, fcs := fcsOut f.fcs }
    (ringRuns m k = false → Idle (.ringFrameForward sl k f) s)
    ∧ (ringRuns m k = true → proto → known → ownFrame m k rf = true → Becomes (.ringFrameForward sl k f) s sl m1)
    ∧ (ringRuns m k = true → proto → ¬ known →
      Becomes (.ringFrameForward sl k f) s sl (ringMod m1 k (fun r => { r with badHeader := inc32 r.badHeader })))
    ∧ (ringRuns m k = true → proto → known → ownFrame m k rf = false → spliceMatch m k (parseFrame fwd.bytes) true = [] →
      ∃ m', Becomes (.ringFrameForward sl k f) s sl m'
        ∧ (r.launching = false → r.buffer = [] → m'.out = m.out ++ [.ring k fwd])
        ∧ (r.launching = true → m'.out = m.out ∧ ∃ r', ringOf m' k = some r' ∧ r'.buffer = r.buffer ++ [fwd])
        ∧ (f.fcs = .bad → m'.glint.fcsBad = inc32 m.glint.fcsBad) ∧ (f.fcs = .stomped → m'.glint.stompSeen = inc32 m.glint.stompSeen))
    ∧ (ringRuns m k = true → rf.ety ≠ r.etherType → rf.ety ≠ 0x88F7 →
      Becomes (.ringFrameForward sl k f) s sl (departRing (countFcs m1 k f.fcs) k { f with fcs := fcsOut f.fcs }))
    ∧ (ringRuns m k = true → rf.ety = 0x88F7 → isPdelay f.bytes = true → Becomes (.ringFrameForward sl k f) s sl m1)
    ∧ (∃ m', Becomes (.heldFrameRelease sl k) s sl m' ∧ m'.out = m.out ++ r.buffer.map (fun f => .ring k f)
      ∧ ringOf m' k = some { r with launching := false, buffer := [] }) := by
  dsimp only
  refine ⟨fun h => ?_, fun h hp hk ho => ?_, fun h hp hk => ?_, fun h hp hk ho hn => ⟨_, ?_, forwardRing_passes hr h hp.1 hp.2 hk ho hn⟩,
    fun h h1 h2 => ?_, fun h h1 h2 => ?_, ⟨_, becomes_of (exec_heldFrameRelease sl k s) (by simp only [hr]; rfl), rfl, ?_⟩⟩
  · exact idle_of (exec_ringFrameForward sl k f s) (forwardRing_off hr h)
  · exact becomes_of (exec_ringFrameForward sl k f s) (forwardRing_own hr h hp.1 hp.2 hk ho)
  · exact becomes_of (exec_ringFrameForward sl k f s) (forwardRing_unknown hr h hp.1 hp.2 hk)
  · exact becomes_of (exec_ringFrameForward sl k f s) rfl
  · exact becomes_of (exec_ringFrameForward sl k f s) (forwardRing_foreign hr h h1 h2)
  · exact becomes_of (exec_ringFrameForward sl k f s) (forwardRing_pdelay hr h h1 h2)
  · exact ringOf_ringMod_same (m := emits (modOf s sl) (r.buffer.map (fun f => .ring k f))) _ hr

theorem check_events (hr : ringOf (modOf s sl) k = some r) :
    let m := modOf s sl
    let rf := parseFrame f.bytes
    (ringRuns m k = true → f.fcs = .good → rf.ty = 8 → rf.src = moduleMac m.slot k → rf.flags &&& passBit (otherSlot m.slot) ≠ 0 →
      ∃ m' r', Becomes (.checkFrameReturn sl k f) s sl m' ∧ ringOf m' k = some r' ∧ r'.closed = true ∧ r'.checkOut = 0
        ∧ r'.changes = if ringState { r with closed := true } = ringState r then r.changes else inc32 r.changes)
    ∧ (rf.flags &&& passBit (otherSlot m.slot) = 0 → Idle (.checkFrameReturn sl k f) s)
    ∧ (∃ m' r', Becomes (.ringClosedTimeout sl k) s sl m' ∧ ringOf m' k = some r' ∧ r'.closed = false ∧ r'.checkOut = 0
        ∧ r'.checkMissing = sat32 (r.checkMissing + r.checkOut)) := by
  dsimp only
  refine ⟨fun h hgood hty hsrc hpass => ⟨_, _, becomes_of (exec_checkFrameReturn sl k f s) ?_, ringOf_ringIfChanged hr (ringOf_ringMod_same
    (fun r => { r with closed := true, checkMissing := sat32 (r.checkMissing + (r.checkOut - 1)), checkOut := 0 }) hr), ?_⟩, fun hpass => ?_,
    ⟨_, _, becomes_of (exec_ringClosedTimeout sl k s) ?_, ringOf_ringIfChanged hr (ringOf_ringMod_same
      (fun r => { r with closed := false, checkMissing := sat32 (r.checkMissing + r.checkOut), checkOut := 0 }) hr), ?_⟩⟩
  · simp only [hr]
    exact if_neg (by simp [h, hgood, hty, hsrc, hpass])
  · have hstate (x : Nat) (y : Nat) : ringState { r with closed := true, checkMissing := x, checkOut := y } = ringState { r with closed := true } := rfl
    rw [hstate]
    by_cases hc : ringState { r with closed := true } = ringState r
    · rw [if_pos hc.symm, if_pos hc]
      exact ⟨rfl, rfl, rfl⟩
    · rw [if_neg (Ne.symm hc), if_neg hc]
      exact ⟨rfl, rfl, rfl⟩
  · refine idle_of (exec_checkFrameReturn sl k f s) ?_
    simp only [hr]
    exact if_pos (by simp [hpass])
  · simp only [hr]
  · split <;> exact ⟨rfl, rfl, rfl⟩

theorem checkLaunch_events (hs : sends (modOf s sl) = true) : ∃ m', Becomes (.checkFrameLaunch sl) s sl m' ∧ ∀ k r, k < 8 →
    ringOf (modOf s sl) k = some r →
      (ringRuns (modOf s sl) k = true → ringOf m' k = some { r with checkSeq := r.checkSeq + 1, checkOut := r.checkOut + 1 } ∧ ∃ f, .ring k f ∈ m'.out)
      ∧ (ringRuns (modOf s sl) k = false → ringOf m' k = some r) := by
  obtain ⟨-, hring, hout⟩ := launchChecks_facts (modOf s sl) 8
  refine ⟨_, becomes_of (exec_checkFrameLaunch sl s) (if_pos hs), fun k r hk hr => ⟨fun h => ⟨?_, hout k hk h⟩, fun h => ?_⟩⟩
  · rw [hring, if_pos ⟨hk, h⟩, hr]
    rfl
  · rw [hring, if_neg (by simp [h]), hr]

theorem lane_events {lane : Nat} {l : Lane} (hlane : lane < 16) (hl : (modOf s sl).field.lanes[lane]? = some l)
    (hr : ringOf (modOf s sl) (lane / 2) = some r) :
    (powered (modOf s sl) = false → Idle (.ringLaneLockLoss sl lane) s ∧ Idle (.ringLaneLinkUp sl lane) s)
    ∧ (powered (modOf s sl) = true →
      (∃ m' r', Becomes (.ringLaneLockLoss sl lane) s sl m' ∧ ringOf m' (lane / 2) = some r' ∧ r'.held = true
        ∧ m'.field.lanes[lane]? = some { l with up := false, losses := inc32 l.losses })
      ∧ ∃ m' r', Becomes (.ringLaneLinkUp sl lane) s sl m' ∧ ringOf m' (lane / 2) = some r' ∧ m'.field.lanes[lane]? = some { l with up := true }
        ∧ (r'.held = false ↔ if lane % 2 = 0 then r.txUp = true else r.rxUp = true)) := by
  refine ⟨fun h => ⟨?_, ?_⟩, fun h => ⟨?_, ?_⟩⟩
  · exact idle_of (exec_ringLaneLockLoss sl lane s) (if_pos (by simp [h]))
  · exact idle_of (exec_ringLaneLinkUp sl lane s) (if_pos (by simp [h]))
  · have hring := ringOf_ringMod_same (m := laneMod (modOf s sl) lane (fun l => { l with up := false, losses := inc32 l.losses })) (k := lane / 2)
      (fun r => if lane % 2 = 0 then { r with rxUp := false, held := true } else { r with txUp := false, held := true }) hr
    refine ⟨_, _, becomes_of (exec_ringLaneLockLoss sl lane s) (if_neg (by simp [h, hlane])), ringOf_ringIfChanged hr hring, ?_, ?_⟩
    · split_ifs <;> rfl
    · rw [ringIfChanged_lanes]
      exact laneOf_laneMod _ hl
  · have hup := ringOf_ringMod_same (m := laneMod (modOf s sl) lane (fun l => { l with up := true })) (k := lane / 2)
      (fun r => if lane % 2 = 0 then { r with rxUp := true } else { r with txUp := true }) hr
    have hring := ringOf_ringMod_same (fun r => { r with held := !(r.rxUp && r.txUp) }) hup
    refine ⟨_, _, becomes_of (exec_ringLaneLinkUp sl lane s) (if_neg (by simp [h, hlane])), ringOf_ringIfChanged hr hring, ?_, ?_⟩
    · rw [ringIfChanged_lanes]
      exact laneOf_laneMod _ hl
    · split_ifs <;> simp

end

end Sys2Proof.Machine

/-! PROOF. What a module takes up from the drops of its rings and sends to them (R219, R225, R228, R232, R235, R237), and the events of the rings. -/

namespace Sys2Proof.Machine
open Sys2Proof Sys2Proof.Bits Sys2Proof.Safety

/-! ### Take-up -/

section
variable {m p : Module} {k ty id : Nat} {f : Frame} {d : DropCfg} {g : Nat → DropCfg → RFrame → Module}

theorem dropOf_dropMod (h : DropCfg → DropCfg) (hd : dropOf m id = some d) : dropOf (dropMod m id h) id = some (h d) := by
  rw [dropOf] at hd
  rw [dropOf, dropMod, tget_tmod_same, hd, Option.map_some]

theorem takeUp_bad (h : f.fcs ≠ .good) : takeUp m k ty f g = m := if_pos (by simp [h])

theorem takeUp_version (hrun : ringRuns m k = true) (hgood : f.fcs = .good) (hty : (parseFrame f.bytes).ty = ty)
    (hver : (parseFrame f.bytes).ver = 1 ∨ (parseFrame f.bytes).ver = 2) : takeUp m k ty f g = match dropOf m (parseFrame f.bytes).drop with
      | none => countUnknown m k
      | some d =>
        if d.kind != .ring || d.segment != k then countUnknown m k
        else if (parseFrame f.bytes).ver ≠ d.version then countBad m k
        else if macNat (parseFrame f.bytes).src ≠ d.mac then countUnknown m k
        else if !lenFits (parseFrame f.bytes) then countBad m k
        else g (parseFrame f.bytes).drop d (parseFrame f.bytes) :=
  (if_neg (by simp [hrun, hgood, hty])).trans (if_neg (by omega))

theorem takeUp_taken (h : TakenUp m k ty f d) : takeUp m k ty f g = g (parseFrame f.bytes).drop d (parseFrame f.bytes) := by
  obtain ⟨hrun, hgood, hty, hd, hkind, hseg, hver, hv, hmac, hlen⟩ := h
  rw [takeUp_version hrun hgood hty hver, hd]
  exact (if_neg (by simp [hkind, hseg])).trans ((if_neg (by simp [hv])).trans ((if_neg (by simp [hmac])).trans (if_neg (by simp [hlen]))))

theorem holdInput_new {h : Held} (hn : d.held = none ∨ ∃ o, d.held = some o ∧ newer32 h.key o.key = true) :
    holdInput m id d h = dropMod m id (fun d => { d with held := some h }) := by
  unfold holdInput
  rcases hn with hn | ⟨o, ho, hn⟩
  · rw [hn]
  · rw [ho]
    exact if_pos hn

theorem holdInput_again {h o : Held} (ho : d.held = some o) (heq : o.key = h.key) :
    holdInput m id d h = dropMod m id (fun d => { d with duplicates := inc32 d.duplicates }) := by
  unfold holdInput
  rw [ho]
  exact (if_neg (by simp [heq, newer32_self])).trans (if_pos heq.symm)

theorem holdInput_old {h o : Held} (ho : d.held = some o) (hne : o.key ≠ h.key) (hn : newer32 h.key o.key = false) : holdInput m id d h = m := by
  unfold holdInput
  rw [ho]
  exact (if_neg (by simp [hn])).trans (if_neg (Ne.symm hne))

variable {n last : W32} {te : W64} {ok dup : Bool}

theorem syncEvent_unnamed (h : icalNamed m id = false) :
    syncEvent m p id d n te ok dup = dropMod m id (fun d => { d with syncIgnored := inc32 d.syncIgnored }) := if_pos (by simp [h])

theorem syncEvent_new (h : icalNamed m id = true) (hok : ok = true) :
    syncEvent m p id d n te ok dup = icalDropEvent (dropMod m id (fun d => { d with lastEvent := some n })) p id te :=
  (if_neg (by simp [h])).trans (if_pos (by simp [hok]))

theorem syncEvent_again (h : icalNamed m id = true) (hlast : d.lastEvent = some last) (hok : ok = false) (hdup : dup = true) :
    syncEvent m p id d n te ok dup = dropMod m id (fun d => { d with duplicates := inc32 d.duplicates }) :=
  (if_neg (by simp [h])).trans ((if_neg (by simp [hok, hlast])).trans (if_pos hdup))

theorem syncEvent_old (h : icalNamed m id = true) (hlast : d.lastEvent = some last) (hok : ok = false) (hdup : dup = false) :
    syncEvent m p id d n te ok dup = m :=
  (if_neg (by simp [h])).trans ((if_neg (by simp [hok, hlast])).trans (if_neg (by simp [hdup])))

end

section
variable {s : State} {sl : Slot} {k : Nat} {f : Frame} {d : DropCfg}

theorem inFrame_events (h : TakenUp (modOf s sl) k 2 f d) :
    let m := modOf s sl
    let rf := parseFrame f.bytes
    (d.held = none ∨ (∃ o, d.held = some o ∧ newer32 rf.seq o.key = true) →
      Becomes (.inFrameReceive sl k f) s sl (dropMod m rf.drop (fun d => { d with held := some { key := rf.seq, time := rf.time, data := rf.data } })))
    ∧ (∀ o, d.held = some o → o.key = rf.seq →
      Becomes (.inFrameReceive sl k f) s sl (dropMod m rf.drop (fun d => { d with duplicates := inc32 d.duplicates })))
    ∧ (∀ o, d.held = some o → o.key ≠ rf.seq → newer32 rf.seq o.key = false → Idle (.inFrameReceive sl k f) s) :=
  ⟨fun hn => becomes_of (exec_inFrameReceive sl k f s) ((takeUp_taken h).trans (holdInput_new hn)),
    fun _ ho heq => becomes_of (exec_inFrameReceive sl k f s) ((takeUp_taken h).trans (holdInput_again ho heq)),
    fun _ ho hne hn => idle_of (exec_inFrameReceive sl k f s) ((takeUp_taken h).trans (holdInput_old ho hne hn))⟩

theorem inFrame_refused (hrun : ringRuns (modOf s sl) k = true) (hgood : f.fcs = .good) (hty : (parseFrame f.bytes).ty = 2)
    (hver : (parseFrame f.bytes).ver = 1 ∨ (parseFrame f.bytes).ver = 2) :
    let m := modOf s sl
    let rf := parseFrame f.bytes
    (dropOf m rf.drop = none → Becomes (.inFrameReceive sl k f) s sl (countUnknown m k))
    ∧ (dropOf m rf.drop = some d → d.kind = .ring → d.segment = k → rf.ver ≠ d.version → Becomes (.inFrameReceive sl k f) s sl (countBad m k))
    ∧ (dropOf m rf.drop = some d → d.kind = .ring → d.segment = k → rf.ver = d.version → macNat rf.src ≠ d.mac →
      Becomes (.inFrameReceive sl k f) s sl (countUnknown m k)) := by
  refine ⟨fun hd => ?_, fun hd hk hseg hv => ?_, fun hd hk hseg hv hmac => ?_⟩ <;>
    refine becomes_of (exec_inFrameReceive sl k f s) ((takeUp_version hrun hgood hty hver).trans ?_) <;> rw [hd]
  · exact (if_neg (by simp [hk, hseg])).trans (if_pos hv)
  · exact (if_neg (by simp [hk, hseg])).trans ((if_neg (by simp [hv])).trans (if_pos hmac))

theorem syncFrame_events (h : TakenUp (modOf s sl) k 5 f d) :
    let m := modOf s sl
    let p := modOf s (otherSlot sl)
    let rf := parseFrame f.bytes
    (icalNamed m rf.drop = false → Becomes (.syncFrameReceive sl k f) s sl (dropMod m rf.drop (fun d => { d with syncIgnored := inc32 d.syncIgnored })))
    ∧ (∀ last, icalNamed m rf.drop = true → d.lastEvent = some last →
      (1 ≤ dist32 rf.seq last → dist32 rf.seq last ≤ 65536 → Becomes (.syncFrameReceive sl k f) s sl
        (icalDropEvent (dropMod m rf.drop (fun d => { d with lastEvent := some rf.seq })) p rf.drop rf.time))
      ∧ (rf.seq = last → Becomes (.syncFrameReceive sl k f) s sl (dropMod m rf.drop (fun d => { d with duplicates := inc32 d.duplicates })))
      ∧ (65536 < dist32 rf.seq last → Idle (.syncFrameReceive sl k f) s)) := by
  refine ⟨fun hno => ?_, fun last hn hl => ⟨fun h1 h2 => ?_, fun heq => ?_, fun hfar => ?_⟩⟩
  · exact becomes_of_pair (exec_syncFrameReceive sl k f s) ((takeUp_taken h).trans (syncEvent_unnamed hno))
  · exact becomes_of_pair (exec_syncFrameReceive sl k f s) ((takeUp_taken h).trans (syncEvent_new hn (by simp [hl, h1, h2])))
  · exact becomes_of_pair (exec_syncFrameReceive sl k f s) ((takeUp_taken h).trans (syncEvent_again hn hl (by simp [hl, heq, dist32]) (by simp [hl, heq])))
  · have hne : (parseFrame f.bytes).seq ≠ last := fun heq => by simp [heq, dist32] at hfar
    exact idle_of_pair (exec_syncFrameReceive sl k f s) ((takeUp_taken h).trans
      (syncEvent_old hn hl (by simp [hl, Nat.not_le.2 hfar]) (by simp [hl, hne])))

end

/-! ### What a module sends to a drop -/

section
variable {m p : Module} {id : Nat} {d : DropCfg} {r : Ring}

theorem sendLeadOnly_field (seg : Nat) (b : Bytes) : (sendLeadOnly m p seg b).field = m.field := by
  unfold sendLeadOnly
  dsimp only
  split
  · split <;> rfl
  · rfl

theorem dropOf_sendAssign (hd : dropOf m id = some d) (hr : ringOf m d.segment = some r) :
    dropOf (sendAssign m p id) id = some { d with assignCtr := d.assignCtr + 1 } := by
  unfold sendAssign
  rw [hd]
  dsimp only
  rw [hr]
  exact dropOf_dropMod _ ((congrArg (fun x : Field => tget x.drops id) (sendLeadOnly_field ..)).trans hd)

/-- An ASSIGN counts itself and changes nothing else of the drop (R237). -/
theorem dropOf_sendAssign_keeps (hd : dropOf m id = some d) : ∃ c, dropOf (sendAssign m p id) id = some { d with assignCtr := c } := by
  cases hr : ringOf m d.segment with
  | none =>
    refine ⟨d.assignCtr, ?_⟩
    unfold sendAssign
    rw [hd]
    dsimp only
    rw [hr]
    exact hd
  | some r => exact ⟨_, dropOf_sendAssign hd hr⟩

theorem acyFinish_field (status : Nat) (a : AcyMsg) : (acyFinish m status a).field = m.field := by
  unfold acyFinish
  split
  · rfl
  · exact finish_field ..

theorem sendAcy_waits (hd : dropOf m id = some d) (h : d.st ≠ .online ∨ sends m = false ∨ warmShadow m = true) (all : Bool) :
    sendAcy m p id all = m := by
  unfold sendAcy
  rw [hd]
  exact if_pos (by rcases h with h | h | h <;> simp [h])

/-- The messages of a drop after an acknowledgement. -/
def ackTaken (seq : W32) (d : DropCfg) : DropCfg :=
  { d with
    acyPending := d.acyPending.filter (fun a => !atOrBelow a.seq seq)
    acyAcked := if newer32 seq d.acyAcked then seq else d.acyAcked }

/-- An acknowledgement of a drop that is not ONLINE sends nothing on (R232). -/
theorem dropOf_acyAcked (hd : dropOf m id = some d) (hst : d.st ≠ .online) (seq : W32) :
    dropOf (acyAcked m p id seq) id = some (ackTaken seq d) := by
  have hfold : ((d.acyPending.filter (fun a => atOrBelow a.seq seq)).foldl (fun z a => acyFinish z 0 a) (dropMod m id (ackTaken seq))).field
      = (dropMod m id (ackTaken seq)).field := foldl_keeps (·.field) _ (fun z a => acyFinish_field 0 a) _ _
  have hdrop := (congrArg (fun x : Field => tget x.drops id) hfold).trans (dropOf_dropMod (m := m) (ackTaken seq) hd)
  unfold acyAcked
  rw [hd]
  refine Eq.trans ?_ hdrop
  refine congrArg (fun z => dropOf z id) ?_
  exact sendAcy_waits hdrop (Or.inl hst) false

theorem chooseVersion_some {v c : Nat} (h : bit v 0 = true ∨ bit v 1 = true ∧ c = 2) :
    chooseVersion v c = some (if bit v 1 = true ∧ 2 ≤ c then 2 else 1) := by
  unfold chooseVersion
  by_cases h2 : bit v 1 = true ∧ 2 ≤ c
  · rw [if_pos h2, if_pos (by simp [h2])]
  · rw [if_neg h2, if_neg (by simpa using h2)]
    refine if_pos (h.resolve_right (fun hc => h2 ⟨hc.1, by omega⟩))

/-- An assignment that begins (R237). -/
theorem startAssign_begins (hd : dropOf m id = some d) (mac : Nat) (applied : W32)
    (hv : bit d.versions 0 = true ∨ bit d.versions 1 = true ∧ d.ceiling = 2) : ∃ d', dropOf (startAssign m p id mac applied) id = some d'
      ∧ d'.st = .negotiating ∧ d'.assigning = true ∧ d'.mac = mac ∧ d'.version = if bit d.versions 1 = true ∧ 2 ≤ d.ceiling then 2 else 1 := by
  unfold startAssign
  rw [hd]
  dsimp only
  rw [chooseVersion_some hv]
  dsimp only
  generalize (if bit d.versions 1 = true ∧ 2 ≤ d.ceiling then 2 else 1) = v
  have hacked := dropOf_acyAcked (p := p) (dropOf_dropMod (m := m) (fun d =>
    { d with
      st := .negotiating, mac := mac, version := v, assigning := true, onlineAt := none
      acyNext := if newer32 (applied + 1) d.acyNext then applied + 1 else d.acyNext }) hd) nofun applied
  split
  · obtain ⟨c, hc⟩ := dropOf_sendAssign_keeps (p := p) hacked
    exact ⟨_, hc, rfl, rfl, rfl, rfl⟩
  · exact ⟨_, hacked, rfl, rfl, rfl, rfl⟩

/-- One message on its ring, in a pair that is warm or not (R232). -/
def acyLaunch (m p : Module) (id : Nat) (d : DropCfg) (x : Module) (a : AcyMsg) : Module :=
  if m.pair.mode = .warm then sendLeadOnly x p d.segment (acyFrame m d.segment id d a)
  else launchRing x d.segment (acyFrame m d.segment id d a)

theorem sendAcy_all (hd : dropOf m id = some d) (hk : d.kind = .ring) (hst : d.st = .online) (hs : sends m = true) (hw : warmShadow m = false) :
    sendAcy m p id true = dropMod ((d.acyPending.take 8).foldl (acyLaunch m p id d) m) id (fun d =>
      { d with acyPending := d.acyPending.mapIdx (fun i a => if i < 8 then { a with sent := true } else a) }) := by
  have hdue : (d.acyPending.take 8).filter (fun a => true || !a.sent) = d.acyPending.take 8 := List.filter_eq_self.2 (fun _ _ => rfl)
  unfold sendAcy
  rw [hd]
  refine (if_neg (by simp [hk, hst, hs, hw])).trans ?_
  dsimp only
  rw [hdue]
  rfl

theorem acyLaunches_field (l : List AcyMsg) (x : Module) : (l.foldl (acyLaunch m p id d) x).field = x.field :=
  foldl_keeps (·.field) _ (fun y a => by
    unfold acyLaunch
    split
    · exact sendLeadOnly_field ..
    · rfl) l x

theorem acyLaunches_out (hmode : m.pair.mode = .inStep) (l : List AcyMsg) (x : Module) : ∃ fs : List Frame,
    (l.foldl (acyLaunch m p id d) x).out = x.out ++ fs.map (fun f => .ring d.segment f) ∧ fs.length = l.length := by
  induction l generalizing x with
  | nil => exact ⟨[], (List.append_nil _).symm, rfl⟩
  | cons a l ih =>
    have hone : acyLaunch m p id d x a = launchRing x d.segment (acyFrame m d.segment id d a) := if_neg (by simp [hmode])
    obtain ⟨fs, hout, hlen⟩ := ih (acyLaunch m p id d x a)
    refine ⟨{ bytes := (insertFields x d.segment (acyFrame m d.segment id d a)).1 } :: fs, ?_, by simp [hlen]⟩
    rw [List.foldl_cons, hout, hone]
    exact List.append_assoc ..

end

section
variable {s : State} {sl : Slot} {k : Nat} {f : Frame} {d : DropCfg}

/-- What a HELLO tells of a drop (R236). -/
def helloTaken (rf : RFrame) (d : DropCfg) : DropCfg :=
  { d with
    family := w32 (be rf.data 12 4)
    versions := byteAt rf.data 0
    channels := be rf.data 2 2
    wrapUp := bit (byteAt rf.data 1) 0
    wrapDown := bit (byteAt rf.data 1) 1 }

theorem hello_events (hrun : ringRuns (modOf s sl) k = true) (hgood : f.fcs = .good) (hty : (parseFrame f.bytes).ty = 6)
    (hver : (parseFrame f.bytes).ver = 1) (hlen : 24 ≤ (parseFrame f.bytes).data.length) (hd : dropOf (modOf s sl) (parseFrame f.bytes).drop = some d)
    (hk : d.kind = .ring) (hseg : d.segment = k) :
    let m := modOf s sl
    let rf := parseFrame f.bytes
    let v := byteAt rf.data 0
    (d.st = .online → macNat rf.src ≠ d.mac → Becomes (.helloReceive sl k f) s sl (dupDrop m k rf.drop rf.src))
    ∧ (isLead m = false → d.st ≠ .online → ∃ m', Becomes (.helloReceive sl k f) s sl m' ∧ dropOf m' rf.drop = some (helloTaken rf d))
    ∧ (isLead m = true → (d.st = .absent ∨ d.st = .offline) → (bit v 0 = true ∨ bit v 1 = true ∧ d.ceiling = 2) →
      ∃ m' d', Becomes (.helloReceive sl k f) s sl m' ∧ dropOf m' rf.drop = some d' ∧ d'.st = .negotiating ∧ d'.assigning = true
        ∧ d'.mac = macNat rf.src ∧ d'.version = if bit v 1 = true ∧ 2 ≤ d.ceiling then 2 else 1) := by
  have hgo (x : Module) (hx : (if d.st = .online ∧ macNat (parseFrame f.bytes).src ≠ d.mac
        then dupDrop (modOf s sl) k (parseFrame f.bytes).drop (parseFrame f.bytes).src
        else if isLead (modOf s sl)
        then helloAtLead (dropMod (modOf s sl) (parseFrame f.bytes).drop (helloTaken (parseFrame f.bytes))) (modOf s (otherSlot sl))
          (parseFrame f.bytes).drop d (macNat (parseFrame f.bytes).src) (bit (byteAt (parseFrame f.bytes).data 1) 2)
          (d.st != .absent && (w32 (be (parseFrame f.bytes).data 12 4) != d.family || byteAt (parseFrame f.bytes).data 0 != d.versions))
          (w32 (be (parseFrame f.bytes).data 4 4))
        else dropMod (modOf s sl) (parseFrame f.bytes).drop (helloTaken (parseFrame f.bytes))) = x) : Becomes (.helloReceive sl k f) s sl x := by
    refine becomes_of_pair (exec_helloReceive sl k f s) ?_
    unfold helloRing
    refine (if_neg (by simp [hrun, hgood, hty])).trans ((if_neg (by simp [hver, hlen])).trans ?_)
    rw [hd]
    exact (if_neg (by simp [hk, hseg])).trans hx
  refine ⟨fun hon hmac => ?_, fun hlead hno => ?_, fun hlead hst hv => ?_⟩
  · exact hgo _ (if_pos ⟨hon, hmac⟩)
  · exact ⟨_, hgo _ ((if_neg (fun h => hno h.1)).trans (if_neg (by simp [hlead]))), dropOf_dropMod _ hd⟩
  · obtain ⟨d', hd'⟩ := startAssign_begins (p := modOf s (otherSlot sl)) (dropOf_dropMod (helloTaken (parseFrame f.bytes)) hd)
      (macNat (parseFrame f.bytes).src) (w32 (be (parseFrame f.bytes).data 4 4)) hv
    refine ⟨_, d', hgo _ ((if_neg (by rcases hst with h | h <;> simp [h])).trans ((if_pos hlead).trans ?_)), hd'⟩
    unfold helloAtLead
    rcases hst with h | h <;> rw [h]

end

section
variable {s : State} {sl : Slot} {drop : Nat} {d : DropCfg} {r : Ring}

theorem sendDrop_events (hd : dropOf (modOf s sl) drop = some d) (hr : ringOf (modOf s sl) d.segment = some r) (hk : d.kind = .ring) :
    let m := modOf s sl
    let p := modOf s (otherSlot sl)
    (d.assigning = true → isLead m = true → m.pair.window = false → sends m = true →
      Becomes (.assignRetransmit sl drop) s sl (sendAssign m p drop) ∧ dropOf (sendAssign m p drop) drop = some { d with assignCtr := d.assignCtr + 1 })
    ∧ (d.assigning = false → Idle (.assignRetransmit sl drop) s)
    ∧ ((d.st ≠ .online ∨ sends m = false ∨ warmShadow m = true) → Idle (.acyRetransmit sl drop) s)
    ∧ (d.st = .online → sends m = true → warmShadow m = false → ∃ m', Becomes (.acyRetransmit sl drop) s sl m'
      ∧ dropOf m' drop = some { d with acyPending := d.acyPending.mapIdx (fun i a => if i < 8 then { a with sent := true } else a) }
      ∧ (m.pair.mode = .inStep → ∃ fs : List Frame, m'.out = m.out ++ fs.map (fun f => .ring d.segment f) ∧ fs.length = min 8 d.acyPending.length)) := by
  refine ⟨fun ha hlead hwin hs => ⟨?_, dropOf_sendAssign hd hr⟩, fun ha => ?_, fun h => ?_, fun hst hs hw =>
    ⟨_, becomes_of_pair (exec_acyRetransmit sl drop s) (sendAcy_all hd hk hst hs hw), ?_, fun hmode => ?_⟩⟩
  · exact becomes_of_pair (exec_assignRetransmit sl drop s) (by simp only [hd]; exact if_pos (by simp [ha, hlead, hwin, hs, hk]))
  · exact idle_of_pair (exec_assignRetransmit sl drop s) (by simp only [hd]; exact if_neg (by simp [ha]))
  · exact idle_of_pair (exec_acyRetransmit sl drop s) (sendAcy_waits hd h true)
  · exact dropOf_dropMod _ ((congrArg (fun x : Field => tget x.drops drop) (acyLaunches_field ..)).trans hd)
  · obtain ⟨fs, hout, hlen⟩ := acyLaunches_out (p := modOf s (otherSlot sl)) (id := drop) (d := d) hmode (d.acyPending.take 8) (modOf s sl)
    exact ⟨fs, hout, hlen.trans List.length_take⟩

theorem delivery_events (hd : dropOf (modOf s sl) drop = some d) (seq : W32) :
    let m := modOf s sl
    (d.acyPending.find? (fun a => a.seq == seq && a.cmd.isSome && a.sent) = none → Idle (.acyDeliveryTimeout sl drop seq) s)
    ∧ (∀ a qp c, d.acyPending.find? (fun a => a.seq == seq && a.cmd.isSome && a.sent) = some a → a.cmd = some (qp, c) →
      Becomes (.acyDeliveryTimeout sl drop seq) s sl
        (dropMod (finish m .work 0x0407 { c with qp := qp } 3 0x8401 0 (leBytes 4 a.seq.toNat ++ zeros 4)) drop (fun d =>
          { d with acyPending := d.acyPending.map (fun x => if x.seq = seq then { x with cmd := none } else x) }))) := by
  refine ⟨fun h => ?_, fun a qp c h hc => ?_⟩
  · exact idle_of (exec_acyDeliveryTimeout sl drop seq s) (by simp only [hd, h])
  · refine becomes_of (exec_acyDeliveryTimeout sl drop seq s) ?_
    simp only [hd, h, acyFinish, hc]
    rfl

end

/-! ### Time on the ring -/

theorem txStamp_field (m : Module) (port : Nat) : (txStamp m port).1.field = m.field := by
  unfold txStamp
  dsimp only
  split
  · rfl
  · exact logEv_field ..

theorem spliceTimeout_event {s : State} {sl : Slot} {entry : Nat} {e : SpliceEnt}
    (hfind : (spliceMap (activePart (modOf s sl).glint 4)).find? (fun x => x.1 == entry && !x.2.output) = some (entry, e))
    (hrun : glintRuns (modOf s sl) = true) : ∃ m', Becomes (.spliceFieldTimeout sl entry) s sl m'
      ∧ m'.glint.fieldTimeout = inc32 (modOf s sl).glint.fieldTimeout
      ∧ (e.clr = false → e.vbit ≠ 0xFFFF → m'.glint.lits = litSet (modOf s sl).glint.lits (0x200 + e.vbit) false)
      ∧ (e.clr = true → e.vbit = 0xFFFF → m'.glint.lits = litField (modOf s sl).glint.lits (0x200 + e.bit0) (8 * e.len) 0) := by
  refine ⟨_, becomes_of (exec_spliceFieldTimeout sl entry s) (by simp only [hfind]; exact if_neg (by simp [hrun])), rfl, fun hc hv => ?_, fun hc hv => ?_⟩
  · exact (if_neg (by simp [hc])).trans (if_neg hv)
  · refine (if_pos hc).trans ?_
    rw [if_pos hv]

/-- Settles O38. -/
theorem ringEvents : Obligations.RingEvents := by
  unfold Obligations.RingEvents
  intro s sl
  dsimp only
  refine ⟨fun k f r hr => forward_events hr, fun entry e hfind hrun => spliceTimeout_event hfind hrun, fun k f d h => inFrame_events h,
    fun k f d hrun hgood hty hver => inFrame_refused hrun hgood hty hver, fun k f hbad => ⟨?_, ?_, ?_, ?_, ?_⟩, fun k f d h => ⟨fun hlead => ?_,
      fun hlead hlink => ?_⟩, fun k f d h => syncFrame_events h, fun k f d hrun hgood hty hver hlen hd hk hseg => hello_events hrun hgood hty hver hlen hd hk hseg,
    fun drop d r hd hr hk => ?_, fun hs => ?_, fun hs => checkLaunch_events hs, fun k f r hr => check_events hr,
    fun lane l r hlane hl hr => lane_events hlane hl hr, fun lane delay l hlane hl hfw => ⟨_, becomes_of (exec_pdelayMeasure sl lane delay s)
      (if_neg ?_), ?_, List.mem_append_right _ List.mem_cons_self⟩, fun lane delay hfw => ?_, fun hs hlead hwin => ?_, fun h => ?_⟩
  · exact idle_of (exec_inFrameReceive sl k f s) (takeUp_bad hbad)
  · exact idle_of_pair (exec_acyAckReceive sl k f s) (takeUp_bad hbad)
  · exact idle_of_pair (exec_syncFrameReceive sl k f s) (takeUp_bad hbad)
  · exact idle_of_pair (exec_helloReceive sl k f s) (if_pos (by simp [hbad]))
  · refine idle_of (exec_checkFrameReturn sl k f s) ?_
    dsimp only
    split
    · rfl
    · exact if_pos (by simp [hbad])
  · exact becomes_of_pair (exec_acyAckReceive sl k f s) ((takeUp_taken h).trans (if_neg (by simp [hlead])))
  · exact becomes_of_pair (exec_acyAckReceive sl k f s) ((takeUp_taken h).trans (if_pos (by simp [hlead, hlink])))
  · obtain ⟨h1, h2, h3, h4⟩ := sendDrop_events hd hr hk
    exact ⟨h1, h2, h3, h4, fun seq => (delivery_events hd seq).1, fun seq => (delivery_events hd seq).2⟩
  · exact idle_of (exec_checkFrameLaunch sl s) (if_neg (by simp [hs]))
  · simp [hfw, hlane]
  · have hlanes := congrArg Field.lanes (txStamp_field (laneMod (modOf s sl) lane (fun l => { l with delay := delay })) lane)
    exact (congrArg (fun x : List Lane => x[lane]?) hlanes).trans (laneOf_laneMod _ hl)
  · exact idle_of (exec_pdelayMeasure sl lane delay s) (if_pos (by simp [hfw]))
  · exact becomes_of (exec_ringPtpSyncSend sl s) (if_pos (by simp [hs, hlead, hwin]))
  · exact idle_of (exec_ringPtpSyncSend sl s) (if_neg (by rcases h with h | h | h <;> simp [h]))

end Sys2Proof.Machine
